-- ==== Sys2Proof/Word.lean ====
section
/-! DEFINITION. The word types of the ZC-740 and their plainest arithmetic (00 R8, 03 R48, 04 R66). -/

namespace Sys2Proof

/-- One byte of memory (R8). -/
abbrev Byte := BitVec 8
/-- A 32-bit word: a syllable (R22), a vector lane (R48). -/
abbrev W32 := BitVec 32
/-- A 64-bit word: a scalar register, a predicate, an address (R48). -/
abbrev W64 := BitVec 64
/-- A vector register of 64 lanes of 32 bits (R48). -/
abbrev VReg := BitVec 2048
/-- One row of an accumulator: 128 FP32 columns (R50). -/
abbrev AccRow := BitVec 4096
/-- One row of a stage or of a latch: up to 256 bytes (R202, R203). -/
abbrev ByteRow := BitVec 2048
/-- A 6-bit register field (R24). -/
abbrev Reg := BitVec 6
/-- A 3-bit predicate field (R26). -/
abbrev PReg := BitVec 3

end Sys2Proof
end

