-- ==== Sys2Proof/Config.lean ====
section
/-! DEFINITION. What the part fixes without the spec giving its value: the free values (R11) and the unknown functions of
the device. Every opaque constant here has no body: no proof sees what it is. Each is listed in notes/assumptions. -/

namespace Sys2Proof.Config

/-- Device time (ns) that passes with the n-th tick of the model; the manual fixes no cycle counts (DESIGN CHOICE, log 5). -/
opaque elapse : Nat → Nat
/-- Which of the strands that can issue comes next, and which of the events that can happen (tick): the manual orders agents only
by its rules (DESIGN CHOICE, log 5). -/
opaque choice : Nat → Nat
/-- Undefined byte of a scratchpad at kernel entry (R51, R11): tick of the entry, key of the byte (DESIGN CHOICE, log 6). -/
opaque spadByte : Nat → Nat → BitVec 8
/-- Undefined row of a latch at kernel entry (R50, R11): tick, latch, row (DESIGN CHOICE, log 6). -/
opaque latchRow : Nat → Nat → Nat → BitVec 2048
/-- Undefined row of a stage at kernel entry (R50, R11): tick, stage, row (DESIGN CHOICE, log 6). -/
opaque stageRow : Nat → Nat → Nat → BitVec 2048
/-- Undefined row of an accumulator at kernel entry (R50, R11): tick, accumulator, row (DESIGN CHOICE, log 6). -/
opaque accRow : Nat → Nat → Nat → BitVec 4096
/-- A byte that may hold either of two values (R35, R212, R217, R337): tick, index; true takes the newer (DESIGN CHOICE, log 7). -/
opaque either : Nat → Nat → Bool
/-- Value of an allowance counter after a store the manual forbids (R284): tick (DESIGN CHOICE, log 8). -/
opaque counterAfterStore : Nat → Nat
/-- The SHA3-512 function over bytes (R378), whose definition the manual does not give (DESIGN CHOICE, log 9). -/
opaque sha3 : List (BitVec 8) → BitVec 512
/-- The ML-DSA-87 signature of a report under the device's identity key (R378): 4,627 bytes, as index to byte (DESIGN CHOICE, log 9). -/
opaque signatureByte : List (BitVec 8) → Nat → BitVec 8
/-- Part serial number in an ATTEST report (R378), 16 bytes (DESIGN CHOICE, log 9). -/
opaque serialNumber : BitVec 128
/-- SHA3-512 hash of the device's public key (R378) (DESIGN CHOICE, log 9). -/
opaque publicKeyHash : BitVec 512
/-- MEAS after the firmware that was measured at bring-up (R378) (DESIGN CHOICE, log 9). -/
opaque bootMeasurement : BitVec 512
/-- Reading of a sensor in thousandths (R372 item 4): tick, sensor (DESIGN CHOICE, log 9). -/
opaque sensor : Nat → Nat → BitVec 64
/-- Number of supply rails with a current sensor (R365, R372 item 4) (DESIGN CHOICE, log 9). -/
opaque rails : Nat
/-- MASK of a trap record where the manual states none: a fetch fault, MACHINE, LOCKSTEP (R220): tick (DESIGN CHOICE, log 17). -/
opaque openMask : Nat → BitVec 8
/-- A byte that a read pending at a failed home lands, with poison (R337): tick, address (DESIGN CHOICE, log 14). -/
opaque lostByte : Nat → Nat → BitVec 8

/-- A byte of a frame that is mapped both row-local and otherwise (R339, R11): tick, address (DESIGN CHOICE, log 24). -/
opaque mixedByte : Nat → Nat → BitVec 8

/-- Base of the reserved HBM of the model: the top 16 GiB of die 3's range (DESIGN CHOICE, log 11, R372 item 6). -/
def reservedBase : Nat := 0x00BC00000000
/-- End of the reserved HBM (one past). -/
def reservedEnd : Nat := 0x00C000000000
/-- Journal ring (R373): 65,536 records of 256 bytes. -/
def journalBase : Nat := reservedBase
/-- First context save area (R226): 1,024 areas of 9 MiB at 10 MiB steps, 2 MiB aligned. -/
def saveBase : Nat := reservedBase + 0x10000000
/-- First gang record (R383): 8 KiB each. -/
def gangBase : Nat := reservedBase + 0x300000000
/-- Page-table pool (R371): tables of 4 KiB. -/
def poolBase : Nat := reservedBase + 0x380000000

/-- FADDR of POISON where a syllable reads a poisoned %fmt, for which 12 R222 gives no number (DESIGN CHOICE, log 74). -/
opaque openFaddr : Nat → BitVec 64

end Sys2Proof.Config
end

