-- ==== Sys2Proof/Syntax.lean ====
section
/-! DEFINITION. The instructions and events of the ZC-740: one constructor of Instr per row of spec/opcode_table.json.
The rows with an encoding are the syllables of 02 R36 and R37, their operands the fields of the encoding less the stop bit.
The rows without an encoding are events, whose operands say which agent of the device they befall and, for an event that
comes from outside the device (host, firmware, environment, fabric peer), what it brings. -/

namespace Sys2Proof

/-- A compute die (00 R2). -/
abbrev DieId := Fin 4

/-- A cluster of a die (00 R2). -/
structure ClusterId where
  die : DieId
  cluster : Fin 32
  deriving DecidableEq, Repr

/-- A hardware context of a cluster (00 R2). -/
structure CtxId where
  die : DieId
  cluster : Fin 32
  ctx : Fin 8
  deriving DecidableEq, Repr

/-- A core of a cluster (00 R2). -/
structure CoreId where
  die : DieId
  cluster : Fin 32
  core : Fin 4
  deriving DecidableEq, Repr

/-- A strand: one context on one core (00 R4). -/
structure StrandId where
  die : DieId
  cluster : Fin 32
  ctx : Fin 8
  core : Fin 4
  deriving DecidableEq, Repr

/-- A tag word: of a scratchpad, or a sync word of a memory-side page by physical address (14 R246). -/
inductive TagWord where
  | spad (o : CoreId) (off : Nat)
  | sync (pa : Nat)
  deriving DecidableEq, Repr

/-- Place of one context of a gang, as the control core chooses it (18 R309, 12 R225): clusters in gang order. -/
structure Placement where
  cluster : Fin 32
  ctx : Fin 8
  pbase : BitVec 5
  deriving DecidableEq, Repr

/-- A protected granule or entry that a soft error or a scrubber meets (22 R354, R359). -/
inductive Granule where
  | regG (t : StrandId) (n : Reg)
  | regV (t : StrandId) (n : Reg)
  | regK (t : StrandId) (n : Reg)
  | replay (t : StrandId) (n : Nat)
  | queue (t : StrandId)
  | gsb (t : StrandId) (n : Nat)
  | latch (o : CoreId) (w : Fin 4) (row : Nat)
  | stage (o : CoreId) (n : Fin 2) (row : Nat)
  | acc (o : CoreId) (n : Fin 2) (row : Nat)
  | spad (o : CoreId) (off : Nat)
  | ccData (l : ClusterId) (line : Nat)
  | ccTag (l : ClusterId) (line : Nat)
  | l2 (e : DieId) (line : Nat) (sector : Fin 4)
  | tags (e : DieId) (slice : Fin 16) (both : Bool)
  | copyQueue (o : CoreId) (n : Fin 8)
  | msQueue (o : CoreId)
  | linkQueue (p : Fin 16) (send : Bool)
  | hbm (pa : Nat)
  | interposer (e : DieId)
  | link (p : Fin 16)
  deriving DecidableEq, Repr

/-- A register that software, firmware or the host writes and that has no row of its own (00 R10). -/
inductive RegSel where
  | cohctl (e : DieId)
  | salvbase (e : DieId)
  | salvsize (e : DieId)
  | grbase (e : DieId)
  | grsize (e : DieId)
  | grroot (e : DieId)
  | grstat (e : DieId)
  | bmem (e : DieId) (cls : Fin 32) (stack : Fin 3)
  | blnk (e : DieId) (cls : Fin 32) (port : Fin 4)
  | biss (e : DieId) (cls : Fin 32) (cluster : Fin 32)
  | bused (e : DieId) (cls : Fin 32)
  | elglost (e : DieId) (log : Fin 5)
  | hbmlost (stack : Fin 12)
  | qctl (e : DieId)
  | qmask (e : DieId)
  | scrub (level : Fin 4) (unit : Fin 12)
  | bind (e : DieId) (entry : Fin 256) (word : Fin 8)
  | restart (t : StrandId)
  | window (off : Nat)
  | management (words : List W64)
  | host (addr : Nat)
  deriving DecidableEq, Repr

/-- A stage of firmware (23 R378): its SHA3-512 digest, whether the signature it carries passes the check. -/
structure Stage where
  digest : BitVec 512
  signed : Bool
  deriving DecidableEq, Repr

/-- What bring-up meets (23 R377, R378, R381): the step that fails if any, the firmware stages in order, the records of the peers found on the
link ports. -/
structure BringUp where
  failAt : Option (BitVec 8)
  stages : List Stage
  peers : List (BitVec 38)
  deriving DecidableEq, Repr

/-- The instructions and events, one constructor per row of the opcode table. -/
inductive Instr where
  /-- Issues as one step followed by imm12 idle steps (R75). -/
  | nop (i : BitVec 12)
  /-- gd receives ga plus gb modulo 2^64 (R67). -/
  | add (d : Reg) (a : Reg) (b : Reg)
  /-- gd receives ga minus gb modulo 2^64 (R67). -/
  | sub (d : Reg) (a : Reg) (b : Reg)
  /-- gd receives ga AND gb (R67). -/
  | and (d : Reg) (a : Reg) (b : Reg)
  /-- gd receives ga OR gb (R67). -/
  | or (d : Reg) (a : Reg) (b : Reg)
  /-- gd receives ga XOR gb (R67). -/
  | xor (d : Reg) (a : Reg) (b : Reg)
  /-- gd receives ga AND NOT gb (R67). -/
  | andn (d : Reg) (a : Reg) (b : Reg)
  /-- gd receives ga shifted left by gb[5:0] (R67). -/
  | shl (d : Reg) (a : Reg) (b : Reg)
  /-- gd receives ga shifted right logically by gb[5:0] (R67). -/
  | shr (d : Reg) (a : Reg) (b : Reg)
  /-- gd receives ga shifted right arithmetically by gb[5:0] (R67). -/
  | sra (d : Reg) (a : Reg) (b : Reg)
  /-- gd receives ga rotated right by gb[5:0] (R67). -/
  | ror (d : Reg) (a : Reg) (b : Reg)
  /-- gd receives the low 64 bits of the product, latency 3 (R68). -/
  | mul (d : Reg) (a : Reg) (b : Reg)
  /-- gd receives the high 64 bits of the signed product (R68). -/
  | mulhI (d : Reg) (a : Reg) (b : Reg)
  /-- gd receives the high 64 bits of the unsigned product (R68). -/
  | mulhN (d : Reg) (a : Reg) (b : Reg)
  /-- Signed division rounding towards zero, with defined results for zero divisor and overflow, latency 16 (R68). -/
  | divI (d : Reg) (a : Reg) (b : Reg)
  /-- Unsigned division, all ones for a zero divisor (R68). -/
  | divN (d : Reg) (a : Reg) (b : Reg)
  /-- Signed remainder with the sign of the dividend (R68). -/
  | remI (d : Reg) (a : Reg) (b : Reg)
  /-- Unsigned remainder, ga for a zero divisor (R68). -/
  | remN (d : Reg) (a : Reg) (b : Reg)
  /-- gd receives the signed lesser of ga and gb (R67). -/
  | minI (d : Reg) (a : Reg) (b : Reg)
  /-- gd receives the signed greater of ga and gb (R67). -/
  | maxI (d : Reg) (a : Reg) (b : Reg)
  /-- gd receives the unsigned lesser of ga and gb (R67). -/
  | minN (d : Reg) (a : Reg) (b : Reg)
  /-- gd receives the unsigned greater of ga and gb (R67). -/
  | maxN (d : Reg) (a : Reg) (b : Reg)
  /-- gd receives the count of leading zero bits of ga (R69). -/
  | clz (d : Reg) (a : Reg)
  /-- gd receives the number of one bits of ga (R69). -/
  | popc (d : Reg) (a : Reg)
  /-- gd receives ga sign-extended from 8, 16 or 32 bits (R69). -/
  | sext (d : Reg) (a : Reg) (w : BitVec 6)
  /-- gd receives ga zero-extended from 8, 16 or 32 bits (R69). -/
  | zext (d : Reg) (a : Reg) (w : BitVec 6)
  /-- gd receives 1 when ga equals gb, else 0 (R67). -/
  | cmpEq (d : Reg) (a : Reg) (b : Reg)
  /-- Signed less-than compare into gd (R67). -/
  | cmpLtI (d : Reg) (a : Reg) (b : Reg)
  /-- Signed less-or-equal compare into gd (R67). -/
  | cmpLeI (d : Reg) (a : Reg) (b : Reg)
  /-- Unsigned less-than compare into gd (R67). -/
  | cmpLtN (d : Reg) (a : Reg) (b : Reg)
  /-- Unsigned less-or-equal compare into gd (R67). -/
  | cmpLeN (d : Reg) (a : Reg) (b : Reg)
  /-- gd receives ga if the old gd is nonzero, else gb (R70). -/
  | sel (d : Reg) (a : Reg) (b : Reg)
  /-- gd receives ga plus the sign-extended imm12 (R71). -/
  | addi (d : Reg) (a : Reg) (i : BitVec 12)
  /-- gd receives ga AND the zero-extended imm12 (R71). -/
  | andi (d : Reg) (a : Reg) (i : BitVec 12)
  /-- gd receives ga OR the zero-extended imm12 (R71). -/
  | ori (d : Reg) (a : Reg) (i : BitVec 12)
  /-- gd receives ga XOR the zero-extended imm12 (R71). -/
  | xori (d : Reg) (a : Reg) (i : BitVec 12)
  /-- gd receives ga shifted left by an immediate amount (R71). -/
  | shli (d : Reg) (a : Reg) (h : BitVec 6)
  /-- gd receives ga shifted right logically by an immediate amount (R71). -/
  | shri (d : Reg) (a : Reg) (h : BitVec 6)
  /-- gd receives ga shifted right arithmetically by an immediate amount (R71). -/
  | srai (d : Reg) (a : Reg) (h : BitVec 6)
  /-- gd receives 1 when ga equals the sign-extended 10-bit immediate (R71). -/
  | cmpiEq (d : Reg) (a : Reg) (i : BitVec 10)
  /-- Signed less-than compare of ga with the immediate (R71). -/
  | cmpiLtI (d : Reg) (a : Reg) (i : BitVec 10)
  /-- Unsigned less-than compare of ga with the sign-extended immediate (R71). -/
  | cmpiLtN (d : Reg) (a : Reg) (i : BitVec 10)
  /-- gd receives the sign-extended imm18 (R72). -/
  | li (d : Reg) (i : BitVec 18)
  /-- Replaces bits 35:18 of gd with imm18 (R72). -/
  | lih1 (d : Reg) (i : BitVec 18)
  /-- Replaces bits 53:36 of gd with imm18 (R72). -/
  | lih2 (d : Reg) (i : BitVec 18)
  /-- Replaces bits 63:54 of gd with imm18[9:0] (R72). -/
  | lih3 (d : Reg) (i : BitVec 10)
  /-- gd receives the bundle address plus four times the signed imm18 (R73). -/
  | addpc (d : Reg) (i : BitVec 18)
  /-- Lands the named special register in gd with latency 1 (R74). -/
  | gets (d : Reg) (i : BitVec 12)
  /-- Writes ga into the named special register, with the per-register write behaviours (R54). -/
  | sets (a : Reg) (i : BitVec 12)
  /-- Per-lane 32-bit integer add under predicate (R180). -/
  | vaddI32 (d : Reg) (a : Reg) (b : Reg) (q : PReg)
  /-- Per-lane 32-bit integer subtract (R180). -/
  | vsubI32 (d : Reg) (a : Reg) (b : Reg) (q : PReg)
  /-- Per-lane low 32 bits of the product (R180). -/
  | vmulI32 (d : Reg) (a : Reg) (b : Reg) (q : PReg)
  /-- Per-lane high 32 bits of the signed product (R180). -/
  | vmulhI32 (d : Reg) (a : Reg) (b : Reg) (q : PReg)
  /-- Per-lane high 32 bits of the unsigned product (R180). -/
  | vmulhN32 (d : Reg) (a : Reg) (b : Reg) (q : PReg)
  /-- Per-lane AND (R180). -/
  | vand (d : Reg) (a : Reg) (b : Reg) (q : PReg)
  /-- Per-lane OR (R180). -/
  | vor (d : Reg) (a : Reg) (b : Reg) (q : PReg)
  /-- Per-lane XOR (R180). -/
  | vxor (d : Reg) (a : Reg) (b : Reg) (q : PReg)
  /-- Per-lane left shift by the lane's amount (R180). -/
  | vshlI32 (d : Reg) (a : Reg) (b : Reg) (q : PReg)
  /-- Per-lane logical right shift (R180). -/
  | vshrI32 (d : Reg) (a : Reg) (b : Reg) (q : PReg)
  /-- Per-lane arithmetic right shift (R180). -/
  | vsraI32 (d : Reg) (a : Reg) (b : Reg) (q : PReg)
  /-- Per-lane signed minimum (R180). -/
  | vminI32 (d : Reg) (a : Reg) (b : Reg) (q : PReg)
  /-- Per-lane signed maximum (R180). -/
  | vmaxI32 (d : Reg) (a : Reg) (b : Reg) (q : PReg)
  /-- Per-lane unsigned minimum (R180). -/
  | vminN32 (d : Reg) (a : Reg) (b : Reg) (q : PReg)
  /-- Per-lane unsigned maximum (R180). -/
  | vmaxN32 (d : Reg) (a : Reg) (b : Reg) (q : PReg)
  /-- Per-element 16-bit wrapping add (R180). -/
  | vaddI16 (d : Reg) (a : Reg) (b : Reg) (q : PReg)
  /-- Per-element 16-bit wrapping subtract (R180). -/
  | vsubI16 (d : Reg) (a : Reg) (b : Reg) (q : PReg)
  /-- Per-element 16-bit saturating add (R180). -/
  | vaddsI16 (d : Reg) (a : Reg) (b : Reg) (q : PReg)
  /-- Per-element 16-bit saturating subtract (R180). -/
  | vsubsI16 (d : Reg) (a : Reg) (b : Reg) (q : PReg)
  /-- Per-lane integer equality into a predicate (R181). -/
  | vcmpEqI32 (d : Reg) (a : Reg) (b : Reg) (q : PReg)
  /-- Per-lane signed less-than into a predicate (R181). -/
  | vcmpLtI32 (d : Reg) (a : Reg) (b : Reg) (q : PReg)
  /-- Per-lane signed less-or-equal into a predicate (R181). -/
  | vcmpLeI32 (d : Reg) (a : Reg) (b : Reg) (q : PReg)
  /-- Per-lane unsigned less-than into a predicate (R181). -/
  | vcmpLtN32 (d : Reg) (a : Reg) (b : Reg) (q : PReg)
  /-- Per-lane unsigned less-or-equal into a predicate (R181). -/
  | vcmpLeN32 (d : Reg) (a : Reg) (b : Reg) (q : PReg)
  /-- Per-lane FP32 add rounded in %rmode (R182). -/
  | vaddF32 (d : Reg) (a : Reg) (b : Reg) (q : PReg)
  /-- Per-lane FP32 subtract (R182). -/
  | vsubF32 (d : Reg) (a : Reg) (b : Reg) (q : PReg)
  /-- Per-lane FP32 multiply (R182). -/
  | vmulF32 (d : Reg) (a : Reg) (b : Reg) (q : PReg)
  /-- Per-lane FP32 minimum (R182). -/
  | vminF32 (d : Reg) (a : Reg) (b : Reg) (q : PReg)
  /-- Per-lane FP32 maximum (R182). -/
  | vmaxF32 (d : Reg) (a : Reg) (b : Reg) (q : PReg)
  /-- Per-lane fused a × b + d with one rounding (R182). -/
  | vfmaF32 (d : Reg) (a : Reg) (b : Reg) (q : PReg)
  /-- Per-lane fused d − a × b with one rounding (R182). -/
  | vfmsF32 (d : Reg) (a : Reg) (b : Reg) (q : PReg)
  /-- Per-lane FP equality into a predicate (R184). -/
  | vcmpEqF32 (d : Reg) (a : Reg) (b : Reg) (q : PReg)
  /-- Per-lane FP less-than into a predicate (R184). -/
  | vcmpLtF32 (d : Reg) (a : Reg) (b : Reg) (q : PReg)
  /-- Per-lane FP less-or-equal into a predicate (R184). -/
  | vcmpLeF32 (d : Reg) (a : Reg) (b : Reg) (q : PReg)
  /-- Per-lane correctly rounded reciprocal (R185). -/
  | vrcpF32 (d : Reg) (a : Reg) (q : PReg)
  /-- Per-lane correctly rounded reciprocal square root (R185). -/
  | vrsqF32 (d : Reg) (a : Reg) (q : PReg)
  /-- Per-lane correctly rounded 2^a (R185). -/
  | vexp2F32 (d : Reg) (a : Reg) (q : PReg)
  /-- Per-lane correctly rounded log2 a (R185). -/
  | vlog2F32 (d : Reg) (a : Reg) (q : PReg)
  /-- Per-lane correctly rounded square root (R185). -/
  | vsqrtF32 (d : Reg) (a : Reg) (q : PReg)
  /-- Narrows FP32 lanes to BF16 in %rmode (R188). -/
  | vcvtBf16F32 (d : Reg) (a : Reg) (q : PReg)
  /-- Widens BF16 elements exactly to FP32 (R188). -/
  | vcvtF32Bf16 (d : Reg) (a : Reg) (q : PReg)
  /-- Narrows FP32 lanes to FP16 in %rmode (R188). -/
  | vcvtF16F32 (d : Reg) (a : Reg) (q : PReg)
  /-- Widens FP16 elements exactly to FP32 (R188). -/
  | vcvtF32F16 (d : Reg) (a : Reg) (q : PReg)
  /-- Narrows FP32 lanes to E4M3 with saturation at 448 (R188). -/
  | vcvtE4m3F32 (d : Reg) (a : Reg) (q : PReg)
  /-- Narrows FP32 lanes to E5M2, saturating when SAT is set (R188). -/
  | vcvtE5m2F32 (d : Reg) (a : Reg) (q : PReg)
  /-- Widens E4M3 elements exactly to FP32 (R188). -/
  | vcvtF32E4m3 (d : Reg) (a : Reg) (q : PReg)
  /-- Widens E5M2 elements exactly to FP32 (R188). -/
  | vcvtF32E5m2 (d : Reg) (a : Reg) (q : PReg)
  /-- Converts two blocks of 32 FP32 lanes to packed F4X with headers in lane 8 (R189). -/
  | vcvtF4xF32 (d : Reg) (a : Reg) (q : PReg)
  /-- Decodes packed F4X elements with their block headers to FP32 (R188). -/
  | vcvtF32F4x (d : Reg) (a : Reg) (q : PReg)
  /-- Rounds FP32 lanes to saturated INT32 (R188). -/
  | vcvtI32F32 (d : Reg) (a : Reg) (q : PReg)
  /-- Converts INT32 lanes to FP32 in %rmode (R188). -/
  | vcvtF32I32 (d : Reg) (a : Reg) (q : PReg)
  /-- Rounds FP32 lanes to the narrow integer of %fmt with saturation (R188). -/
  | vcvtQF32 (d : Reg) (a : Reg) (q : PReg)
  /-- Decodes narrow integers of %fmt exactly to FP32 (R188). -/
  | vcvtF32Q (d : Reg) (a : Reg) (q : PReg)
  /-- Tree-sums active integer lanes into gd (R190). -/
  | vredaddI32 (d : Reg) (a : Reg) (q : PReg)
  /-- Tree-sums active FP32 lanes, rounding at each level (R190). -/
  | vredaddF32 (d : Reg) (a : Reg) (q : PReg)
  /-- Tree maximum of active FP32 lanes into gd (R190). -/
  | vredmaxF32 (d : Reg) (a : Reg) (q : PReg)
  /-- Tree maximum of active signed lanes into gd (R190). -/
  | vredmaxI32 (d : Reg) (a : Reg) (q : PReg)
  /-- Each active lane takes the source lane its index names (R192). -/
  | vperm (d : Reg) (a : Reg) (b : Reg) (q : PReg)
  /-- Rotates lanes by gb[5:0] (R192). -/
  | vrot (d : Reg) (a : Reg) (b : Reg) (q : PReg)
  /-- Broadcasts ga[31:0] into every active lane (R192). -/
  | vbcast (d : Reg) (a : Reg) (q : PReg)
  /-- Extracts one lane into gd (R192). -/
  | vext (d : Reg) (a : Reg) (b : Reg)
  /-- Inserts ga[31:0] into one lane of vd (R192). -/
  | vins (d : Reg) (a : Reg) (b : Reg)
  /-- Selects each lane from va or vb by predicate kc (R192). -/
  | vsel (d : Reg) (a : Reg) (b : Reg) (k : PReg)
  /-- Writes the sign-extended imm18 into every lane (R192). -/
  | vli (d : Reg) (i : BitVec 18)
  /-- Predicate AND (R193). -/
  | pand (d : Reg) (a : Reg) (b : Reg)
  /-- Predicate OR (R193). -/
  | por (d : Reg) (a : Reg) (b : Reg)
  /-- Predicate XOR (R193). -/
  | pxor (d : Reg) (a : Reg) (b : Reg)
  /-- Predicate complement (R193). -/
  | pnot (d : Reg) (a : Reg)
  /-- Copies a g register into a predicate (R193). -/
  | pset (d : Reg) (a : Reg)
  /-- gd receives 1 if any predicate bit is set (R193). -/
  | pany (d : Reg) (a : Reg)
  /-- gd receives 1 if all predicate bits are set (R193). -/
  | pall (d : Reg) (a : Reg)
  /-- gd receives the number of set predicate bits (R193). -/
  | ppop (d : Reg) (a : Reg)
  /-- Loads a sign-extended byte (R99). -/
  | ldbI (d : Reg) (a : Reg) (i : BitVec 9)
  /-- Loads a zero-extended byte (R99). -/
  | ldbN (d : Reg) (a : Reg) (i : BitVec 9)
  /-- Loads a sign-extended halfword (R99). -/
  | ldhI (d : Reg) (a : Reg) (i : BitVec 9)
  /-- Loads a zero-extended halfword (R99). -/
  | ldhN (d : Reg) (a : Reg) (i : BitVec 9)
  /-- Loads a sign-extended word (R99). -/
  | ldwI (d : Reg) (a : Reg) (i : BitVec 9)
  /-- Loads a zero-extended word (R99). -/
  | ldwN (d : Reg) (a : Reg) (i : BitVec 9)
  /-- Loads a doubleword (R99). -/
  | ldd (d : Reg) (a : Reg) (i : BitVec 9)
  /-- Stores a byte, held in a region (R99). -/
  | stb (d : Reg) (a : Reg) (i : BitVec 9)
  /-- Stores a halfword (R99). -/
  | sth (d : Reg) (a : Reg) (i : BitVec 9)
  /-- Stores a word (R99). -/
  | stw (d : Reg) (a : Reg) (i : BitVec 9)
  /-- Stores a doubleword (R99). -/
  | std (d : Reg) (a : Reg) (i : BitVec 9)
  /-- Loads 256 bytes into the active lanes of vd (R100). -/
  | vld (d : Reg) (a : Reg) (i : BitVec 9) (q : PReg)
  /-- Stores the active lanes of a vector (R100). -/
  | vst (d : Reg) (a : Reg) (i : BitVec 9) (q : PReg)
  /-- Gathers one word per active lane (R101). -/
  | vldg (d : Reg) (a : Reg) (b : Reg) (q : PReg)
  /-- Scatters one word per active lane in increasing lane order (R101). -/
  | vsts (d : Reg) (a : Reg) (b : Reg) (q : PReg)
  /-- Hint bringing one line into L2 and the cluster cache (R102). -/
  | pref (a : Reg)
  /-- Hint bringing a range into L2 and retaining it (R102). -/
  | res (a : Reg) (b : Reg)
  /-- Waits for a full tag, reads the word and empties the tag, acquiring it (R267). -/
  | ldt (d : Reg) (a : Reg)
  /-- Waits for a full tag and reads the word, leaving it full (R267). -/
  | ldtp (d : Reg) (a : Reg)
  /-- Waits for the release conditions and an empty tag, writes and fills, releasing (R267). -/
  | stt (a : Reg) (b : Reg)
  /-- Writes and fills only if empty, returning status (R267). -/
  | sttn (d : Reg) (a : Reg) (b : Reg)
  /-- Reads the tag without waiting (R267). -/
  | tagr (d : Reg) (a : Reg)
  /-- Writes the tag from gb[0] (R267). -/
  | tagw (a : Reg) (b : Reg)
  /-- Adds or removes a binding-table entry (R270). -/
  | bind (d : Reg) (a : Reg) (b : Reg)
  /-- Holds until the release conditions for an object hold (R272). -/
  | drain (a : Reg)
  /-- Orders later accesses after earlier reads are satisfied (R254). -/
  | fenceAcq (b : Reg)
  /-- Holds later writes and releases until earlier writes are performed at the scope (R253). -/
  | fenceRel (b : Reg)
  /-- Acquire and release plus cumulative ordering at the scope (R255). -/
  | fenceFull (b : Reg)
  /-- Sets a barrier slot's expected count (R274). -/
  | barInit (j : Reg) (a : Reg)
  /-- Records an arrival on a barrier slot, counted once earlier accesses are done (R274). -/
  | barArrive (j : Reg)
  /-- Holds until the phase of the strand's latest arrival completes, then acquires (R274). -/
  | barWait (j : Reg)
  /-- Atomic add at the home, returning the old value (R277). -/
  | amoAdd (d : Reg) (a : Reg) (b : Reg)
  /-- Atomic signed minimum (R277). -/
  | amoMinI (d : Reg) (a : Reg) (b : Reg)
  /-- Atomic signed maximum (R277). -/
  | amoMaxI (d : Reg) (a : Reg) (b : Reg)
  /-- Atomic AND (R277). -/
  | amoAnd (d : Reg) (a : Reg) (b : Reg)
  /-- Atomic OR (R277). -/
  | amoOr (d : Reg) (a : Reg) (b : Reg)
  /-- Atomic swap (R277). -/
  | amoSwap (d : Reg) (a : Reg) (b : Reg)
  /-- Atomic compare-and-swap against the old gd (R277). -/
  | amoCas (d : Reg) (a : Reg) (b : Reg)
  /-- Recalls all allowances and sets a counter's value, mode and statistics (R297). -/
  | ainit (a : Reg) (b : Reg)
  /-- Decrements a counter from the ladle or by request, returning OK, ZERO or FAIL (R287). -/
  | adec (d : Reg) (a : Reg) (b : Reg)
  /-- Raises the reserve at home and may end exact mode (R297). -/
  | ainc (a : Reg) (b : Reg)
  /-- Samples the reserve plus this ladle's holding (R297). -/
  | aread (d : Reg) (a : Reg)
  /-- Recalls every allowance and returns the exact value (R297). -/
  | axread (d : Reg) (a : Reg)
  /-- Returns this ladle's whole holding of the counter (R297). -/
  | afree (a : Reg)
  /-- Branches when gc is nonzero (R76). -/
  | brNz (c : Reg) (i : BitVec 18)
  /-- Branches when gc is zero (R76). -/
  | brZ (c : Reg) (i : BitVec 18)
  /-- Branches on a uniform predicate, trapping NONUNIFORM on a mixed one (R141). -/
  | brq (c : Reg) (i : BitVec 18)
  /-- Jumps and lands the return address in gd (R79). -/
  | jal (d : Reg) (i : BitVec 18)
  /-- Continues at the address in ga (R80). -/
  | jr (a : Reg)
  /-- Opens a counted zero-overhead loop frame or skips the body (R83). -/
  | loop (c : Reg) (i : BitVec 18)
  /-- Waits at a join group, up to the budget for unattached strands, then reattaches (R143). -/
  | join
  /-- Waits at a join group without limit for every strand (R143). -/
  | joinAll
  /-- Offers the context's issue to the picker (R87). -/
  | yield
  /-- Ends the strand after its bundle commits (R88). -/
  | exit
  /-- Commits its bundle and raises BREAK with a code (R89). -/
  | trap (c : BitVec 12)
  /-- Writes %fmt, governing operations two steps later (R201). -/
  | fmt (a : Reg)
  /-- Loads a W image into a weight latch (R202). -/
  | mlatch (a : Reg) (w : BitVec 2)
  /-- Gathers active-lane rows into a stage (R203). -/
  | mgather (c : Reg) (a : Reg) (q : PReg) (t : BitVec 1)
  /-- Multiplies a stage by a latch into an accumulator (R204). -/
  | mma (w : BitVec 2) (z : BitVec 1) (c : BitVec 1) (t : BitVec 1)
  /-- Multiplies a stage by a 2:4-compressed latch into an accumulator (R204). -/
  | mmas (w : BitVec 2) (z : BitVec 1) (c : BitVec 1) (t : BitVec 1)
  /-- Stores all 64 accumulator rows to the scratchpad in the chosen format (R207). -/
  | mst (a : Reg) (f : BitVec 4) (c : BitVec 1)
  /-- Compares scratchpad words with literal words, trapping KATFAIL on mismatch (R208). -/
  | mkat (a : Reg) (n : BitVec 3)
  /-- Writes the copy source base (R210). -/
  | cpSrc (a : Reg)
  /-- Writes the copy destination base (R210). -/
  | cpDst (a : Reg)
  /-- Writes a dimension's count and source stride (R210). -/
  | cpDims (a : Reg) (b : Reg) (n : BitVec 5)
  /-- Writes a dimension's destination stride (R210). -/
  | cpDimd (b : Reg) (n : BitVec 5)
  /-- Checks the completion word and queues a copy with a snapshot of the geometry (R211). -/
  | cpGo (a : Reg) (n : BitVec 5)
  /-- Orders later operations of the named queues after earlier ones (R213). -/
  | cpQfence (m : BitVec 8)
  /-- Lands per-queue operation counts in gd (R215). -/
  | cpStatus (d : Reg)
  /-- Holds until a copy queue is idle (R215). -/
  | cpWait (n : BitVec 5)
  /-- Writes MLEN (R341). -/
  | msLen (a : Reg)
  /-- Sets or clears the memory-side completion word (R341). -/
  | msCw (a : Reg)
  /-- Checks and queues a row clear (R342). -/
  | msZero (a : Reg)
  /-- Checks and queues a row copy (R342). -/
  | msCopy (a : Reg) (b : Reg)
  /-- Sets or clears a port's completion word (R349). -/
  | lkCw (a : Reg) (p : BitVec 5)
  /-- Checks and queues a send of partition bytes on a port (R350). -/
  | lkSend (a : Reg) (b : Reg) (p : BitVec 5)
  /-- Checks and queues a receive into the partition (R350). -/
  | lkRecv (a : Reg) (b : Reg) (p : BitVec 5)
  /-- Queues a receive that adds FP32 elements (R353). -/
  | lkRaddF32 (a : Reg) (b : Reg) (p : BitVec 5)
  /-- Queues a receive that adds BF16 elements (R353). -/
  | lkRaddBf16 (a : Reg) (b : Reg) (p : BitVec 5)
  /-- Queues a receive that adds INT32 elements (R353). -/
  | lkRaddI32 (a : Reg) (b : Reg) (p : BitVec 5)
  /-- Opens a speculative region with a snapshot and recovery address (R110). -/
  | ckpt (i : BitVec 18)
  /-- Performs held stores in order and closes the region (R121). -/
  | commit
  /-- Enters a virtual range into the guard table (R114). -/
  | guard (a : Reg) (b : Reg)
  /-- Rolls back with ASSUME when ga is zero (R116). -/
  | assert (a : Reg)
  /-- Always rolls back with ABORT (R116). -/
  | abort
  /-- Writes dirty L2 copies of a range to HBM (R106). -/
  | copWb (a : Reg) (b : Reg)
  /-- Drops cluster and remote L2 copies of a range (R107). -/
  | copInv (a : Reg) (b : Reg)
  /-- A fetched syllable with a reserved major, an unassigned fn, sub-command or kind, or a nonzero reserved field is issued and raises ILLEGAL (R33). -/
  | illegalSyllable (w : W32)
  /-- Pending interlocked results have landed; replay entries are captured and records written (R219). -/
  | suspensionComplete (c : CtxId)
  /-- An exposed result lands at the end of its due step (R57). -/
  | exposedResultLands (t : StrandId)
  /-- An interlocked result arrives and releases stalled or held bundles (R58). -/
  | interlockedResultArrives (t : StrandId) (n : Nat)
  /-- An idle step of nop or of a wait for replay entries passes (R56). -/
  | idleStep (t : StrandId)
  /-- An error detected in a pipeline stage or queue cancels and re-issues the bundle (R61). -/
  | pipelineError (t : StrandId)
  /-- Named work completes and frees its scratchpad banks (R64). -/
  | bankReservationEnd (o : CoreId) (n : Nat)
  /-- The matrix array finishes its work and becomes free (R198). -/
  | arrayWorkComplete (o : CoreId)
  /-- The front end decodes one bundle for one stream into its queues (R133). -/
  | fetchDecode (c : CtxId) (priv : Option (Fin 4))
  /-- An instruction-buffer line arrives from memory (R139). -/
  | ibufFill (l : ClusterId) (line : Nat)
  /-- The join timer reaches the budget and the group completes (R143). -/
  | joinBudgetExpiry (c : CtxId) (at_ : W64)
  /-- A tag operation still false after 64 cycles is withdrawn and its bundle waits (R266). -/
  | tagWaitTimeout (t : StrandId)
  /-- A join, cp.wait or barrier hold of 64 cycles makes the bundle a waiting bundle (R311). -/
  | waitHoldTimeout (t : StrandId)
  /-- A tag change re-presents waiting bundles in order (R266). -/
  | tagChangeWake (w : TagWord)
  /-- An arrival's earlier accesses are done; it is counted and phases may complete (R274). -/
  | barrierArrivalCounted (t : StrandId) (j : Fin 8)
  /-- The picker selects a ready context at a yield or waiting bundle (R312). -/
  | pickerSwitch (l : ClusterId)
  /-- A ready context passed over for 4096 cycles gains a priority level (R312). -/
  | epAging (c : CtxId)
  /-- A waiting context's condition changes and it becomes ready (R311). -/
  | contextWake (c : CtxId)
  /-- A new 4,000 ns budget period begins and deferred activities are admitted (R314). -/
  | budgetPeriod (e : DieId)
  /-- A TLB miss obtains a walker and walks the page tables (R232). -/
  | pageWalk (l : ClusterId) (c : Fin 8) (va : W64)
  /-- A queued copy begins and moves its bytes (R212). -/
  | copyOperationStart (o : CoreId) (n : Fin 8) (count : Nat)
  /-- A copy's writes are performed and its completion word is filled (R214). -/
  | copyOperationComplete (o : CoreId) (n : Fin 8)
  /-- A queued row clear or copy begins moving pieces (R343). -/
  | msOperationStart (o : CoreId) (count : Nat)
  /-- A row operation completes and fills its completion word (R346). -/
  | msOperationComplete (o : CoreId)
  /-- An incoming flit is written or added into the receive range (R353). -/
  | linkFlitArrival (p : Fin 16) (flit : BitVec 512) (poison : BitVec 8)
  /-- The peer has acknowledged every flit of a send (R351). -/
  | linkSendComplete (p : Fin 16) (peerLen : Nat)
  /-- A receive has written every byte and fills its word (R352). -/
  | linkReceiveComplete (p : Fin 16) (sendLen : Nat)
  /-- A link fails beyond retry and unfinished operations complete with status 6 (R352). -/
  | linkdown (p : Fin 16)
  /-- The control core cancels a port's unfinished operations (R352). -/
  | linkCancel (p : Fin 16)
  /-- A port comes up and records its peer in LNKMAP (R381). -/
  | linkUp (p : Fin 16) (peer : BitVec 38)
  /-- Die 0's time unit sends its value, which units and clusters compare and follow (R324). -/
  | timeBeacon (errs : List (ClusterId × Int)) (dieErrs : List (DieId × Option Int))
  /-- A cluster's counter stops by gating, reset or clock failure (R326). -/
  | clusterCounterStop (l : ClusterId)
  /-- Counting resumes; the cluster invalidates its cache and is lease-blind (R326). -/
  | clusterCounterResume (l : ClusterId)
  /-- A slice fills a cluster cache with a lease end (R319). -/
  | clusterFill (l : ClusterId) (c : Fin 8) (va : W64)
  /-- A cluster's returned lease clears its holder bit (R322). -/
  | leaseReturn (l : ClusterId) (line : Nat)
  /-- A waiting write is performed once the slice holds M and leases have ended or returned (R321). -/
  | sliceWritePerformed (n : Nat)
  /-- A holder answers Ack or WbDirty after its leases end plus GUARD (R330). -/
  | deferredAck (e : DieId) (line : Nat)
  /-- A home receives a read miss request (R329). -/
  | readshared (e : DieId) (line : Nat)
  /-- A home receives a write miss request for data and ownership (R329). -/
  | readown (e : DieId) (line : Nat)
  /-- A home receives a request for ownership of a held copy (R331). -/
  | upgrade (e : DieId) (line : Nat)
  /-- An owner sends Data to the requester and keeps a copy (R330). -/
  | fwdshared (e : DieId) (line : Nat)
  /-- An owner sends Data to the requester and gives its copy up (R330). -/
  | fwdown (e : DieId) (line : Nat)
  /-- A sharer gives up its S copy (R330). -/
  | inv (e : DieId) (line : Nat)
  /-- A holder gives up its copy as the filter entry is freed (R328). -/
  | backinv (e : DieId) (line : Nat)
  /-- A home writes a returned dirty line to HBM (R331). -/
  | wbdirty (e : DieId) (line : Nat)
  /-- A step of a transaction is acknowledged to the home or requester (R330). -/
  | ack (e : DieId) (line : Nat)
  /-- A requester receives the line contents (R330). -/
  | data (e : DieId) (line : Nat)
  /-- A ladle's request for n arrives in the tundish queue (R287). -/
  | allowanceRequest (l : ClusterId) (ctr : Nat)
  /-- The tundish serves the head request by grant, recall or at home (R288). -/
  | serve (ctr : Nat)
  /-- A ladle receives a grant, adds it and takes n (R288). -/
  | grant (l : ClusterId) (ctr : Nat)
  /-- A ladle receives a recall and answers with its remainder (R289). -/
  | recall (l : ClusterId) (ctr : Nat)
  /-- The tundish adds a returned amount to R, completing the recall when all have answered (R289). -/
  | recallAnswer (l : ClusterId) (ctr : Nat)
  /-- A ladle reports a holding of zero and leaves the holder set (R287). -/
  | holdingZeroReport (l : ClusterId) (ctr : Nat)
  /-- A ladle stops spending at lease end minus guard and returns the remainder at lease end (R291). -/
  | allowanceLeaseEnd (l : ClusterId) (ctr : Nat)
  /-- A remainder not returned by lease end plus guard is reclaimed and added to LOST (R292). -/
  | reclamation (l : ClusterId) (ctr : Nat)
  /-- A ready kernel node goes for placement or retires at once if not LIVE (R302). -/
  | kernelNodeEval (e : DieId)
  /-- A cond node reads its dword and takes one successor, skipping the other (R302). -/
  | condNodeEval (e : DieId)
  /-- A switch node takes the successor its index selects (R302). -/
  | switchNodeEval (e : DieId)
  /-- A loop node runs another iteration of its body or retires (R303). -/
  | loopNodeEval (e : DieId)
  /-- A join node retires at once into its successors (R302). -/
  | joinNodeEval (e : DieId)
  /-- A retiring gang's writes are performed and its node retires, decrementing successors (R304). -/
  | gangRetirement (e : DieId) (gang : BitVec 16)
  /-- A retirement held by a full ring proceeds as the queue drains (R306). -/
  | heldRetirementProceeds (e : DieId)
  /-- Dispatch checks a gang's records and makes them valid together or refuses (R309). -/
  | gcommit (e : DieId) (gang : BitVec 16)
  /-- The control core commits a refused gang again once residents retire or QMASK changes (R309). -/
  | placementRetry (e : DieId) (gang : BitVec 16) (slots : List Placement)
  /-- Clearing FAULT resumes the graph engine from the failed access (R306). -/
  | grstatFaultClear (e : DieId)
  /-- A write to a register without a row of its own (R10). -/
  | registerWrite (r : RegSel) (x : W64)
  /-- The control core freezes a context at its bundle boundaries (R224). -/
  | freeze (c : CtxId)
  /-- The control core resumes a frozen context (R224). -/
  | controlCoreResume (c : CtxId)
  /-- The control core restores an evicted gang onto free slots of one die (R225). -/
  | restoration (old : DieId) (gang : BitVec 16) (e : DieId) (slots : List Placement)
  /-- The control core logs a KATFAIL and applies the quarantine policy (R361). -/
  | katfailPolicy (t : StrandId)
  /-- Firmware resumes a context trapped MACHINE in a region (R356). -/
  | regionMachineResume (c : CtxId)
  /-- The signatures of both copies of a bundle are compared and its held work released; `sig` is what an error that no check
  found has changed in the trailing signature, 0 where there is none (R363). -/
  | lockstepConfirm (t : StrandId) (sig : W32)
  /-- A scrubber reads and corrects the next protected granule (R359). -/
  | patrolScrub (g : Granule)
  /-- The chief control core declares a die failed and sends the declaration (R334). -/
  | dieFailureDeclaration (e : DieId)
  /-- A surviving home poisons and drops the failed die's holdings (R335). -/
  | declarationAtHome (home : DieId) (e : DieId)
  /-- A surviving slice writes its dirty lines of the failed die to the salvage area (R336). -/
  | salvage (home : DieId) (e : DieId)
  /-- Tundishes reclaim the failed die's holders and ladles drop its counters (R293). -/
  | declarationAtTundish (home : DieId) (e : DieId)
  /-- Bring-up runs its steps and sets READY or fails (R377). -/
  | powerGood (b : BringUp)
  /-- Main supplies go off and the device holds no state (R3). -/
  | powerOff
  /-- The device is reset and brings itself up anew (R382). -/
  | deviceReset (b : BringUp)
  /-- A tamper sensor raises a level with its effects (R379). -/
  | tamperAlarm (level : Fin 4) (sensor : BitVec 12)
  /-- A junction sensor reaches 100 °C or 105 °C (R365). -/
  | junctionTemperature (e : DieId) (milli : Nat)
  /-- The chief control core lowers the clock to hold power at 2.9 kW (R365). -/
  | packagePowerLimit
  /-- Validates a graph and returns its handle (R301). -/
  | loadGraph
  /-- Initialises counters and makes the roots ready (R302). -/
  | launch
  /-- Writes page-table entries and sets named sync tags full (R384). -/
  | map
  /-- Clears entries and performs a PTSYNC over the range (R234). -/
  | unmap
  /-- Allocates the lowest free ASID with its generation (R233). -/
  | asidAlloc
  /-- Advances an ASID's generation and frees it (R233). -/
  | asidRetire
  /-- Makes table writes visible, flushes walk caches and invalidates TLB entries (R234). -/
  | ptsync
  /-- Clears the selected context's trap, freeze and, with PARKED, park (R384). -/
  | resume
  /-- Freezes a gang and saves its state to save areas and a gang record (R225). -/
  | evict
  /-- Writes a requested item to a host buffer (R372). -/
  | query
  /-- Sets a scrubber's rate (R359). -/
  | scrubSet
  /-- Writes a signed report with nonce and measurement (R378). -/
  | attest
  /-- Copies host bytes into device memory at device scope (R371). -/
  | writeMem
  /-- Copies device bytes into host memory (R371). -/
  | readMem
  /-- A soft error corrupts bits of a protected array, queue, register file or HBM granule, to be corrected, replayed or poisoned when next read or scrubbed (R354). -/
  | softError (g : Granule) (correctable : Bool)
  /-- A store reaches its performing point, whether a target scratchpad bank through the cluster window, a home slice or hearth die for an uncached or memory-side page, or the PCIe controller or the host completer's acknowledgement for a host window (R243). -/
  | writePerformed (n : Nat)
  /-- A cop.wb or cop.inv finishes its write-backs and removals, and the stalled strand may issue its next bundle (R105). -/
  | cacheRangeOperationComplete (t : StrandId)
  deriving DecidableEq, Repr

end Sys2Proof
end

