-- ==== Sys2Proof/Machine/State.lean ====
section
/-! DEFINITION. The state of the ZC-740 as plain data: strands, contexts, cores, clusters, dies and the device, the reasons a
step can stop, and the state after reset. Whatever exists many times over (strands, cores, memory) is a sparse table whose
absent entries stand for the reset value. INVENTORY.md names the rule behind each field. -/

namespace Sys2Proof.Machine

/-- A sparse table from numbers to data, keys strictly rising. -/
abbrev Table (α : Type) := List (Nat × α)

/-- A set of numbers, strictly rising. -/
abbrev NatSet := List Nat

/-- Physical memory: bytes by 48-bit physical address (00 R7), keys strictly rising, no entry 0 (what an unlisted byte reads). -/
abbrev Memory := List Host.Cell

/-! ## Locations and values -/

/-- Where a byte is: in the scratchpad of a core (by the core's key), or at a physical address (14 R240). -/
inductive Loc where
  | spad (core : Nat) (off : Nat)
  | phys (pa : Nat)
  deriving DecidableEq, Repr

/-- A resolved byte: its location and the attributes of its page (12 R228). -/
structure Place where
  loc : Loc
  ms : Bool
  cp : Nat
  ro : Bool
  deriving DecidableEq, Repr

/-- What a result lands in (03 R57, R58): a register, %fmt, or a part of the core's matrix unit. -/
inductive Tgt where
  | g (r : Reg)
  | v (r : Reg)
  | k (r : Reg)
  | fmt
  | latch (w : Fin 4)
  | stage (n : Fin 2)
  | acc (n : Fin 2)
  deriving DecidableEq, Repr

/-- The data of a result. Rows of the matrix unit carry their own poison marks (11 R199), those of a stage the banks of their
source too (03 R64). -/
inductive Dat where
  | w (x : W64)
  | v (x : VReg)
  | fmt (x : W32)
  | rows (xs : List (ByteRow × Bool)) (banks : BitVec 32)
  | accRows (xs : List (AccRow × Bool))
  deriving DecidableEq, Repr

/-- An exposed result in flight: one replay register (03 R57, R62). -/
structure Exposed where
  tgt : Tgt
  dat : Dat
  due : W64
  issued : W64
  poison : Bool
  deriving DecidableEq, Repr

/-- How the bytes of a load become a register value (05 R92, R100, R101). -/
inductive LoadForm where
  | scalar (size : Nat) (signed : Bool)
  | vector
  | gather
  deriving DecidableEq, Repr

/-- A byte of a pending load (05 R100, 14 R244): of an inactive lane, still to be read, or read (with its poison). -/
inductive LByte where
  | zero
  | at_ (p : Place)
  | got (b : Byte) (poison : Bool)
  deriving DecidableEq, Repr

/-- The operation of an atomic (15 R277). -/
inductive AmoOp where
  | add | minI | maxI | and | or | swap | cas
  deriving DecidableEq, Repr

/-- An interlocked operation whose result has not arrived (03 R58): `done` and `tag` have acted already, the second on a tag word. -/
inductive POp where
  | done
  | tag (w : TagWord)
  | load (form : LoadForm) (bytes : List LByte)
  | amo (op : AmoOp) (at_ : Place) (b d : W64)
  | cpStatus
  | adec (ctr : Nat) (n : Nat)
  | aread (ctr : Nat)
  | axread (ctr : Nat)
  deriving DecidableEq, Repr

/-- An interlocked result pending: age, target, issue step, operation, its value once satisfied, whether it acquires. -/
structure Pend where
  seq : Nat
  tgt : Tgt
  issued : W64
  op : POp
  val : Option (Dat × Bool)
  acq : Bool
  deriving DecidableEq, Repr

/-! ## Strands -/

/-- A loop frame without its counter, which is %lcj (04 R82). -/
structure Frame where
  active : Bool
  start : W64
  stop : W64
  deriving DecidableEq, Repr

/-- An entry of the gated store buffer: a 16-byte chunk, the bytes held (offset in the chunk, byte), where they go (06 R113), size of
the aligned block that its whole store covers (22 R355), whether its check has failed (22 R356). -/
structure Held where
  va : W64
  at_ : Place
  bytes : List (Nat × Byte)
  clears : Nat
  bad : Bool
  deriving DecidableEq, Repr

/-- What a checkpoint restores (06 R111), and the poison marks of the registers. -/
structure Snapshot where
  g : Vector W64 64
  v : Vector VReg 64
  k : Vector W64 8
  gp : NatSet
  vp : NatSet
  kp : NatSet
  f0 : Frame
  f1 : Frame
  lc0 : W64
  lc1 : W64
  rmode : BitVec 4
  lfsr : W32
  jbudget : BitVec 16
  deriving DecidableEq, Repr

/-- An open speculative region (06 R110 to R114). -/
structure Region where
  snap : Snapshot
  recovery : W64
  bundle : W64
  step : W64
  guards : List (Nat × Nat)
  held : List Held
  deriving DecidableEq, Repr

/-- A fence in force (14 R251 to R255): its age, the scope code it releases at, whether it acquires, whether it is full. -/
structure Fence where
  seq : Nat
  rel : Option Nat
  acq : Bool
  full : Bool
  deriving DecidableEq, Repr

/-- The queue of an engine that a syllable joins: a copy queue of its core, the core's memory-side queue, its operations at a link port. -/
inductive EngineQueue where
  | copies (q : Nat)
  | rows
  | link (p : Nat) (send : Bool)
  deriving DecidableEq, Repr

/-- Why a bundle is held at issue or a strand waits: `release` names the object whose release conditions are waited for and the bytes that
the strand's own accesses still use, `bank` the banks needed by core, `counter` the counter. -/
inductive Hold where
  | tag (w : TagWord) (want : Bool)
  | release (w : Option TagWord) (own : Option (Place × Nat))
  | join (at_ : W64) (all : Bool)
  | queue (q : EngineQueue)
  | cpWait (q : Nat)
  | barrier (j : Nat)
  | arrive (j : Nat)
  | budget
  | acquire
  | fence
  | bank (xs : List (Nat × BitVec 32))
  | array
  | counter (ctr : Nat)
  | lockstep
  deriving DecidableEq, Repr

/-- The trap record of a strand (12 R220). -/
structure TrapRec where
  cause : BitVec 8
  mask : BitVec 8
  sub : BitVec 4
  reissue : BitVec 2
  replay : BitVec 7
  repeat_ : BitVec 5
  valid : Bool
  bundle : W64
  faddr : W64
  step : W64
  region : W32
  restart : W64
  deriving DecidableEq, Repr

/-- A bundle decoded and not yet issued: its address, its words, the literal words after it (07 R133, 02 R28). -/
structure Decoded where
  addr : W64
  words : List W32
  lits : List W32
  deriving DecidableEq, Repr

/-- A value that a bundle of a lockstep pair writes (22 R363): its bytes, or the age of the interlocked operation that brings it. -/
inductive SigPart where
  | known (bs : List Byte)
  | awaited (seq : Nat)
  deriving DecidableEq, Repr

/-- A bundle of a lockstep pair not yet confirmed (22 R363): step, address, the registers and the results in flight before it, what its
signature covers (the values its syllables write, in increasing position; its stores and operands), the stores it withholds, whether it has
been held at issue and not yet committed, and what the trailing copy issues again or takes over (R362): the bundle, its exposed results, the
interlocked results that have come, all its stores. -/
structure Unconfirmed where
  step : W64
  addr : W64
  before : Snapshot
  fmt : W32
  fmtPoison : Bool
  hintdrop : W32
  barovr : BitVec 8
  inflight : List Exposed
  parts : List SigPart
  rest : List Byte
  stores : List Held
  waits : Bool
  bundle : Decoded
  results : List Exposed
  brought : List Exposed
  kept : List Held
  deriving DecidableEq, Repr

/-- What a strand of a lockstep pair has re-issued for a mismatch of signatures: its bundles of a span of steps (22 R364), or its region by
the `ckpt` bundle (06 R129). -/
inductive Mismatch where
  | steps (first last : W64)
  | region (bundle : W64)
  deriving DecidableEq, Repr

/-- One strand: one context on one core (03 R48 to R62). `exiting` says that its `exit` has committed and it waits for interlocked
results (04 R88); `waitSince` and `waitTime` are the age and the device time at which it began to hold; `late` names the joins that
completed without it (07 R144); `stall` the ages of the pending results that its next bundle needs, noted as its context loses the front end
(18 R311). `confirmed` is the bundle that is confirmed and has yet to commit (22 R363). `fmtPoison` is the mark of %fmt (22 R354). `notice` says how far the control core has come with a valid trap
record: 0 nothing to do, 1 not seen, 2 policy 1 of 22 R361 begun. -/
structure Strand where
  g : Vector W64 64
  v : Vector VReg 64
  k : Vector W64 8
  gp : NatSet
  vp : NatSet
  kp : NatSet
  pc : W64
  step : W64
  jbudget : BitVec 16
  lc0 : W64
  lc1 : W64
  f0 : Frame
  f1 : Frame
  rbcause : BitVec 4
  rbaddr : W64
  fmt : W32
  fmtPoison : Bool
  rmode : BitVec 4
  lfsr : W32
  hintdrop : W32
  barovr : BitVec 8
  region : Option Region
  inflight : List Exposed
  pend : List Pend
  idle : Nat
  fences : List Fence
  observed : NatSet
  exiting : Bool
  exited : Bool
  attached : Bool
  issuedTeam : Nat
  queue : List Decoded
  hold : Option Hold
  waited : Bool
  joinGo : Bool
  confirmed : Option Unconfirmed
  waitSince : Nat
  waitTime : Nat
  late : List W64
  range : Option (Bool × List (Nat × Nat) × Nat)
  ainit : Option (Nat × Nat)
  freed : List (Nat × Nat × Nat)
  reissue : Nat
  trapping : Bool
  trap : TrapRec
  notice : Nat
  lastFault : Option (W64 × BitVec 8 × BitVec 4 × W64)
  repeats : Nat
  unconfirmed : List Unconfirmed
  mismatched : Option Mismatch
  stall : NatSet
  deriving DecidableEq, Repr

/-! ## Contexts, gangs -/

/-- One barrier slot of a context (15 R274): count, open phase, tallies of the phases P and P + 1, the phase of each
strand's latest arrival, and the arrivals committed but not yet counted (core, phase, age). -/
structure Barrier where
  count : Nat
  phase : Nat
  tally0 : Nat
  tally1 : Nat
  last : Vector (Option Nat) 4
  coming : List (Nat × Nat × Nat)
  deriving DecidableEq, Repr

/-- The run state of a context (18 R310, 23 R372). -/
inductive Run where
  | free | ready | running | waiting | retiring
  deriving DecidableEq, Repr

/-- A join group of a context (07 R143): its address, the first arrival's budget, the start of its timer, whether a latecomer formed
it (R144). -/
structure Join where
  addr : W64
  budget : Nat
  start : Option Nat
  late : Bool
  deriving DecidableEq, Repr

/-- One hardware context: its run state and stops (18 R310), barriers, effective priority and the time it became ready (R312), the
team stream's next bundle and whether the stream waits for its last bundle to be issued (07 R137), the join groups
(R143), whether it has yielded, the cores whose saved strand has a broken seal (12 R227). -/
structure Context where
  run : Run
  suspending : Bool
  trapped : Bool
  frozen : Bool
  freezing : Bool
  parked : Bool
  bars : Vector Barrier 8
  ep : Nat
  ready : Nat
  teamNext : W64
  teamWait : Bool
  joins : List Join
  yielded : Bool
  brokenSeal : NatSet
  deriving DecidableEq, Repr

/-- A bind record of the slot table (18 R307). -/
structure Bind where
  valid : Bool
  matrix : Bool
  lock : Bool
  spec : Bool
  prio : BitVec 2
  bclass : BitVec 5
  asid : BitVec 11
  gen : BitVec 4
  cig : BitVec 5
  gang : BitVec 16
  entry : BitVec 57
  pbase : BitVec 5
  psize : BitVec 6
  save : BitVec 48
  args : W64
  node : W64
  deriving DecidableEq, Repr

/-- An entry of a gang's binding table (14 R247, 15 R270). -/
structure Binding where
  obj : TagWord
  base : Nat
  len : Nat
  deriving DecidableEq, Repr

/-! ## Cores -/

/-- Geometry registers of a copy engine (11 R209). -/
structure Geometry where
  csrc : W64
  cdst : W64
  ccount : Vector W32 6
  csstr : Vector W64 6
  cdstr : Vector W64 6
  deriving DecidableEq, Repr

/-- Where a completion status goes (11 R211, R214); a memory-side word with the address it was translated from (12 R234). -/
inductive CWord where
  | spad (core : Nat) (off : Nat)
  | sync (pa : Nat) (va : Nat) (asid : BitVec 11)
  deriving DecidableEq, Repr

/-- A queued copy (11 R211, R212): geometry, address space, window frame of the issuing strand, completion word, age,
the ages it waits for (cp.qfence), bytes moved so far, the bytes it moves next (03 R64), what each byte it wrote held before (R212), whether it has begun, whether
its descriptor fails its check (22 R358), its status once stopped. -/
structure CopyOp where
  geo : Geometry
  asid : BitVec 11
  gen : BitVec 4
  ctx : Nat
  core : Nat
  cw : Option CWord
  seq : Nat
  after : NatSet
  moved : Nat
  chunk : List Loc
  prior : List (Loc × Byte)
  begun : Bool
  corrupt : Bool
  status : Option Nat
  deriving DecidableEq, Repr

/-- A queued row operation (21 R342, R343), with the strand that issued it. -/
structure MsOp where
  copy : Bool
  dst : W64
  src : W64
  len : Nat
  asid : BitVec 11
  gen : BitVec 4
  strand : Nat
  cw : Option CWord
  seq : Nat
  moved : Nat
  prior : List (Loc × Byte)
  begun : Bool
  corrupt : Bool
  status : Option Nat
  deriving DecidableEq, Repr

/-- The forms of a link operation (21 R349). -/
inductive LinkForm where
  | send | recv | raddF32 | raddBf16 | raddI32
  deriving DecidableEq, Repr

/-- A queued link operation (21 R350): form, base in the scratchpad, length, owner core, completion word, age, budget class, bytes moved, whether poison arrived, whether its descriptor fails its check. -/
structure LinkOp where
  form : LinkForm
  base : Nat
  len : Nat
  core : Nat
  cw : Option CWord
  seq : Nat
  cls : Nat
  moved : Nat
  poison : Bool
  corrupt : Bool
  deriving DecidableEq, Repr

/-- The register that names a completion word of the memory-side or link engine (21 R340, R348). -/
structure CwReg where
  valid : Bool
  addr : BitVec 57
  deriving DecidableEq, Repr

/-- A reservation of scratchpad banks (03 R64): the banks, one bit each, and whether array work holds them. -/
structure Reservation where
  banks : BitVec 32
  array : Bool
  deriving DecidableEq, Repr

/-- The state of one core (03 R50, 11, 21): latches, accumulators and stages with their row counts, poison marks and the banks
of a stage's source rows (R64); `qfence` holds, for each copy queue, the ages that operations appended from now on wait for. -/
structure Core where
  latch : Vector (Vector ByteRow 128) 4
  latchPoison : Vector NatSet 4
  acc : Vector (Vector AccRow 64) 2
  accPoison : Vector NatSet 2
  stage : Vector (Vector ByteRow 64) 2
  stageRows : Vector Nat 2
  stagePoison : Vector NatSet 2
  stageBanks : Vector (BitVec 32) 2
  arrayBusy : Bool
  reservations : List Reservation
  geo : Geometry
  copyq : Vector (List CopyOp) 8
  qfence : Vector NatSet 8
  mlen : W64
  mcw : CwReg
  msq : List MsOp
  lcw : Vector CwReg 16
  spad : Table Byte
  spadUndef : List (Nat × Nat × Nat)
  tags : NatSet
  spadPoison : NatSet
  deriving DecidableEq, Repr

/-! ## Clusters and dies -/

/-- A line of a cluster cache (20 R319, R320): data, sectors present, poisoned sectors, lease end. -/
structure CacheLine where
  data : List Byte
  sectors : BitVec 4
  poison : BitVec 4
  leaseEnd : Nat
  deriving DecidableEq, Repr

/-- An entry of a ladle (17 R285, R287). -/
structure LadleEntry where
  amount : Nat
  leaseEnd : Nat
  grantSeq : Nat
  used : Nat
  deriving DecidableEq, Repr

/-- A translation held by a TLB (12 R232): page size code and the leaf entry. -/
structure TlbEntry where
  asid : BitVec 11
  gen : BitVec 4
  size : Nat
  vpn : Nat
  leaf : W64
  deriving DecidableEq, Repr

/-- A pointer entry held by a walk cache, with its physical address (12 R232). -/
structure WalkEntry where
  asid : BitVec 11
  gen : BitVec 4
  pa : Nat
  entry : W64
  deriving DecidableEq, Repr

/-- The state of one cluster. -/
structure Cluster where
  cache : Table CacheLine
  ladle : Table LadleEntry
  error : Int
  stopped : Bool
  blind : Bool
  restarted : Bool
  goodBeacons : Nat
  tlb : List TlbEntry
  ibuf : Table (List Byte)
  running : Option (Fin 8)
  lastAt : Vector (Option (Fin 8)) 4
  deriving DecidableEq, Repr

/-- The state of a line in an L2 slice (20 R330). -/
inductive Moesi where
  | M | O | E | S | I
  deriving DecidableEq, Repr

/-- A line of a die's L2 (20 R320, R330): state, data, poisoned sectors, clusters holding leases, latest lease end, the gang that
retains it (05 R103). -/
structure L2Line where
  st : Moesi
  data : List Byte
  poison : BitVec 4
  holders : NatSet
  lend : Nat
  retained : Option Nat
  deriving DecidableEq, Repr

/-- Directory state of a line (20 R328). -/
inductive DirState where
  | X | O | S
  deriving DecidableEq, Repr

/-- A snoop filter entry (20 R328). -/
structure DirEntry where
  st : DirState
  owner : DieId
  sharers : BitVec 4
  used : Nat
  deriving DecidableEq, Repr

/-- Kinds of request to a home (20 R329). -/
inductive ReqKind where
  | shared | own | upgrade
  deriving DecidableEq, Repr

/-- What the owner that a Fwd reached keeps of the line (20 R330): its Ack says so. -/
inductive Kept where
  | nothing | owned | shared | noData
  deriving DecidableEq, Repr

/-- A transaction at a home (20 R331): requester, kind, dies whose answer is awaited, whether its own messages have gone out
(not before a filter entry is free), what the owner kept (nothing, O or S) or that it had no Data, the line whose entry is being
evicted first, the age of the request (20 R328). -/
structure Txn where
  req : DieId
  kind : ReqKind
  waiting : BitVec 4
  started : Bool
  kept : Kept
  victim : Option Nat
  age : Nat
  deriving DecidableEq, Repr

/-- An outstanding request of a die (20 R330): kind, the data that came, whether the home's Ack came, and what hints want of the
line: the gang to retain it for, the clusters to fill and whether through a page without W (05 R102). -/
structure Outstanding where
  kind : ReqKind
  data : Option (List Byte × BitVec 4)
  shared : Bool
  ack : Bool
  retain : Option Nat
  fills : List (Fin 32 × Bool)
  deriving DecidableEq, Repr

/-- An answer a holder owes after its leases end (20 R330): to the home, with the dirty line for WbDirty. -/
structure Owed where
  line : Nat
  wb : Option (List Byte × BitVec 4)
  lend : Nat
  holders : NatSet
  deriving DecidableEq, Repr

/-- The kinds of message between dies (20 R329). -/
inductive MsgKind where
  | readShared | readOwn | upgrade | fwdShared | fwdOwn | inv | backInv | wbDirty | ack | data
  deriving DecidableEq, Repr

/-- A message between dies (20 R329): kind, destination die, sender, line, the requester it serves, data with poison, whether it
goes to the line's home, what an Ack says of the sender's copy (for Data: `shared` unless the requester may take E). -/
structure Msg where
  kind : MsgKind
  dst : DieId
  src : DieId
  line : Nat
  req : DieId
  data : Option (List Byte × BitVec 4)
  toHome : Bool
  kept : Kept
  deriving DecidableEq, Repr

/-- What a request to a tundish asks for (17 R287, R297). -/
inductive AKind where
  | adec (n : Nat) | axread
  deriving DecidableEq, Repr

/-- A request in a tundish's queue, or on its way there (17 R287 to R289): the strand's pending operation and its kind. -/
structure AReq where
  cluster : Nat
  strand : Nat
  seq : Nat
  kind : AKind
  deriving DecidableEq, Repr

/-- A holder of an allowance, as the tundish records it (17 R285, R292): the recorded amount as parts, by the sequence number of the grant
that each part came with, lease end, the sequence numbers of the first and the latest grant of this record. -/
structure Holder where
  cluster : Nat
  parts : List (Nat × Nat)
  leaseEnd : Nat
  first : Nat
  last : Nat
  deriving DecidableEq, Repr

/-- A tundish entry (17 R285 to R289): reserve, mode, the CONFIG in force (lease in ns), holders, request queue, the clusters
a running recall waits for, whether it found an allowance, whether exact mode follows it, how many requests at the head are
to be served at home, the statistics, the age of its last use. -/
structure Tundish where
  reserve : Nat
  normal : Bool
  gmax : Nat
  thr : Nat
  lease : Nat
  holders : List Holder
  queue : List AReq
  recalling : Option NatSet
  found : Bool
  entering : Bool
  atHome : Nat
  lost : Nat
  grants : Nat
  recalls : Nat
  exact : Nat
  fails : Nat
  used : Nat
  deriving DecidableEq, Repr

/-- A message between ladle and tundish (17 R287 to R289, R292): a request; a grant with what remains of it once its n is taken;
a recall with the sequence number of the latest grant; a returned amount; a report of a holding that reached 0. -/
inductive AMsg where
  | request (ctr : Nat) (req : AReq)
  | grant (cluster : Nat) (ctr : Nat) (rest : Nat) (leaseEnd : Nat) (grantSeq : Nat) (req : AReq)
  | recall (cluster : Nat) (ctr : Nat) (grantSeq : Nat)
  | answer (cluster : Nat) (ctr : Nat) (amount : Nat) (grantSeq : Nat)
  | zero (cluster : Nat) (ctr : Nat) (grantSeq : Nat)
  deriving DecidableEq, Repr

/-- A record of an error log (22 R360). -/
structure LogRec where
  time : Nat
  kind : Nat
  unit : Nat
  struct : Nat
  count : Nat
  addr : Nat
  detail : Nat
  deriving DecidableEq, Repr

/-- An error log: records newest last (at most 64), the next index, the count of overwritten records (22 R360). -/
structure ELog where
  recs : List LogRec
  head : Nat
  lost : Nat
  deriving DecidableEq, Repr

/-- A ready node in a graph engine: launch, node index, LIVE (18 R305). -/
structure ReadyNode where
  launch : Nat
  node : Nat
  live : Bool
  deriving DecidableEq, Repr

/-- A retirement held by a full ring or a fault (18 R306): launch, node, edges still to decrement (index, LIVE). -/
structure HeldRetire where
  launch : Nat
  node : Nat
  gang : Option (BitVec 16)
  edges : List (Nat × Bool)
  deriving DecidableEq, Repr

/-- A kernel node given to the control core and not yet placed (18 R306, R309). -/
structure Waiting where
  launch : Nat
  node : Nat
  gang : BitVec 16
  deriving DecidableEq, Repr

/-- The access that stopped a graph engine, from which it resumes (18 R306): of the evaluation of its queue's head, of the refill of its queue,
of the retirement that a die's engine holds first, of a root to be made ready, of the launch of a graph, of the retirement of a gang. -/
inductive Resume where
  | head
  | refill
  | held (at_ : DieId)
  | root
  | launch (handle : Nat)
  | gang (key : Nat)
  deriving DecidableEq, Repr

/-- A die's graph engine (18 R305, R306). -/
structure Engine where
  queue : List ReadyNode
  grbase : W64
  grsize : Nat
  grhead : Nat
  grtail : Nat
  bp : Bool
  fault : Bool
  grfaddr : W64
  grroot : W64
  held : List HeldRetire
  resume : Option Resume
  deriving DecidableEq, Repr

/-- A die: `written` holds the time of the last write to a line through its slices (20 R319), `walks` the pointer entries in its
walk caches (12 R232), `deferred` the activities that each budget meter has deferred, in the order of arrival, with their amounts, `admitted`
those of them that a later period has admitted and that have yet to go on, `period` the period its meters run (18 R314), `missed` the beacons
its time unit has missed in a row, `heard` the failed dies whose
declaration its tundishes and ladles have acknowledged (20 R334), `waiting` the requests at it with their ages, `clock` its arithmetic
clock in MHz (23 R365). -/
structure Die where
  l2 : Table L2Line
  written : Table Nat
  dir : Table DirEntry
  txns : Table Txn
  waiting : List (Nat × DieId × ReqKind × Nat)
  mshr : Table Outstanding
  owed : List Owed
  wbuf : Table (List Byte × BitVec 4)
  tundish : Table Tundish
  tlb : List TlbEntry
  walks : List WalkEntry
  guard : Nat
  lord : Nat
  lhot : Nat
  lro : Nat
  blindEvents : Nat
  dieError : Int
  dieOff : Bool
  dieGood : Nat
  missed : Nat
  salvbase : BitVec 48
  salvsize : Nat
  salvnext : Nat
  losthome : BitVec 4
  heard : BitVec 4
  failed : Bool
  engine : Engine
  slots : Table Bind
  gcommit : BitVec 16
  placing : List Waiting
  bmem : Table (BitVec 16)
  blnk : Table (BitVec 16)
  biss : Table (BitVec 16)
  used : Table Nat
  deferred : Table (List (Nat × Nat))
  admitted : Table NatSet
  period : Nat
  overs : Table (BitVec 39)
  logs : Vector ELog 5
  qctl : BitVec 2
  qmask : BitVec 32
  scrl2 : Nat
  scrsp : Nat
  scrcc : Nat
  clock : Nat
  deriving DecidableEq, Repr

/-! ## The device -/

/-- A write issued and not yet performed (14 R243): age, strand, cluster, place, the virtual address it was issued
through, its bytes (offset, byte), size of the aligned block that
its whole store covers (22 R355), whether the PCIe controller has accepted it (host windows). -/
structure PWrite where
  seq : Nat
  strand : Nat
  cluster : Nat
  at_ : Place
  va : Nat
  bytes : List (Nat × Byte)
  clears : Nat
  accepted : Bool
  deriving DecidableEq, Repr

/-- A record of the ASID table (12 R233), with the tables of the page-table pool taken for the ASID (23 R371). -/
structure AsidRec where
  root : Nat
  gen : BitVec 4
  live : Bool
  tables : NatSet
  deriving DecidableEq, Repr

/-- A report of a graph engine to the control core (18 R306): the die, the address of a failed access, or none for a full ring. -/
structure Report where
  die : DieId
  addr : Option W64
  deriving DecidableEq, Repr

/-- A command accepted and not yet completed (23 R369): sequence number, OP, words 1 to 28, host tag, its slot or none for
the management port; the age at which it began, for one that has begun and waits. -/
structure Cmd where
  seq : Nat
  op : BitVec 8
  words : List W64
  tag : W64
  slot : Option Nat
  mark : Option Nat
  deriving DecidableEq, Repr

/-- A journal record (23 R373); those of State.journal are die 0's copy of the last 256. -/
structure Journal where
  op : BitVec 8
  state : Nat
  status : Nat
  mgmt : Bool
  accepted : Nat
  completed : Nat
  tag : W64
  words : List W64
  deriving DecidableEq, Repr

/-- A loaded graph (23 R370, R384), the generation of its ASID at the load, and its latest launch: the launch's sequence number, nodes retired, loops in progress,
whether a kernel was refused, the roots that wait for a place in their die's queue, the nodes that the launch has yet to set up. -/
structure Graph where
  asid : BitVec 11
  gen : BitVec 4
  base : W64
  count : Nat
  launch : Option Nat
  running : Bool
  retired : NatSet
  loops : NatSet
  refused : Bool
  roots : List Nat
  todo : List Nat
  deriving DecidableEq, Repr

/-- The image of one context in its save area (12 R226): bind record, context, strands, cores' parts. -/
structure Image where
  bind : Bind
  ctx : Context
  strands : List Strand
  cores : List Core
  deriving DecidableEq, Repr

/-- A gang (18 R309, 12 R383): die, size, node, its contexts in gang order, binding table, saved images when evicted, PA of
its gang record once it has been evicted. -/
structure Gang where
  die : DieId
  size : Nat
  launch : Nat
  node : Nat
  members : List CtxId
  table : List Binding
  saved : Option (List Image)
  record : Option Nat
  retiring : Bool
  deriving DecidableEq, Repr

/-- A link port of the device (21 R351, 23 R381): its record of the peer, the operations it accepted in order, sends and
receives apart, and the flits sent with the poison marks of their 8-byte granules. -/
structure Port where
  peer : BitVec 38
  sends : List LinkOp
  recvs : List LinkOp
  out : List (BitVec 512 × BitVec 8)
  deriving DecidableEq, Repr

/-! ## The bundle being issued -/

/-- A fault found by a syllable of the bundle (05 R96): position, cause code, SUB, fault address. -/
structure FaultAt where
  pos : Nat
  cause : BitVec 8
  sub : BitVec 4
  faddr : W64
  deriving DecidableEq, Repr

/-- A store of the bundle: virtual address, place of its first byte, bytes, size of the aligned block that the whole store covers
(22 R355), position of its syllable (02 R32). -/
structure StoreAt where
  va : W64
  at_ : Place
  bytes : List (Nat × Byte)
  clears : Nat
  pos : Nat
  deriving DecidableEq, Repr

/-- What the bundle does beyond its registers when it commits: the transfer taken, the end of the strand, and so on. -/
inductive Transfer where
  | none
  | to (a : W64)
  | skip (a : W64)
  | exit
  | yield
  | break_ (code : BitVec 12)
  | join (all : Bool)
  deriving DecidableEq, Repr

/-- The bundle that is being issued: the effects gathered from its syllables, which take place together at its commit
(00 R14, 02 R32). `busy` holds the banks of its core that are reserved before it, `touched` the global addresses it translates. -/
structure Issue where
  addr : W64
  following : W64
  pos : Nat
  lits : List W32
  transfer : Transfer
  loop_ : Option (Fin 2 × W64 × W64 × W64)
  illegal : BitVec 8
  faults : List FaultAt
  poisoned : List (Nat × W64)
  rollbacks : List (Nat × Nat)
  hold : Option Hold
  stores : List StoreAt
  sets : List (Nat × W64)
  guards : List (Nat × Nat)
  lfsr : W32
  idle : Nat
  commits : Bool
  katfail : Option (Nat × W64)
  observed : NatSet
  fence : Option Fence
  drops : Nat
  bad : Bool
  mark : Nat
  regionWas : W32
  busy : BitVec 32
  touched : List W64
  deriving DecidableEq, Repr

/-- The machine. -/
structure State where
  strands : Table Strand
  ctxs : Table Context
  cores : Table Core
  clusters : Table Cluster
  dies : Table Die
  mem : Memory
  hbmPoison : NatSet
  msTags : NatSet
  writes : List PWrite
  msgs : List Msg
  amsgs : List AMsg
  gangs : Table Gang
  ports : Table Port
  asids : Table AsidRec
  reports : List Report
  window : Table W64
  ready : Bool
  phase : Nat
  failStep : BitVec 8
  tamper : Nat
  halted : Bool
  dielost : BitVec 4
  key : Bool
  booted : Bool
  cmdacc : Nat
  cmddone : Nat
  cmds : List Cmd
  journal : Table Journal
  returned : List (List W64)
  graphs : Table Graph
  meas : BitVec 512
  hbmLogs : Table ELog
  scrhbm : Table Nat
  latent : List (Granule × Bool)
  power : Bool
  now : Nat
  ticked : Nat
  tick : Nat
  seq : Nat
  turn : StrandId
  pass : Bool
  agenda : List Instr
  iss : Issue
  deriving DecidableEq, Repr

/-- Why the machine stops with a fault. -/
inductive Fault where
  /-- Raised by step when the main supplies are off and nothing is on the agenda: the device then holds no state and
  performs no work (00 R3). Safe: no claim about a running device can rest on it. -/
  | supplyOff
  deriving DecidableEq, Repr

/-- Why an instruction is refused. -/
inductive Refusal where
  /-- Raised by exec alone, for an instruction that has no meaning yet. Safe: nothing is claimed of it. -/
  | notModelled (mnemonic : String)
  deriving DecidableEq, Repr

/-! ## Reset -/

/-- A frame that is not active (R82). -/
def Frame.reset : Frame := ⟨false, 0, 0⟩

/-- The trap record before any trap (R220). -/
def TrapRec.reset : TrapRec := ⟨0, 0, 0, 0, 0, 0, false, 0, 0, 0, 0, 0⟩

/-- A strand before its first kernel: the values of kernel entry (R49, R52), no bundle to issue. -/
def Strand.reset : Strand where
  g := Vector.replicate 64 0
  v := Vector.replicate 64 0
  k := Vector.replicate 8 0
  gp := []
  vp := []
  kp := []
  pc := 0
  step := 0
  jbudget := 256
  lc0 := 0
  lc1 := 0
  f0 := Frame.reset
  f1 := Frame.reset
  rbcause := 0
  rbaddr := 0
  fmt := 0
  fmtPoison := false
  rmode := 0
  lfsr := 1
  hintdrop := 0
  barovr := 0
  region := none
  inflight := []
  pend := []
  idle := 0
  fences := []
  observed := []
  exiting := false
  exited := false
  attached := true
  issuedTeam := 0
  queue := []
  hold := none
  waited := false
  joinGo := false
  confirmed := none
  waitSince := 0
  waitTime := 0
  late := []
  range := none
  ainit := none
  freed := []
  reissue := 0
  trapping := false
  trap := TrapRec.reset
  notice := 0
  lastFault := none
  repeats := 0
  unconfirmed := []
  mismatched := none
  stall := []

/-- A barrier slot at kernel entry (R274). -/
def Barrier.reset : Barrier := ⟨0, 0, 0, 0, Vector.replicate 4 none, []⟩

/-- A context that is not bound (R310). -/
def Context.reset : Context where
  run := .free
  suspending := false
  trapped := false
  frozen := false
  freezing := false
  parked := false
  bars := Vector.replicate 8 Barrier.reset
  ep := 0
  ready := 0
  teamNext := 0
  teamWait := false
  joins := []
  yielded := false
  brokenSeal := []

/-- A bind record after bring-up: cleared (R307, R377). -/
def Bind.reset : Bind := ⟨false, false, false, false, 0, 0, 0, 0, 0, 0, 0, 0, 0, 0, 0, 0⟩

/-- Geometry registers at entry (R209). -/
def Geometry.reset : Geometry := ⟨0, 0, Vector.replicate 6 0, Vector.replicate 6 0, Vector.replicate 6 0⟩

/-- A core after bring-up: its arrays hold values the manual does not give, 0 here (DESIGN CHOICE, log 3); tags empty (R377). -/
def Core.reset : Core where
  latch := Vector.replicate 4 (Vector.replicate 128 0)
  latchPoison := Vector.replicate 4 []
  acc := Vector.replicate 2 (Vector.replicate 64 0)
  accPoison := Vector.replicate 2 []
  stage := Vector.replicate 2 (Vector.replicate 64 0)
  stageRows := Vector.replicate 2 0
  stagePoison := Vector.replicate 2 []
  stageBanks := Vector.replicate 2 0
  arrayBusy := false
  reservations := []
  geo := Geometry.reset
  copyq := Vector.replicate 8 []
  qfence := Vector.replicate 8 []
  mlen := 0
  mcw := ⟨false, 0⟩
  msq := []
  lcw := Vector.replicate 16 ⟨false, 0⟩
  spad := []
  spadUndef := []
  tags := []
  spadPoison := []

/-- A cluster after bring-up: caches empty, its counter in step (R324, R377). -/
def Cluster.reset : Cluster where
  cache := []
  ladle := []
  error := 0
  stopped := false
  blind := false
  restarted := false
  goodBeacons := 0
  tlb := []
  ibuf := []
  running := none
  lastAt := Vector.replicate 4 none

/-- A graph engine after bring-up (R305). -/
def Engine.reset : Engine := ⟨[], 0, 12, 0, 0, false, false, 0, 0, [], none⟩

/-- An empty error log (R360). -/
def ELog.reset : ELog := ⟨[], 0, 0⟩

/-- A die after bring-up (R2, R305, R307, R323, R327, R336, R359 to R361). -/
def Die.reset : Die where
  l2 := []
  written := []
  dir := []
  txns := []
  waiting := []
  mshr := []
  owed := []
  wbuf := []
  tundish := []
  tlb := []
  walks := []
  guard := 32
  lord := 1000
  lhot := 128
  lro := 64000
  blindEvents := 0
  dieError := 0
  dieOff := false
  dieGood := 0
  missed := 0
  salvbase := 0
  salvsize := 0
  salvnext := 0
  losthome := 0
  heard := 0
  failed := false
  engine := Engine.reset
  slots := []
  gcommit := 0
  placing := []
  bmem := []
  blnk := []
  biss := []
  used := []
  deferred := []
  admitted := []
  period := 0
  overs := []
  logs := Vector.replicate 5 ELog.reset
  qctl := 1
  qmask := 0
  scrl2 := 8
  scrsp := 4
  scrcc := 4
  clock := 1300

/-- No bundle is being issued. -/
def Issue.reset : Issue where
  addr := 0
  following := 0
  pos := 0
  lits := []
  transfer := .none
  loop_ := none
  illegal := 0
  faults := []
  poisoned := []
  rollbacks := []
  hold := none
  stores := []
  sets := []
  guards := []
  lfsr := 1
  idle := 0
  commits := false
  katfail := none
  observed := []
  fence := none
  drops := 0
  bad := false
  mark := 0
  regionWas := 0
  busy := 0
  touched := []

/-- The machine right after reset: bring-up has ended and READY is set (00 R10, 23 R367, R377); nothing is bound, no
command has been accepted, nothing stands on the agenda. -/
def State.reset : State where
  strands := []
  ctxs := []
  cores := []
  clusters := []
  dies := []
  mem := []
  hbmPoison := []
  msTags := []
  writes := []
  msgs := []
  amsgs := []
  gangs := []
  ports := []
  asids := []
  reports := []
  window := []
  ready := true
  phase := 4
  failStep := 0
  tamper := 0
  halted := false
  dielost := 0
  key := true
  booted := true
  cmdacc := 0
  cmddone := 0
  cmds := []
  journal := []
  returned := []
  graphs := []
  meas := Config.bootMeasurement
  hbmLogs := []
  scrhbm := []
  latent := []
  power := true
  now := 0
  ticked := 0
  tick := 0
  seq := 0
  turn := ⟨0, 0, 0, 0⟩
  pass := false
  agenda := []
  iss := Issue.reset

end Sys2Proof.Machine
end

