-- ==== Sys2Proof/Machine/Ops.lean ====
section
/-! DEFINITION. The named operations over tables, memory, registers and the run of a strand: landing, idle steps, rollback,
taking a trap and resuming. Every family uses these and no other way to reach the state. -/

namespace Sys2Proof.Machine

/-! ## Tables and sets -/

/-- The entry of a table at a key. -/
def tget {α : Type} (t : Table α) (k : Nat) : Option α :=
  match t with
  | [] => none
  | (k', v) :: r => if k' = k then some v else tget r k

/-- A table with one entry written, keys kept rising. -/
def tset {α : Type} (t : Table α) (k : Nat) (v : α) : Table α :=
  match t with
  | [] => [(k, v)]
  | (k', v') :: r =>
    if k < k' then (k, v) :: (k', v') :: r
    else if k = k' then (k, v) :: r
    else (k', v') :: tset r k v

/-- A table with one entry removed. -/
def terase {α : Type} (t : Table α) (k : Nat) : Table α := t.filter fun x => x.1 != k

/-- Insert a number. -/
def nsInsert (t : NatSet) (k : Nat) : NatSet :=
  match t with
  | [] => [k]
  | k' :: r => if k < k' then k :: k' :: r else if k = k' then k' :: r else k' :: nsInsert r k

/-- Remove a number. -/
def nsErase (t : NatSet) (k : Nat) : NatSet := t.filter (fun x => x != k)

/-- Set or clear the membership of a number. -/
def nsPut (t : NatSet) (k : Nat) (b : Bool) : NatSet := if b then nsInsert t k else nsErase t k

/-! ## Physical memory (00 R7, R8) -/

/-- What an address that is not listed reads as (DESIGN CHOICE, log 2). -/
def memDefault : Byte := 0

/-- One byte of physical memory. -/
def memRead (m : Memory) (a : Nat) : Byte := (tget m a).getD memDefault

/-- Memory with one byte written: writing the value an unlisted byte reads as removes the entry. -/
def memWrite (m : Memory) (a : Nat) (b : Byte) : Memory :=
  if b = memDefault then terase m a else tset m a b

/-- Canonical form of memory: addresses strictly rising, no entry that reads as an unlisted byte. -/
def Memory.wf (m : Memory) : Bool :=
  match m with
  | [] => true
  | [(_, b)] => b != memDefault
  | (a, b) :: (a', b') :: r => decide (a < a') && (b != memDefault) && Memory.wf ((a', b') :: r)

/-- Consecutive bytes of memory. -/
def memBytes (m : Memory) (a n : Nat) : List Byte := (List.range n).map fun i => memRead m (a + i)

/-- Consecutive bytes written, in increasing address. -/
def memWriteBytes (m : Memory) (a : Nat) (bs : List Byte) : Memory :=
  match bs with
  | [] => m
  | b :: r => memWriteBytes (memWrite m a b) (a + 1) r

/-- The number that bytes hold, little-endian (R8). -/
def leNat (bs : List Byte) : Nat :=
  match bs with
  | [] => 0
  | b :: r => b.toNat + 256 * leNat r

/-- A number as n bytes, little-endian (R8). -/
def leBytes (n v : Nat) : List Byte :=
  match n with
  | 0 => []
  | k + 1 => BitVec.ofNat 8 v :: leBytes k (v / 256)

/-- A 64-bit word of memory. -/
def memWord (m : Memory) (a : Nat) : W64 := BitVec.ofNat 64 (leNat (memBytes m a 8))

/-- A 64-bit word written to memory. -/
def memSetWord (m : Memory) (a : Nat) (x : W64) : Memory := memWriteBytes m a (leBytes 8 x.toNat)

/-- 64-byte granules of physical memory that a range touches (22 R355). -/
def granules (a n : Nat) : List Nat :=
  if n = 0 then [] else (List.range ((a + n - 1) / 64 - a / 64 + 1)).map fun i => a / 64 + i

end Sys2Proof.Machine

namespace Sys2Proof

/-! ## Keys: the place of an agent in its table -/

/-- Key of a cluster. -/
def ClusterId.key (l : ClusterId) : Nat := l.die.val * 32 + l.cluster.val
/-- Key of a context. -/
def CtxId.key (c : CtxId) : Nat := (c.die.val * 32 + c.cluster.val) * 8 + c.ctx.val
/-- Key of a core. -/
def CoreId.key (o : CoreId) : Nat := (o.die.val * 32 + o.cluster.val) * 4 + o.core.val
/-- Key of a strand. -/
def StrandId.key (t : StrandId) : Nat := ((t.die.val * 32 + t.cluster.val) * 8 + t.ctx.val) * 4 + t.core.val

/-- The context of a strand. -/
def StrandId.ctxId (t : StrandId) : CtxId := ⟨t.die, t.cluster, t.ctx⟩
/-- The core of a strand. -/
def StrandId.coreId (t : StrandId) : CoreId := ⟨t.die, t.cluster, t.core⟩
/-- The cluster of a strand. -/
def StrandId.clusterId (t : StrandId) : ClusterId := ⟨t.die, t.cluster⟩
/-- The cluster of a context. -/
def CtxId.clusterId (c : CtxId) : ClusterId := ⟨c.die, c.cluster⟩
/-- The cluster of a core. -/
def CoreId.clusterId (o : CoreId) : ClusterId := ⟨o.die, o.cluster⟩
/-- A strand of a context. -/
def CtxId.strand (c : CtxId) (n : Fin 4) : StrandId := ⟨c.die, c.cluster, c.ctx, n⟩
/-- The core of a context's strand. -/
def CtxId.coreId (c : CtxId) (n : Fin 4) : CoreId := ⟨c.die, c.cluster, n⟩
/-- The four strands of a context. -/
def CtxId.strands (c : CtxId) : List StrandId := [c.strand 0, c.strand 1, c.strand 2, c.strand 3]
/-- A context of a cluster. -/
def ClusterId.ctxId (l : ClusterId) (n : Fin 8) : CtxId := ⟨l.die, l.cluster, n⟩
/-- The strand with a key. -/
def strandOfKey (k : Nat) : StrandId :=
  ⟨Fin.ofNat 4 (k / 1024), Fin.ofNat 32 (k / 32), Fin.ofNat 8 (k / 4), Fin.ofNat 4 k⟩
/-- The context with a key. -/
def ctxOfKey (k : Nat) : CtxId := ⟨Fin.ofNat 4 (k / 256), Fin.ofNat 32 (k / 8), Fin.ofNat 8 k⟩
/-- The cluster with a key. -/
def clusterOfKey (k : Nat) : ClusterId := ⟨Fin.ofNat 4 (k / 32), Fin.ofNat 32 k⟩
/-- The core with a key. -/
def coreOfKey (k : Nat) : CoreId := ⟨Fin.ofNat 4 (k / 128), Fin.ofNat 32 (k / 4), Fin.ofNat 4 k⟩

end Sys2Proof

namespace Sys2Proof.Machine

/-! ## Parts of the state -/

/-- A strand's state. -/
def State.strand (s : State) (t : StrandId) : Strand := (tget s.strands t.key).getD Strand.reset
/-- Write a strand's state. -/
def State.setStrand (s : State) (t : StrandId) (x : Strand) : State := { s with strands := tset s.strands t.key x }
/-- A context's state. -/
def State.ctx (s : State) (c : CtxId) : Context := (tget s.ctxs c.key).getD Context.reset
/-- Write a context's state. -/
def State.setCtx (s : State) (c : CtxId) (x : Context) : State := { s with ctxs := tset s.ctxs c.key x }
/-- A core's state. -/
def State.core (s : State) (o : CoreId) : Core := (tget s.cores o.key).getD Core.reset
/-- Write a core's state. -/
def State.setCore (s : State) (o : CoreId) (x : Core) : State := { s with cores := tset s.cores o.key x }
/-- A cluster's state. -/
def State.cluster (s : State) (l : ClusterId) : Cluster := (tget s.clusters l.key).getD Cluster.reset
/-- Write a cluster's state. -/
def State.setCluster (s : State) (l : ClusterId) (x : Cluster) : State := { s with clusters := tset s.clusters l.key x }
/-- A die's state. -/
def State.die (s : State) (d : DieId) : Die := (tget s.dies d.val).getD Die.reset
/-- Write a die's state. -/
def State.setDie (s : State) (d : DieId) (x : Die) : State := { s with dies := tset s.dies d.val x }

/-- The strand whose bundle is being issued. -/
def State.cur (s : State) : Strand := s.strand s.turn
/-- Change the strand whose bundle is being issued. -/
def State.setCur (s : State) (x : Strand) : State := s.setStrand s.turn x
/-- Change the record of the bundle being issued. -/
def State.setIss (s : State) (x : Issue) : State := { s with iss := x }

/-- The bind record of a context (18 R307): entry cluster × 8 + context of its die's slot table. -/
def State.bindOf (s : State) (c : CtxId) : Bind :=
  (tget (s.die c.die).slots (c.cluster.val * 8 + c.ctx.val)).getD Bind.reset
/-- Write a bind record. -/
def State.setBind (s : State) (c : CtxId) (b : Bind) : State :=
  s.setDie c.die { s.die c.die with slots := tset (s.die c.die).slots (c.cluster.val * 8 + c.ctx.val) b }

/-- Whether the context of a strand is bound as matrix-using (03 R50). -/
def State.matrix (s : State) (t : StrandId) : Bool := (s.bindOf t.ctxId).matrix

/-- Take a fresh age for a memory operation. -/
def State.fresh (s : State) : Nat × State := (s.seq, { s with seq := s.seq + 1 })

/-- Device time at a cluster (20 R324): its counter, stopped or not, never below 0. -/
def State.timeAt (s : State) (l : ClusterId) : Nat := (Int.ofNat s.now + (s.cluster l).error).toNat

/-- Cycles of the arithmetic clock in a span of device time. -/
def State.cycles (s : State) (d : DieId) (ns : Nat) : Nat := ns * (s.die d).clock / 1000

/-! ## Scratchpads (00 R2, 03 R51) -/

/-- The tick at which an absent byte became undefined: 0 outside the recorded ranges. -/
def undefTick (rs : List (Nat × Nat × Nat)) (off : Nat) : Nat :=
  match rs with
  | [] => 0
  | (lo, hi, k) :: r => if lo ≤ off ∧ off < hi then k else undefTick r off

/-- One byte of a core's scratchpad; one that nothing has written is a free value (DESIGN CHOICE, log 6). -/
def Core.spadByte (o : Core) (key off : Nat) : Byte :=
  match tget o.spad off with
  | some b => b
  | none => Config.spadByte (undefTick o.spadUndef off) (key * 0x80000 + off)

/-- One byte of a scratchpad. -/
def State.spadRead (s : State) (key off : Nat) : Byte := (s.core (coreOfKey key)).spadByte key off

/-- One byte of a scratchpad written; the write of the granule's byte leaves the poison mark to the caller. -/
def State.spadWrite (s : State) (key off : Nat) (b : Byte) : State :=
  s.setCore (coreOfKey key) { s.core (coreOfKey key) with spad := tset (s.core (coreOfKey key)).spad off b }

/-- Whether the 8-byte granule of a scratchpad byte is poisoned (22 R354). -/
def State.spadPoisoned (s : State) (key off : Nat) : Bool := ((s.core (coreOfKey key)).spadPoison).contains (off / 8)

/-- Consecutive bytes of a scratchpad. -/
def State.spadBytes (s : State) (key off n : Nat) : List Byte := (List.range n).map fun i => s.spadRead key (off + i)

/-! ## Scratchpad banks (03 R64) -/

/-- The banks of n bytes of a scratchpad, one bit each: bits 10:6 of the address. -/
def bankBits (off n : Nat) : BitVec 32 :=
  (List.range (min 32 ((off + n - 1) / 64 - off / 64 + 1))).foldl (fun m i => m ||| (1#32 <<< ((off / 64 + i) % 32))) 0

/-- The banks of a core that matrix work and stores of accumulators hold. -/
def Core.heldBanks (o : Core) : BitVec 32 := o.reservations.foldl (fun m r => m ||| r.banks) 0

/-- The bank of a scratchpad byte, as the banks of one byte. -/
def Loc.bank (l : Loc) (core : Nat) : BitVec 32 :=
  match l with
  | .spad o off => if o = core then bankBits off 1 else 0
  | .phys _ => 0

/-- The banks of a core that the copies of one core's queues hold. -/
def Core.copyBanks (o : Core) (core : Nat) : BitVec 32 :=
  o.copyq.foldl (fun m q =>
    q.foldl (fun m op => if op.begun && op.status.isNone then op.chunk.foldl (fun m l => m ||| l.bank core) m else m) m) 0

/-- The banks of a core that engine transfers under way hold: those of the chunks that they move next, whichever core's engine moves them
(R64; how large a chunk is: DESIGN CHOICE, log 54). -/
def State.chunkBanks (s : State) (core : Nat) : BitVec 32 :=
  s.cores.foldl (fun m o => m ||| o.2.copyBanks core) 0 |||
  s.ports.foldl (fun m p =>
    (p.2.sends ++ p.2.recvs).foldl (fun m x =>
      if x.core = core ∧ 0 < x.moved ∧ x.moved < x.len then m ||| bankBits (x.base + x.moved) 1 else m) m) 0

/-- Whether some of the banks of a core are reserved. -/
def State.banksHeld (s : State) (core : Nat) (banks : BitVec 32) : Bool :=
  ((s.core (coreOfKey core)).heldBanks ||| s.chunkBanks core) &&& banks != 0

/-- Whether some of the banks of a core are reserved; for the core of the bundle being issued, as before the bundle (00 R14). -/
def State.bankBusy (s : State) (core : Nat) (banks : BitVec 32) : Bool :=
  (if core = s.turn.coreId.key then s.iss.busy else (s.core (coreOfKey core)).heldBanks ||| s.chunkBanks core) &&& banks != 0

/-- Whether some of the banks named by core are reserved for the bundle being issued. -/
def State.busyOf (s : State) (xs : List (Nat × BitVec 32)) : Bool := xs.any fun x => s.bankBusy x.1 x.2

/-- Reserve banks of a core until named work is complete. -/
def State.reserveBanks (s : State) (core : CoreId) (banks : BitVec 32) (array : Bool) : State :=
  s.setCore core { s.core core with reservations := (s.core core).reservations ++ [⟨banks, array⟩] }

/-! ## Registers of a strand (03 R48) -/

/-- A scalar register: g0 reads zero. -/
def Strand.rg (t : Strand) (r : Reg) : W64 := if r = 0 then 0 else t.g[r.toNat]'r.isLt
/-- A vector register. -/
def Strand.rv (t : Strand) (r : Reg) : VReg := t.v[r.toNat]'r.isLt
/-- A predicate register by number: k0 reads all ones. -/
def Strand.rk (t : Strand) (n : Nat) : W64 :=
  if n % 8 = 0 then BitVec.allOnes 64 else t.k[n % 8]'(Nat.mod_lt n (by decide))

/-- A scalar register written: a write to g0 is discarded. -/
def Strand.wg (t : Strand) (r : Reg) (x : W64) (p : Bool) : Strand :=
  if r = 0 then t else { t with g := t.g.set r.toNat x r.isLt, gp := nsPut t.gp r.toNat p }
/-- A vector register written. -/
def Strand.wv (t : Strand) (r : Reg) (x : VReg) (p : Bool) : Strand :=
  { t with v := t.v.set r.toNat x r.isLt, vp := nsPut t.vp r.toNat p }
/-- A predicate register written: a write to k0 is discarded. -/
def Strand.wk (t : Strand) (r : Reg) (x : W64) (p : Bool) : Strand :=
  if r.toNat % 8 = 0 then t
  else { t with k := t.k.set (r.toNat % 8) x (Nat.mod_lt _ (by decide)), kp := nsPut t.kp (r.toNat % 8) p }

/-- A result put in the registers of a strand. -/
def Strand.put (t : Strand) (tg : Tgt) (d : Dat) (p : Bool) : Strand :=
  match tg, d with
  | .g r, .w x => t.wg r x p
  | .v r, .v x => t.wv r x p
  | .k r, .w x => t.wk r x p
  | .fmt, .fmt x => { t with fmt := x, fmtPoison := p }
  | _, _ => t

/-- A result put in a snapshot (06 R112). -/
def Snapshot.put (t : Snapshot) (tg : Tgt) (d : Dat) (p : Bool) : Snapshot :=
  match tg, d with
  | .g r, .w x =>
    if r = 0 then t else { t with g := t.g.set r.toNat x r.isLt, gp := nsPut t.gp r.toNat p }
  | .v r, .v x => { t with v := t.v.set r.toNat x r.isLt, vp := nsPut t.vp r.toNat p }
  | .k r, .w x =>
    if r.toNat % 8 = 0 then t
    else { t with k := t.k.set (r.toNat % 8) x (Nat.mod_lt _ (by decide)), kp := nsPut t.kp (r.toNat % 8) p }
  | _, _ => t

/-- Whether a result lands in the matrix unit. -/
def Tgt.inMatrix (t : Tgt) : Bool := match t with | .latch _ => true | .stage _ => true | .acc _ => true | _ => false

/-- Rows written to consecutive rows of an array from row n. -/
def putRows {w k : Nat} (a : Vector (BitVec w) k) (n : Nat) (xs : List (BitVec w × Bool)) : Vector (BitVec w) k :=
  match xs with
  | [] => a
  | (x, _) :: r => putRows (a.set! n x) (n + 1) r

/-- Poison marks of consecutive rows from row n. -/
def putMarks {w : Nat} (m : NatSet) (n : Nat) (xs : List (BitVec w × Bool)) : NatSet :=
  match xs with
  | [] => m
  | (_, p) :: r => putMarks (nsPut m n p) (n + 1) r

/-- The data of a result whose replay register is poisoned: each of its rows is (22 R354). -/
def Dat.poisoned (d : Dat) : Dat :=
  match d with
  | .rows xs banks => .rows (xs.map fun x => (x.1, true)) banks
  | .accRows xs => .accRows (xs.map fun x => (x.1, true))
  | _ => d

/-- A result put in the matrix unit of a core (11 R199). -/
def Core.put (o : Core) (tg : Tgt) (d : Dat) : Core :=
  match tg, d with
  | .latch w, .rows xs _ =>
    { o with latch := o.latch.set w.val (putRows (o.latch[w.val]) 0 xs)
             latchPoison := o.latchPoison.set w.val (putMarks [] 0 xs) }
  | .stage n, .rows xs banks =>
    { o with stageBanks := o.stageBanks.set n.val banks
             stage := o.stage.set n.val (putRows (o.stage[n.val]) 0 xs)
             stageRows := o.stageRows.set n.val xs.length
             stagePoison := o.stagePoison.set n.val (putMarks [] 0 xs) }
  | .acc n, .accRows xs =>
    { o with acc := o.acc.set n.val (putRows (o.acc[n.val]) 0 xs)
             accPoison := o.accPoison.set n.val (putMarks (o.accPoison[n.val]) 0 xs) }
  | _, _ => o

/-- Whether step a is older than step b; the counter wraps (03 R52). -/
def stepBefore (a b : W64) : Bool := decide (a ≠ b ∧ (b - a).toNat < 2 ^ 63)

/-- A result lands (03 R57, R58): in the strand, in the snapshot too when it was issued before the checkpoint (06 R112), or
in the core's matrix unit. -/
def State.landOne (s : State) (t : StrandId) (tg : Tgt) (d : Dat) (p : Bool) (issued : W64) : State :=
  let rows := if p then d.poisoned else d
  match tg with
  | .latch _ => s.setCore t.coreId ((s.core t.coreId).put tg rows)
  | .stage _ => s.setCore t.coreId ((s.core t.coreId).put tg rows)
  | .acc _ => s.setCore t.coreId ((s.core t.coreId).put tg rows)
  | _ =>
    let st := (s.strand t).put tg d p
    s.setStrand t { st with
      region := st.region.map fun r =>
        if stepBefore issued r.step then { r with snap := r.snap.put tg d p } else r }

/-- Results land one after the other, in the order of their issue. -/
def State.landAll (s : State) (t : StrandId) (xs : List Exposed) : State :=
  match xs with
  | [] => s
  | x :: r => (s.landOne t x.tgt x.dat x.poison x.issued).landAll t r

/-- The end of the strand's current step: every exposed result due at it lands (03 R57, R59). -/
def State.landDue (s : State) (t : StrandId) : State :=
  let st := s.strand t
  (s.setStrand t { st with inflight := st.inflight.filter fun x => x.due != st.step }).landAll t
    (st.inflight.filter fun x => x.due == st.step)

/-- The earliest step, up to a given one, at which a result of a strand is due. -/
def Strand.nextDue (t : Strand) (n : W64) : Option W64 :=
  ((t.inflight.map (·.due)).filter fun d => !stepBefore n d).foldl
    (fun acc d => match acc with | none => some d | some x => if stepBefore d x then some d else some x) none

/-- A strand's step counter comes to a step, the results due on the way landing in order; `fuel` bounds their instants. -/
def State.alignTo (s : State) (t : StrandId) (n : W64) (fuel : Nat) : State :=
  match fuel, (s.strand t).nextDue n with
  | k + 1, some d => ((s.setStrand t { s.strand t with step := d }).landDue t).alignTo t n k
  | _, _ => s.setStrand t { s.strand t with step := n }

/-- One idle step (03 R55, R56, R62): the counter advances and results land. -/
def State.idleOnce (s : State) (t : StrandId) : State :=
  let st := s.strand t
  (s.setStrand t { st with step := st.step + 1, idle := st.idle - 1 }).landDue t

/-- An exposed result of the bundle being issued, with latency `lat` (03 R57), poisoned or not (05 R97). -/
def State.resultP (s : State) (tg : Tgt) (d : Dat) (lat : Nat) (p : Bool) : State :=
  let st := s.cur
  s.setCur { st with inflight := st.inflight ++
    [⟨tg, d, st.step + BitVec.ofNat 64 (lat - 1), st.step, p⟩] }

/-- An exposed result with latency `lat` (03 R57). -/
def State.result (s : State) (tg : Tgt) (d : Dat) (lat : Nat) : State := s.resultP tg d lat false

/-- A scalar result. -/
def State.resultG (s : State) (d : Reg) (x : W64) (lat : Nat) : State := s.result (.g d) (.w x) lat
/-- A vector result. -/
def State.resultV (s : State) (d : Reg) (x : VReg) (lat : Nat) : State := s.result (.v d) (.v x) lat
/-- A predicate result. -/
def State.resultK (s : State) (d : Reg) (x : W64) (lat : Nat) : State := s.result (.k d) (.w x) lat

/-! ## Findings of the bundle being issued -/

/-- A syllable finds a fault (05 R96). -/
def State.faultAt (s : State) (cause : BitVec 8) (sub : BitVec 4) (faddr : W64) : State :=
  s.setIss { s.iss with faults := s.iss.faults ++ [⟨s.iss.pos, cause, sub, faddr⟩] }

/-- ILLEGAL that only the issue of the syllable finds (04 R81, R83; 11 R200). -/
def State.illegal (s : State) : State := s.faultAt 1 0 0

/-- ILLEGAL of a syllable's encoding or of matrix use (02 R33, 03 R50). -/
def State.illegalEncoding (s : State) : State :=
  s.setIss { s.iss with illegal := s.iss.illegal ||| (1#8 <<< s.iss.pos) }

/-- A syllable asks for a rollback (06 R125); outside a region this says nothing. -/
def State.rollbackFor (s : State) (cause : Nat) : State :=
  s.setIss { s.iss with rollbacks := s.iss.rollbacks ++ [(s.iss.pos, cause)] }

/-- A syllable holds its bundle at issue. -/
def State.holdFor (s : State) (h : Hold) : State := s.setIss { s.iss with hold := some h }

/-- A poisoned operand was read (03 R61, 12 R222): FADDR as R222 lays it out. -/
def State.poisonAt (s : State) (faddr : W64) : State :=
  s.setIss { s.iss with poisoned := s.iss.poisoned ++ [(s.iss.pos, faddr)] }

/-- What the bundle does next. -/
def State.transfer (s : State) (x : Transfer) : State := s.setIss { s.iss with transfer := x }

/-- Whether the strand has a region open. -/
def State.inRegion (s : State) : Bool := s.cur.region.isSome

/-- A syllable that something holds is carried on with in a region alone: it is excluded there, and what its later checks find ranks before
the exclusion (06 R126). -/
def State.checked (s : State) (f : State → State) : State := if s.inRegion then f s else s

/-- A syllable that is excluded in a region (06 R118): there it does nothing, but ILLEGAL, a fault of its own operands or a poisoned
one ranks before the exclusion (06 R126). -/
def State.outsideRegion (s : State) (f : State → State) : State :=
  if s.inRegion then
    (s.setIss { s.iss with
      illegal := (f s).iss.illegal, faults := (f s).iss.faults, poisoned := (f s).iss.poisoned }).rollbackFor 4
  else f s

/-- A syllable of a matrix-using context (03 R50) that is excluded in a region (06 R118): ILLEGAL ranks first. -/
def State.matrixOnly (s : State) (f : State → State) : State :=
  if s.matrix s.turn then s.outsideRegion f else s.illegalEncoding

/-! ## Delayed lockstep (22 R362) -/

/-- Whether a context is the trailing copy of a lockstep pair (22 R362). -/
def State.trails (s : State) (c : CtxId) : Bool := (s.bindOf c).lock && decide (c.cluster.val % 2 = 1)

/-- The other copy of a lockstep pair: on the other cluster of 2j and 2j + 1, by the records of its gang, at any context index (22 R362, 18
R309). -/
def State.mateOf (s : State) (c : CtxId) : CtxId :=
  let b := s.bindOf c
  let at_ := fun (n : Fin 8) => (⟨c.die, Fin.ofNat 32 (if c.cluster.val % 2 = 0 then c.cluster.val + 1 else c.cluster.val - 1), n⟩ : CtxId)
  let pairs := fun (n : Fin 8) =>
    let x := s.bindOf (at_ n)
    x.lock && x.gang == b.gang && x.cig == b.cig && x.valid == b.valid
  if pairs c.ctx then at_ c.ctx else at_ (((List.finRange 8).find? pairs).getD c.ctx)

/-- The strand of the other copy. -/
def State.mateStrand (s : State) (t : StrandId) : StrandId := (s.mateOf t.ctxId).strand t.core

/-- The context that a pair goes by: the leading copy's for the trailing one. -/
def State.leading (s : State) (c : CtxId) : CtxId := if s.trails c then s.mateOf c else c

/-! ## Rollback (06 R124) -/

/-- %region (06 R120) as a bundle with step number n issues. -/
def Strand.regionWord (t : Strand) (n : W64) : W32 :=
  match t.region with
  | none => 0
  | some r =>
    let len := min (n - r.step).toNat 0x1FFFF
    BitVec.ofNat 32 (1 + 2 * r.guards.length + 256 * len)

/-- The strand with the items of R111 restored, the results of the region discarded and the cause recorded. -/
def Strand.restored (t : Strand) (r : Region) (cause : Nat) (bundle next : W64) : Strand :=
  { t with
    g := r.snap.g, v := r.snap.v, k := r.snap.k, gp := r.snap.gp, vp := r.snap.vp, kp := r.snap.kp
    f0 := r.snap.f0, f1 := r.snap.f1, lc0 := r.snap.lc0, lc1 := r.snap.lc1
    rmode := r.snap.rmode, lfsr := r.snap.lfsr, jbudget := r.snap.jbudget
    inflight := t.inflight.filter fun x => stepBefore x.issued r.step
    pend := t.pend.filter fun x => stepBefore x.issued r.step
    rbcause := BitVec.ofNat 4 cause, rbaddr := bundle
    unconfirmed := t.unconfirmed.filter fun x => stepBefore x.step r.step
    confirmed := none, mismatched := if cause = 9 then t.mismatched else none
    reissue := if cause = 7 then t.reissue else 0
    region := none, attached := false, pc := next, queue := [], idle := 0, hold := none, waited := false, joinGo := false, range := none
    stall := [] }

/-- The trailing copy of a strand that rolls back does so too, once it has opened the region (22 R362, R364). -/
def State.rollbackCopy (s : State) (t : StrandId) (cause : Nat) (bundle next : W64) : State :=
  let m := s.mateStrand t
  match (s.bindOf t.ctxId).lock, (s.strand m).region with
  | true, some r => s.setStrand m ((s.strand m).restored r cause bundle next)
  | _, _ => s

/-- Rollback of strand t with a cause at a bundle (R124), which counts as a step now or has not to (01 R19): at the end of a step the
results issued before the region land. -/
def State.rollbackAt (s : State) (t : StrandId) (cause : Nat) (bundle : W64) (counts : Bool) : State :=
  let st := s.strand t
  match st.region with
  | none => s
  | some r =>
    let next := if cause ≤ 6 then r.recovery else r.bundle
    let st' := st.restored r cause bundle next
    (if counts then (s.setStrand t { st' with step := st'.step + 1 }).landDue t else s.setStrand t st').rollbackCopy t cause bundle next

/-- Rollback at the bundle being issued (R124): it counts as a step, except under FREEZE. -/
def State.rollback (s : State) (t : StrandId) (cause : Nat) (bundle : W64) : State :=
  s.rollbackAt t cause bundle (cause != 8)

/-! ## Physical addresses (00 R7, 20 R328) -/

/-- One past the last byte of HBM. -/
def hbmEnd : Nat := 0x00C000000000
/-- First byte of the host windows. -/
def hostBase : Nat := 0x800000000000
/-- The home die of an HBM byte. -/
def homeDie (pa : Nat) : DieId := Fin.ofNat 4 (pa / 0x003000000000)
/-- The 128-byte line of a byte. -/
def lineOf (pa : Nat) : Nat := pa / 128

/-- The four dies. -/
def allDies : List DieId := [0, 1, 2, 3]

/-- A dirty copy of a line in the L2 of some die of a list. -/
def l2Dirty (s : State) (ds : List DieId) (line : Nat) : Option (List Byte × BitVec 4) :=
  match ds with
  | [] => none
  | d :: r =>
    match tget (s.die d).l2 line with
    | some x => if x.st = .M ∨ x.st = .O then some (x.data, x.poison) else l2Dirty s r line
    | none => l2Dirty s r line

/-- The data of a line that messages carry, the latest message first: dirty lines on their way home before other data. -/
def msgData (ms : List Msg) (line : Nat) : Option (List Byte × BitVec 4) :=
  let here := fun k => (ms.filterMap fun m => if m.line = line ∧ m.kind = k then m.data else none).getLast?
  match here .wbDirty with
  | some x => some x
  | none => here .data

/-- The data of a line that dies hold outside their slices: owed to the home, or come for a write not yet granted. -/
def dieData (s : State) (ds : List DieId) (line : Nat) : Option (List Byte × BitVec 4) :=
  match ds with
  | [] => none
  | d :: r =>
    match ((s.die d).owed.find? fun o => o.line == line && o.wb.isSome) with
    | some o => o.wb
    | none =>
      match tget (s.die d).mshr line with
      | some m => (match m.data with | some x => some x | none => dieData s r line)
      | none => dieData s r line

/-- The newest copy of a line outside its home's memory, if there is one (20 R328 to R332). -/
def State.newest (s : State) (line : Nat) : Option (List Byte × BitVec 4) :=
  match l2Dirty s allDies line with
  | some x => some x
  | none =>
    match msgData s.msgs line with
    | some x => some x
    | none => dieData s allDies line

/-- Whether the only current copy of a line was on a die that has failed (20 R335). -/
def State.ownerLost (s : State) (line : Nat) : Bool :=
  match tget (s.die (homeDie (line * 128))).dir line with
  | some e => e.st != .S && (s.die e.owner).failed
  | none => false

/-- A byte of physical memory as performed at device scope: at the home of its line, or in the slice that owns it. -/
def State.deviceByte (s : State) (pa : Nat) : Byte :=
  match s.newest (lineOf pa) with
  | some x => x.1.getD (pa % 128) 0
  | none => memRead s.mem pa

/-- Whether a byte is poisoned as a read at device scope finds it (22 R355, 20 R335, R357). -/
def State.devicePoison (s : State) (pa : Nat) : Bool :=
  match s.newest (lineOf pa) with
  | some x => x.2.getLsbD (pa % 128 / 32)
  | none => s.hbmPoison.contains (pa / 64) || (decide (pa < hbmEnd) && s.ownerLost (lineOf pa))

/-- The lines of which a die holds a copy outside memory. -/
def Die.linesOut (d : Die) : NatSet := (d.l2.map (·.1)) ++ (d.owed.map (·.line)) ++ d.mshr.map (·.1)

/-- The lines of which a copy stands outside memory. -/
def State.linesOut (s : State) : NatSet := (s.msgs.map (·.line)) ++ s.dies.flatMap fun d => d.2.linesOut

/-- Physical memory as reads at device scope find it. -/
def State.deviceImage (s : State) : Memory :=
  s.linesOut.foldl (fun m l => match s.newest l with | some x => memWriteBytes m (128 * l) x.1 | none => m) s.mem

/-- The sectors of 32 bytes that are poisoned as reads at device scope find them. -/
def State.poisonedSectors (s : State) : List Nat :=
  let lines := s.linesOut ++ s.dies.flatMap fun d => d.2.dir.map (·.1)
  ((s.hbmPoison.flatMap fun g => [2 * g, 2 * g + 1]) ++ lines.flatMap fun l => (List.range 4).map fun j => 4 * l + j).filter
    fun k => s.devicePoison (32 * k)

/-- Whether some of n bytes from an address on lie in one of a list of sectors. -/
def inSectors (ks : List Nat) (pa n : Nat) : Bool := ks.any fun k => decide (pa < 32 * k + 32 ∧ 32 * k < pa + n)

/-- A 64-bit word at device scope. -/
def State.deviceWord (s : State) (pa : Nat) : W64 :=
  BitVec.ofNat 64 (leNat ((List.range 8).map fun i => s.deviceByte (pa + i)))

/-- Bytes with their offsets. -/
def withOffsets (bs : List Byte) : List (Nat × Byte) := (List.range bs.length).zip bs

/-- Poison of an HBM granule after bytes of it are written (22 R355). -/
def State.clearHbm (s : State) (pa : Nat) (whole : Bool) : State :=
  if whole then { s with hbmPoison := nsErase s.hbmPoison (pa / 64) } else s

/-- The 64-byte granules that a write of n bytes covers whole lose their poison (22 R355). -/
def State.cleanWhole (s : State) (pa n : Nat) : State :=
  { s with hbmPoison := s.hbmPoison.filter fun g => !decide (pa ≤ 64 * g ∧ 64 * g + 64 ≤ pa + n) }

/-- Bytes of a write put in memory at their home. -/
def memApply (m : Memory) (pa : Nat) (bs : List (Nat × Byte)) : Memory :=
  match bs with
  | [] => m
  | (i, b) :: r => memApply (memWrite m (pa + i) b) pa r

/-- Bytes of a write put in the data of a line. -/
def lineApply (xs : List Byte) (off : Nat) (bs : List (Nat × Byte)) : List Byte :=
  match bs with
  | [] => xs
  | (i, b) :: r => lineApply (xs.set (off + i) b) off r

/-- The data and poison of a copy of a line after a write to it; a whole 64-byte granule loses its poison (22 R355). -/
def copyApply (x : List Byte × BitVec 4) (off : Nat) (bs : List (Nat × Byte)) (clears : Nat) : List Byte × BitVec 4 :=
  (lineApply x.1 off bs, if 64 ≤ clears then x.2 &&& ~~~(3#4 <<< (off / 64 * 2)) else x.2)

/-- Every copy of a line outside memory, in a cache, a buffer or a message, changed by a function of its line (14 R240). -/
def State.mapCopies (s : State) (f : Nat → List Byte × BitVec 4 → List Byte × BitVec 4) : State :=
  { s with
    msgs := s.msgs.map fun (m : Msg) => { m with data := m.data.map (f m.line) }
    clusters := s.clusters.map fun (c : Nat × Cluster) => (c.1, { c.2 with cache := c.2.cache.map fun (x : Nat × CacheLine) =>
      (x.1, { x.2 with data := (f x.1 (x.2.data, x.2.poison)).1, poison := (f x.1 (x.2.data, x.2.poison)).2 }) })
    dies := s.dies.map fun (d : Nat × Die) => (d.1, { d.2 with
      l2 := d.2.l2.map fun (x : Nat × L2Line) =>
        (x.1, { x.2 with data := (f x.1 (x.2.data, x.2.poison)).1, poison := (f x.1 (x.2.data, x.2.poison)).2 })
      mshr := d.2.mshr.map fun (x : Nat × Outstanding) => (x.1, { x.2 with data := x.2.data.map (f x.1) })
      owed := d.2.owed.map fun (o : Owed) => { o with wb := o.wb.map (f o.line) }
      wbuf := d.2.wbuf.map fun (x : Nat × (List Byte × BitVec 4)) => (x.1, f x.1 x.2) }) }

/-- A write put in every copy of its line that a cache, a buffer or a message holds: all virtual addresses of a byte name one location
(14 R240). -/
def State.patchCopies (s : State) (pa : Nat) (bs : List (Nat × Byte)) (clears : Nat) : State :=
  s.mapCopies fun line x => if line = lineOf pa then copyApply x (pa % 128) bs clears else x

/-- Every copy of the lines of n bytes takes what memory holds there; a sector that the bytes cover whole is clean (22 R355). -/
def State.patchRange (s : State) (pa n : Nat) : State :=
  let inside := fun (a k : Nat) => decide (pa ≤ a ∧ a + k ≤ pa + n)
  s.mapCopies fun line x =>
    if 128 * line + 128 ≤ pa ∨ pa + n ≤ 128 * line then x
    else
      ((List.range 128).map fun i => if inside (128 * line + i) 1 then memRead s.mem (128 * line + i) else x.1.getD i 0,
        (List.range 4).foldl (fun q j => if inside (128 * line + 32 * j) 32 then q &&& ~~~(1#4 <<< j) else q) x.2)

/-- A write that reaches its bytes' home in one action, within one line. -/
def State.homeWrite (s : State) (pa : Nat) (bs : List (Nat × Byte)) (clears : Nat) : State :=
  (({ s with mem := memApply s.mem pa bs } : State).clearHbm pa (decide (64 ≤ clears))).patchCopies pa bs clears

/-! ## Taking a trap (12 R219 to R223, R236) -/

/-- The trap of strand t is taken: the strand detaches, its record is made ready, its context begins to suspend. The sixteenth
identical fault in a row becomes STUCK and parks the context (R236). -/
def State.trapRecord (s : State) (t : StrandId) (cause mask : BitVec 8) (sub : BitVec 4) (faddr bundle stepNo : W64)
    (region : W32) (restart : W64) : State :=
  let st := s.strand t
  let n := if st.lastFault = some (bundle, cause, sub, faddr) then st.repeats + 1 else 1
  let rec_ : TrapRec := { cause := if n ≥ 16 then 11 else cause, mask := mask, sub := sub
                          reissue := BitVec.ofNat 2 st.reissue, replay := 0, repeat_ := BitVec.ofNat 5 n
                          valid := false, bundle := bundle, faddr := faddr, step := stepNo, region := region
                          restart := restart }
  let c := s.ctx t.ctxId
  (s.setStrand t { st with trapping := true, attached := false, trap := rec_, queue := [], hold := none, waited := false, joinGo := false, stall := []
                           confirmed := none
                           lastFault := some (bundle, cause, sub, faddr), repeats := n, reissue := 0
                           pc := restart }).setCtx t.ctxId
    { c with suspending := true, parked := c.parked || decide (n ≥ 16) }

/-- TAKING A TRAP, from the state before the bundle at the strand's pc: in a region the strand rolls back with TRAP first and
restarts at the ckpt bundle (06 R127); outside, the bundle does not count as a step and is the restart point (R219, R222). -/
def State.takeTrap (s : State) (t : StrandId) (cause mask : BitVec 8) (sub : BitVec 4) (faddr : W64) : State :=
  let st := s.strand t
  match st.region with
  | none => s.trapRecord t cause mask sub faddr st.pc (st.step + 1) 0 st.pc
  | some r =>
    (s.rollback t 7 st.pc).trapRecord t cause mask sub faddr st.pc (st.step + 1) (st.regionWord (st.step + 1)) r.bundle

/-- The eight words of a trap record (R220). -/
def TrapRec.words (r : TrapRec) : List W64 :=
  [ BitVec.ofNat 64 (r.cause.toNat + 2 ^ 8 * r.mask.toNat + 2 ^ 16 * r.sub.toNat + 2 ^ 20 * r.reissue.toNat
      + 2 ^ 22 * r.replay.toNat + 2 ^ 29 * r.repeat_.toNat + 2 ^ 34 * r.valid.toNat),
    r.bundle, r.faddr, r.step, r.region.setWidth 64, r.restart, 0, 0 ]

/-- Words written to consecutive addresses of memory. -/
def memSetWords (m : Memory) (a : Nat) (ws : List W64) : Memory :=
  match ws with
  | [] => m
  | w :: r => memSetWords (memSetWord m a w) (a + 8) r

/-- Write strand t's trap record to the trap block of its context's save area (R220). -/
def State.storeTrap (s : State) (t : StrandId) : State :=
  s.homeWrite ((s.bindOf t.ctxId).save.toNat + 64 * t.core.val) (withOffsets ((s.strand t).trap.words.flatMap fun w => leBytes 8 w.toNat)) 64

/-- The trap block of a context's save area cleared: before any trap every field of its records is 0 (R220). -/
def State.clearTraps (s : State) (c : CtxId) : State :=
  c.strands.foldl (fun s t =>
    s.homeWrite ((s.bindOf c).save.toNat + 64 * t.core.val) (withOffsets (List.replicate 64 0)) 64) s

/-- The queue of a strand whose context stops: an attached strand's entries keep their place in the team stream and are fetched
again (07 R146). -/
def Strand.emptied (t : Strand) : List Decoded := if t.attached then t.queue.map fun b => ⟨b.addr, [], []⟩ else []

/-- One strand at the end of suspension (R219 steps 4 and 5): a trapping strand's record becomes valid. -/
def State.suspendStrand (s : State) (t : StrandId) : State :=
  let st := s.strand t
  if st.trapping then
    (s.setStrand t { st with trapping := false, queue := [], notice := 1
                             trap := { st.trap with valid := true, replay := BitVec.ofNat 7 st.inflight.length } }).storeTrap t
  else s.setStrand t { st with
    queue := st.emptied
    hold := (match st.hold with | some (.join a all) => some (.join a all) | _ => none)
    waited := false }

/-- Whether no strand of the context has an interlocked result pending (R219 step 3). -/
def State.quiet (s : State) (c : CtxId) : Bool := c.strands.all fun t => (s.strand t).pend.isEmpty

/-- Suspension completes: records are written, the context is trapped, frozen or both (R219, R223, R224). -/
def State.suspend (s : State) (c : CtxId) : State :=
  let trapped := c.strands.any fun t => (s.strand t).trapping
  let s1 := c.strands.foldl State.suspendStrand s
  let x := s1.ctx c
  s1.setCtx c { x with
    run := if x.run = .running ∨ x.run = .waiting then .ready else x.run
    suspending := false, trapped := x.trapped || trapped, frozen := x.frozen || x.freezing, freezing := false }

/-- The return from a trap for one strand (R221): RESTART is read from its record in the save area, VALID is cleared, the
strand goes on detached there. A strand without a valid record goes on from its boundary. -/
def State.resumeStrand (s : State) (t : StrandId) : State :=
  let st := s.strand t
  if st.trap.valid then
    let a := s.deviceWord ((s.bindOf t.ctxId).save.toNat + 64 * t.core.val + 40)
    (s.setStrand t { st with pc := a, attached := false, queue := [], hold := none, notice := 0
                             trap := { st.trap with valid := false, restart := a } }).storeTrap t
  else s

/-- The return from a trap for a whole context (R221, R236): with `unpark` the count of identical faults restarts. From now on it can be
passed over by the picker (18 R312). -/
def State.resumeCtx (s : State) (c : CtxId) (unpark : Bool) : State :=
  let s1 := c.strands.foldl State.resumeStrand s
  let s2 := if unpark then c.strands.foldl (fun s t => s.setStrand t { s.strand t with lastFault := none, repeats := 0 }) s1 else s1
  let x := s2.ctx c
  s2.setCtx c { x with trapped := false, frozen := false, parked := x.parked && !unpark, ready := s.now }

/-- A freeze of a context (R224, R128): strands with a region open roll back with FREEZE, then the context suspends. -/
def State.freezeCtx (s : State) (c : CtxId) : State :=
  let s1 := c.strands.foldl (fun s t => s.rollback t 8 (s.strand t).pc) s
  let x := s1.ctx c
  s1.setCtx c { x with suspending := true, freezing := true }

end Sys2Proof.Machine
end

