-- ==== Sys2Proof/Machine/Operands.lean ====
section
/-! DEFINITION. Every operand form: immediates and effective addresses, lanes of vectors, the windows of the address space,
the page tables and TLBs, tag words. Faults are values (cause, SUB, FADDR) that the caller raises at its bundle. -/

namespace Sys2Proof.Machine

/-! ## Immediates and lanes (02 R25, 03 R48) -/

/-- A signed immediate widened to 64 bits. -/
def sx {w : Nat} (i : BitVec w) : W64 := i.signExtend 64
/-- An unsigned immediate widened to 64 bits. -/
def zx {w : Nat} (i : BitVec w) : W64 := i.setWidth 64
/-- Effective address of a MEM syllable (05 R92, R100). -/
def ea (base : W64) (i : BitVec 9) (scale : Nat) : W64 := base + sx i * BitVec.ofNat 64 scale
/-- Target of a BR syllable: a signed count of syllables from the bundle address (04 R76). -/
def target (bundle : W64) (d : BitVec 18) : W64 := bundle + sx d * 4
/-- 32-bit lane i of a vector register. -/
def lane (x : VReg) (i : Nat) : W32 := x.extractLsb' (32 * i) 32
/-- 16-bit element j of a vector register. -/
def elem16 (x : VReg) (j : Nat) : BitVec 16 := x.extractLsb' (16 * j) 16
/-- A vector from its 64 lanes. -/
def ofLanes (f : Nat → W32) : VReg :=
  BitVec.ofNat 2048 ((List.range 64).foldr (fun i acc => (f i).toNat + 2 ^ 32 * acc) 0)
/-- A vector from its 128 16-bit elements. -/
def ofElems (f : Nat → BitVec 16) : VReg :=
  BitVec.ofNat 2048 ((List.range 128).foldr (fun i acc => (f i).toNat + 2 ^ 16 * acc) 0)
/-- A predicate from its 64 bits. -/
def ofBits (f : Nat → Bool) : W64 :=
  BitVec.ofNat 64 ((List.range 64).foldr (fun i acc => (f i).toNat + 2 * acc) 0)

/-- The fault of an address: cause code, XLATE sub-cause, fault address (12 R222). -/
abbrev AddrFault := BitVec 8 × BitVec 4 × W64

/-- Cause codes of R222 that operands raise. -/
def causeAlign : BitVec 8 := 4
def causeXlate : BitVec 8 := 5
def causeBounds : BitVec 8 := 6
def causeHomelost : BitVec 8 := 10

/-! ## Page tables (12 R228 to R231) -/

/-- Table index of a virtual address at a level (R229). -/
def vaIndex (va level : Nat) : Nat :=
  match level with
  | 0 => va / 2 ^ 16 % 32
  | l => va / 2 ^ (12 + 9 * l) % 512

/-- log2 of the page size of a leaf with SZ code z (R228). -/
def pageBits (z : Nat) : Nat := match z with | 0 => 16 | 1 => 21 | _ => 30

/-- Fields of an entry (R228). -/
def pteV (e : W64) : Bool := e.getLsbD 0
def pteR (e : W64) : Bool := e.getLsbD 1
def pteW (e : W64) : Bool := e.getLsbD 2
def pteX (e : W64) : Bool := e.getLsbD 3
def pteMs (e : W64) : Bool := e.getLsbD 4
def pteRl (e : W64) : Bool := e.getLsbD 5
def pteCp (e : W64) : Nat := (e.extractLsb' 6 2).toNat
def pteSz (e : W64) : Nat := (e.extractLsb' 8 2).toNat
def pteAddr (e : W64) : Nat := (e.extractLsb' 12 36).toNat * 4096

/-- Whether the SZ code is allowed at a level (R229). -/
def szAllowed (level z : Nat) : Bool :=
  match level with
  | 0 => z == 0
  | 1 => z == 1 || z == 3
  | 2 => z == 2 || z == 3
  | _ => z == 3

/-- Whether a valid entry at a level is malformed (R230). -/
def pteMalformed (level : Nat) (e : W64) : Bool :=
  e.extractLsb' 10 2 != 0 || e.extractLsb' 48 16 != 0 || !szAllowed level (pteSz e)
    || (decide (hbmEnd ≤ pteAddr e) && decide (pteAddr e < hostBase))
    || (pteSz e != 3 &&
        (pteCp e == 3 || (pteRl e && !(pteSz e == 0 && pteMs e))
          || pteAddr e % 2 ^ pageBits (pteSz e) != 0
          || (decide (hostBase ≤ pteAddr e) && pteCp e != 2)))

/-- The end of a walk (R229 to R231). -/
inductive Walk where
  | leaf (e : W64)
  | fail (sub : Nat) (level : Nat)
  deriving DecidableEq, Repr

/-- A walk from a table, over the levels of a list; `walks` holds the entries that a walk cache answers for (R232). Any other entry is read as it
stands now (DESIGN CHOICE, log 12). -/
def walkFrom (s : State) (walks : Table W64) (table va : Nat) (levels : List Nat) : Walk :=
  match levels with
  | [] => .fail 4 0
  | l :: r =>
    let at_ := table + 8 * vaIndex va l
    let e := (tget walks at_).getD (s.deviceWord at_)
    if !pteV e then .fail 0 l
    else if pteMalformed l e then .fail 4 l
    else if pteSz e = 3 then walkFrom s walks (pteAddr e) va r
    else .leaf e

/-- The pointer entries that a walk passes, which the walk caches take (R232). -/
def walkPath (s : State) (walks : Table W64) (table va : Nat) (levels : List Nat) : Table W64 :=
  match levels with
  | [] => []
  | l :: r =>
    let at_ := table + 8 * vaIndex va l
    let e := (tget walks at_).getD (s.deviceWord at_)
    if pteV e && !pteMalformed l e && pteSz e == 3 then (at_, e) :: walkPath s walks (pteAddr e) va r else []

/-- The root table of an address space, while its generation is the one in force (R231 SUB 5, R233). -/
def State.rootOf (s : State) (asid : BitVec 11) (gen : BitVec 4) : Option Nat :=
  match tget s.asids asid.toNat with
  | none => if gen = 0 then some 0 else none
  | some a => if a.gen = gen then some a.root else none

/-- A walk for an address space with a walk cache (R229, R231 SUB 5, R232). -/
def State.walkWith (s : State) (walks : Table W64) (asid : BitVec 11) (gen : BitVec 4) (va : Nat) : Walk :=
  match s.rootOf asid gen with
  | some root => walkFrom s walks root va [4, 3, 2, 1, 0]
  | none => .fail 5 0

/-- A walk that reads every entry as it stands (R232). -/
def State.walk (s : State) (asid : BitVec 11) (gen : BitVec 4) (va : Nat) : Walk := s.walkWith [] asid gen va

/-- The entry of a TLB that translates an address (R232). -/
def tlbFind (es : List TlbEntry) (asid : BitVec 11) (gen : BitVec 4) (va : Nat) : Option W64 :=
  match es with
  | [] => none
  | e :: r =>
    if e.asid = asid ∧ e.gen = gen ∧ va / 2 ^ pageBits e.size = e.vpn then some e.leaf else tlbFind r asid gen va

/-- The pointer entries that a die's walk caches hold for an ASID and a generation (R232). -/
def Die.walksFor (d : Die) (asid : BitVec 11) (gen : BitVec 4) : Table W64 :=
  (d.walks.filter fun w => w.asid == asid && w.gen == gen).map fun w => (w.pa, w.entry)

/-- A die's walk caches with a pointer entry. -/
def Die.addWalk (d : Die) (asid : BitVec 11) (gen : BitVec 4) (pa : Nat) (e : W64) : Die :=
  { d with walks := ⟨asid, gen, pa, e⟩ :: d.walks.filter fun w => !(w.asid == asid && w.gen == gen && w.pa == pa) }

/-- The leaf that a die's TLB or its walkers give an address (R232). -/
def State.dieLeaf (s : State) (d : DieId) (asid : BitVec 11) (gen : BitVec 4) (va : Nat) : Walk :=
  match tlbFind (s.die d).tlb asid gen va with
  | some e => .leaf e
  | none => s.walkWith ((s.die d).walksFor asid gen) asid gen va

/-- The leaf that translates a global address: from the cluster's TLB, the die's TLB or a walk (R232). -/
def State.leafFor (s : State) (l : ClusterId) (asid : BitVec 11) (gen : BitVec 4) (va : Nat) : Walk :=
  match tlbFind (s.cluster l).tlb asid gen va with
  | some e => .leaf e
  | none => s.dieLeaf l.die asid gen va

/-- The first n entries of a set of the die's TLB, with those of its other sets; sets go by the page number (DESIGN CHOICE, log 12). -/
def keepWays (n set : Nat) (es : List TlbEntry) : List TlbEntry :=
  match es with
  | [] => []
  | e :: r =>
    if e.vpn % 512 ≠ set then e :: keepWays n set r
    else
      match n with
      | 0 => keepWays 0 set r
      | k + 1 => e :: keepWays k set r

/-- An access that translates an address leaves the leaf in the TLBs, of 64 entries and of 512 sets of 8, the oldest leaving, and the pointers
in the walk caches (R232). -/
def State.fillTlb (s : State) (l : ClusterId) (asid : BitVec 11) (gen : BitVec 4) (va : Nat) : State :=
  if (tlbFind (s.cluster l).tlb asid gen va).isSome then s
  else
    match s.dieLeaf l.die asid gen va with
    | .fail _ _ => s
    | .leaf e =>
      let x : TlbEntry := ⟨asid, gen, pteSz e, va / 2 ^ pageBits (pteSz e), e⟩
      let d := s.die l.die
      let path := match s.rootOf asid gen with | some root => walkPath s (d.walksFor asid gen) root va [4, 3, 2, 1, 0] | none => []
      let s1 :=
        if d.tlb.contains x then s
        else s.setDie l.die (path.foldl (fun (d : Die) p => d.addWalk asid gen p.1 p.2)
          { d with tlb := keepWays 8 (x.vpn % 512) (x :: d.tlb) })
      s1.setCluster l { s1.cluster l with tlb := (x :: (s1.cluster l).tlb).take 64 }

/-- What an access needs of its page (R231). -/
structure Need where
  r : Bool
  w : Bool
  x : Bool
  deriving DecidableEq, Repr

def needR : Need := ⟨true, false, false⟩
def needW : Need := ⟨false, true, false⟩
def needRW : Need := ⟨true, true, false⟩
def needX : Need := ⟨false, false, true⟩

/-- The sub-cause of a permission that the leaf lacks, if any (R231). -/
def lacks (e : W64) (n : Need) : Option Nat :=
  if n.r && !pteR e then some 1
  else if n.w && !pteW e then some 2
  else if n.x && !pteX e then some 3
  else none

/-- Whether a physical address lies in the range of a die declared failed (20 R337). -/
def State.lostAt (s : State) (pa : Nat) : Bool :=
  decide (pa < hbmEnd) && s.dielost.getLsbD (pa / 0x003000000000)

/-- The physical address of a leaf's byte (R229). -/
def leafPa (e : W64) (va : Nat) : Nat := pteAddr e + va % 2 ^ pageBits (pteSz e)

/-- The end of a walk for an access: the leaf, or XLATE where there is none or it lacks a permission (R231). -/
def leafOk (w : Walk) (va : W64) (n : Need) : Except AddrFault W64 :=
  match w with
  | .fail sub _ => .error (causeXlate, BitVec.ofNat 4 sub, va)
  | .leaf e => (match lacks e n with | some sub => .error (causeXlate, BitVec.ofNat 4 sub, va) | none => .ok e)

/-- The place of a byte through its leaf. -/
def leafPlace (e va : W64) : Place := ⟨.phys (leafPa e va.toNat), pteMs e, pteCp e, !pteW e⟩

/-- The place that a leaf gives a byte, or HOMELOST (20 R337). -/
def State.placeOf (s : State) (e va : W64) : Except AddrFault Place :=
  if s.lostAt (leafPa e va.toNat) then .error (causeHomelost, 0, va) else .ok (leafPlace e va)

/-- Translation of a global address: the place of its byte, or XLATE or HOMELOST (R231, 20 R337). -/
def State.translate (s : State) (l : ClusterId) (asid : BitVec 11) (gen : BitVec 4) (va : W64) (n : Need) :
    Except AddrFault Place :=
  match leafOk (s.leafFor l asid gen va.toNat) va n with
  | .error f => .error f
  | .ok e => s.placeOf e va

/-! ## Windows (00 R6, 05 R94) -/

/-- The windows of the address space. -/
inductive Window where
  | local_ (off : Nat)
  | cluster (core : Fin 4) (off : Nat)
  | global
  | none
  deriving DecidableEq, Repr

/-- The window of a virtual address (R6). -/
def windowOf (va : W64) : Window :=
  let a := va.toNat
  if a < 0x80000 then .local_ a
  else if a < 0x100000 then .none
  else if a < 0x300000 then .cluster (Fin.ofNat 4 ((a - 0x100000) / 0x80000)) ((a - 0x100000) % 0x80000)
  else if a < 0x100000000 then .none
  else if a < 2 ^ 57 then .global
  else .none

/-- Whether an address lies in the local window. -/
def isLocal (va : W64) : Bool := decide (va.toNat < 0x80000)
/-- Whether an address lies in the global window. -/
def isGlobal (va : W64) : Bool := decide (0x100000000 ≤ va.toNat ∧ va.toNat < 2 ^ 57)

/-- Bytes of the partition of a bind record (18 R307, 03 R51). -/
def Bind.partBytes (b : Bind) : Nat := b.psize.toNat * 16384
/-- First byte of the partition in its scratchpads. -/
def Bind.partBase (b : Bind) : Nat := b.pbase.toNat * 16384

/-- A byte of the partition of a context on one of its cores. -/
def partPlace (c : CtxId) (b : Bind) (n : Fin 4) (off : Nat) : Place :=
  ⟨.spad (c.coreId n).key ((b.partBase + off) % 0x80000), false, 0, false⟩

/-- Resolution of a byte address through its window (R6, R94) in an address space: its place, or BOUNDS, XLATE or HOMELOST. -/
def State.resolveIn (s : State) (t : StrandId) (asid : BitVec 11) (gen : BitVec 4) (va : W64) (n : Need) :
    Except AddrFault Place :=
  let b := s.bindOf t.ctxId
  match windowOf va with
  | .local_ off =>
    if off < b.partBytes then .ok (partPlace t.ctxId b t.core off) else .error (causeBounds, 0, va)
  | .cluster c off =>
    if off < b.partBytes then .ok (partPlace t.ctxId b c off) else .error (causeBounds, 0, va)
  | .global => s.translate t.clusterId asid gen va n
  | .none => .error (causeBounds, 0, va)

/-- Resolution of a byte address in the address space of the strand's context. -/
def State.resolve (s : State) (t : StrandId) (va : W64) (n : Need) : Except AddrFault Place :=
  s.resolveIn t (s.bindOf t.ctxId).asid (s.bindOf t.ctxId).gen va n

/-- Resolution of an access of n bytes whose alignment has been checked: its first byte decides, since no aligned access
crosses a page, a partition or a window (R93, R94). -/
def State.access (s : State) (t : StrandId) (va : W64) (align : Nat) (n : Need) : Except AddrFault Place :=
  if va.toNat % align ≠ 0 then .error (causeAlign, 0, va) else s.resolve t va n

/-- The byte i bytes after a place. -/
def Place.plus (p : Place) (i : Nat) : Place :=
  match p.loc with
  | .spad o off => { p with loc := .spad o (off + i) }
  | .phys pa => { p with loc := .phys (pa + i) }

/-- Whether a place is cacheable global memory (14 R243). -/
def Place.cacheable (p : Place) : Bool :=
  match p.loc with
  | .spad _ _ => false
  | .phys pa => !p.ms && p.cp != 2 && decide (pa < hostBase)

/-! ## Tag words (15 R265) -/

/-- Resolution of a tag word: the word and its width in bytes, or a fault: ALIGN, BOUNDS by the window, XLATE, BOUNDS for a page
without MS, which only translation finds, HOMELOST (R265, 17 R297). -/
def State.tagWord (s : State) (t : StrandId) (va : W64) (n : Need) : Except AddrFault (TagWord × Nat × Place) :=
  match windowOf va with
  | .none => .error (causeBounds, 0, va)
  | .global =>
    if va.toNat % 8 ≠ 0 then .error (causeAlign, 0, va)
    else
      match leafOk (s.leafFor t.clusterId (s.bindOf t.ctxId).asid (s.bindOf t.ctxId).gen va.toNat) va n with
      | .error f => .error f
      | .ok e =>
        if !pteMs e then .error (causeBounds, 0, va)
        else
          match s.placeOf e va with
          | .error f => .error f
          | .ok p => .ok (.sync (leafPa e va.toNat), 8, p)
  | _ =>
    if va.toNat % 4 ≠ 0 then .error (causeAlign, 0, va)
    else
      match s.resolve t va n with
      | .error e => .error e
      | .ok p =>
        match p.loc with
        | .spad o off => .ok (.spad (coreOfKey o) off, 4, p)
        | .phys _ => .error (causeBounds, 0, va)

/-- The full/empty tag of a tag word (14 R246): full is true. -/
def State.tagOf (s : State) (w : TagWord) : Bool :=
  match w with
  | .spad o off => (s.core o).tags.contains (off / 4)
  | .sync pa => s.msTags.contains (pa / 8)

/-- Set or clear a tag. -/
def State.setTag (s : State) (w : TagWord) (b : Bool) : State :=
  match w with
  | .spad o off => s.setCore o { s.core o with tags := nsPut (s.core o).tags (off / 4) b }
  | .sync pa => { s with msTags := nsPut s.msTags (pa / 8) b }

end Sys2Proof.Machine
end

