-- ==== Sys2Proof/Machine/Logs.lean ====
section
/-! DEFINITION. The error logs of the dies and stacks (22 R360). -/

namespace Sys2Proof.Machine

/-- Whether an event merges into a record. -/
def LogRec.same (a b : LogRec) : Bool :=
  a.kind == b.kind && a.unit == b.unit && a.struct == b.struct && a.addr == b.addr && a.detail == b.detail

/-- An event entered in a ring of 64 records: merged into the newest record, or written over the oldest. -/
def ELog.enter (l : ELog) (r : LogRec) : ELog :=
  match l.recs.getLast? with
  | some x =>
    if x.same r then { l with recs := l.recs.dropLast ++ [{ x with count := min (x.count + 1) 0xFFFFFFFF }] }
    else if l.recs.length < 64 then { l with recs := l.recs ++ [r], head := (l.head + 1) % 64 }
    else { recs := l.recs.drop 1 ++ [r], head := (l.head + 1) % 64, lost := min (l.lost + 1) 0xFFFFFFFF }
  | none => { l with recs := [r], head := (l.head + 1) % 64 }

/-- The logs of a die: core, cluster, L2, engine, link. -/
def logCore : Fin 5 := 0
def logCluster : Fin 5 := 1
def logL2 : Fin 5 := 2
def logEngine : Fin 5 := 3
def logLink : Fin 5 := 4

/-- An event entered in a log of a die. -/
def State.log (s : State) (d : DieId) (n : Fin 5) (kind unit struct addr detail : Nat) : State :=
  let x := s.die d
  s.setDie d { x with logs := x.logs.set n.val ((x.logs[n.val]).enter ⟨s.now, kind, unit, struct, 0, addr, detail⟩) }

/-! ## Where HBM bytes lie (00 R7, 21 R339) -/

/-- The entries of a table of n: those of lines that hold something, for an entry of zeros is not valid. -/
def State.entriesIn (s : State) (table n : Nat) : List W64 :=
  ((List.range (n / 16)).filter fun j =>
      (s.newest (lineOf table + j)).isSome || s.mem.any fun c => lineOf c.1 == lineOf table + j).flatMap fun j =>
    (List.range 16).map fun i => s.deviceWord (table + 128 * j + 8 * i)

/-- The valid leaves under a table, whether a command or software itself has written them (12 R228 to R230). -/
def State.leavesUnder (s : State) (table : Nat) (levels : List Nat) : List W64 :=
  match levels with
  | [] => []
  | l :: r =>
    (s.entriesIn table (if l = 0 then 32 else 512)).flatMap fun e =>
      if !pteV e || pteMalformed l e then [] else if pteSz e = 3 then s.leavesUnder (pteAddr e) r else [e]

/-- Whether a leaf maps a byte of physical memory. -/
def leafCovers (e : W64) (pa : Nat) : Bool := decide (pteAddr e ≤ pa ∧ pa < pteAddr e + 2 ^ pageBits (pteSz e))

/-- The root tables in use: of the live address spaces, and of the graph engines (12 R233, 18 R305). -/
def State.roots (s : State) : List Nat :=
  ((s.asids.filter fun a => a.2.live).map fun a => a.2.root) ++
    (s.dies.filter fun d => d.2.engine.grroot != 0).map fun d => d.2.engine.grroot.toNat

/-- Whether a byte's frame is mapped by a leaf of the tables in use, with RL as asked. -/
def State.mappedAs (s : State) (rl : Bool) (pa : Nat) : Bool :=
  s.roots.any fun r => (s.leavesUnder r [4, 3, 2, 1, 0]).any fun e => pteRl e == rl && leafCovers e pa

/-- Whether a byte's frame is mapped row-local by the tables as they stand (21 R339). -/
def State.rowLocal (s : State) (pa : Nat) : Bool := s.mappedAs true pa

/-- Whether a byte's frame is mapped both row-local and otherwise, which leaves what a read of it returns undefined (21 R339). -/
def State.mixed (s : State) (pa : Nat) : Bool :=
  s.rowLocal pa && s.mappedAs false pa

/-- Where a byte of a row-local frame lies: stack of the device, pseudo-channel, bank, subarray, row of the subarray, byte of the row. -/
structure RowPlace where
  stack : Nat
  channel : Nat
  bank : Nat
  subarray : Nat
  row : Nat
  byte : Nat
  deriving DecidableEq, Repr

/-- The place of a byte of a row-local frame (21 R339). -/
def rowPlace (pa : Nat) : RowPlace :=
  let d := (homeDie pa).val
  let o := pa - d * 0x003000000000
  let f := o / 65536 % 2 ^ 20
  { stack := d * 3 + o / 65536 / 2 ^ 20, channel := f % 64, bank := f / 2 ^ 6 % 32, subarray := f / 2 ^ 14
    row := 64 * (f / 2 ^ 11 % 8) + pa % 65536 / 1024, byte := pa % 1024 }

/-- The stack of an HBM byte, 0 to 11, three on each die, and its pseudo-channel in that stack: a row-local frame lies whole in one
(21 R339); any other byte follows the 512-byte interleave over the die's 192 (00 R7), taken in order of the stacks (DESIGN CHOICE, log
32). -/
def State.channelOf (s : State) (pa : Nat) : Nat × Nat :=
  let d := (homeDie pa).val
  let o := pa - d * 0x003000000000
  if s.rowLocal pa then ((rowPlace pa).stack, (rowPlace pa).channel)
  else (d * 3 + o / 512 % 192 / 64, o / 512 % 64)

/-- A byte of physical memory as a read at device scope finds it; of a frame mapped in two ways, a free value (21 R339, R11). -/
def State.frameByte (s : State) (pa : Nat) : Byte := if s.mixed pa then Config.mixedByte s.tick pa else s.deviceByte pa

/-- A 64-bit word so read. -/
def State.frameWord (s : State) (pa : Nat) : W64 := BitVec.ofNat 64 (leNat ((List.range 8).map fun i => s.frameByte (pa + i)))

/-! ## Budget meters (18 R314) -/

/-- Keys of a class's budgets: issue on a cluster, a stack of the die, a link port of the die. -/
def issKey (cls cluster : Nat) : Nat := cls * 64 + cluster
def memKey (cls stack : Nat) : Nat := cls * 3 + stack
def lnkKey (cls port : Nat) : Nat := cls * 4 + port

/-- What a meter has charged in this period. -/
def Die.usedOf (x : Die) (meter : Nat) : Nat := (tget x.used meter).getD 0
/-- The activities that a meter has deferred. -/
def Die.deferredOf (x : Die) (meter : Nat) : List (Nat × Nat) := (tget x.deferred meter).getD []
/-- The deferred activities that a meter has admitted since. -/
def Die.admittedOf (x : Die) (meter : Nat) : NatSet := (tget x.admitted meter).getD []
/-- A class's bit of BUSED. -/
def Die.over (x : Die) (cls bit : Nat) : Die := { x with overs := tset x.overs cls ((tget x.overs cls).getD 0 ||| (1#39 <<< bit)) }

/-- A die's meter admits an activity `who` of a class while the class has used less than the limit in this period, and charges it; a deferral
sets its bit of BUSED, and the activity waits until a later period admits it. A limit of 0 is none. -/
def State.charge (s : State) (d : DieId) (cls meter limit amount bit who : Nat) : Bool × State :=
  let x := s.die d
  if (x.admittedOf meter).contains who then (true, s.setDie d { x with admitted := tset x.admitted meter (nsErase (x.admittedOf meter) who) })
  else if (x.deferredOf meter).any fun y => y.1 == who then (false, s)
  else if limit = 0 ∨ x.usedOf meter < limit then (true, s.setDie d { x with used := tset x.used meter (x.usedOf meter + amount) })
  else (false, s.setDie d ({ x with deferred := tset x.deferred meter (x.deferredOf meter ++ [(who, amount)]) }.over cls bit))

/-- The class, the limit and the bit of BUSED of a die's meter. -/
def Die.meter (x : Die) (meter : Nat) : Nat × Nat × Nat :=
  if meter < 4096 then (meter / 64, ((tget x.biss meter).getD 0).toNat, 7 + meter % 64)
  else if meter < 8192 then ((meter - 4096) / 3, ((tget x.bmem (meter - 4096)).getD 0).toNat * 4096, (meter - 4096) % 3)
  else ((meter - 8192) / 4, ((tget x.blnk (meter - 8192)).getD 0).toNat * 1024, 3 + meter % 4)

/-- The deferred activities of a meter that a new period admits, in the order of arrival: what they use, those admitted, the rest. -/
def admitFrom (limit used : Nat) (xs : List (Nat × Nat)) : Nat × List Nat × List (Nat × Nat) :=
  match xs with
  | [] => (used, [], [])
  | x :: r =>
    if limit = 0 ∨ used < limit then
      let y := admitFrom limit (used + x.2) r
      (y.1, x.1 :: y.2.1, y.2.2)
    else (used, [], x :: r)

/-- A die's meter in a new period: of the activities that still wait, the first are admitted; the rest are deferred once more. -/
def Die.renew (x : Die) (waits : Nat → Bool) (meter : Nat) : Die :=
  let m := x.meter meter
  let y := admitFrom m.2.1 0 ((x.deferredOf meter).filter fun z => waits z.1)
  let x1 := { x with
    used := if y.1 = 0 then x.used else tset x.used meter y.1
    admitted := tset x.admitted meter (y.2.1.foldl nsInsert ((x.admittedOf meter).filter waits))
    deferred := tset x.deferred meter y.2.2 }
  if y.2.2.isEmpty then x1 else x1.over m.1 m.2.2

/-- Bytes of HBM that an access of a class, known by its age, reads or writes are charged to the stack they lie in, at their home (DESIGN CHOICE, log 30). -/
def State.chargeMem (s : State) (cls pa bytes who : Nat) : Bool × State :=
  if hbmEnd ≤ pa then (true, s)
  else
    let d := homeDie pa
    let k := (s.channelOf pa).1 % 3
    s.charge d cls (4096 + memKey cls k) (((tget (s.die d).bmem (memKey cls k)).getD 0).toNat * 4096) bytes k who

/-- Bytes that an operation of a class, known by its age, sends through a port are charged to it. -/
def State.chargeLink (s : State) (cls : Nat) (p : Fin 16) (bytes who : Nat) : Bool × State :=
  let d : DieId := Fin.ofNat 4 (p.val / 4)
  let k := lnkKey cls (p.val % 4)
  s.charge d cls (8192 + k) (((tget (s.die d).blnk k).getD 0).toNat * 1024) bytes (3 + p.val % 4) who

/-- What a budget meter knows a bundle by: its strand and its address. -/
def bundleKey (strand : Nat) (pc : W64) : Nat := pc.toNat * 4096 + strand

/-- Added to a bundle's key for its tag operation on a sync word, which no age of an access reaches. -/
def tagAccess : Nat := 2 ^ 80

/-! ## Logs of the stacks -/

/-- An event entered in the log of a stack. -/
def State.logStack (s : State) (k kind unit struct addr detail : Nat) : State :=
  { s with hbmLogs := tset s.hbmLogs k (((tget s.hbmLogs k).getD ELog.reset).enter ⟨s.now, kind, unit, struct, 0, addr, detail⟩) }

/-- UNIT of a core in the core and engine logs. -/
def coreUnit (o : CoreId) : Nat := 4 * o.cluster.val + o.core.val

end Sys2Proof.Machine
end

