-- ==== Sys2Proof/WellFormed.lean ====
section
/-! DEFINITION. Which syllables are well formed: the limits that R33 sets on the operand fields (02 R24, R33, R36, R37, R38;
15 R263). An event has no encoding and is always well formed. -/

namespace Sys2Proof

/-- A field that names a k register accepts only 0 to 7 (R24). -/
def kReg (r : Reg) : Bool := decide (r.toNat < 8)

/-- The special registers that `sets` may name: assigned (R38) and not read-only (R52). -/
def sregWritable (n : BitVec 12) : Bool :=
  decide (n.toNat = 8 ∨ n.toNat = 9 ∨ n.toNat = 10 ∨ (15 ≤ n.toNat ∧ n.toNat ≤ 19))

/-- The limits of R33 on the operands of a syllable. -/
def Instr.wellFormed (i : Instr) : Bool :=
  match i with
  | .nop _ => true
  | .add _ _ _ => true
  | .sub _ _ _ => true
  | .and _ _ _ => true
  | .or _ _ _ => true
  | .xor _ _ _ => true
  | .andn _ _ _ => true
  | .shl _ _ _ => true
  | .shr _ _ _ => true
  | .sra _ _ _ => true
  | .ror _ _ _ => true
  | .mul _ _ _ => true
  | .mulhI _ _ _ => true
  | .mulhN _ _ _ => true
  | .divI _ _ _ => true
  | .divN _ _ _ => true
  | .remI _ _ _ => true
  | .remN _ _ _ => true
  | .minI _ _ _ => true
  | .maxI _ _ _ => true
  | .minN _ _ _ => true
  | .maxN _ _ _ => true
  | .clz _ _ => true
  | .popc _ _ => true
  | .sext _ _ w => decide (w.toNat ≤ 2)
  | .zext _ _ w => decide (w.toNat ≤ 2)
  | .cmpEq _ _ _ => true
  | .cmpLtI _ _ _ => true
  | .cmpLeI _ _ _ => true
  | .cmpLtN _ _ _ => true
  | .cmpLeN _ _ _ => true
  | .sel _ _ _ => true
  | .addi _ _ _ => true
  | .andi _ _ _ => true
  | .ori _ _ _ => true
  | .xori _ _ _ => true
  | .shli _ _ _ => true
  | .shri _ _ _ => true
  | .srai _ _ _ => true
  | .cmpiEq _ _ _ => true
  | .cmpiLtI _ _ _ => true
  | .cmpiLtN _ _ _ => true
  | .li _ _ => true
  | .lih1 _ _ => true
  | .lih2 _ _ => true
  | .lih3 _ _ => true
  | .addpc _ _ => true
  | .gets _ i => decide (i.toNat ≤ 19)
  | .sets _ i => sregWritable i
  | .vaddI32 _ _ _ _ => true
  | .vsubI32 _ _ _ _ => true
  | .vmulI32 _ _ _ _ => true
  | .vmulhI32 _ _ _ _ => true
  | .vmulhN32 _ _ _ _ => true
  | .vand _ _ _ _ => true
  | .vor _ _ _ _ => true
  | .vxor _ _ _ _ => true
  | .vshlI32 _ _ _ _ => true
  | .vshrI32 _ _ _ _ => true
  | .vsraI32 _ _ _ _ => true
  | .vminI32 _ _ _ _ => true
  | .vmaxI32 _ _ _ _ => true
  | .vminN32 _ _ _ _ => true
  | .vmaxN32 _ _ _ _ => true
  | .vaddI16 _ _ _ _ => true
  | .vsubI16 _ _ _ _ => true
  | .vaddsI16 _ _ _ _ => true
  | .vsubsI16 _ _ _ _ => true
  | .vcmpEqI32 d _ _ _ => kReg d
  | .vcmpLtI32 d _ _ _ => kReg d
  | .vcmpLeI32 d _ _ _ => kReg d
  | .vcmpLtN32 d _ _ _ => kReg d
  | .vcmpLeN32 d _ _ _ => kReg d
  | .vaddF32 _ _ _ _ => true
  | .vsubF32 _ _ _ _ => true
  | .vmulF32 _ _ _ _ => true
  | .vminF32 _ _ _ _ => true
  | .vmaxF32 _ _ _ _ => true
  | .vfmaF32 _ _ _ _ => true
  | .vfmsF32 _ _ _ _ => true
  | .vcmpEqF32 d _ _ _ => kReg d
  | .vcmpLtF32 d _ _ _ => kReg d
  | .vcmpLeF32 d _ _ _ => kReg d
  | .vrcpF32 _ _ _ => true
  | .vrsqF32 _ _ _ => true
  | .vexp2F32 _ _ _ => true
  | .vlog2F32 _ _ _ => true
  | .vsqrtF32 _ _ _ => true
  | .vcvtBf16F32 _ _ _ => true
  | .vcvtF32Bf16 _ _ _ => true
  | .vcvtF16F32 _ _ _ => true
  | .vcvtF32F16 _ _ _ => true
  | .vcvtE4m3F32 _ _ _ => true
  | .vcvtE5m2F32 _ _ _ => true
  | .vcvtF32E4m3 _ _ _ => true
  | .vcvtF32E5m2 _ _ _ => true
  | .vcvtF4xF32 _ _ _ => true
  | .vcvtF32F4x _ _ _ => true
  | .vcvtI32F32 _ _ _ => true
  | .vcvtF32I32 _ _ _ => true
  | .vcvtQF32 _ _ _ => true
  | .vcvtF32Q _ _ _ => true
  | .vredaddI32 _ _ _ => true
  | .vredaddF32 _ _ _ => true
  | .vredmaxF32 _ _ _ => true
  | .vredmaxI32 _ _ _ => true
  | .vperm _ _ _ _ => true
  | .vrot _ _ _ _ => true
  | .vbcast _ _ _ => true
  | .vext _ _ _ => true
  | .vins _ _ _ => true
  | .vsel _ _ _ _ => true
  | .vli _ _ => true
  | .pand d a b => kReg d && kReg a && kReg b
  | .por d a b => kReg d && kReg a && kReg b
  | .pxor d a b => kReg d && kReg a && kReg b
  | .pnot d a => kReg d && kReg a
  | .pset d _ => kReg d
  | .pany _ a => kReg a
  | .pall _ a => kReg a
  | .ppop _ a => kReg a
  | .ldbI _ _ _ => true
  | .ldbN _ _ _ => true
  | .ldhI _ _ _ => true
  | .ldhN _ _ _ => true
  | .ldwI _ _ _ => true
  | .ldwN _ _ _ => true
  | .ldd _ _ _ => true
  | .stb _ _ _ => true
  | .sth _ _ _ => true
  | .stw _ _ _ => true
  | .std _ _ _ => true
  | .vld _ _ _ _ => true
  | .vst _ _ _ _ => true
  | .vldg _ _ _ _ => true
  | .vsts _ _ _ _ => true
  | .pref _ => true
  | .res _ _ => true
  | .ldt _ _ => true
  | .ldtp _ _ => true
  | .stt _ _ => true
  | .sttn _ _ _ => true
  | .tagr _ _ => true
  | .tagw _ _ => true
  | .bind _ _ _ => true
  | .drain _ => true
  | .fenceAcq b => decide (1 ≤ b.toNat ∧ b.toNat ≤ 4)
  | .fenceRel b => decide (1 ≤ b.toNat ∧ b.toNat ≤ 4)
  | .fenceFull b => decide (1 ≤ b.toNat ∧ b.toNat ≤ 4)
  | .barInit j _ => decide (j.toNat ≤ 7)
  | .barArrive j => decide (j.toNat ≤ 7)
  | .barWait j => decide (j.toNat ≤ 7)
  | .amoAdd _ _ _ => true
  | .amoMinI _ _ _ => true
  | .amoMaxI _ _ _ => true
  | .amoAnd _ _ _ => true
  | .amoOr _ _ _ => true
  | .amoSwap _ _ _ => true
  | .amoCas _ _ _ => true
  | .ainit _ _ => true
  | .adec _ _ _ => true
  | .ainc _ _ => true
  | .aread _ _ => true
  | .axread _ _ => true
  | .afree _ => true
  | .brNz _ _ => true
  | .brZ _ _ => true
  | .brq c _ => kReg c
  | .jal _ _ => true
  | .jr _ => true
  | .loop _ _ => true
  | .join => true
  | .joinAll => true
  | .yield => true
  | .exit => true
  | .trap _ => true
  | .fmt _ => true
  | .mlatch _ _ => true
  | .mgather _ _ _ _ => true
  | .mma _ _ _ _ => true
  | .mmas _ _ _ _ => true
  | .mst _ f _ => decide (f.toNat ≤ 2)
  | .mkat _ _ => true
  | .cpSrc _ => true
  | .cpDst _ => true
  | .cpDims _ _ n => decide (n.toNat ≤ 5)
  | .cpDimd _ n => decide (n.toNat ≤ 5)
  | .cpGo _ n => decide (n.toNat ≤ 7)
  | .cpQfence _ => true
  | .cpStatus _ => true
  | .cpWait n => decide (n.toNat ≤ 7)
  | .msLen _ => true
  | .msCw _ => true
  | .msZero _ => true
  | .msCopy _ _ => true
  | .lkCw _ p => decide (p.toNat ≤ 15)
  | .lkSend _ _ p => decide (p.toNat ≤ 15)
  | .lkRecv _ _ p => decide (p.toNat ≤ 15)
  | .lkRaddF32 _ _ p => decide (p.toNat ≤ 15)
  | .lkRaddBf16 _ _ p => decide (p.toNat ≤ 15)
  | .lkRaddI32 _ _ p => decide (p.toNat ≤ 15)
  | .ckpt _ => true
  | .commit => true
  | .guard _ _ => true
  | .assert _ => true
  | .abort => true
  | .copWb _ _ => true
  | .copInv _ _ => true
  | .suspensionComplete _ => true
  | .exposedResultLands _ => true
  | .interlockedResultArrives _ _ => true
  | .idleStep _ => true
  | .pipelineError _ => true
  | .bankReservationEnd _ _ => true
  | .arrayWorkComplete _ => true
  | .fetchDecode _ _ => true
  | .ibufFill _ _ => true
  | .joinBudgetExpiry _ _ => true
  | .tagWaitTimeout _ => true
  | .waitHoldTimeout _ => true
  | .tagChangeWake _ => true
  | .barrierArrivalCounted _ _ => true
  | .pickerSwitch _ => true
  | .epAging _ => true
  | .contextWake _ => true
  | .budgetPeriod _ => true
  | .pageWalk _ _ _ => true
  | .copyOperationStart _ _ _ => true
  | .copyOperationComplete _ _ => true
  | .msOperationStart _ _ => true
  | .msOperationComplete _ => true
  | .linkFlitArrival _ _ _ => true
  | .linkSendComplete _ _ => true
  | .linkReceiveComplete _ _ => true
  | .linkdown _ => true
  | .linkCancel _ => true
  | .linkUp _ _ => true
  | .timeBeacon _ _ => true
  | .clusterCounterStop _ => true
  | .clusterCounterResume _ => true
  | .clusterFill _ _ _ => true
  | .leaseReturn _ _ => true
  | .sliceWritePerformed _ => true
  | .deferredAck _ _ => true
  | .readshared _ _ => true
  | .readown _ _ => true
  | .upgrade _ _ => true
  | .fwdshared _ _ => true
  | .fwdown _ _ => true
  | .inv _ _ => true
  | .backinv _ _ => true
  | .wbdirty _ _ => true
  | .ack _ _ => true
  | .data _ _ => true
  | .allowanceRequest _ _ => true
  | .serve _ => true
  | .grant _ _ => true
  | .recall _ _ => true
  | .recallAnswer _ _ => true
  | .holdingZeroReport _ _ => true
  | .allowanceLeaseEnd _ _ => true
  | .reclamation _ _ => true
  | .kernelNodeEval _ => true
  | .condNodeEval _ => true
  | .switchNodeEval _ => true
  | .loopNodeEval _ => true
  | .joinNodeEval _ => true
  | .gangRetirement _ _ => true
  | .heldRetirementProceeds _ => true
  | .gcommit _ _ => true
  | .placementRetry _ _ _ => true
  | .grstatFaultClear _ => true
  | .registerWrite _ _ => true
  | .freeze _ => true
  | .controlCoreResume _ => true
  | .restoration _ _ _ _ => true
  | .katfailPolicy _ => true
  | .regionMachineResume _ => true
  | .lockstepConfirm _ _ => true
  | .patrolScrub _ => true
  | .dieFailureDeclaration _ => true
  | .declarationAtHome _ _ => true
  | .salvage _ _ => true
  | .declarationAtTundish _ _ => true
  | .powerGood _ => true
  | .powerOff => true
  | .deviceReset _ => true
  | .tamperAlarm _ _ => true
  | .junctionTemperature _ _ => true
  | .packagePowerLimit => true
  | .loadGraph => true
  | .launch => true
  | .map => true
  | .unmap => true
  | .asidAlloc => true
  | .asidRetire => true
  | .ptsync => true
  | .resume => true
  | .evict => true
  | .query => true
  | .scrubSet => true
  | .attest => true
  | .writeMem => true
  | .readMem => true
  | .illegalSyllable _ => true
  | .softError _ _ => true
  | .writePerformed _ => true
  | .cacheRangeOperationComplete _ => true

end Sys2Proof
end

