-- ==== Sys2Proof/Decode.lean ====
section
/-! DEFINITION. Decoding a syllable (02 R22 to R26, R36 to R39), total on any bytes, and the encoder written from the same
tables. Reserved majors, unassigned selectors, nonzero reserved fields and operands outside their limits are refused by name. -/

namespace Sys2Proof

/-- Why a word is no syllable (R33). -/
inductive Reject where
  | majorReserved
  | selectorUnassigned
  | reservedNonzero
  | operandRange
  | notOneWord
  deriving DecidableEq, Repr

/-- The stop bit S (R22). -/
def stopBit (w : W32) : Bool := w.getLsbD 31

/-- The major opcode (R22). -/
def majorOf (w : W32) : Nat := (w.extractLsb' 24 7).toNat

/-- A syllable whose reserved bits are `res`: they must be 0, and the operands within the limits of R33. -/
def syllable (w res : W32) (i : Instr) : Except Reject Instr :=
  if w &&& res = 0 then (if i.wellFormed then .ok i else .error .operandRange) else .error .reservedNonzero

/-- The instruction a syllable holds (R36, R37), or why it holds none. -/
def decodeWord (w : W32) : Except Reject Instr :=
  match majorOf w with
  | 0x00 => syllable w 0x00FFF000 (.nop (w.extractLsb' 0 12))
  | 0x01 =>
    match (w.extractLsb' 0 3).toNat with
    | 0 => syllable w 0x00000038 (.add (w.extractLsb' 18 6) (w.extractLsb' 12 6) (w.extractLsb' 6 6))
    | 1 => syllable w 0x00000038 (.sub (w.extractLsb' 18 6) (w.extractLsb' 12 6) (w.extractLsb' 6 6))
    | 2 => syllable w 0x00000038 (.and (w.extractLsb' 18 6) (w.extractLsb' 12 6) (w.extractLsb' 6 6))
    | 3 => syllable w 0x00000038 (.or (w.extractLsb' 18 6) (w.extractLsb' 12 6) (w.extractLsb' 6 6))
    | 4 => syllable w 0x00000038 (.xor (w.extractLsb' 18 6) (w.extractLsb' 12 6) (w.extractLsb' 6 6))
    | 5 => syllable w 0x00000038 (.andn (w.extractLsb' 18 6) (w.extractLsb' 12 6) (w.extractLsb' 6 6))
    | _ => .error .selectorUnassigned
  | 0x02 =>
    match (w.extractLsb' 0 3).toNat with
    | 0 => syllable w 0x00000038 (.shl (w.extractLsb' 18 6) (w.extractLsb' 12 6) (w.extractLsb' 6 6))
    | 1 => syllable w 0x00000038 (.shr (w.extractLsb' 18 6) (w.extractLsb' 12 6) (w.extractLsb' 6 6))
    | 2 => syllable w 0x00000038 (.sra (w.extractLsb' 18 6) (w.extractLsb' 12 6) (w.extractLsb' 6 6))
    | 3 => syllable w 0x00000038 (.ror (w.extractLsb' 18 6) (w.extractLsb' 12 6) (w.extractLsb' 6 6))
    | _ => .error .selectorUnassigned
  | 0x03 =>
    match (w.extractLsb' 0 3).toNat with
    | 0 => syllable w 0x00000038 (.mul (w.extractLsb' 18 6) (w.extractLsb' 12 6) (w.extractLsb' 6 6))
    | 1 => syllable w 0x00000038 (.mulhI (w.extractLsb' 18 6) (w.extractLsb' 12 6) (w.extractLsb' 6 6))
    | 2 => syllable w 0x00000038 (.mulhN (w.extractLsb' 18 6) (w.extractLsb' 12 6) (w.extractLsb' 6 6))
    | 3 => syllable w 0x00000038 (.divI (w.extractLsb' 18 6) (w.extractLsb' 12 6) (w.extractLsb' 6 6))
    | 4 => syllable w 0x00000038 (.divN (w.extractLsb' 18 6) (w.extractLsb' 12 6) (w.extractLsb' 6 6))
    | 5 => syllable w 0x00000038 (.remI (w.extractLsb' 18 6) (w.extractLsb' 12 6) (w.extractLsb' 6 6))
    | 6 => syllable w 0x00000038 (.remN (w.extractLsb' 18 6) (w.extractLsb' 12 6) (w.extractLsb' 6 6))
    | _ => .error .selectorUnassigned
  | 0x04 =>
    match (w.extractLsb' 0 3).toNat with
    | 0 => syllable w 0x00000038 (.minI (w.extractLsb' 18 6) (w.extractLsb' 12 6) (w.extractLsb' 6 6))
    | 1 => syllable w 0x00000038 (.maxI (w.extractLsb' 18 6) (w.extractLsb' 12 6) (w.extractLsb' 6 6))
    | 2 => syllable w 0x00000038 (.minN (w.extractLsb' 18 6) (w.extractLsb' 12 6) (w.extractLsb' 6 6))
    | 3 => syllable w 0x00000038 (.maxN (w.extractLsb' 18 6) (w.extractLsb' 12 6) (w.extractLsb' 6 6))
    | _ => .error .selectorUnassigned
  | 0x05 =>
    match (w.extractLsb' 0 3).toNat with
    | 0 => syllable w 0x00000FF8 (.clz (w.extractLsb' 18 6) (w.extractLsb' 12 6))
    | 1 => syllable w 0x00000FF8 (.popc (w.extractLsb' 18 6) (w.extractLsb' 12 6))
    | 2 => syllable w 0x00000038 (.sext (w.extractLsb' 18 6) (w.extractLsb' 12 6) (w.extractLsb' 6 6))
    | 3 => syllable w 0x00000038 (.zext (w.extractLsb' 18 6) (w.extractLsb' 12 6) (w.extractLsb' 6 6))
    | _ => .error .selectorUnassigned
  | 0x06 =>
    match (w.extractLsb' 0 3).toNat with
    | 0 => syllable w 0x00000038 (.cmpEq (w.extractLsb' 18 6) (w.extractLsb' 12 6) (w.extractLsb' 6 6))
    | 1 => syllable w 0x00000038 (.cmpLtI (w.extractLsb' 18 6) (w.extractLsb' 12 6) (w.extractLsb' 6 6))
    | 2 => syllable w 0x00000038 (.cmpLeI (w.extractLsb' 18 6) (w.extractLsb' 12 6) (w.extractLsb' 6 6))
    | 3 => syllable w 0x00000038 (.cmpLtN (w.extractLsb' 18 6) (w.extractLsb' 12 6) (w.extractLsb' 6 6))
    | 4 => syllable w 0x00000038 (.cmpLeN (w.extractLsb' 18 6) (w.extractLsb' 12 6) (w.extractLsb' 6 6))
    | _ => .error .selectorUnassigned
  | 0x07 =>
    match (w.extractLsb' 0 3).toNat with
    | 0 => syllable w 0x00000038 (.sel (w.extractLsb' 18 6) (w.extractLsb' 12 6) (w.extractLsb' 6 6))
    | _ => .error .selectorUnassigned
  | 0x08 => syllable w 0x00000000 (.addi (w.extractLsb' 18 6) (w.extractLsb' 12 6) (w.extractLsb' 0 12))
  | 0x09 => syllable w 0x00000000 (.andi (w.extractLsb' 18 6) (w.extractLsb' 12 6) (w.extractLsb' 0 12))
  | 0x0A => syllable w 0x00000000 (.ori (w.extractLsb' 18 6) (w.extractLsb' 12 6) (w.extractLsb' 0 12))
  | 0x0B => syllable w 0x00000000 (.xori (w.extractLsb' 18 6) (w.extractLsb' 12 6) (w.extractLsb' 0 12))
  | 0x0C =>
    match (w.extractLsb' 6 2).toNat with
    | 0 => syllable w 0x00000F00 (.shli (w.extractLsb' 18 6) (w.extractLsb' 12 6) (w.extractLsb' 0 6))
    | 1 => syllable w 0x00000F00 (.shri (w.extractLsb' 18 6) (w.extractLsb' 12 6) (w.extractLsb' 0 6))
    | 2 => syllable w 0x00000F00 (.srai (w.extractLsb' 18 6) (w.extractLsb' 12 6) (w.extractLsb' 0 6))
    | _ => .error .selectorUnassigned
  | 0x0D =>
    match (w.extractLsb' 10 2).toNat with
    | 0 => syllable w 0x00000000 (.cmpiEq (w.extractLsb' 18 6) (w.extractLsb' 12 6) (w.extractLsb' 0 10))
    | 1 => syllable w 0x00000000 (.cmpiLtI (w.extractLsb' 18 6) (w.extractLsb' 12 6) (w.extractLsb' 0 10))
    | 2 => syllable w 0x00000000 (.cmpiLtN (w.extractLsb' 18 6) (w.extractLsb' 12 6) (w.extractLsb' 0 10))
    | _ => .error .selectorUnassigned
  | 0x0E => syllable w 0x00000000 (.li (w.extractLsb' 18 6) (w.extractLsb' 0 18))
  | 0x0F => syllable w 0x00000000 (.lih1 (w.extractLsb' 18 6) (w.extractLsb' 0 18))
  | 0x10 => syllable w 0x00000000 (.lih2 (w.extractLsb' 18 6) (w.extractLsb' 0 18))
  | 0x11 => syllable w 0x0003FC00 (.lih3 (w.extractLsb' 18 6) (w.extractLsb' 0 10))
  | 0x12 => syllable w 0x00000000 (.addpc (w.extractLsb' 18 6) (w.extractLsb' 0 18))
  | 0x13 => syllable w 0x0003F000 (.gets (w.extractLsb' 18 6) (w.extractLsb' 0 12))
  | 0x14 => syllable w 0x00FC0000 (.sets (w.extractLsb' 12 6) (w.extractLsb' 0 12))
  | 0x20 =>
    match (w.extractLsb' 0 3).toNat with
    | 0 => syllable w 0x00000000 (.vaddI32 (w.extractLsb' 18 6) (w.extractLsb' 12 6) (w.extractLsb' 6 6) (w.extractLsb' 3 3))
    | 1 => syllable w 0x00000000 (.vsubI32 (w.extractLsb' 18 6) (w.extractLsb' 12 6) (w.extractLsb' 6 6) (w.extractLsb' 3 3))
    | 2 => syllable w 0x00000000 (.vmulI32 (w.extractLsb' 18 6) (w.extractLsb' 12 6) (w.extractLsb' 6 6) (w.extractLsb' 3 3))
    | 3 => syllable w 0x00000000 (.vmulhI32 (w.extractLsb' 18 6) (w.extractLsb' 12 6) (w.extractLsb' 6 6) (w.extractLsb' 3 3))
    | 4 => syllable w 0x00000000 (.vmulhN32 (w.extractLsb' 18 6) (w.extractLsb' 12 6) (w.extractLsb' 6 6) (w.extractLsb' 3 3))
    | 5 => syllable w 0x00000000 (.vand (w.extractLsb' 18 6) (w.extractLsb' 12 6) (w.extractLsb' 6 6) (w.extractLsb' 3 3))
    | 6 => syllable w 0x00000000 (.vor (w.extractLsb' 18 6) (w.extractLsb' 12 6) (w.extractLsb' 6 6) (w.extractLsb' 3 3))
    | 7 => syllable w 0x00000000 (.vxor (w.extractLsb' 18 6) (w.extractLsb' 12 6) (w.extractLsb' 6 6) (w.extractLsb' 3 3))
    | _ => .error .selectorUnassigned
  | 0x21 =>
    match (w.extractLsb' 0 3).toNat with
    | 0 => syllable w 0x00000000 (.vshlI32 (w.extractLsb' 18 6) (w.extractLsb' 12 6) (w.extractLsb' 6 6) (w.extractLsb' 3 3))
    | 1 => syllable w 0x00000000 (.vshrI32 (w.extractLsb' 18 6) (w.extractLsb' 12 6) (w.extractLsb' 6 6) (w.extractLsb' 3 3))
    | 2 => syllable w 0x00000000 (.vsraI32 (w.extractLsb' 18 6) (w.extractLsb' 12 6) (w.extractLsb' 6 6) (w.extractLsb' 3 3))
    | 3 => syllable w 0x00000000 (.vminI32 (w.extractLsb' 18 6) (w.extractLsb' 12 6) (w.extractLsb' 6 6) (w.extractLsb' 3 3))
    | 4 => syllable w 0x00000000 (.vmaxI32 (w.extractLsb' 18 6) (w.extractLsb' 12 6) (w.extractLsb' 6 6) (w.extractLsb' 3 3))
    | 5 => syllable w 0x00000000 (.vminN32 (w.extractLsb' 18 6) (w.extractLsb' 12 6) (w.extractLsb' 6 6) (w.extractLsb' 3 3))
    | 6 => syllable w 0x00000000 (.vmaxN32 (w.extractLsb' 18 6) (w.extractLsb' 12 6) (w.extractLsb' 6 6) (w.extractLsb' 3 3))
    | _ => .error .selectorUnassigned
  | 0x22 =>
    match (w.extractLsb' 0 3).toNat with
    | 0 => syllable w 0x00000000 (.vaddI16 (w.extractLsb' 18 6) (w.extractLsb' 12 6) (w.extractLsb' 6 6) (w.extractLsb' 3 3))
    | 1 => syllable w 0x00000000 (.vsubI16 (w.extractLsb' 18 6) (w.extractLsb' 12 6) (w.extractLsb' 6 6) (w.extractLsb' 3 3))
    | 2 => syllable w 0x00000000 (.vaddsI16 (w.extractLsb' 18 6) (w.extractLsb' 12 6) (w.extractLsb' 6 6) (w.extractLsb' 3 3))
    | 3 => syllable w 0x00000000 (.vsubsI16 (w.extractLsb' 18 6) (w.extractLsb' 12 6) (w.extractLsb' 6 6) (w.extractLsb' 3 3))
    | _ => .error .selectorUnassigned
  | 0x23 =>
    match (w.extractLsb' 0 3).toNat with
    | 0 => syllable w 0x00000000 (.vcmpEqI32 (w.extractLsb' 18 6) (w.extractLsb' 12 6) (w.extractLsb' 6 6) (w.extractLsb' 3 3))
    | 1 => syllable w 0x00000000 (.vcmpLtI32 (w.extractLsb' 18 6) (w.extractLsb' 12 6) (w.extractLsb' 6 6) (w.extractLsb' 3 3))
    | 2 => syllable w 0x00000000 (.vcmpLeI32 (w.extractLsb' 18 6) (w.extractLsb' 12 6) (w.extractLsb' 6 6) (w.extractLsb' 3 3))
    | 3 => syllable w 0x00000000 (.vcmpLtN32 (w.extractLsb' 18 6) (w.extractLsb' 12 6) (w.extractLsb' 6 6) (w.extractLsb' 3 3))
    | 4 => syllable w 0x00000000 (.vcmpLeN32 (w.extractLsb' 18 6) (w.extractLsb' 12 6) (w.extractLsb' 6 6) (w.extractLsb' 3 3))
    | _ => .error .selectorUnassigned
  | 0x24 =>
    match (w.extractLsb' 0 3).toNat with
    | 0 => syllable w 0x00000000 (.vaddF32 (w.extractLsb' 18 6) (w.extractLsb' 12 6) (w.extractLsb' 6 6) (w.extractLsb' 3 3))
    | 1 => syllable w 0x00000000 (.vsubF32 (w.extractLsb' 18 6) (w.extractLsb' 12 6) (w.extractLsb' 6 6) (w.extractLsb' 3 3))
    | 2 => syllable w 0x00000000 (.vmulF32 (w.extractLsb' 18 6) (w.extractLsb' 12 6) (w.extractLsb' 6 6) (w.extractLsb' 3 3))
    | 3 => syllable w 0x00000000 (.vminF32 (w.extractLsb' 18 6) (w.extractLsb' 12 6) (w.extractLsb' 6 6) (w.extractLsb' 3 3))
    | 4 => syllable w 0x00000000 (.vmaxF32 (w.extractLsb' 18 6) (w.extractLsb' 12 6) (w.extractLsb' 6 6) (w.extractLsb' 3 3))
    | _ => .error .selectorUnassigned
  | 0x25 =>
    match (w.extractLsb' 0 3).toNat with
    | 0 => syllable w 0x00000000 (.vfmaF32 (w.extractLsb' 18 6) (w.extractLsb' 12 6) (w.extractLsb' 6 6) (w.extractLsb' 3 3))
    | 1 => syllable w 0x00000000 (.vfmsF32 (w.extractLsb' 18 6) (w.extractLsb' 12 6) (w.extractLsb' 6 6) (w.extractLsb' 3 3))
    | _ => .error .selectorUnassigned
  | 0x26 =>
    match (w.extractLsb' 0 3).toNat with
    | 0 => syllable w 0x00000000 (.vcmpEqF32 (w.extractLsb' 18 6) (w.extractLsb' 12 6) (w.extractLsb' 6 6) (w.extractLsb' 3 3))
    | 1 => syllable w 0x00000000 (.vcmpLtF32 (w.extractLsb' 18 6) (w.extractLsb' 12 6) (w.extractLsb' 6 6) (w.extractLsb' 3 3))
    | 2 => syllable w 0x00000000 (.vcmpLeF32 (w.extractLsb' 18 6) (w.extractLsb' 12 6) (w.extractLsb' 6 6) (w.extractLsb' 3 3))
    | _ => .error .selectorUnassigned
  | 0x27 =>
    match (w.extractLsb' 0 3).toNat with
    | 0 => syllable w 0x00000FC0 (.vrcpF32 (w.extractLsb' 18 6) (w.extractLsb' 12 6) (w.extractLsb' 3 3))
    | 1 => syllable w 0x00000FC0 (.vrsqF32 (w.extractLsb' 18 6) (w.extractLsb' 12 6) (w.extractLsb' 3 3))
    | 2 => syllable w 0x00000FC0 (.vexp2F32 (w.extractLsb' 18 6) (w.extractLsb' 12 6) (w.extractLsb' 3 3))
    | 3 => syllable w 0x00000FC0 (.vlog2F32 (w.extractLsb' 18 6) (w.extractLsb' 12 6) (w.extractLsb' 3 3))
    | 4 => syllable w 0x00000FC0 (.vsqrtF32 (w.extractLsb' 18 6) (w.extractLsb' 12 6) (w.extractLsb' 3 3))
    | _ => .error .selectorUnassigned
  | 0x28 =>
    match (w.extractLsb' 0 3).toNat with
    | 0 => syllable w 0x00000FC0 (.vcvtBf16F32 (w.extractLsb' 18 6) (w.extractLsb' 12 6) (w.extractLsb' 3 3))
    | 1 => syllable w 0x00000FC0 (.vcvtF32Bf16 (w.extractLsb' 18 6) (w.extractLsb' 12 6) (w.extractLsb' 3 3))
    | 2 => syllable w 0x00000FC0 (.vcvtF16F32 (w.extractLsb' 18 6) (w.extractLsb' 12 6) (w.extractLsb' 3 3))
    | 3 => syllable w 0x00000FC0 (.vcvtF32F16 (w.extractLsb' 18 6) (w.extractLsb' 12 6) (w.extractLsb' 3 3))
    | 4 => syllable w 0x00000FC0 (.vcvtE4m3F32 (w.extractLsb' 18 6) (w.extractLsb' 12 6) (w.extractLsb' 3 3))
    | 5 => syllable w 0x00000FC0 (.vcvtE5m2F32 (w.extractLsb' 18 6) (w.extractLsb' 12 6) (w.extractLsb' 3 3))
    | 6 => syllable w 0x00000FC0 (.vcvtF32E4m3 (w.extractLsb' 18 6) (w.extractLsb' 12 6) (w.extractLsb' 3 3))
    | 7 => syllable w 0x00000FC0 (.vcvtF32E5m2 (w.extractLsb' 18 6) (w.extractLsb' 12 6) (w.extractLsb' 3 3))
    | _ => .error .selectorUnassigned
  | 0x29 =>
    match (w.extractLsb' 0 3).toNat with
    | 0 => syllable w 0x00000FC0 (.vcvtF4xF32 (w.extractLsb' 18 6) (w.extractLsb' 12 6) (w.extractLsb' 3 3))
    | 1 => syllable w 0x00000FC0 (.vcvtF32F4x (w.extractLsb' 18 6) (w.extractLsb' 12 6) (w.extractLsb' 3 3))
    | 2 => syllable w 0x00000FC0 (.vcvtI32F32 (w.extractLsb' 18 6) (w.extractLsb' 12 6) (w.extractLsb' 3 3))
    | 3 => syllable w 0x00000FC0 (.vcvtF32I32 (w.extractLsb' 18 6) (w.extractLsb' 12 6) (w.extractLsb' 3 3))
    | 4 => syllable w 0x00000FC0 (.vcvtQF32 (w.extractLsb' 18 6) (w.extractLsb' 12 6) (w.extractLsb' 3 3))
    | 5 => syllable w 0x00000FC0 (.vcvtF32Q (w.extractLsb' 18 6) (w.extractLsb' 12 6) (w.extractLsb' 3 3))
    | _ => .error .selectorUnassigned
  | 0x2A =>
    match (w.extractLsb' 0 3).toNat with
    | 0 => syllable w 0x00000FC0 (.vredaddI32 (w.extractLsb' 18 6) (w.extractLsb' 12 6) (w.extractLsb' 3 3))
    | 1 => syllable w 0x00000FC0 (.vredaddF32 (w.extractLsb' 18 6) (w.extractLsb' 12 6) (w.extractLsb' 3 3))
    | 2 => syllable w 0x00000FC0 (.vredmaxF32 (w.extractLsb' 18 6) (w.extractLsb' 12 6) (w.extractLsb' 3 3))
    | 3 => syllable w 0x00000FC0 (.vredmaxI32 (w.extractLsb' 18 6) (w.extractLsb' 12 6) (w.extractLsb' 3 3))
    | _ => .error .selectorUnassigned
  | 0x2B =>
    match (w.extractLsb' 0 3).toNat with
    | 0 => syllable w 0x00000000 (.vperm (w.extractLsb' 18 6) (w.extractLsb' 12 6) (w.extractLsb' 6 6) (w.extractLsb' 3 3))
    | 1 => syllable w 0x00000000 (.vrot (w.extractLsb' 18 6) (w.extractLsb' 12 6) (w.extractLsb' 6 6) (w.extractLsb' 3 3))
    | 2 => syllable w 0x00000FC0 (.vbcast (w.extractLsb' 18 6) (w.extractLsb' 12 6) (w.extractLsb' 3 3))
    | 3 => syllable w 0x00000038 (.vext (w.extractLsb' 18 6) (w.extractLsb' 12 6) (w.extractLsb' 6 6))
    | 4 => syllable w 0x00000038 (.vins (w.extractLsb' 18 6) (w.extractLsb' 12 6) (w.extractLsb' 6 6))
    | _ => .error .selectorUnassigned
  | 0x2C =>
    match (w.extractLsb' 0 3).toNat with
    | 0 => syllable w 0x00000000 (.vsel (w.extractLsb' 18 6) (w.extractLsb' 12 6) (w.extractLsb' 6 6) (w.extractLsb' 3 3))
    | _ => .error .selectorUnassigned
  | 0x2D => syllable w 0x00000000 (.vli (w.extractLsb' 18 6) (w.extractLsb' 0 18))
  | 0x30 =>
    match (w.extractLsb' 0 3).toNat with
    | 0 => syllable w 0x00000038 (.pand (w.extractLsb' 18 6) (w.extractLsb' 12 6) (w.extractLsb' 6 6))
    | 1 => syllable w 0x00000038 (.por (w.extractLsb' 18 6) (w.extractLsb' 12 6) (w.extractLsb' 6 6))
    | 2 => syllable w 0x00000038 (.pxor (w.extractLsb' 18 6) (w.extractLsb' 12 6) (w.extractLsb' 6 6))
    | 3 => syllable w 0x00000FF8 (.pnot (w.extractLsb' 18 6) (w.extractLsb' 12 6))
    | 4 => syllable w 0x00000FF8 (.pset (w.extractLsb' 18 6) (w.extractLsb' 12 6))
    | _ => .error .selectorUnassigned
  | 0x31 =>
    match (w.extractLsb' 0 3).toNat with
    | 0 => syllable w 0x00000FF8 (.pany (w.extractLsb' 18 6) (w.extractLsb' 12 6))
    | 1 => syllable w 0x00000FF8 (.pall (w.extractLsb' 18 6) (w.extractLsb' 12 6))
    | 2 => syllable w 0x00000FF8 (.ppop (w.extractLsb' 18 6) (w.extractLsb' 12 6))
    | _ => .error .selectorUnassigned
  | 0x40 => syllable w 0x00000007 (.ldbI (w.extractLsb' 18 6) (w.extractLsb' 12 6) (w.extractLsb' 3 9))
  | 0x41 => syllable w 0x00000007 (.ldbN (w.extractLsb' 18 6) (w.extractLsb' 12 6) (w.extractLsb' 3 9))
  | 0x42 => syllable w 0x00000007 (.ldhI (w.extractLsb' 18 6) (w.extractLsb' 12 6) (w.extractLsb' 3 9))
  | 0x43 => syllable w 0x00000007 (.ldhN (w.extractLsb' 18 6) (w.extractLsb' 12 6) (w.extractLsb' 3 9))
  | 0x44 => syllable w 0x00000007 (.ldwI (w.extractLsb' 18 6) (w.extractLsb' 12 6) (w.extractLsb' 3 9))
  | 0x45 => syllable w 0x00000007 (.ldwN (w.extractLsb' 18 6) (w.extractLsb' 12 6) (w.extractLsb' 3 9))
  | 0x46 => syllable w 0x00000007 (.ldd (w.extractLsb' 18 6) (w.extractLsb' 12 6) (w.extractLsb' 3 9))
  | 0x47 => syllable w 0x00000007 (.stb (w.extractLsb' 18 6) (w.extractLsb' 12 6) (w.extractLsb' 3 9))
  | 0x48 => syllable w 0x00000007 (.sth (w.extractLsb' 18 6) (w.extractLsb' 12 6) (w.extractLsb' 3 9))
  | 0x49 => syllable w 0x00000007 (.stw (w.extractLsb' 18 6) (w.extractLsb' 12 6) (w.extractLsb' 3 9))
  | 0x4A => syllable w 0x00000007 (.std (w.extractLsb' 18 6) (w.extractLsb' 12 6) (w.extractLsb' 3 9))
  | 0x4B => syllable w 0x00000000 (.vld (w.extractLsb' 18 6) (w.extractLsb' 12 6) (w.extractLsb' 3 9) (w.extractLsb' 0 3))
  | 0x4C => syllable w 0x00000000 (.vst (w.extractLsb' 18 6) (w.extractLsb' 12 6) (w.extractLsb' 3 9) (w.extractLsb' 0 3))
  | 0x4D =>
    match (w.extractLsb' 0 3).toNat with
    | 0 => syllable w 0x00000000 (.vldg (w.extractLsb' 18 6) (w.extractLsb' 12 6) (w.extractLsb' 6 6) (w.extractLsb' 3 3))
    | _ => .error .selectorUnassigned
  | 0x4E =>
    match (w.extractLsb' 0 3).toNat with
    | 0 => syllable w 0x00000000 (.vsts (w.extractLsb' 18 6) (w.extractLsb' 12 6) (w.extractLsb' 6 6) (w.extractLsb' 3 3))
    | _ => .error .selectorUnassigned
  | 0x4F =>
    match (w.extractLsb' 0 3).toNat with
    | 0 => syllable w 0x00FC0FF8 (.pref (w.extractLsb' 12 6))
    | 1 => syllable w 0x00FC0038 (.res (w.extractLsb' 12 6) (w.extractLsb' 6 6))
    | _ => .error .selectorUnassigned
  | 0x50 =>
    match (w.extractLsb' 0 3).toNat with
    | 0 => syllable w 0x00000FF8 (.ldt (w.extractLsb' 18 6) (w.extractLsb' 12 6))
    | 1 => syllable w 0x00000FF8 (.ldtp (w.extractLsb' 18 6) (w.extractLsb' 12 6))
    | 2 => syllable w 0x00FC0038 (.stt (w.extractLsb' 12 6) (w.extractLsb' 6 6))
    | 3 => syllable w 0x00000038 (.sttn (w.extractLsb' 18 6) (w.extractLsb' 12 6) (w.extractLsb' 6 6))
    | 4 => syllable w 0x00000FF8 (.tagr (w.extractLsb' 18 6) (w.extractLsb' 12 6))
    | 5 => syllable w 0x00FC0038 (.tagw (w.extractLsb' 12 6) (w.extractLsb' 6 6))
    | _ => .error .selectorUnassigned
  | 0x51 =>
    match (w.extractLsb' 0 3).toNat with
    | 0 => syllable w 0x00000038 (.bind (w.extractLsb' 18 6) (w.extractLsb' 12 6) (w.extractLsb' 6 6))
    | 1 => syllable w 0x00FC0FF8 (.drain (w.extractLsb' 12 6))
    | 2 => syllable w 0x00FFF038 (.fenceAcq (w.extractLsb' 6 6))
    | 3 => syllable w 0x00FFF038 (.fenceRel (w.extractLsb' 6 6))
    | 4 => syllable w 0x00FFF038 (.fenceFull (w.extractLsb' 6 6))
    | _ => .error .selectorUnassigned
  | 0x53 =>
    match (w.extractLsb' 0 3).toNat with
    | 0 => syllable w 0x00000FF8 (.barInit (w.extractLsb' 18 6) (w.extractLsb' 12 6))
    | 1 => syllable w 0x0003FFF8 (.barArrive (w.extractLsb' 18 6))
    | 2 => syllable w 0x0003FFF8 (.barWait (w.extractLsb' 18 6))
    | _ => .error .selectorUnassigned
  | 0x54 =>
    match (w.extractLsb' 0 3).toNat with
    | 0 => syllable w 0x00000038 (.amoAdd (w.extractLsb' 18 6) (w.extractLsb' 12 6) (w.extractLsb' 6 6))
    | 1 => syllable w 0x00000038 (.amoMinI (w.extractLsb' 18 6) (w.extractLsb' 12 6) (w.extractLsb' 6 6))
    | 2 => syllable w 0x00000038 (.amoMaxI (w.extractLsb' 18 6) (w.extractLsb' 12 6) (w.extractLsb' 6 6))
    | 3 => syllable w 0x00000038 (.amoAnd (w.extractLsb' 18 6) (w.extractLsb' 12 6) (w.extractLsb' 6 6))
    | 4 => syllable w 0x00000038 (.amoOr (w.extractLsb' 18 6) (w.extractLsb' 12 6) (w.extractLsb' 6 6))
    | 5 => syllable w 0x00000038 (.amoSwap (w.extractLsb' 18 6) (w.extractLsb' 12 6) (w.extractLsb' 6 6))
    | 6 => syllable w 0x00000038 (.amoCas (w.extractLsb' 18 6) (w.extractLsb' 12 6) (w.extractLsb' 6 6))
    | _ => .error .selectorUnassigned
  | 0x55 =>
    match (w.extractLsb' 0 3).toNat with
    | 0 => syllable w 0x00FC0038 (.ainit (w.extractLsb' 12 6) (w.extractLsb' 6 6))
    | 1 => syllable w 0x00000038 (.adec (w.extractLsb' 18 6) (w.extractLsb' 12 6) (w.extractLsb' 6 6))
    | 2 => syllable w 0x00FC0038 (.ainc (w.extractLsb' 12 6) (w.extractLsb' 6 6))
    | 3 => syllable w 0x00000FF8 (.aread (w.extractLsb' 18 6) (w.extractLsb' 12 6))
    | 4 => syllable w 0x00000FF8 (.axread (w.extractLsb' 18 6) (w.extractLsb' 12 6))
    | 5 => syllable w 0x00FC0FF8 (.afree (w.extractLsb' 12 6))
    | _ => .error .selectorUnassigned
  | 0x58 => syllable w 0x00000000 (.brNz (w.extractLsb' 18 6) (w.extractLsb' 0 18))
  | 0x59 => syllable w 0x00000000 (.brZ (w.extractLsb' 18 6) (w.extractLsb' 0 18))
  | 0x5A => syllable w 0x00000000 (.brq (w.extractLsb' 18 6) (w.extractLsb' 0 18))
  | 0x5B => syllable w 0x00000000 (.jal (w.extractLsb' 18 6) (w.extractLsb' 0 18))
  | 0x5C =>
    match (w.extractLsb' 0 3).toNat with
    | 0 => syllable w 0x00FC0FF8 (.jr (w.extractLsb' 12 6))
    | _ => .error .selectorUnassigned
  | 0x5D => syllable w 0x00000000 (.loop (w.extractLsb' 18 6) (w.extractLsb' 0 18))
  | 0x5E =>
    match (w.extractLsb' 0 3).toNat with
    | 0 => if w.extractLsb' 6 6 = 1#6 then syllable w 0x00FFF038 .joinAll else syllable w 0x00FFFFF8 .join
    | 1 => syllable w 0x00FFFFF8 (.yield)
    | 2 => syllable w 0x00FFFFF8 (.exit)
    | 3 => syllable w 0x00FC0038 (.trap (w.extractLsb' 6 12))
    | _ => .error .selectorUnassigned
  | 0x60 => syllable w 0x00FC0FFF (.fmt (w.extractLsb' 12 6))
  | 0x61 => syllable w 0x00FC03FF (.mlatch (w.extractLsb' 12 6) (w.extractLsb' 10 2))
  | 0x62 => syllable w 0x00000FC6 (.mgather (w.extractLsb' 18 6) (w.extractLsb' 12 6) (w.extractLsb' 3 3) (w.extractLsb' 0 1))
  | 0x63 => syllable w 0x00FFF3BC (.mma (w.extractLsb' 10 2) (w.extractLsb' 6 1) (w.extractLsb' 1 1) (w.extractLsb' 0 1))
  | 0x64 => syllable w 0x00FFF3BC (.mmas (w.extractLsb' 10 2) (w.extractLsb' 6 1) (w.extractLsb' 1 1) (w.extractLsb' 0 1))
  | 0x65 => syllable w 0x00FC0C3D (.mst (w.extractLsb' 12 6) (w.extractLsb' 6 4) (w.extractLsb' 1 1))
  | 0x66 => syllable w 0x00FC0E3F (.mkat (w.extractLsb' 12 6) (w.extractLsb' 6 3))
  | 0x68 =>
    match (w.extractLsb' 8 4).toNat with
    | 0 => syllable w 0x0003F0FF (.cpSrc (w.extractLsb' 18 6))
    | 1 => syllable w 0x0003F0FF (.cpDst (w.extractLsb' 18 6))
    | 2 => syllable w 0x00000007 (.cpDims (w.extractLsb' 18 6) (w.extractLsb' 12 6) (w.extractLsb' 3 5))
    | 3 => syllable w 0x00FC0007 (.cpDimd (w.extractLsb' 12 6) (w.extractLsb' 3 5))
    | 4 => syllable w 0x0003F007 (.cpGo (w.extractLsb' 18 6) (w.extractLsb' 3 5))
    | 5 => syllable w 0x00FF8007 (.cpQfence ((w.extractLsb' 12 3) ++ (w.extractLsb' 3 5)))
    | 6 => syllable w 0x0003F0FF (.cpStatus (w.extractLsb' 18 6))
    | 7 => syllable w 0x00FFF007 (.cpWait (w.extractLsb' 3 5))
    | _ => .error .selectorUnassigned
  | 0x69 =>
    match (w.extractLsb' 8 4).toNat with
    | 0 => syllable w 0x0003F0FF (.msLen (w.extractLsb' 18 6))
    | 1 => syllable w 0x0003F0FF (.msCw (w.extractLsb' 18 6))
    | 2 => syllable w 0x0003F0FF (.msZero (w.extractLsb' 18 6))
    | 3 => syllable w 0x000000FF (.msCopy (w.extractLsb' 18 6) (w.extractLsb' 12 6))
    | _ => .error .selectorUnassigned
  | 0x6A =>
    match (w.extractLsb' 8 4).toNat with
    | 0 => syllable w 0x0003F007 (.lkCw (w.extractLsb' 18 6) (w.extractLsb' 3 5))
    | 1 => syllable w 0x00000007 (.lkSend (w.extractLsb' 18 6) (w.extractLsb' 12 6) (w.extractLsb' 3 5))
    | 2 => syllable w 0x00000007 (.lkRecv (w.extractLsb' 18 6) (w.extractLsb' 12 6) (w.extractLsb' 3 5))
    | 3 => syllable w 0x00000007 (.lkRaddF32 (w.extractLsb' 18 6) (w.extractLsb' 12 6) (w.extractLsb' 3 5))
    | 4 => syllable w 0x00000007 (.lkRaddBf16 (w.extractLsb' 18 6) (w.extractLsb' 12 6) (w.extractLsb' 3 5))
    | 5 => syllable w 0x00000007 (.lkRaddI32 (w.extractLsb' 18 6) (w.extractLsb' 12 6) (w.extractLsb' 3 5))
    | _ => .error .selectorUnassigned
  | 0x70 => syllable w 0x00FC0000 (.ckpt (w.extractLsb' 0 18))
  | 0x71 =>
    match (w.extractLsb' 0 3).toNat with
    | 0 => syllable w 0x00FFFFF8 (.commit)
    | _ => .error .selectorUnassigned
  | 0x72 =>
    match (w.extractLsb' 0 3).toNat with
    | 0 => syllable w 0x00FC0038 (.guard (w.extractLsb' 12 6) (w.extractLsb' 6 6))
    | _ => .error .selectorUnassigned
  | 0x73 =>
    match (w.extractLsb' 0 3).toNat with
    | 0 => syllable w 0x00FC0FF8 (.assert (w.extractLsb' 12 6))
    | _ => .error .selectorUnassigned
  | 0x74 =>
    match (w.extractLsb' 0 3).toNat with
    | 0 => syllable w 0x00FFFFF8 (.abort)
    | _ => .error .selectorUnassigned
  | 0x78 =>
    match (w.extractLsb' 0 3).toNat with
    | 0 => syllable w 0x00FC0038 (.copWb (w.extractLsb' 12 6) (w.extractLsb' 6 6))
    | 1 => syllable w 0x00FC0038 (.copInv (w.extractLsb' 12 6) (w.extractLsb' 6 6))
    | _ => .error .selectorUnassigned
  | _ => .error .majorReserved

/-- The bits below the stop bit of an instruction's syllable (R23, R36, R37); an event has none. -/
def encodeBody (i : Instr) : Option (BitVec 31) :=
  match i with
  | .nop i => some (0x0#7 ++ 0x0#12 ++ i)
  | .add d a b => some (0x1#7 ++ d ++ a ++ b ++ 0x0#6)
  | .sub d a b => some (0x1#7 ++ d ++ a ++ b ++ 0x1#6)
  | .and d a b => some (0x1#7 ++ d ++ a ++ b ++ 0x2#6)
  | .or d a b => some (0x1#7 ++ d ++ a ++ b ++ 0x3#6)
  | .xor d a b => some (0x1#7 ++ d ++ a ++ b ++ 0x4#6)
  | .andn d a b => some (0x1#7 ++ d ++ a ++ b ++ 0x5#6)
  | .shl d a b => some (0x2#7 ++ d ++ a ++ b ++ 0x0#6)
  | .shr d a b => some (0x2#7 ++ d ++ a ++ b ++ 0x1#6)
  | .sra d a b => some (0x2#7 ++ d ++ a ++ b ++ 0x2#6)
  | .ror d a b => some (0x2#7 ++ d ++ a ++ b ++ 0x3#6)
  | .mul d a b => some (0x3#7 ++ d ++ a ++ b ++ 0x0#6)
  | .mulhI d a b => some (0x3#7 ++ d ++ a ++ b ++ 0x1#6)
  | .mulhN d a b => some (0x3#7 ++ d ++ a ++ b ++ 0x2#6)
  | .divI d a b => some (0x3#7 ++ d ++ a ++ b ++ 0x3#6)
  | .divN d a b => some (0x3#7 ++ d ++ a ++ b ++ 0x4#6)
  | .remI d a b => some (0x3#7 ++ d ++ a ++ b ++ 0x5#6)
  | .remN d a b => some (0x3#7 ++ d ++ a ++ b ++ 0x6#6)
  | .minI d a b => some (0x4#7 ++ d ++ a ++ b ++ 0x0#6)
  | .maxI d a b => some (0x4#7 ++ d ++ a ++ b ++ 0x1#6)
  | .minN d a b => some (0x4#7 ++ d ++ a ++ b ++ 0x2#6)
  | .maxN d a b => some (0x4#7 ++ d ++ a ++ b ++ 0x3#6)
  | .clz d a => some (0x5#7 ++ d ++ a ++ 0x0#12)
  | .popc d a => some (0x5#7 ++ d ++ a ++ 0x1#12)
  | .sext d a w => some (0x5#7 ++ d ++ a ++ w ++ 0x2#6)
  | .zext d a w => some (0x5#7 ++ d ++ a ++ w ++ 0x3#6)
  | .cmpEq d a b => some (0x6#7 ++ d ++ a ++ b ++ 0x0#6)
  | .cmpLtI d a b => some (0x6#7 ++ d ++ a ++ b ++ 0x1#6)
  | .cmpLeI d a b => some (0x6#7 ++ d ++ a ++ b ++ 0x2#6)
  | .cmpLtN d a b => some (0x6#7 ++ d ++ a ++ b ++ 0x3#6)
  | .cmpLeN d a b => some (0x6#7 ++ d ++ a ++ b ++ 0x4#6)
  | .sel d a b => some (0x7#7 ++ d ++ a ++ b ++ 0x0#6)
  | .addi d a i => some (0x8#7 ++ d ++ a ++ i)
  | .andi d a i => some (0x9#7 ++ d ++ a ++ i)
  | .ori d a i => some (0xA#7 ++ d ++ a ++ i)
  | .xori d a i => some (0xB#7 ++ d ++ a ++ i)
  | .shli d a h => some (0xC#7 ++ d ++ a ++ 0x0#6 ++ h)
  | .shri d a h => some (0xC#7 ++ d ++ a ++ 0x1#6 ++ h)
  | .srai d a h => some (0xC#7 ++ d ++ a ++ 0x2#6 ++ h)
  | .cmpiEq d a i => some (0xD#7 ++ d ++ a ++ 0x0#2 ++ i)
  | .cmpiLtI d a i => some (0xD#7 ++ d ++ a ++ 0x1#2 ++ i)
  | .cmpiLtN d a i => some (0xD#7 ++ d ++ a ++ 0x2#2 ++ i)
  | .li d i => some (0xE#7 ++ d ++ i)
  | .lih1 d i => some (0xF#7 ++ d ++ i)
  | .lih2 d i => some (0x10#7 ++ d ++ i)
  | .lih3 d i => some (0x11#7 ++ d ++ 0x0#8 ++ i)
  | .addpc d i => some (0x12#7 ++ d ++ i)
  | .gets d i => some (0x13#7 ++ d ++ 0x0#6 ++ i)
  | .sets a i => some (0x14#7 ++ 0x0#6 ++ a ++ i)
  | .vaddI32 d a b q => some (0x20#7 ++ d ++ a ++ b ++ q ++ 0x0#3)
  | .vsubI32 d a b q => some (0x20#7 ++ d ++ a ++ b ++ q ++ 0x1#3)
  | .vmulI32 d a b q => some (0x20#7 ++ d ++ a ++ b ++ q ++ 0x2#3)
  | .vmulhI32 d a b q => some (0x20#7 ++ d ++ a ++ b ++ q ++ 0x3#3)
  | .vmulhN32 d a b q => some (0x20#7 ++ d ++ a ++ b ++ q ++ 0x4#3)
  | .vand d a b q => some (0x20#7 ++ d ++ a ++ b ++ q ++ 0x5#3)
  | .vor d a b q => some (0x20#7 ++ d ++ a ++ b ++ q ++ 0x6#3)
  | .vxor d a b q => some (0x20#7 ++ d ++ a ++ b ++ q ++ 0x7#3)
  | .vshlI32 d a b q => some (0x21#7 ++ d ++ a ++ b ++ q ++ 0x0#3)
  | .vshrI32 d a b q => some (0x21#7 ++ d ++ a ++ b ++ q ++ 0x1#3)
  | .vsraI32 d a b q => some (0x21#7 ++ d ++ a ++ b ++ q ++ 0x2#3)
  | .vminI32 d a b q => some (0x21#7 ++ d ++ a ++ b ++ q ++ 0x3#3)
  | .vmaxI32 d a b q => some (0x21#7 ++ d ++ a ++ b ++ q ++ 0x4#3)
  | .vminN32 d a b q => some (0x21#7 ++ d ++ a ++ b ++ q ++ 0x5#3)
  | .vmaxN32 d a b q => some (0x21#7 ++ d ++ a ++ b ++ q ++ 0x6#3)
  | .vaddI16 d a b q => some (0x22#7 ++ d ++ a ++ b ++ q ++ 0x0#3)
  | .vsubI16 d a b q => some (0x22#7 ++ d ++ a ++ b ++ q ++ 0x1#3)
  | .vaddsI16 d a b q => some (0x22#7 ++ d ++ a ++ b ++ q ++ 0x2#3)
  | .vsubsI16 d a b q => some (0x22#7 ++ d ++ a ++ b ++ q ++ 0x3#3)
  | .vcmpEqI32 d a b q => some (0x23#7 ++ d ++ a ++ b ++ q ++ 0x0#3)
  | .vcmpLtI32 d a b q => some (0x23#7 ++ d ++ a ++ b ++ q ++ 0x1#3)
  | .vcmpLeI32 d a b q => some (0x23#7 ++ d ++ a ++ b ++ q ++ 0x2#3)
  | .vcmpLtN32 d a b q => some (0x23#7 ++ d ++ a ++ b ++ q ++ 0x3#3)
  | .vcmpLeN32 d a b q => some (0x23#7 ++ d ++ a ++ b ++ q ++ 0x4#3)
  | .vaddF32 d a b q => some (0x24#7 ++ d ++ a ++ b ++ q ++ 0x0#3)
  | .vsubF32 d a b q => some (0x24#7 ++ d ++ a ++ b ++ q ++ 0x1#3)
  | .vmulF32 d a b q => some (0x24#7 ++ d ++ a ++ b ++ q ++ 0x2#3)
  | .vminF32 d a b q => some (0x24#7 ++ d ++ a ++ b ++ q ++ 0x3#3)
  | .vmaxF32 d a b q => some (0x24#7 ++ d ++ a ++ b ++ q ++ 0x4#3)
  | .vfmaF32 d a b q => some (0x25#7 ++ d ++ a ++ b ++ q ++ 0x0#3)
  | .vfmsF32 d a b q => some (0x25#7 ++ d ++ a ++ b ++ q ++ 0x1#3)
  | .vcmpEqF32 d a b q => some (0x26#7 ++ d ++ a ++ b ++ q ++ 0x0#3)
  | .vcmpLtF32 d a b q => some (0x26#7 ++ d ++ a ++ b ++ q ++ 0x1#3)
  | .vcmpLeF32 d a b q => some (0x26#7 ++ d ++ a ++ b ++ q ++ 0x2#3)
  | .vrcpF32 d a q => some (0x27#7 ++ d ++ a ++ 0x0#6 ++ q ++ 0x0#3)
  | .vrsqF32 d a q => some (0x27#7 ++ d ++ a ++ 0x0#6 ++ q ++ 0x1#3)
  | .vexp2F32 d a q => some (0x27#7 ++ d ++ a ++ 0x0#6 ++ q ++ 0x2#3)
  | .vlog2F32 d a q => some (0x27#7 ++ d ++ a ++ 0x0#6 ++ q ++ 0x3#3)
  | .vsqrtF32 d a q => some (0x27#7 ++ d ++ a ++ 0x0#6 ++ q ++ 0x4#3)
  | .vcvtBf16F32 d a q => some (0x28#7 ++ d ++ a ++ 0x0#6 ++ q ++ 0x0#3)
  | .vcvtF32Bf16 d a q => some (0x28#7 ++ d ++ a ++ 0x0#6 ++ q ++ 0x1#3)
  | .vcvtF16F32 d a q => some (0x28#7 ++ d ++ a ++ 0x0#6 ++ q ++ 0x2#3)
  | .vcvtF32F16 d a q => some (0x28#7 ++ d ++ a ++ 0x0#6 ++ q ++ 0x3#3)
  | .vcvtE4m3F32 d a q => some (0x28#7 ++ d ++ a ++ 0x0#6 ++ q ++ 0x4#3)
  | .vcvtE5m2F32 d a q => some (0x28#7 ++ d ++ a ++ 0x0#6 ++ q ++ 0x5#3)
  | .vcvtF32E4m3 d a q => some (0x28#7 ++ d ++ a ++ 0x0#6 ++ q ++ 0x6#3)
  | .vcvtF32E5m2 d a q => some (0x28#7 ++ d ++ a ++ 0x0#6 ++ q ++ 0x7#3)
  | .vcvtF4xF32 d a q => some (0x29#7 ++ d ++ a ++ 0x0#6 ++ q ++ 0x0#3)
  | .vcvtF32F4x d a q => some (0x29#7 ++ d ++ a ++ 0x0#6 ++ q ++ 0x1#3)
  | .vcvtI32F32 d a q => some (0x29#7 ++ d ++ a ++ 0x0#6 ++ q ++ 0x2#3)
  | .vcvtF32I32 d a q => some (0x29#7 ++ d ++ a ++ 0x0#6 ++ q ++ 0x3#3)
  | .vcvtQF32 d a q => some (0x29#7 ++ d ++ a ++ 0x0#6 ++ q ++ 0x4#3)
  | .vcvtF32Q d a q => some (0x29#7 ++ d ++ a ++ 0x0#6 ++ q ++ 0x5#3)
  | .vredaddI32 d a q => some (0x2A#7 ++ d ++ a ++ 0x0#6 ++ q ++ 0x0#3)
  | .vredaddF32 d a q => some (0x2A#7 ++ d ++ a ++ 0x0#6 ++ q ++ 0x1#3)
  | .vredmaxF32 d a q => some (0x2A#7 ++ d ++ a ++ 0x0#6 ++ q ++ 0x2#3)
  | .vredmaxI32 d a q => some (0x2A#7 ++ d ++ a ++ 0x0#6 ++ q ++ 0x3#3)
  | .vperm d a b q => some (0x2B#7 ++ d ++ a ++ b ++ q ++ 0x0#3)
  | .vrot d a b q => some (0x2B#7 ++ d ++ a ++ b ++ q ++ 0x1#3)
  | .vbcast d a q => some (0x2B#7 ++ d ++ a ++ 0x0#6 ++ q ++ 0x2#3)
  | .vext d a b => some (0x2B#7 ++ d ++ a ++ b ++ 0x3#6)
  | .vins d a b => some (0x2B#7 ++ d ++ a ++ b ++ 0x4#6)
  | .vsel d a b k => some (0x2C#7 ++ d ++ a ++ b ++ k ++ 0x0#3)
  | .vli d i => some (0x2D#7 ++ d ++ i)
  | .pand d a b => some (0x30#7 ++ d ++ a ++ b ++ 0x0#6)
  | .por d a b => some (0x30#7 ++ d ++ a ++ b ++ 0x1#6)
  | .pxor d a b => some (0x30#7 ++ d ++ a ++ b ++ 0x2#6)
  | .pnot d a => some (0x30#7 ++ d ++ a ++ 0x3#12)
  | .pset d a => some (0x30#7 ++ d ++ a ++ 0x4#12)
  | .pany d a => some (0x31#7 ++ d ++ a ++ 0x0#12)
  | .pall d a => some (0x31#7 ++ d ++ a ++ 0x1#12)
  | .ppop d a => some (0x31#7 ++ d ++ a ++ 0x2#12)
  | .ldbI d a i => some (0x40#7 ++ d ++ a ++ i ++ 0x0#3)
  | .ldbN d a i => some (0x41#7 ++ d ++ a ++ i ++ 0x0#3)
  | .ldhI d a i => some (0x42#7 ++ d ++ a ++ i ++ 0x0#3)
  | .ldhN d a i => some (0x43#7 ++ d ++ a ++ i ++ 0x0#3)
  | .ldwI d a i => some (0x44#7 ++ d ++ a ++ i ++ 0x0#3)
  | .ldwN d a i => some (0x45#7 ++ d ++ a ++ i ++ 0x0#3)
  | .ldd d a i => some (0x46#7 ++ d ++ a ++ i ++ 0x0#3)
  | .stb d a i => some (0x47#7 ++ d ++ a ++ i ++ 0x0#3)
  | .sth d a i => some (0x48#7 ++ d ++ a ++ i ++ 0x0#3)
  | .stw d a i => some (0x49#7 ++ d ++ a ++ i ++ 0x0#3)
  | .std d a i => some (0x4A#7 ++ d ++ a ++ i ++ 0x0#3)
  | .vld d a i q => some (0x4B#7 ++ d ++ a ++ i ++ q)
  | .vst d a i q => some (0x4C#7 ++ d ++ a ++ i ++ q)
  | .vldg d a b q => some (0x4D#7 ++ d ++ a ++ b ++ q ++ 0x0#3)
  | .vsts d a b q => some (0x4E#7 ++ d ++ a ++ b ++ q ++ 0x0#3)
  | .pref a => some (0x4F#7 ++ 0x0#6 ++ a ++ 0x0#12)
  | .res a b => some (0x4F#7 ++ 0x0#6 ++ a ++ b ++ 0x1#6)
  | .ldt d a => some (0x50#7 ++ d ++ a ++ 0x0#12)
  | .ldtp d a => some (0x50#7 ++ d ++ a ++ 0x1#12)
  | .stt a b => some (0x50#7 ++ 0x0#6 ++ a ++ b ++ 0x2#6)
  | .sttn d a b => some (0x50#7 ++ d ++ a ++ b ++ 0x3#6)
  | .tagr d a => some (0x50#7 ++ d ++ a ++ 0x4#12)
  | .tagw a b => some (0x50#7 ++ 0x0#6 ++ a ++ b ++ 0x5#6)
  | .bind d a b => some (0x51#7 ++ d ++ a ++ b ++ 0x0#6)
  | .drain a => some (0x51#7 ++ 0x0#6 ++ a ++ 0x1#12)
  | .fenceAcq b => some (0x51#7 ++ 0x0#12 ++ b ++ 0x2#6)
  | .fenceRel b => some (0x51#7 ++ 0x0#12 ++ b ++ 0x3#6)
  | .fenceFull b => some (0x51#7 ++ 0x0#12 ++ b ++ 0x4#6)
  | .barInit j a => some (0x53#7 ++ j ++ a ++ 0x0#12)
  | .barArrive j => some (0x53#7 ++ j ++ 0x1#18)
  | .barWait j => some (0x53#7 ++ j ++ 0x2#18)
  | .amoAdd d a b => some (0x54#7 ++ d ++ a ++ b ++ 0x0#6)
  | .amoMinI d a b => some (0x54#7 ++ d ++ a ++ b ++ 0x1#6)
  | .amoMaxI d a b => some (0x54#7 ++ d ++ a ++ b ++ 0x2#6)
  | .amoAnd d a b => some (0x54#7 ++ d ++ a ++ b ++ 0x3#6)
  | .amoOr d a b => some (0x54#7 ++ d ++ a ++ b ++ 0x4#6)
  | .amoSwap d a b => some (0x54#7 ++ d ++ a ++ b ++ 0x5#6)
  | .amoCas d a b => some (0x54#7 ++ d ++ a ++ b ++ 0x6#6)
  | .ainit a b => some (0x55#7 ++ 0x0#6 ++ a ++ b ++ 0x0#6)
  | .adec d a b => some (0x55#7 ++ d ++ a ++ b ++ 0x1#6)
  | .ainc a b => some (0x55#7 ++ 0x0#6 ++ a ++ b ++ 0x2#6)
  | .aread d a => some (0x55#7 ++ d ++ a ++ 0x3#12)
  | .axread d a => some (0x55#7 ++ d ++ a ++ 0x4#12)
  | .afree a => some (0x55#7 ++ 0x0#6 ++ a ++ 0x5#12)
  | .brNz c i => some (0x58#7 ++ c ++ i)
  | .brZ c i => some (0x59#7 ++ c ++ i)
  | .brq c i => some (0x5A#7 ++ c ++ i)
  | .jal d i => some (0x5B#7 ++ d ++ i)
  | .jr a => some (0x5C#7 ++ 0x0#6 ++ a ++ 0x0#12)
  | .loop c i => some (0x5D#7 ++ c ++ i)
  | .join => some (0x5E#7 ++ 0x0#24)
  | .joinAll => some (0x5E#7 ++ 0x40#24)
  | .yield => some (0x5E#7 ++ 0x1#24)
  | .exit => some (0x5E#7 ++ 0x2#24)
  | .trap c => some (0x5E#7 ++ 0x0#6 ++ c ++ 0x3#6)
  | .fmt a => some (0x60#7 ++ 0x0#6 ++ a ++ 0x0#12)
  | .mlatch a w => some (0x61#7 ++ 0x0#6 ++ a ++ w ++ 0x0#10)
  | .mgather c a q t => some (0x62#7 ++ c ++ a ++ 0x0#6 ++ q ++ 0x0#2 ++ t)
  | .mma w z c t => some (0x63#7 ++ 0x0#12 ++ w ++ 0x0#3 ++ z ++ 0x0#4 ++ c ++ t)
  | .mmas w z c t => some (0x64#7 ++ 0x0#12 ++ w ++ 0x0#3 ++ z ++ 0x0#4 ++ c ++ t)
  | .mst a f c => some (0x65#7 ++ 0x0#6 ++ a ++ 0x0#2 ++ f ++ 0x0#4 ++ c ++ 0x0#1)
  | .mkat a n => some (0x66#7 ++ 0x0#6 ++ a ++ 0x0#3 ++ n ++ 0x0#6)
  | .cpSrc a => some (0x68#7 ++ a ++ 0x0#18)
  | .cpDst a => some (0x68#7 ++ a ++ 0x100#18)
  | .cpDims a b n => some (0x68#7 ++ a ++ b ++ 0x2#4 ++ n ++ 0x0#3)
  | .cpDimd b n => some (0x68#7 ++ 0x0#6 ++ b ++ 0x3#4 ++ n ++ 0x0#3)
  | .cpGo a n => some (0x68#7 ++ a ++ 0x4#10 ++ n ++ 0x0#3)
  | .cpQfence m => some (0x68#7 ++ 0x0#9 ++ (m.extractLsb' 5 3) ++ 0x5#4 ++ (m.extractLsb' 0 5) ++ 0x0#3)
  | .cpStatus d => some (0x68#7 ++ d ++ 0x600#18)
  | .cpWait n => some (0x68#7 ++ 0x7#16 ++ n ++ 0x0#3)
  | .msLen a => some (0x69#7 ++ a ++ 0x0#18)
  | .msCw a => some (0x69#7 ++ a ++ 0x100#18)
  | .msZero a => some (0x69#7 ++ a ++ 0x200#18)
  | .msCopy a b => some (0x69#7 ++ a ++ b ++ 0x300#12)
  | .lkCw a p => some (0x6A#7 ++ a ++ 0x0#10 ++ p ++ 0x0#3)
  | .lkSend a b p => some (0x6A#7 ++ a ++ b ++ 0x1#4 ++ p ++ 0x0#3)
  | .lkRecv a b p => some (0x6A#7 ++ a ++ b ++ 0x2#4 ++ p ++ 0x0#3)
  | .lkRaddF32 a b p => some (0x6A#7 ++ a ++ b ++ 0x3#4 ++ p ++ 0x0#3)
  | .lkRaddBf16 a b p => some (0x6A#7 ++ a ++ b ++ 0x4#4 ++ p ++ 0x0#3)
  | .lkRaddI32 a b p => some (0x6A#7 ++ a ++ b ++ 0x5#4 ++ p ++ 0x0#3)
  | .ckpt i => some (0x70#7 ++ 0x0#6 ++ i)
  | .commit => some (0x71#7 ++ 0x0#24)
  | .guard a b => some (0x72#7 ++ 0x0#6 ++ a ++ b ++ 0x0#6)
  | .assert a => some (0x73#7 ++ 0x0#6 ++ a ++ 0x0#12)
  | .abort => some (0x74#7 ++ 0x0#24)
  | .copWb a b => some (0x78#7 ++ 0x0#6 ++ a ++ b ++ 0x0#6)
  | .copInv a b => some (0x78#7 ++ 0x0#6 ++ a ++ b ++ 0x1#6)
  | .suspensionComplete _ => none
  | .exposedResultLands _ => none
  | .interlockedResultArrives _ _ => none
  | .idleStep _ => none
  | .pipelineError _ => none
  | .bankReservationEnd _ _ => none
  | .arrayWorkComplete _ => none
  | .fetchDecode _ _ => none
  | .ibufFill _ _ => none
  | .joinBudgetExpiry _ _ => none
  | .tagWaitTimeout _ => none
  | .waitHoldTimeout _ => none
  | .tagChangeWake _ => none
  | .barrierArrivalCounted _ _ => none
  | .pickerSwitch _ => none
  | .epAging _ => none
  | .contextWake _ => none
  | .budgetPeriod _ => none
  | .pageWalk _ _ _ => none
  | .copyOperationStart _ _ _ => none
  | .copyOperationComplete _ _ => none
  | .msOperationStart _ _ => none
  | .msOperationComplete _ => none
  | .linkFlitArrival _ _ _ => none
  | .linkSendComplete _ _ => none
  | .linkReceiveComplete _ _ => none
  | .linkdown _ => none
  | .linkCancel _ => none
  | .linkUp _ _ => none
  | .timeBeacon _ _ => none
  | .clusterCounterStop _ => none
  | .clusterCounterResume _ => none
  | .clusterFill _ _ _ => none
  | .leaseReturn _ _ => none
  | .sliceWritePerformed _ => none
  | .deferredAck _ _ => none
  | .readshared _ _ => none
  | .readown _ _ => none
  | .upgrade _ _ => none
  | .fwdshared _ _ => none
  | .fwdown _ _ => none
  | .inv _ _ => none
  | .backinv _ _ => none
  | .wbdirty _ _ => none
  | .ack _ _ => none
  | .data _ _ => none
  | .allowanceRequest _ _ => none
  | .serve _ => none
  | .grant _ _ => none
  | .recall _ _ => none
  | .recallAnswer _ _ => none
  | .holdingZeroReport _ _ => none
  | .allowanceLeaseEnd _ _ => none
  | .reclamation _ _ => none
  | .kernelNodeEval _ => none
  | .condNodeEval _ => none
  | .switchNodeEval _ => none
  | .loopNodeEval _ => none
  | .joinNodeEval _ => none
  | .gangRetirement _ _ => none
  | .heldRetirementProceeds _ => none
  | .gcommit _ _ => none
  | .placementRetry _ _ _ => none
  | .grstatFaultClear _ => none
  | .registerWrite _ _ => none
  | .freeze _ => none
  | .controlCoreResume _ => none
  | .restoration _ _ _ _ => none
  | .katfailPolicy _ => none
  | .regionMachineResume _ => none
  | .lockstepConfirm _ _ => none
  | .patrolScrub _ => none
  | .dieFailureDeclaration _ => none
  | .declarationAtHome _ _ => none
  | .salvage _ _ => none
  | .declarationAtTundish _ _ => none
  | .powerGood _ => none
  | .powerOff => none
  | .deviceReset _ => none
  | .tamperAlarm _ _ => none
  | .junctionTemperature _ _ => none
  | .packagePowerLimit => none
  | .loadGraph => none
  | .launch => none
  | .map => none
  | .unmap => none
  | .asidAlloc => none
  | .asidRetire => none
  | .ptsync => none
  | .resume => none
  | .evict => none
  | .query => none
  | .scrubSet => none
  | .attest => none
  | .writeMem => none
  | .readMem => none
  | .illegalSyllable _ => none
  | .softError _ _ => none
  | .writePerformed _ => none
  | .cacheRangeOperationComplete _ => none

/-- The syllable of an instruction with the given stop bit (R22). -/
def encode (stop : Bool) (i : Instr) : Option W32 :=
  (encodeBody i).map fun b => BitVec.ofBool stop ++ b

/-- Bytes of a syllable as stored: little-endian (R22). -/
def wordBytes (w : W32) : List Byte :=
  [w.extractLsb' 0 8, w.extractLsb' 8 8, w.extractLsb' 16 8, w.extractLsb' 24 8]

/-- The word of four bytes stored little-endian (R22). -/
def bytesWord (b0 b1 b2 b3 : Byte) : W32 := b3 ++ b2 ++ b1 ++ b0

/-- Decoding at the head of any bytes: the stop bit, the instruction, the bytes after it (R22, R27). -/
def decodeBytes (bs : List Byte) : Except Reject (Bool × Instr × List Byte) :=
  match bs with
  | b0 :: b1 :: b2 :: b3 :: rest =>
    match decodeWord (bytesWord b0 b1 b2 b3) with
    | .ok i => .ok (stopBit (bytesWord b0 b1 b2 b3), i, rest)
    | .error e => .error e
  | _ => .error .notOneWord

/-- The instruction read from a row's word of `nbits` bits, numbered as the opcode table numbers them: the syllable is laid
out in memory order and given to the decoder. -/
def decodeTableWord (nbits w : Nat) : Option Instr :=
  if nbits ≤ 32 then
    match decodeBytes (wordBytes (BitVec.ofNat 32 (w % 2 ^ nbits))) with
    | .ok (_, i, _) => some i
    | .error _ => none
  else none

end Sys2Proof
end

