-- ==== Sys2Proof/Machine/Flags.lean ====
section
/-! DEFINITION. Conditions: the truth words of the scalar compares (04 R67, R71), the predicates of the vector integer compares
(10 R181), the tests of the branches (04 R76, 07 R141). -/

namespace Sys2Proof.Machine

/-- A condition as a scalar result: 1 when it holds, else 0 (R67). -/
def truth (b : Bool) : W64 := if b then 1 else 0

/-- ga = gb. -/
def isEq (a b : W64) : Bool := a == b
/-- i64(ga) < i64(gb). -/
def isLtI (a b : W64) : Bool := a.slt b
/-- i64(ga) ≤ i64(gb). -/
def isLeI (a b : W64) : Bool := a.sle b
/-- n64(ga) < n64(gb). -/
def isLtN (a b : W64) : Bool := a.ult b
/-- n64(ga) ≤ n64(gb). -/
def isLeN (a b : W64) : Bool := a.ule b

/-- The predicate of a lane-wise condition under a predicate: inactive lanes give 0 (10 R177, R181). -/
def laneTest (q : W64) (a b : VReg) (f : W32 → W32 → Bool) : W64 :=
  ofBits fun i => q.getLsbD i && f (lane a i) (lane b i)

/-- A predicate that is all ones (R141). -/
def allSet (k : W64) : Bool := k == BitVec.allOnes 64

end Sys2Proof.Machine
end

