-- ==== Sys2Proof/Machine/Formats.lean ====
section
/-! DEFINITION. Number formats and rounding (09 R154 to R170): codes to exact values, exact values to codes in the five modes,
the stochastic generator, F4X blocks, narrow integers, the correctly rounded functions (10 R185). -/

namespace Sys2Proof.Machine

/-! ## Formats (R154, R155) -/

/-- A floating-point format: exponent bits, mantissa bits, bias, whether exponent all ones is reserved for infinities and NaN. -/
structure Fmt where
  e : Nat
  m : Nat
  bias : Nat
  ieee : Bool
  deriving DecidableEq, Repr

def fp32 : Fmt := ⟨8, 23, 127, true⟩
def fp16 : Fmt := ⟨5, 10, 15, true⟩
def bf16 : Fmt := ⟨8, 7, 127, true⟩
def e5m2 : Fmt := ⟨5, 2, 15, true⟩
def e4m3 : Fmt := ⟨4, 3, 7, false⟩

/-- An exact value: NaN, an infinity, or ±m × 2^e; zero keeps its sign. -/
inductive Fp where
  | nan
  | inf (neg : Bool)
  | fin (neg : Bool) (m : Nat) (e : Int)
  deriving DecidableEq, Repr

/-- Width of a format's codes. -/
def Fmt.width (f : Fmt) : Nat := 1 + f.e + f.m
/-- Exponent of a format's smallest subnormal. -/
def Fmt.qmin (f : Fmt) : Int := 1 - (f.bias : Int) - f.m
/-- Magnitude code of +∞ of an IEEE format, one past the largest finite code of E4M3. -/
def Fmt.infCode (f : Fmt) : Nat := if f.ieee then (2 ^ f.e - 1) * 2 ^ f.m else 2 ^ (f.e + f.m) - 1
/-- Canonical NaN (R154). -/
def Fmt.nanCode (f : Fmt) : Nat := if f.ieee then (2 ^ f.e - 1) * 2 ^ f.m + 2 ^ (f.m - 1) else 2 ^ (f.e + f.m) - 1

/-- The value of a code (R154, R155). -/
def Fmt.decode (f : Fmt) (c : Nat) : Fp :=
  let neg := c.testBit (f.e + f.m)
  let a := c % 2 ^ (f.e + f.m)
  let e := a / 2 ^ f.m
  let m := a % 2 ^ f.m
  if f.ieee && e == 2 ^ f.e - 1 then (if m = 0 then .inf neg else .nan)
  else if !f.ieee && a == 2 ^ (f.e + f.m) - 1 then .nan
  else if e = 0 then .fin neg m f.qmin
  else .fin neg (2 ^ f.m + m) (f.qmin + (e - 1 : Nat))

/-! ## Exact magnitudes -/

/-- A positive real as far as rounding needs it: ⌊log2 x⌋, and ⌊x × 2^k⌋ with whether that is exact. -/
structure Mag where
  lg : Int
  fl : Int → Nat × Bool

/-- p × 2^e / d for positive p and d. -/
def magRat (p d : Nat) (e : Int) : Mag :=
  let fl := fun k : Int =>
    if 0 ≤ e + k then (p * 2 ^ (e + k).toNat / d, p * 2 ^ (e + k).toNat % d == 0)
    else (p / (d * 2 ^ (-(e + k)).toNat), p % (d * 2 ^ (-(e + k)).toNat) == 0)
  let t : Int := (Nat.log2 p : Int) - Nat.log2 d + e
  ⟨if (fl (-t)).1 = 0 then t - 1 else t, fl⟩

/-- m × 2^e for positive m. -/
def magDyadic (m : Nat) (e : Int) : Mag :=
  ⟨(Nat.log2 m : Int) + e, fun k =>
    if 0 ≤ e + k then (m * 2 ^ (e + k).toNat, true)
    else (m / 2 ^ (-(e + k)).toNat, m % 2 ^ (-(e + k)).toNat == 0)⟩

/-- The largest r < 2^n with (r0 + r)^2 ≤ x, bit by bit. -/
def isqrtBits (x n r0 : Nat) : Nat :=
  match n with
  | 0 => r0
  | k + 1 => if (r0 + 2 ^ k) * (r0 + 2 ^ k) ≤ x then isqrtBits x k (r0 + 2 ^ k) else isqrtBits x k r0

/-- ⌊√x⌋. -/
def isqrt (x : Nat) : Nat := isqrtBits x (Nat.log2 x / 2 + 1) 0

/-- √(m × 2^e) for positive m. -/
def magSqrt (m : Nat) (e : Int) : Mag :=
  ⟨((Nat.log2 m : Int) + e).fdiv 2, fun k =>
    let t := e + 2 * k
    if 0 ≤ t then
      let y := m * 2 ^ t.toNat
      (isqrt y, isqrt y * isqrt y == y)
    else
      let y := m / 2 ^ (-t).toNat
      (isqrt y, isqrt y * isqrt y == y && m % 2 ^ (-t).toNat == 0)⟩

/-- 1 / √(m × 2^e) for positive m. -/
def magRsqrt (m : Nat) (e : Int) : Mag :=
  let fl := fun k : Int =>
    let t := 2 * k - e
    if 0 ≤ t then
      let y := 2 ^ t.toNat / m
      (isqrt y, 2 ^ t.toNat % m == 0 && isqrt y * isqrt y == y)
    else (0, false)
  let t := (-((Nat.log2 m : Int) + e)).fdiv 2
  ⟨if (fl (-t)).1 = 0 then t - 1 else t, fl⟩

/-! ## Rounding (R165 to R168) -/

/-- One step of the generator (R167). -/
def lfsrStep (s : W32) : W32 :=
  let b := s.getLsbD 31 ^^ s.getLsbD 21 ^^ s.getLsbD 1 ^^ s.getLsbD 0
  (s <<< 1) ||| BitVec.ofNat 32 b.toNat

/-- The states after n steps in order. -/
def lfsrStates (s : W32) (n : Nat) : List W32 :=
  match n with
  | 0 => []
  | k + 1 => lfsrStep s :: lfsrStates (lfsrStep s) k

/-- A rounding mode: MODE of %rmode (R53), the generator state of the element for mode 4. -/
structure Rnd where
  mode : Nat
  r : Nat
  deriving DecidableEq, Repr

/-- Round to nearest, ties to even. -/
def rne : Rnd := ⟨0, 0⟩

/-- Whether a magnitude strictly between n and n + 1 quanta of 2^q goes up to n + 1 (R166, R167). -/
def goesUp (rd : Rnd) (neg : Bool) (x : Mag) (q : Int) (n : Nat) : Bool :=
  match rd.mode with
  | 0 => let h := x.fl (1 - q); h.1 != 2 * n && (!h.2 || n % 2 == 1)
  | 1 => false
  | 2 => !neg
  | 3 => neg
  | _ => decide (rd.r < (x.fl (32 - q)).1 - n * 2 ^ 32)

/-- Whether a magnitude beyond the largest finite value overflows (R168): under RNE and stochastic rounding from half a quantum
above it on, otherwise at once. -/
def overflows (f : Fmt) (rd : Rnd) (x : Mag) : Bool :=
  let emax : Int := (2 ^ f.e : Nat) - 2 - (f.bias : Int)
  let q := emax - f.m
  if x.lg > emax then true
  else if x.lg < emax then false
  else
    let t := x.fl (-q)
    if t.1 < 2 ^ (f.m + 1) - 1 then false
    else if rd.mode = 0 ∨ 4 ≤ rd.mode then decide (2 ^ (f.m + 2) - 1 ≤ (x.fl (1 - q)).1)
    else !t.2

/-- The code of a positive magnitude with a sign, rounded (R166 to R168): `sat` turns overflow to the largest finite value. -/
def Fmt.round (f : Fmt) (rd : Rnd) (sat : Bool) (neg : Bool) (x : Mag) : Nat :=
  let sign := if neg then 2 ^ (f.e + f.m) else 0
  let top := f.infCode - 1
  if !f.ieee && (decide (x.lg > 8) || (x.lg == 8 && decide ((x.fl (-6)).1 ≥ 7))) then sign + top
  else if f.ieee && overflows f rd x then
    if sat then sign + top
    else
      match rd.mode with
      | 1 => sign + top
      | 2 => if neg then sign + top else sign + f.infCode
      | 3 => if neg then sign + f.infCode else sign + top
      | _ => sign + f.infCode
  else
    let q := max (x.lg - f.m) f.qmin
    let t := x.fl (-q)
    let n := if !t.2 && goesUp rd neg x q t.1 then t.1 + 1 else t.1
    sign + min ((q - f.qmin).toNat * 2 ^ f.m + n) top

/-- The code of an exact value (R156, R168). -/
def Fmt.encode (f : Fmt) (rd : Rnd) (sat : Bool) (v : Fp) : Nat :=
  match v with
  | .nan => f.nanCode
  | .inf neg => (if neg then 2 ^ (f.e + f.m) else 0) + (if f.ieee then f.infCode else f.infCode - 1)
  | .fin neg m e => if m = 0 then (if neg then 2 ^ (f.e + f.m) else 0) else f.round rd sat neg (magDyadic m e)

/-- The integer nearest to a positive magnitude with a sign, by the rules of R166 and R167. -/
def roundInt (rd : Rnd) (neg : Bool) (x : Mag) : Int :=
  let t := x.fl 0
  let n := if !t.2 && goesUp rd neg x 0 t.1 then t.1 + 1 else t.1
  if neg then -(n : Int) else n

/-- An exact value rounded to an integer between two limits; NaN gives 0, an infinity saturates (R168). -/
def toIntSat (rd : Rnd) (lo hi : Int) (v : Fp) : Int :=
  match v with
  | .nan => 0
  | .inf neg => if neg then lo else hi
  | .fin neg m e =>
    if m = 0 then 0
    else if (Nat.log2 m : Int) + e > 40 then (if neg then lo else hi)
    else max lo (min hi (roundInt rd neg (magDyadic m e)))

/-! ## Exact arithmetic (10 R182, R183) -/

/-- The value of a signed mantissa and exponent. -/
def fpOfInt (v : Int) (e : Int) : Fp := .fin (decide (v < 0)) v.natAbs e

/-- Negation. -/
def Fp.neg (a : Fp) : Fp := match a with | .nan => .nan | .inf s => .inf (!s) | .fin s m e => .fin (!s) m e

/-- The signed mantissa of a finite value at a common exponent not above its own. -/
def scaled (neg : Bool) (m : Nat) (e e0 : Int) : Int :=
  let v : Int := m * 2 ^ (e - e0).toNat
  if neg then -v else v

/-- Exact sum; a zero sum is −0 when both addends are −0 or the mode is RD and they are not both +0 (R183, R155; that (+0) + (+0) is +0 in RD
too, DEDUCED, log 83). -/
def Fp.add (a b : Fp) (mode : Nat) : Fp :=
  match a, b with
  | .nan, _ => .nan
  | _, .nan => .nan
  | .inf s, .inf t => if s = t then .inf s else .nan
  | .inf s, _ => .inf s
  | _, .inf t => .inf t
  | .fin s m e, .fin t n g =>
    if m = 0 ∧ n = 0 then .fin (if s = t then s else mode == 3) 0 0
    else if m = 0 then .fin t n g
    else if n = 0 then .fin s m e
    else
      let v := scaled s m e (min e g) + scaled t n g (min e g)
      if v = 0 then .fin (mode == 3) 0 0 else fpOfInt v (min e g)

/-- Exact product (R183). -/
def Fp.mul (a b : Fp) : Fp :=
  match a, b with
  | .nan, _ => .nan
  | _, .nan => .nan
  | .inf s, .inf t => .inf (s != t)
  | .inf s, .fin t n _ => if n = 0 then .nan else .inf (s != t)
  | .fin s m _, .inf t => if m = 0 then .nan else .inf (s != t)
  | .fin s m e, .fin t n g => .fin (s != t) (m * n) (e + g)

/-- a < b as values: −0 and +0 are equal, a NaN is never less (R184). -/
def Fp.lt (a b : Fp) : Bool :=
  match a, b with
  | .nan, _ => false
  | _, .nan => false
  | .inf s, .inf t => s && !t
  | .inf s, _ => s
  | _, .inf t => !t
  | .fin s m e, .fin t n g => decide (scaled s m e (min e g) < scaled t n g (min e g))

/-- a = b as values. -/
def Fp.eq (a b : Fp) : Bool :=
  match a, b with
  | .nan, _ => false
  | _, .nan => false
  | .inf s, .inf t => s == t
  | .inf _, _ => false
  | _, .inf _ => false
  | .fin s m e, .fin t n g => decide (scaled s m e (min e g) = scaled t n g (min e g))

/-- Whether a value has the sign bit. -/
def Fp.isNeg (a : Fp) : Bool := match a with | .nan => false | .inf s => s | .fin s _ _ => s

/-- The lesser of two values, −0 below +0, NaN if either is (R183). -/
def Fp.min (a b : Fp) : Fp :=
  match a, b with
  | .nan, _ => .nan
  | _, .nan => .nan
  | _, _ => if a.lt b then a else if b.lt a then b else if a.isNeg then a else b

/-- The greater of two values. -/
def Fp.max (a b : Fp) : Fp :=
  match a, b with
  | .nan, _ => .nan
  | _, .nan => .nan
  | _, _ => if a.lt b then b else if b.lt a then a else if a.isNeg then b else a

/-- An FP32 lane as a value, a value rounded to an FP32 lane. -/
def f32 (x : W32) : Fp := fp32.decode x.toNat
def toF32 (rd : Rnd) (v : Fp) : W32 := BitVec.ofNat 32 (fp32.encode rd false v)

/-! ## Functions (10 R185, R186) -/

/-- Fractional bits that the transcendental functions are computed with (DESIGN CHOICE, log 15). -/
def fxBits : Nat := 320

/-- Σ z^(2k+1) / (2k+1) for the terms from k on, in fixed point: `p` is z^(2k+1), `z2` is z². -/
def atanhTerms (p z2 k n : Nat) : Nat :=
  match n with
  | 0 => 0
  | j + 1 => p / (2 * k + 1) + atanhTerms (p * z2 / 2 ^ fxBits) z2 (k + 1) j

/-- ln of (1 + z) / (1 − z) in fixed point, 0 ≤ z ≤ 1/3. -/
def lnFrom (z : Nat) : Nat := 2 * atanhTerms z (z * z / 2 ^ fxBits) 0 110

/-- ln 2 in fixed point. -/
def ln2 : Nat := lnFrom (2 ^ fxBits / 3)

/-- Σ y^k / k! for the terms from k on; `p` is y^k / k!. -/
def expTerms (p y k n : Nat) : Nat :=
  match n with
  | 0 => 0
  | j + 1 => p + expTerms (p * y / 2 ^ fxBits / (k + 1)) y (k + 1) j

/-- 2^f in fixed point for a fraction 0 ≤ f < 1 in fixed point. -/
def exp2Frac (f : Nat) : Nat := expTerms (2 ^ fxBits) (f * ln2 / 2 ^ fxBits) 0 90

/-- log2 of x in fixed point for 1 ≤ x < 2 in fixed point. -/
def log2Frac (x : Nat) : Nat :=
  lnFrom ((x - 2 ^ fxBits) * 2 ^ fxBits / (x + 2 ^ fxBits)) * 2 ^ fxBits / ln2

/-- A value v × 2^e that stands for an irrational number near it: never exact. -/
def magNear (v : Nat) (e : Int) : Mag :=
  let d := magDyadic v e
  ⟨d.lg, fun k => ((d.fl k).1, false)⟩

/-- 1/a rounded (R186). -/
def rcpF32 (rd : Rnd) (a : Fp) : W32 :=
  match a with
  | .nan => toF32 rd .nan
  | .inf s => toF32 rd (.fin s 0 0)
  | .fin s m e => if m = 0 then toF32 rd (.inf s) else BitVec.ofNat 32 (fp32.round rd false s (magRat 1 m (-e)))

/-- 1/√a rounded (R186). -/
def rsqF32 (rd : Rnd) (a : Fp) : W32 :=
  match a with
  | .nan => toF32 rd .nan
  | .inf s => if s then toF32 rd .nan else toF32 rd (.fin false 0 0)
  | .fin s m e =>
    if m = 0 then toF32 rd (.inf s)
    else if s then toF32 rd .nan
    else BitVec.ofNat 32 (fp32.round rd false false (magRsqrt m e))

/-- √a rounded (R186). -/
def sqrtF32 (rd : Rnd) (a : Fp) : W32 :=
  match a with
  | .nan => toF32 rd .nan
  | .inf s => if s then toF32 rd .nan else toF32 rd (.inf false)
  | .fin s m e =>
    if m = 0 then toF32 rd (.fin s 0 0)
    else if s then toF32 rd .nan
    else BitVec.ofNat 32 (fp32.round rd false false (magSqrt m e))

/-- 2^a rounded (R186): exact for an integer, else from the series. -/
def exp2F32 (rd : Rnd) (a : Fp) : W32 :=
  match a with
  | .nan => toF32 rd .nan
  | .inf s => toF32 rd (if s then .fin false 0 0 else .inf false)
  | .fin s m e =>
    let one : Mag := magDyadic 1 0
    if m = 0 then BitVec.ofNat 32 (fp32.round rd false false one)
    else if (Nat.log2 m : Int) + e > 9 then
      BitVec.ofNat 32 (fp32.round rd false false (magNear 1 (if s then -600 else 600)))
    else
      let v : Int := m * 2 ^ ((fxBits : Int) + e).toNat
      let w := if s then -v else v
      let i := w.fdiv (2 ^ fxBits)
      let f := (w - i * 2 ^ fxBits).toNat
      if f = 0 then BitVec.ofNat 32 (fp32.round rd false false (magDyadic 1 i))
      else BitVec.ofNat 32 (fp32.round rd false false (magNear (exp2Frac f) (i - fxBits)))

/-- log2 a rounded (R186): exact for a power of two, else from the series. -/
def log2F32 (rd : Rnd) (a : Fp) : W32 :=
  match a with
  | .nan => toF32 rd .nan
  | .inf s => if s then toF32 rd .nan else toF32 rd (.inf false)
  | .fin s m e =>
    if m = 0 then toF32 rd (.inf true)
    else if s then toF32 rd .nan
    else
      let l := Nat.log2 m
      let i : Int := (l : Int) + e
      if m = 2 ^ l then (if i = 0 then 0 else toF32 rd (fpOfInt i 0))
      else
        let x := m * 2 ^ fxBits / 2 ^ l
        let v : Int := i * 2 ^ fxBits + log2Frac x
        BitVec.ofNat 32 (fp32.round rd false (decide (v < 0)) (magNear v.natAbs (-(fxBits : Int))))

/-! ## F4X and narrow integers (R157 to R160, R169) -/

/-- Twice the magnitude of an F4X code by its low three bits (R158). -/
def f4xTwice (c : Nat) : Nat :=
  match c % 8 with | 0 => 0 | 1 => 1 | 2 => 2 | 3 => 3 | 4 => 4 | 5 => 6 | 6 => 8 | _ => 12

/-- The substitute of a byte Q: sign, sixteenths (R159). -/
def f4xSub (q : Nat) : Bool × Nat :=
  if q = 0 then (false, 0) else (q.testBit 7, (16 + q % 16) * 2 ^ (q / 16 % 8))

/-- An F4X code as a value before its block scale (R158, R159). -/
def f4xValue (c q : Nat) : Fp :=
  if c = 8 then (let s := f4xSub q; .fin s.1 s.2 (-4)) else .fin (c.testBit 3) (f4xTwice c) (-1)

/-- A value times 2^(X − 127) (R157). -/
def Fp.scale (v : Fp) (x : Nat) : Fp :=
  match v with | .fin s m e => .fin s m (e + (x : Int) - 127) | w => w

/-- DecF4X (R159). -/
def decF4x (c x q : Nat) : Fp := if x = 255 then .nan else (f4xValue c q).scale x

/-- |a − b| for finite values, as (mantissa, exponent). -/
def fpDist (a b : Fp) : Fp := match a.add b.neg 0 with | .fin _ m e => .fin false m e | w => w

/-- The nearest code of a list to a finite value, a tie going to the code whose bit 0 is 0. -/
def f4xNearest (v : Fp) (x : Nat) (best : Nat) (cs : List Nat) : Nat :=
  match cs with
  | [] => best
  | c :: r =>
    let db := fpDist v (decF4x best x 0)
    let dc := fpDist v (decF4x c x 0)
    if dc.lt db then f4xNearest v x c r
    else if dc.eq db && best % 2 == 1 && c % 2 == 0 then f4xNearest v x c r
    else f4xNearest v x best r

/-- RoundF4X (R169): the sign of x chooses among the codes of that sign, zero is always 0000. An infinite x counts as FP32's largest finite
magnitude of its sign (DESIGN CHOICE, log 65). -/
def roundF4x (v : Fp) (x q : Nat) : Nat :=
  let v' := match v with | .inf s => .fin s (2 ^ 24 - 1) 104 | w => w
  let cs := if v'.isNeg then [9, 10, 11, 12, 13, 14, 15] else [1, 2, 3, 4, 5, 6, 7]
  let c := f4xNearest v' x 0 cs
  if (fpDist v' (decF4x 8 x q)).lt (fpDist v' (decF4x c x 0)) then 8 else c

/-- X of a block from its values (R169). -/
def f4xScale (vs : List Fp) : Nat :=
  let lg := vs.foldl (fun (acc : Option Int) v =>
    let l : Option Int := match v with
      | .inf _ => some 128
      | .fin _ m e => if m = 0 then none else some ((Nat.log2 m : Int) + e)
      | .nan => none
    match acc, l with
    | none, y => y
    | y, none => y
    | some y, some z => some (max y z)) none
  match lg with
  | none => 0
  | some l => (max 0 (min 254 (l - 2 + 127))).toNat

/-- A block of 32 values as codes and X (R169). -/
def f4xBlock (vs : List Fp) (q : Nat) : List Nat × Nat :=
  if vs.any fun v => v == .nan then (vs.map fun _ => 0, 255)
  else
    let x := f4xScale vs
    (vs.map fun v => roundF4x v x q, x)

/-- Fields of %fmt (R161). -/
def fmtAF (f : W32) : Nat := (f.extractLsb' 0 3).toNat
def fmtWF (f : W32) : Nat := (f.extractLsb' 3 3).toNat
def fmtQW (f : W32) : Bool := f.getLsbD 6
def fmtQS (f : W32) : Bool := f.getLsbD 7
def fmtQSE (f : W32) : Bool := f.getLsbD 8
def fmtQSV (f : W32) : BitVec 8 := f.extractLsb' 16 8
def fmtFQ (f : W32) : Nat := (f.extractLsb' 24 8).toNat

/-- What a write of %fmt stores (R162): 6 and 7 in AF or WF store 0, reserved bits are ignored. -/
def fmtStored (x : W32) : W32 :=
  let y := x &&& 0xFFFF01FF#32
  let y := if fmtAF y ≥ 6 then y &&& 0xFFFFFFF8#32 else y
  if fmtWF y ≥ 6 then y &&& 0xFFFFFFC7#32 else y

/-- Bits of the narrow integer. -/
def narrowBits (f : W32) : Nat := if fmtQW f then 4 else 8

/-- The value of a narrow code (R160). -/
def narrowValue (f : W32) (c : Nat) : Int :=
  let w := narrowBits f
  let c := c % 2 ^ w
  if !fmtQS f then c
  else if fmtQSE f && c == 2 ^ (w - 1) then (fmtQSV f).toInt
  else if c ≥ 2 ^ (w - 1) then (c : Int) - 2 ^ w else c

/-- qmin and qmax (R168). -/
def narrowMin (f : W32) : Int :=
  if !fmtQS f then 0 else if fmtQSE f then -(2 ^ (narrowBits f - 1) : Int) + 1 else -(2 ^ (narrowBits f - 1) : Int)
def narrowMax (f : W32) : Int := if fmtQS f then 2 ^ (narrowBits f - 1) - 1 else 2 ^ narrowBits f - 1

/-- A value rounded to the narrow integer, as a code (R168). -/
def narrowCode (f : W32) (rd : Rnd) (v : Fp) : Nat :=
  (toIntSat rd (narrowMin f) (narrowMax f) v % 2 ^ narrowBits f).toNat

end Sys2Proof.Machine
end

