-- ==== Sys2Proof/Machine/Scalar.lean ====
section
/-! DEFINITION. The S class: arithmetic, logic, compares, constants, special registers and nop (04 R65 to R75, 03 R52 to R57).
A meaning reads the registers as they stood before the bundle and puts its result in flight. -/

namespace Sys2Proof.Machine

/-- The outcome of a meaning. -/
abbrev Out := Host.Outcome State Fault Refusal

/-! ## Values (R67 to R71) -/

/-- sh of the register shifts: gb[5:0]. -/
def shAmt (b : W64) : Nat := b.toNat % 64
/-- shr: ⌊n64(ga) / 2^sh⌋. -/
def shrW (a : W64) (n : Nat) : W64 := a >>> n
/-- shl. -/
def shlW (a : W64) (n : Nat) : W64 := a <<< n
/-- sra: rounding towards −∞. -/
def sraW (a : W64) (n : Nat) : W64 := a.sshiftRight n
/-- ror. -/
def rorW (a : W64) (n : Nat) : W64 := a.rotateRight n
/-- mulh.i: high half of the signed product. -/
def mulhI (a b : W64) : W64 := BitVec.ofInt 64 (Int.fdiv (a.toInt * b.toInt) (2 ^ 64))
/-- mulh.n: high half of the unsigned product. -/
def mulhN (a b : W64) : W64 := BitVec.ofNat 64 (a.toNat * b.toNat / 2 ^ 64)
/-- div.i (R68). -/
def divI (a b : W64) : W64 := if b = 0 then BitVec.allOnes 64 else BitVec.ofInt 64 (Int.tdiv a.toInt b.toInt)
/-- div.n (R68). -/
def divN (a b : W64) : W64 := if b = 0 then BitVec.allOnes 64 else BitVec.ofNat 64 (a.toNat / b.toNat)
/-- rem.i (R68). -/
def remI (a b : W64) : W64 := if b = 0 then a else BitVec.ofInt 64 (Int.tmod a.toInt b.toInt)
/-- rem.n (R68). -/
def remN (a b : W64) : W64 := if b = 0 then a else BitVec.ofNat 64 (a.toNat % b.toNat)
/-- min.i and max.i: the lesser and the greater as signed numbers. -/
def minI (a b : W64) : W64 := if isLtI b a then b else a
def maxI (a b : W64) : W64 := if isLtI a b then b else a
/-- min.n and max.n: as unsigned numbers. -/
def minN (a b : W64) : W64 := if isLtN b a then b else a
def maxN (a b : W64) : W64 := if isLtN a b then b else a

/-- Zero bits above the highest one among bits n - 1 to 0. -/
def clzFrom (a : W64) (n : Nat) : Nat :=
  match n with
  | 0 => 0
  | k + 1 => if a.getLsbD k then 0 else 1 + clzFrom a k

/-- clz (R69). -/
def clzW (a : W64) : W64 := BitVec.ofNat 64 (clzFrom a 64)

/-- One bits among bits n - 1 to 0. -/
def onesBelow (a : W64) (n : Nat) : Nat :=
  match n with
  | 0 => 0
  | k + 1 => (a.getLsbD k).toNat + onesBelow a k

/-- popc (R69). -/
def popcW (a : W64) : W64 := BitVec.ofNat 64 (onesBelow a 64)
/-- sext with a width code (R69). -/
def sextW (a : W64) (w : BitVec 6) : W64 :=
  match w.toNat with
  | 0 => (a.setWidth 8).signExtend 64
  | 1 => (a.setWidth 16).signExtend 64
  | _ => (a.setWidth 32).signExtend 64
/-- zext with a width code (R69). -/
def zextW (a : W64) (w : BitVec 6) : W64 :=
  match w.toNat with
  | 0 => (a.setWidth 8).setWidth 64
  | 1 => (a.setWidth 16).setWidth 64
  | _ => (a.setWidth 32).setWidth 64

/-! ## Register forms -/

/-- A result of two scalar registers. -/
def State.binG (s : State) (d a b : Reg) (lat : Nat) (f : W64 → W64 → W64) : State :=
  s.resultG d (f (s.cur.rg a) (s.cur.rg b)) lat

def execAdd (d a b : Reg) (s : State) : Out := .next (s.binG d a b 1 (· + ·))
def execSub (d a b : Reg) (s : State) : Out := .next (s.binG d a b 1 (· - ·))
def execAnd (d a b : Reg) (s : State) : Out := .next (s.binG d a b 1 (· &&& ·))
def execOr (d a b : Reg) (s : State) : Out := .next (s.binG d a b 1 (· ||| ·))
def execXor (d a b : Reg) (s : State) : Out := .next (s.binG d a b 1 (· ^^^ ·))
def execAndn (d a b : Reg) (s : State) : Out := .next (s.binG d a b 1 fun x y => x &&& ~~~y)
def execShl (d a b : Reg) (s : State) : Out := .next (s.binG d a b 1 fun x y => shlW x (shAmt y))
def execShr (d a b : Reg) (s : State) : Out := .next (s.binG d a b 1 fun x y => shrW x (shAmt y))
def execSra (d a b : Reg) (s : State) : Out := .next (s.binG d a b 1 fun x y => sraW x (shAmt y))
def execRor (d a b : Reg) (s : State) : Out := .next (s.binG d a b 1 fun x y => rorW x (shAmt y))
def execMul (d a b : Reg) (s : State) : Out := .next (s.binG d a b 3 (· * ·))
def execMulhI (d a b : Reg) (s : State) : Out := .next (s.binG d a b 3 mulhI)
def execMulhN (d a b : Reg) (s : State) : Out := .next (s.binG d a b 3 mulhN)
def execDivI (d a b : Reg) (s : State) : Out := .next (s.binG d a b 16 divI)
def execDivN (d a b : Reg) (s : State) : Out := .next (s.binG d a b 16 divN)
def execRemI (d a b : Reg) (s : State) : Out := .next (s.binG d a b 16 remI)
def execRemN (d a b : Reg) (s : State) : Out := .next (s.binG d a b 16 remN)
def execMinI (d a b : Reg) (s : State) : Out := .next (s.binG d a b 1 minI)
def execMaxI (d a b : Reg) (s : State) : Out := .next (s.binG d a b 1 maxI)
def execMinN (d a b : Reg) (s : State) : Out := .next (s.binG d a b 1 minN)
def execMaxN (d a b : Reg) (s : State) : Out := .next (s.binG d a b 1 maxN)
def execClz (d a : Reg) (s : State) : Out := .next (s.resultG d (clzW (s.cur.rg a)) 1)
def execPopc (d a : Reg) (s : State) : Out := .next (s.resultG d (popcW (s.cur.rg a)) 1)
def execSext (d a : Reg) (w : BitVec 6) (s : State) : Out := .next (s.resultG d (sextW (s.cur.rg a) w) 1)
def execZext (d a : Reg) (w : BitVec 6) (s : State) : Out := .next (s.resultG d (zextW (s.cur.rg a) w) 1)
def execCmpEq (d a b : Reg) (s : State) : Out := .next (s.binG d a b 1 fun x y => truth (isEq x y))
def execCmpLtI (d a b : Reg) (s : State) : Out := .next (s.binG d a b 1 fun x y => truth (isLtI x y))
def execCmpLeI (d a b : Reg) (s : State) : Out := .next (s.binG d a b 1 fun x y => truth (isLeI x y))
def execCmpLtN (d a b : Reg) (s : State) : Out := .next (s.binG d a b 1 fun x y => truth (isLtN x y))
def execCmpLeN (d a b : Reg) (s : State) : Out := .next (s.binG d a b 1 fun x y => truth (isLeN x y))
/-- sel reads the old gd as its condition (R70). -/
def execSel (d a b : Reg) (s : State) : Out :=
  .next (s.binG d a b 1 fun x y => if s.cur.rg d ≠ 0 then x else y)

/-! ## Immediate forms (R71, R72, R73) -/

/-- A result of one scalar register. -/
def State.unG (s : State) (d a : Reg) (f : W64 → W64) : State := s.resultG d (f (s.cur.rg a)) 1

def execAddi (d a : Reg) (i : BitVec 12) (s : State) : Out := .next (s.unG d a (· + sx i))
def execAndi (d a : Reg) (i : BitVec 12) (s : State) : Out := .next (s.unG d a (· &&& zx i))
def execOri (d a : Reg) (i : BitVec 12) (s : State) : Out := .next (s.unG d a (· ||| zx i))
def execXori (d a : Reg) (i : BitVec 12) (s : State) : Out := .next (s.unG d a (· ^^^ zx i))
def execShli (d a : Reg) (h : BitVec 6) (s : State) : Out := .next (s.unG d a fun x => shlW x h.toNat)
def execShri (d a : Reg) (h : BitVec 6) (s : State) : Out := .next (s.unG d a fun x => shrW x h.toNat)
def execSrai (d a : Reg) (h : BitVec 6) (s : State) : Out := .next (s.unG d a fun x => sraW x h.toNat)
def execCmpiEq (d a : Reg) (i : BitVec 10) (s : State) : Out := .next (s.unG d a fun x => truth (isEq x (sx i)))
def execCmpiLtI (d a : Reg) (i : BitVec 10) (s : State) : Out := .next (s.unG d a fun x => truth (isLtI x (sx i)))
def execCmpiLtN (d a : Reg) (i : BitVec 10) (s : State) : Out := .next (s.unG d a fun x => truth (isLtN x (sx i)))
def execLi (d : Reg) (i : BitVec 18) (s : State) : Out := .next (s.resultG d (sx i) 1)

/-- A word with a field of w bits from bit n replaced (R72). -/
def replaceField {w : Nat} (x : W64) (n : Nat) (i : BitVec w) : W64 :=
  (x &&& ~~~((BitVec.allOnes w).setWidth 64 <<< n)) ||| (i.setWidth 64 <<< n)

def execLih1 (d : Reg) (i : BitVec 18) (s : State) : Out := .next (s.resultG d (replaceField (s.cur.rg d) 18 i) 1)
def execLih2 (d : Reg) (i : BitVec 18) (s : State) : Out := .next (s.resultG d (replaceField (s.cur.rg d) 36 i) 1)
def execLih3 (d : Reg) (i : BitVec 10) (s : State) : Out := .next (s.resultG d (replaceField (s.cur.rg d) 54 i) 1)
/-- addpc: from the address of its own bundle (R73). -/
def execAddpc (d : Reg) (i : BitVec 18) (s : State) : Out := .next (s.resultG d (target s.iss.addr i) 1)

/-! ## Special registers (03 R52 to R54, 04 R74, 07 R135, 06 R120) -/

/-- Strands of a context that are attached and have not exited. -/
def State.attachedSet (s : State) (c : CtxId) : List StrandId :=
  c.strands.filter fun t => (s.strand t).attached && !(s.strand t).exited

/-- %attach (R135). -/
def State.attachMask (s : State) (c : CtxId) : W64 :=
  (s.attachedSet c).foldl (fun m t => m ||| (1#64 <<< t.core.val)) 0

/-- %drift (R134, R135). -/
def State.drift (s : State) (t : StrandId) : Nat :=
  if (s.strand t).attached && !(s.strand t).exited then
    (s.attachedSet t.ctxId).foldl (fun m u => max m (s.strand u).issuedTeam) 0 - (s.strand t).issuedTeam
  else 0

/-- Held store entries in use (06 R113). -/
def Strand.gsbn (t : Strand) : Nat := match t.region with | some r => r.held.length | none => 0

/-- The value a `gets` of register n reads as its bundle issues. -/
def State.sregValue (s : State) (n : Nat) : W64 :=
  let st := s.cur
  let t := s.turn
  match n with
  | 0 => st.step
  | 1 => BitVec.ofNat 64 (s.timeAt t.clusterId)
  | 2 => BitVec.ofNat 64 t.core.val
  | 3 => BitVec.ofNat 64 t.cluster.val
  | 4 => BitVec.ofNat 64 t.die.val
  | 5 => BitVec.ofNat 64 t.ctx.val
  | 6 => s.attachMask t.ctxId
  | 7 => BitVec.ofNat 64 (s.drift t)
  | 8 => zx st.jbudget
  | 9 => st.lc0
  | 10 => st.lc1
  | 11 => zx s.iss.regionWas
  | 12 => zx st.rbcause
  | 13 => st.rbaddr
  | 14 => BitVec.ofNat 64 st.gsbn
  | 15 => zx st.fmt
  | 16 => zx st.rmode
  | 17 => zx st.lfsr
  | 18 => zx st.hintdrop
  | 19 => zx st.barovr
  | _ => 0

def execGets (d : Reg) (i : BitVec 12) (s : State) : Out :=
  if i.toNat ≤ 19 then .next (s.resultG d (s.sregValue i.toNat) 1) else .next s.illegalEncoding

/-- The registers that a `sets` may name in a region (06 R118). -/
def sregInRegion (n : Nat) : Bool := n == 8 || n == 9 || n == 10 || n == 16 || n == 17

/-- sets: %fmt as `fmt` with latency 2, every other register at the commit of the bundle (R54). -/
def execSets (a : Reg) (i : BitVec 12) (s : State) : Out :=
  if !sregWritable i then .next s.illegalEncoding
  else if s.inRegion && !sregInRegion i.toNat then .next (s.rollbackFor 4)
  else if i.toNat = 15 then .next (s.result .fmt (.fmt (fmtStored ((s.cur.rg a).setWidth 32))) 2)
  else .next (s.setIss { s.iss with sets := s.iss.sets ++ [(i.toNat, s.cur.rg a)] })

/-- A write of a special register takes effect (R53, R54). -/
def Strand.applySet (t : Strand) (n : Nat) (x : W64) : Strand :=
  match n with
  | 8 => { t with jbudget := x.setWidth 16 }
  | 9 => { t with lc0 := x }
  | 10 => { t with lc1 := x }
  | 16 => { t with rmode := if (x.setWidth 3).toNat ≥ 5 then x.setWidth 4 &&& 8#4 else x.setWidth 4 }
  | 17 => { t with lfsr := if x.setWidth 32 = 0#32 then 1 else x.setWidth 32 }
  | 18 => { t with hintdrop := x.setWidth 32 }
  | 19 => { t with barovr := t.barovr &&& ~~~(x.setWidth 8) }
  | _ => t

/-- nop: idle steps after its bundle; two in one bundle add up (R75). -/
def execNop (i : BitVec 12) (s : State) : Out :=
  .next (s.setIss { s.iss with idle := s.iss.idle + i.toNat })

/-! ## Engines of the run: idle steps and landing (03 R55 to R57, R62) -/

/-- An exposed result lands at the end of its due step (R57). -/
def execExposedResultLands (t : StrandId) (s : State) : Out := .next (s.landDue t)

/-- A fetched syllable that is no instruction raises ILLEGAL at its bundle (02 R33). -/
def execIllegalSyllable (w : W32) (s : State) : Out :=
  match Sys2Proof.decodeWord w with
  | .ok _ => .next s
  | .error _ => .next s.illegalEncoding

end Sys2Proof.Machine
end

