-- ==== Sys2Proof/Machine/View.lean ====
section
/-! DEFINITION. What a read returns and how a write is performed: the write paths of the clusters, the cluster caches with
their leases, the L2 slices, the homes and the scratchpads (14 R240 to R245, 20 R319 to R322, 22 R355). -/

namespace Sys2Proof.Machine

/-! ## Pending writes -/

/-- The offset of a location behind the first byte of a write, when both are in one space. -/
def offsetFrom (a b : Loc) : Option Nat :=
  match a, b with
  | .phys p, .phys q => if p ≤ q then some (q - p) else none
  | .spad o p, .spad o' q => if o = o' ∧ p ≤ q then some (q - p) else none
  | _, _ => none

/-- The byte that a list of (offset, byte) holds at an offset; a later entry stands over an earlier one. -/
def byteAt (bs : List (Nat × Byte)) (i : Nat) : Option Byte :=
  match bs with
  | [] => none
  | (j, b) :: r =>
    match byteAt r i with
    | some x => some x
    | none => if j = i then some b else none

/-- The byte that a pending write holds for a location. -/
def PWrite.byte (w : PWrite) (l : Loc) : Option Byte :=
  match offsetFrom w.at_.loc l with
  | none => none
  | some i => byteAt w.bytes i

/-- Whether two writes cover a common byte. -/
def PWrite.overlaps (w x : PWrite) : Bool :=
  w.bytes.any fun b => (x.byte (w.at_.plus b.1).loc).isSome

/-- Whether a strand's read of age `before` sees a pending write before it is performed: its own earlier write (R95), or a
cacheable write that its cluster's write path has accepted (R243). What the host's controller has accepted stands in the window. -/
def PWrite.forwards (w : PWrite) (strand cluster before : Nat) : Bool :=
  if w.strand = strand then decide (w.seq < before) && (w.at_.cacheable || !w.accepted)
  else decide (w.cluster = cluster) && w.at_.cacheable && w.accepted

/-- The youngest pending write of a list that forwards a byte to a read: the byte and the age of the write. -/
def pathByte (ws : List PWrite) (strand cluster before : Nat) (l : Loc) : Option (Byte × Nat) :=
  match ws with
  | [] => none
  | w :: r =>
    match pathByte r strand cluster before l with
    | some x => some x
    | none =>
      if w.forwards strand cluster before then (w.byte l).map fun b => (b, w.seq) else none

/-! ## Pending reads -/

/-- Whether a pending operation still has to read a location. -/
def POp.reads (o : POp) (l : Loc) : Bool :=
  match o with
  | .load _ bs => bs.any fun b => match b with | .at_ p => p.loc == l | _ => false
  | .amo _ p _ _ => (List.range 8).any fun i => (p.plus i).loc == l
  | _ => false

/-- Whether a pending operation is a read of memory that is not yet satisfied (14 R244, R251). -/
def Pend.unread (p : Pend) : Bool :=
  match p.op with
  | .load _ _ => p.val.isNone
  | .amo _ _ _ _ => p.val.isNone
  | _ => false

/-- Whether every read of a strand older than an age is satisfied. -/
def State.readsDone (s : State) (t : StrandId) (before : Nat) : Bool :=
  (s.strand t).pend.all fun p => !(decide (p.seq < before) && p.unread)

/-- Whether a pending write waits for an older read of its own strand that covers one of its bytes (R95). -/
def State.readFirst (s : State) (w : PWrite) : Bool :=
  (s.strand (strandOfKey w.strand)).pend.any fun p =>
    decide (p.seq < w.seq) && p.unread && w.bytes.any fun b => p.op.reads (w.at_.plus b.1).loc

/-- Whether the cluster's write path has accepted a cacheable write, which makes it performed towards the cluster's reads (R243). -/
def PWrite.onPath (w : PWrite) : Bool := w.at_.cacheable && w.accepted

/-- Whether two writes are one strand's, the first the older, and cover a common byte; an engine's write counts as one of the strand that
started the operation (11 R217). -/
def PWrite.ownBefore (x w : PWrite) : Bool :=
  decide (x.seq < w.seq) && decide (x.strand % 65536 = w.strand % 65536) && w.overlaps x

/-- Whether the cluster's write path can accept a cacheable write now: not before its own strand's older reads of its bytes, nor before
its strand's older writes to them (R95), nor while the cluster is stopped (20 R326). -/
def State.acceptable (s : State) (w : PWrite) : Bool :=
  w.at_.cacheable && !(s.cluster (clusterOfKey w.cluster)).stopped && !s.readFirst w && s.writes.all fun x => !(x.ownBefore w && !x.onPath)

/-- Whether two writes pass through the slices of one die to one line. -/
def PWrite.sameLine (x w : PWrite) : Bool :=
  decide (x.cluster / 32 = w.cluster / 32) &&
    (match x.at_.loc, w.at_.loc with | .phys a, .phys b => lineOf a == lineOf b | _, _ => false)

/-- Whether a write may be performed as far as its strand's older reads and older writes to its bytes go (R95) and, for a cacheable
one, the writes to its line that the write paths have accepted before it: accepted writes stand in the list in that order (R321); for
another, the writes to its bytes that its own cluster's write path has accepted, which are performed towards the cluster's reads (R244). -/
def State.inOrder (s : State) (w : PWrite) : Bool :=
  !s.readFirst w && (!w.at_.cacheable || w.accepted) && (s.writes.all fun x => !x.ownBefore w) &&
    if w.at_.cacheable then (s.writes.takeWhile fun x => x.seq != w.seq).all fun x => !(x.onPath && x.sameLine w)
    else s.writes.all fun x => !(x.onPath && decide (x.cluster = w.cluster) && x.overlaps w)

/-- Whether an atomic of a strand waits for an earlier access to its word: the strand's own, or a write that its cluster's write path
has accepted (R243, R257). -/
def State.amoBlocked (s : State) (t : StrandId) (seq : Nat) (p : Place) : Bool :=
  let word := fun (f : Loc → Bool) => (List.range 8).any fun i => f (p.plus i).loc
  (s.writes.any fun w =>
    (if w.strand = t.key then decide (w.seq < seq) else decide (w.cluster = t.clusterId.key) && w.onPath) &&
      word fun l => (w.byte l).isSome) ||
  (s.strand t).pend.any fun q => decide (q.seq < seq) && q.unread && word q.op.reads

/-- Whether a write to a line waits at the slices of a die, that of an atomic at its home among them (R321). -/
def State.lineWaits (s : State) (d : DieId) (line : Nat) : Bool :=
  (s.writes.any fun w => w.at_.cacheable && decide (w.cluster / 32 = d.val) && s.inOrder w &&
    (match w.at_.loc with | .phys a => lineOf a == line | _ => false)) ||
  s.strands.any fun x => x.2.pend.any fun q => q.unread &&
    (match q.op with
     | .amo _ p _ _ =>
       p.cacheable && (match p.loc with | .phys a => lineOf a == line && homeDie a == d | _ => false) &&
         !s.amoBlocked (strandOfKey x.1) q.seq p
     | _ => false)

/-! ## The caches -/

/-- Whether a cluster may still use a line it holds (R320). -/
def State.leaseHolds (s : State) (l : ClusterId) (x : CacheLine) : Bool :=
  let c := s.cluster l
  !(c.blind || c.stopped) && decide (s.timeAt l + (s.die l.die).guard < x.leaseEnd)

/-- Whether a cluster-cache lookup hits: the sector is held and the lease allows it (R320). -/
def State.cacheHit (s : State) (l : ClusterId) (pa : Nat) : Option CacheLine :=
  match tget (s.cluster l).cache (lineOf pa) with
  | none => none
  | some x => if s.leaseHolds l x ∧ x.sectors.getLsbD (pa % 128 / 32) then some x else none

/-- Whether a home has asked for ownership of a line of its own and does not hold it yet. -/
def Die.asksOwn (d : Die) (line : Nat) : Bool :=
  match tget d.mshr line with
  | some o => o.kind != .shared
  | none => false

/-- Whether a die's home memory is current for a line homed on it: no other die holds it in E, M or O, nor does it come back from
one (R328, R332). -/
def State.homeCurrent (s : State) (line : Nat) : Bool :=
  let d := s.die (homeDie (line * 128))
  !d.asksOwn line &&
    (match tget d.dir line with
     | none => true
     | some e => e.st == .S)

/-- Whether a home may take a line of its own without a message: no other die holds it and no transaction is under way. -/
def State.homeFree (s : State) (d : DieId) (line : Nat) : Bool :=
  decide (homeDie (line * 128) = d) && (tget (s.die d).dir line).isNone && (tget (s.die d).txns line).isNone && !(s.die d).asksOwn line

/-- A byte as the slices of a die can serve it now, with its poison (R330, R332). -/
def State.sliceByte (s : State) (d : DieId) (pa : Nat) : Option (Byte × Bool) :=
  match tget (s.die d).l2 (lineOf pa) with
  | some x =>
    if x.st = .I then
      if homeDie pa = d ∧ s.homeCurrent (lineOf pa) then some (memRead s.mem pa, s.hbmPoison.contains (pa / 64)) else none
    else some (x.data.getD (pa % 128) 0, x.poison.getLsbD (pa % 128 / 32))
  | none =>
    if homeDie pa = d ∧ s.homeCurrent (lineOf pa) then some (memRead s.mem pa, s.hbmPoison.contains (pa / 64)) else none

/-- Whether a byte lies in a host window that answers no more, die 0 with the PCIe endpoint being lost (23 R382). -/
def State.hostGone (s : State) (pa : Nat) : Bool := decide (hostBase ≤ pa) && s.dielost.getLsbD 0

/-- Whether a place lies in a frame that is mapped in two ways: what a read of it returns is undefined, whatever is still to be written there
(21 R339, 00 R11). -/
def State.mixedAt (s : State) (p : Place) : Bool := match p.loc with | .phys pa => s.mixed pa | .spad _ _ => false

/-- A byte as a read of a strand can return it now: its value, its poison and the age of the pending write it came from. The strand's own
writes that no path has accepted yet stand over those that one has (R244); in a frame mapped in two ways none of them does (21 R339). What
another cluster has not performed in full is not read (R260; DESIGN CHOICE, log 90).
None when the line has to be fetched, or a write to it waits, first (14 R244, 20 R319 to R321), or when no host answers (23 R382). -/
def State.view (s : State) (t : StrandId) (before : Nat) (p : Place) : Option (Byte × Bool × Option Nat) :=
  match (if s.mixedAt p then none else
      pathByte ((s.writes.filter PWrite.onPath) ++ s.writes.filter fun w => w.strand == t.key && !w.onPath) t.key t.clusterId.key
        before p.loc) with
  | some (b, n) => some (b, false, some n)
  | none =>
    match p.loc with
    | .spad o off => some (s.spadRead o off, s.spadPoisoned o off, none)
    | .phys pa =>
      if s.hostGone pa then none
      else if !p.cacheable || s.mixed pa then some (s.frameByte pa, s.devicePoison pa, none)
      else
        match (if p.cp = 0 then s.cacheHit t.clusterId pa else none) with
        | some x => some (x.data.getD (pa % 128) 0, x.poison.getLsbD (pa % 128 / 32), none)
        | none =>
          if s.lineWaits t.die (lineOf pa) then none
          else (s.sliceByte t.die pa).map fun (b, q) => (b, q, none)

/-- The piece of a load that byte i belongs to: a scalar load, a chunk of a `vld`, a lane of a `vldg` is read as one action (R245). -/
def LoadForm.piece (f : LoadForm) (i : Nat) : Nat :=
  match f with
  | .scalar _ _ => 0
  | .vector => i / 16
  | .gather => i / 4

/-- What a byte to be read returns, if it can be read now. -/
abbrev Look := Option (Byte × Bool × Option Nat)

/-- The bytes that a load still has to read: each with its piece, its place and what it would return now. -/
def State.looks (s : State) (t : StrandId) (before : Nat) (f : LoadForm) (bs : List LByte) : List (Nat × Place × Look) :=
  ((List.range bs.length).zip bs).filterMap fun x =>
    match x.2 with
    | .at_ p => some (f.piece x.1, p, s.view t before p)
    | _ => none

/-- Whether a piece can be read as one action now: every byte of it can, and all from one pending write or all from none (R241). -/
def pieceReady (ls : List (Nat × Place × Look)) (k : Nat) : Bool :=
  let mine := (ls.filter fun x => x.1 == k).map fun x => x.2.2
  match mine with
  | [] => true
  | m :: _ => mine.all fun x => x.isSome && x.bind (·.2.2) == m.bind (·.2.2)

/-- The pieces of a load that can be read now are read; the others wait. -/
def State.readBytes (s : State) (t : StrandId) (before : Nat) (f : LoadForm) (bs : List LByte) : List LByte :=
  let ls := s.looks t before f bs
  ((List.range bs.length).zip bs).map fun x =>
    match x.2 with
    | .at_ p =>
      if pieceReady ls (f.piece x.1) then (match s.view t before p with | some (y, q, _) => .got y q | none => x.2) else x.2
    | b => b

/-- Ages of the pending writes whose values a load returns now, those accepted for a host window and not yet acknowledged among them (14
R243, R255). -/
def State.observes (s : State) (t : StrandId) (before : Nat) (f : LoadForm) (bs : List LByte) : List Nat :=
  let ls := s.looks t before f bs
  ls.flatMap fun x =>
    if pieceReady ls x.1 then
      (match x.2.2 with | some (_, _, some n) => [n] | _ => []) ++
        (s.writes.filter fun w => w.accepted && !w.at_.cacheable && (w.byte x.2.1.loc).isSome).map (·.seq)
    else []

/-- Whether every byte of a load is read. -/
def allRead (bs : List LByte) : Bool := bs.all fun b => match b with | .at_ _ => false | _ => true

/-- The value of a byte of a load; an inactive lane's is 0. -/
def LByte.byte (b : LByte) : Byte := match b with | .got x _ => x | _ => 0
/-- Its poison. -/
def LByte.poison (b : LByte) : Bool := match b with | .got _ q => q | _ => false

/-- The register value of the bytes of a load (05 R92, R100, R101), with its poison (R97). -/
def loadValue (f : LoadForm) (bs : List LByte) : Dat × Bool :=
  let n := leNat (bs.map LByte.byte)
  let q := bs.any LByte.poison
  match f with
  | .scalar size signed =>
    (.w (if signed && decide (n ≥ 2 ^ (8 * size - 1)) then BitVec.ofNat 64 (n + 2 ^ 64 - 2 ^ (8 * size)) else BitVec.ofNat 64 n), q)
  | _ => (.v (BitVec.ofNat 2048 n), q)

/-! ## Performing -/

/-- Bytes of a write put in a scratchpad; a granule covered whole loses its poison (22 R355). -/
def State.spadApply (s : State) (o off : Nat) (bs : List (Nat × Byte)) : State :=
  let c := s.core (coreOfKey o)
  let spad := bs.foldl (fun m b => tset m (off + b.1) b.2) c.spad
  let whole := fun g => (List.range 8).all fun i => bs.any fun b => off + b.1 == 8 * g + i
  s.setCore (coreOfKey o) { c with spad := spad, spadPoison := c.spadPoison.filter fun g => !whole g }

/-- The granule of a scratchpad byte loses its poison: the write of the byte is the last part of a store that covers the granule whole (22 R355). -/
def State.cleanSpad (s : State) (o off : Nat) (whole : Bool) : State :=
  if whole then
    s.setCore (coreOfKey o) { s.core (coreOfKey o) with spadPoison := nsErase (s.core (coreOfKey o)).spadPoison (off / 8) }
  else s

/-- The contents of a line at its home: the home's own copy, else memory (R332). -/
def State.homeLine (s : State) (line : Nat) : List Byte × BitVec 4 :=
  match tget (s.die (homeDie (line * 128))).l2 line with
  | some x =>
    if x.st = .I then
      (memBytes s.mem (line * 128) 128, BitVec.ofNat 4 ((s.hbmPoison.contains (2 * line)).toNat * 3 + (s.hbmPoison.contains (2 * line + 1)).toNat * 12))
    else (x.data, x.poison)
  | none =>
    (memBytes s.mem (line * 128) 128, BitVec.ofNat 4 ((s.hbmPoison.contains (2 * line)).toNat * 3 + (s.hbmPoison.contains (2 * line + 1)).toNat * 12))

/-- A line written to HBM with its poison (20 R357, 22 R355). -/
def State.lineToHbm (s : State) (line : Nat) (data : List Byte) (poison : BitVec 4) : State :=
  let h := nsPut (nsPut s.hbmPoison (2 * line) (poison.getLsbD 0 || poison.getLsbD 1)) (2 * line + 1)
    (poison.getLsbD 2 || poison.getLsbD 3)
  { s with mem := memWriteBytes s.mem (line * 128) data, hbmPoison := h }

/-- Write a line of a die's L2. -/
def State.setLine (s : State) (d : DieId) (line : Nat) (x : L2Line) : State :=
  s.setDie d { s.die d with l2 := tset (s.die d).l2 line x }

/-- A slice of die d takes a line in M without a message: it owns it already, or it is the line's home, no other die holds it
and no transaction on it is under way (R330 to R332). The contents come from its copy or from memory. -/
def State.takeM (s : State) (d : DieId) (line : Nat) : Option L2Line :=
  match tget (s.die d).l2 line with
  | some x =>
    if x.st = .M ∨ x.st = .E then some { x with st := .M }
    else if s.homeFree d line then
      if x.st = .I then
        let (data, poison) := s.homeLine line
        some { x with st := .M, data := data, poison := poison }
      else some { x with st := .M }
    else none
  | none =>
    if s.homeFree d line then
      let (data, poison) := s.homeLine line
      some ⟨.M, data, poison, [], 0, none⟩
    else none

/-- Whether the leases on a line are ended or returned, so that a write to it may be performed (R321, R327). -/
def State.leasesOver (s : State) (d : DieId) (x : L2Line) : Bool :=
  x.holders.isEmpty || (!(s.die d).dieOff && decide (s.now ≥ x.lend + (s.die d).guard))

/-- A write that is not cacheable is performed at its bank, at its home or hearth die, or at the host (R243). -/
def State.performAt (s : State) (p : Place) (bs : List (Nat × Byte)) (clears : Nat) : State :=
  match p.loc with
  | .spad o off => (s.spadApply o off bs).cleanSpad o off (clears == 8)
  | .phys pa => s.homeWrite pa bs clears

/-- A cacheable write is performed in the slice that holds its line in M (R243, R321); the line becomes write-hot (R319). -/
def State.performIn (s : State) (d : DieId) (pa : Nat) (bs : List (Nat × Byte)) (clears : Nat) (x : L2Line) : State :=
  let poison := if clears ≥ 32 then x.poison &&& ~~~(1#4 <<< (pa % 128 / 32)) else x.poison
  (s.setDie d { s.die d with written := tset (s.die d).written (lineOf pa) s.now }).setLine d (lineOf pa)
    { x with st := .M, data := lineApply x.data (pa % 128) bs, poison := poison }

/-- The cluster whose write path accepts a store drops its copy of the line and returns its lease (R321, R322). -/
def State.dropCopy (s : State) (l : ClusterId) (line : Nat) : State :=
  let c := s.cluster l
  let s1 := if (tget c.cache line).isSome then s.setCluster l { c with cache := terase c.cache line } else s
  let d := s1.die l.die
  let owed := d.owed.map fun o => if o.line = line then { o with holders := nsErase o.holders l.cluster.val } else o
  let s2 := if owed = d.owed then s1 else s1.setDie l.die { d with owed := owed }
  match tget (s2.die l.die).l2 line with
  | some x => if x.holders.contains l.cluster.val then s2.setLine l.die line { x with holders := nsErase x.holders l.cluster.val } else s2
  | none => s2

/-- A lookup drops a line whose lease no longer holds (R320, R322). -/
def State.dropStale (s : State) (l : ClusterId) (pa : Nat) : State :=
  match tget (s.cluster l).cache (lineOf pa) with
  | some x => if s.leaseHolds l x then s else s.dropCopy l (lineOf pa)
  | none => s

/-- The granule of g bytes whose poison a pending write clears as it is performed, or 0: its store covers the granule whole, and no
other part of it is still pending (22 R355). -/
def State.clearsNow (s : State) (w : PWrite) (g : Nat) : Nat :=
  match w.at_.loc with
  | .spad o off =>
    if w.clears ≠ 8 || s.writes.any fun x => x.seq != w.seq && x.strand == w.strand && x.clears == 8 &&
        (match x.at_.loc with | .spad p q => p == o && q / 8 == off / 8 | _ => false) then 0 else 8
  | .phys pa =>
    if w.clears < g || s.writes.any fun x => x.seq != w.seq && x.strand == w.strand && decide (g ≤ x.clears) &&
        (match x.at_.loc with | .phys q => q / g == pa / g | _ => false) then 0 else g

/-- The cluster's write path accepts a cacheable write that stands in the list: it comes last of those accepted, and the cluster drops its
copy of the line and returns its lease (R243, R321). -/
def State.acceptWrite (s : State) (w : PWrite) : State :=
  match w.at_.loc with
  | .spad _ _ => s
  | .phys pa =>
    ({ s with writes := (s.writes.filter fun x => x.seq != w.seq) ++ [{ w with accepted := true }] } : State).dropCopy
      (clusterOfKey w.cluster) (lineOf pa)

/-- The write paths accept every write that they can (R321). -/
def State.acceptWrites (s : State) : State :=
  s.writes.foldl (fun s w => if !w.accepted && s.acceptable w then s.acceptWrite w else s) s

/-- A write is pending; its cluster's write path accepts it at once if it can. -/
def State.putWrite (s : State) (w : PWrite) : State :=
  let s1 := { s with writes := s.writes ++ [w] }
  if s.acceptable w then s1.acceptWrite w else s1

/-- Issue of a store: performed at once in the strand's own partition (R243), otherwise a pending write. -/
def State.issueStore (s : State) (t : StrandId) (x : StoreAt) : State :=
  match x.at_.loc with
  | .spad o _ =>
    let clears := if x.clears = 8 then 8 else 0
    if o = t.coreId.key then s.performAt x.at_ x.bytes clears
    else
      let (n, s1) := s.fresh
      { s1 with writes := s1.writes ++ [⟨n, t.key, t.clusterId.key, x.at_, x.va.toNat, x.bytes, clears, false⟩] }
  | .phys _ =>
    let (n, s1) := s.fresh
    s1.putWrite ⟨n, t.key, t.clusterId.key, x.at_, x.va.toNat, x.bytes, x.clears, false⟩

/-- The stores of a bundle are issued in increasing position (02 R32). -/
def State.issueStores (s : State) (t : StrandId) (xs : List StoreAt) : State :=
  match xs with
  | [] => s
  | x :: r => (s.issueStore t x).issueStores t r

/-! ## Lines removed or cleaned from outside the protocol (11, 21 R343, R345; 23 R371) -/

/-- Whether the coherence protocol is at work on a line (20 R331). -/
def State.lineBusy (s : State) (line : Nat) : Bool :=
  (s.msgs.any fun m => m.line == line) ||
    allDies.any fun d => (tget (s.die d).mshr line).isSome || (tget (s.die d).txns line).isSome ||
      ((s.die d).txns.any fun x => x.2.victim == some line) ||
      (s.die d).owed.any fun x => x.line == line

/-- A message between dies is sent; nothing reaches a failed die. -/
def State.send (s : State) (m : Msg) : State := if (s.die m.dst).failed then s else { s with msgs := s.msgs ++ [m] }

/-- Sets of the slices of a die: 16 slices of 1,536, each of 16 ways of 128 bytes (00 R2, 19 R316), numbered by the line's address
(DESIGN CHOICE, log 13). -/
def sliceSets : Nat := 24576

/-- A slice gives up a line for want of room (R330): a dirty one of another home goes to the write-back buffer and home, of its own
home to HBM; with poison it is logged (22 R357). -/
def State.evict (s : State) (d : DieId) (v : Nat) (x : L2Line) : State :=
  let s1 := s.setDie d { s.die d with l2 := terase (s.die d).l2 v }
  if x.st = .M ∨ x.st = .O then
    let s2 := if x.poison = 0 then s1 else s1.log d logL2 4 (v % 16) 10 (v * 128) 0
    if homeDie (v * 128) = d then s2.lineToHbm v x.data x.poison
    else
      (s2.setDie d { s2.die d with wbuf := tset (s2.die d).wbuf v (x.data, x.poison) }).send
        ⟨.wbDirty, homeDie (v * 128), d, v, d, some (x.data, x.poison), true, .owned⟩
  else s1

/-- Room for a line in its set, whose victim, without running leases, is a retained one only when every other is retained (05 R103), and never a
dirty one of a failed home, which is to be salvaged (20 R336); which, the manual leaves open (DESIGN CHOICE, log 16). None while no line of a full set can be given up. -/
def State.makeRoom (s : State) (d : DieId) (line : Nat) : Option State :=
  let mine := (s.die d).l2.filter fun x => x.1 % sliceSets == line % sliceSets
  if mine.length < 16 ∨ (tget (s.die d).l2 line).isSome then some s
  else
    let salvaged := fun (x : Nat × L2Line) => (s.die (homeDie (x.1 * 128))).failed && (x.2.st == .M || x.2.st == .O)
    let free := mine.filter fun x => s.leasesOver d x.2 && !s.lineBusy x.1 && !salvaged x
    let victims := if mine.all fun x => x.2.retained.isSome then free else free.filter fun x => x.2.retained.isNone
    (victims[Config.choice s.tick % victims.length]?).map fun x => s.evict d x.1 x.2

/-- Every L2 copy of a line is removed, a dirty one written back first, and the home's directory forgets it (R345). None
while a lease on it runs or the protocol is at work on it. -/
def State.purgeLine (s : State) (line : Nat) : Option State :=
  if s.lineBusy line then none
  else
    let s1 := allDies.foldl (fun (acc : Option State) d =>
      acc.bind fun s =>
        match tget (s.die d).l2 line with
        | none => some s
        | some x =>
          if !s.leasesOver d x then none
          else
            let s1 := if x.st = .M ∨ x.st = .O then s.lineToHbm line x.data x.poison else s
            some (s1.setDie d { s1.die d with l2 := terase (s1.die d).l2 line })) (some s)
    let h := homeDie (line * 128)
    s1.map fun s => s.setDie h { s.die h with dir := terase (s.die h).dir line }

/-- Lines removed one after the other. -/
def State.purgeLines (s : State) (lines : List Nat) : Option State :=
  lines.foldl (fun acc l => acc.bind fun s => s.purgeLine l) (some s)

/-- A dirty copy of a line is written to HBM and stays as a clean one (R343). -/
def State.cleanLine (s : State) (line : Nat) : State :=
  allDies.foldl (fun s d =>
    match tget (s.die d).l2 line with
    | some x =>
      if x.st = .M ∨ x.st = .O then
        (s.lineToHbm line x.data x.poison).setLine d line { x with st := if x.st = .M then .E else .S }
      else s
    | none => s) s

/-! ## Requests of a die (20 R329, R330) -/

/-- Ask a line's home for it, unless the die already waits for the line. -/
def State.request (s : State) (d : DieId) (line : Nat) (k : ReqKind) : State :=
  if (tget (s.die d).mshr line).isSome then s
  else
    let kind := match k with | .shared => MsgKind.readShared | .own => .readOwn | .upgrade => .upgrade
    let s1 := s.setDie d { s.die d with mshr := tset (s.die d).mshr line ⟨k, none, false, false, none, []⟩ }
    { s1 with msgs := s1.msgs ++ [⟨kind, homeDie (line * 128), d, line, d, none, true, .nothing⟩] }

/-- A request of a die takes up what a hint wants of its line (05 R102). -/
def State.wish (s : State) (d : DieId) (line : Nat) (f : Outstanding → Outstanding) : State :=
  match tget (s.die d).mshr line with
  | some o => s.setDie d { s.die d with mshr := tset (s.die d).mshr line (f o) }
  | none => s

/-- Ask for every line that the cacheable bytes of a load still wait for. -/
def State.requestFor (s : State) (t : StrandId) (bs : List LByte) : State :=
  bs.foldl (fun s b =>
    match b with
    | .at_ p =>
      (match p.loc with
       | .phys pa => if !p.cacheable || s.lineWaits t.die (lineOf pa) then s else s.request t.die (lineOf pa) .shared
       | .spad _ _ => s)
    | _ => s) s

end Sys2Proof.Machine
end

