-- ==== Sys2Proof/Machine/Spec.lean ====
section
/-! DEFINITION. The K class: speculative regions (06 R110 to R121, 18 R308). -/

namespace Sys2Proof.Machine

/-- The snapshot of R111, with the poison marks of the registers. -/
def Strand.snapshot (t : Strand) : Snapshot :=
  { g := t.g, v := t.v, k := t.k, gp := t.gp, vp := t.vp, kp := t.kp, f0 := t.f0, f1 := t.f1, lc0 := t.lc0, lc1 := t.lc1
    rmode := t.rmode, lfsr := t.lfsr, jbudget := t.jbudget }

/-- ckpt opens a region whose first bundle is its own (R110); in an open region, or with SPEC = 0 (18 R308), it rolls back
with EXCLUDED. -/
def execCkpt (i : BitVec 18) (s : State) : Out :=
  if s.inRegion then .next (s.rollbackFor 4)
  else
    let st := s.cur
    let r : Region := { snap := st.snapshot, recovery := target s.iss.addr i, bundle := s.iss.addr, step := st.step
                        guards := [], held := [] }
    let s1 := s.setCur { st with region := some r }
    if (s.bindOf s.turn.ctxId).spec then .next s1 else .next (s1.rollbackFor 4)

/-- commit closes the region at the commit of its bundle (R121); outside a region it has no other effect (R117). -/
def execCommit (s : State) : Out :=
  if s.inRegion then .next (s.setIss { s.iss with commits := true }) else .next s

/-- guard enters [ga, ga + n64(gb)), clipped at 2^64, into the guard table; a seventeenth entry overflows (R114, R117). -/
def execGuard (a b : Reg) (s : State) : Out :=
  match s.cur.region with
  | none => .next s
  | some r =>
    if s.cur.rg b = 0 then .next s
    else if r.guards.length + s.iss.guards.length ≥ 16 then .next (s.rollbackFor 5)
    else
      let lo := (s.cur.rg a).toNat
      .next (s.setIss { s.iss with guards := s.iss.guards ++ [(lo, min (lo + (s.cur.rg b).toNat) (2 ^ 64))] })

/-- assert rolls back with ASSUME when ga is 0 (R116, R117). -/
def execAssert (a : Reg) (s : State) : Out :=
  if s.inRegion && s.cur.rg a == 0 then .next (s.rollbackFor 2) else .next s

/-- abort rolls back with ABORT (R116, R117). -/
def execAbort (s : State) : Out := if s.inRegion then .next (s.rollbackFor 3) else .next s

/-! ## Held stores (05 R108, 06 R113, R121) -/

/-- Whether a store overlaps a guarded range (R108, R115: virtual addresses). -/
def guarded (gs : List (Nat × Nat)) (x : StoreAt) : Bool :=
  x.bytes.any fun b => gs.any fun g => decide (g.1 ≤ x.va.toNat + b.1 ∧ x.va.toNat + b.1 < g.2)

/-- A store as an entry of the gated store buffer. -/
def StoreAt.held (x : StoreAt) : Held := ⟨x.va, x.at_, x.bytes, x.clears, false⟩

/-- A withheld store as the ordinary store that it is (22 R363). -/
def Held.store (x : Held) : StoreAt := ⟨x.va, x.at_, x.bytes, x.clears, 0⟩

/-- The size of the aligned block, as far as poison goes, that the store of a held entry covers around its byte i: in a scratchpad granules
of 8 bytes count (22 R355). -/
def Held.clearsAt (x : Held) (i : Nat) : Nat :=
  match x.at_.loc with
  | .spad _ off => if (List.range 8).all fun j => x.bytes.any fun b => off + b.1 == (off + i) / 8 * 8 + j then 8 else 0
  | .phys _ => x.clears

/-- A held entry as ordinary stores, issued at the commit bundle, each byte on its own (R121, 14 R245). -/
def Held.stores (x : Held) : List StoreAt :=
  x.bytes.map fun b => ⟨x.va + BitVec.ofNat 64 b.1, x.at_.plus b.1, [(0, b.2)], x.clearsAt b.1, 0⟩

/-- Whether the youngest held store that covers one of n bytes from a place on has failed its check (22 R356). -/
def badForward (hs : List Held) (p : Place) (n : Nat) : Bool :=
  let at_ := fun i => match p.loc with | .spad o off => Loc.spad o (off + i) | .phys pa => Loc.phys (pa + i)
  (List.range n).any fun i =>
    match (hs.filter fun h => match offsetFrom h.at_.loc (at_ i) with | some j => (byteAt h.bytes j).isSome | none => false).getLast? with
    | some h => h.bad
    | none => false

/-- The byte that the youngest held store holds for a location (R108). -/
def heldByte (hs : List Held) (l : Loc) : Option Byte :=
  match hs with
  | [] => none
  | h :: r =>
    match heldByte r l with
    | some b => some b
    | none => (match offsetFrom h.at_.loc l with | some i => byteAt h.bytes i | none => none)

/-- Held store entries of a strand's region. -/
def Strand.heldStores (t : Strand) : List Held := match t.region with | some r => r.held | none => []

/-- Stores of a strand that lockstep withholds (22 R363), the oldest first. -/
def Strand.withheld (t : Strand) : List Held := t.unconfirmed.flatMap (·.stores)

/-- A byte of its own core's scratchpad as the strand that issues finds it, with its poison: the stores that lockstep withholds and those
that its open region holds are its earlier ones (11 R197, 05 R108, 22 R363). -/
def State.ownByte (s : State) (off : Nat) : Byte × Bool :=
  let k := s.turn.coreId.key
  match heldByte (s.cur.withheld ++ s.cur.heldStores) (.spad k off) with
  | some b => (b, false)
  | none => (s.spadRead k off, s.spadPoisoned k off)

/-- n such bytes. -/
def State.ownBytes (s : State) (off n : Nat) : List Byte := (List.range n).map fun i => (s.ownByte (off + i)).1

end Sys2Proof.Machine
end

