-- ==== Sys2Proof/Machine/Access.lean ====
section
/-! DEFINITION. The M class: loads, stores, gathers, scatters and hints, and the cache range operations of the Z class (05 R92
to R108). -/

namespace Sys2Proof.Machine

/-! ## Faults of several lanes (R96) -/

/-- Rank of a cause within one syllable: ALIGN, BOUNDS, XLATE, HOMELOST (R96). -/
def faultRank (f : AddrFault) : Nat :=
  if f.1 = causeAlign then 0 else if f.1 = causeBounds then 1 else if f.1 = causeXlate then 2 else 3

/-- The fault that a syllable reports: the first cause in rank, the lowest lane (R96). -/
def worst (fs : List AddrFault) : Option AddrFault :=
  match fs with
  | [] => none
  | f :: r =>
    match worst r with
    | none => some f
    | some g => if faultRank g < faultRank f then some g else some f

/-- The sub-cause of the failing lane with the lowest address among those with the cause reported (12 R231). -/
def firstSub (fs : List AddrFault) (e : AddrFault) : BitVec 4 :=
  (fs.foldl (fun (acc : AddrFault) f => if f.1 = e.1 ∧ f.2.2.toNat < acc.2.2.toNat then f else acc) e).2.1

/-- Every active lane resolved (R93, R94): the places by lane, or the fault that the syllable reports. -/
def State.lanes (s : State) (t : StrandId) (xs : List (Nat × W64)) (align : Nat) (n : Need) :
    Except AddrFault (List (Nat × Place)) :=
  let rs := xs.map fun x => (x.1, s.access t x.2 align n)
  let fs := rs.filterMap fun r => match r.2 with | .error e => some e | .ok _ => none
  match worst fs with
  | some e => .error (e.1, firstSub fs e, e.2.2)
  | none => .ok (rs.filterMap fun r => match r.2 with | .ok p => some (r.1, p) | .error _ => none)

/-- The active lanes of a predicate with an address each. -/
def activeLanes (q : W64) (f : Nat → W64) : List (Nat × W64) :=
  ((List.range 64).filter fun i => q.getLsbD i).map fun i => (i, f i)

/-- A bundle that needs a reserved bank for its scratchpad accesses is held at issue (03 R64). -/
def State.needBanks (s : State) (ps : List Place) : State :=
  let xs := ps.filterMap fun p => match p.loc with | .spad o off => some (o, bankBits off 1) | .phys _ => none
  if s.busyOf xs then s.holdFor (.bank xs) else s

/-- The bundle translates addresses, which its TLBs then hold (12 R232). -/
def State.touch (s : State) (vas : List W64) : State := s.setIss { s.iss with touched := s.iss.touched ++ vas.filter isGlobal }

/-- The lanes of a vector access of 256 bytes: past the top of the address space a lane lies outside every window (00 R13, 05 R94). -/
def State.lanesFrom (s : State) (t : StrandId) (va k : W64) (n : Need) : Except AddrFault (List (Nat × Place)) :=
  let xs := activeLanes k fun i => va + BitVec.ofNat 64 (4 * i)
  match xs with
  | x :: _ => if 2 ^ 64 < va.toNat + 256 then .error (causeBounds, 0, x.2) else s.lanes t xs 4 n
  | [] => .ok []

/-! ## Loads (R95, R99 to R101, R108) -/

/-- A byte of a load as its bundle issues: from the youngest held store of the region, or store withheld for lockstep (22 R363),
that covers it, unless its frame is mapped in two ways (21 R339); a byte of the strand's own core is read at once; any other waits for its
moment (R95, R108, 14 R244). -/
def State.loadByte (s : State) (p : Place) : LByte :=
  match (if s.mixedAt p then none else heldByte (s.cur.withheld ++ s.cur.heldStores) p.loc) with
  | some b => .got b false
  | none =>
    match p.loc with
    | .spad o _ =>
      if o = s.turn.coreId.key then (match s.view s.turn s.seq p with | some (b, q, _) => .got b q | none => .at_ p) else .at_ p
    | .phys _ => .at_ p

/-- The youngest of a list of stores that covers a location, by its place in the list. -/
def heldAt (hs : List Held) (l : Loc) : Option Nat :=
  (List.range hs.length).reverse.find? fun n => (heldByte ((hs[n]?).toList) l).isSome

/-- Whether a piece of a load (by lane, or as a whole, of n bytes from each place on) would take some of its bytes from a store that lockstep
withholds and others from elsewhere: it is read as one action (14 R241, R245). What the open region holds counts for neither (05 R108). -/
def State.tears (s : State) (f : LoadForm) (ps : List (Nat × Place)) (n : Nat) : Bool :=
  let out := s.cur.withheld
  let xs := (ps.flatMap fun x => (List.range n).map fun j => (f.piece (n * x.1 + j), (x.2.plus j).loc)).filter fun x =>
    (heldByte s.cur.heldStores x.2).isNone
  !out.isEmpty && xs.any fun x => xs.any fun y => x.1 == y.1 && heldAt out x.2 != heldAt out y.2

/-- A load of which a piece would be torn is held until the withheld stores are confirmed (14 R245, 22 R363; DESIGN CHOICE, log 38). -/
def State.untorn (s : State) (f : LoadForm) (ps : List (Nat × Place)) (n : Nat) : State :=
  if s.tears f ps n then s.holdFor .lockstep else s

/-- A load that forwards from a held entry whose check fails makes its bundle a detection (22 R356). -/
def State.forwards (s : State) (ps : List Place) (n : Nat) : State :=
  match s.cur.region with
  | none => s
  | some r => if ps.any fun p => badForward r.held p n then s.setIss { s.iss with bad := true } else s

/-- n bytes of a load from a place on. -/
def State.loadBytes (s : State) (p : Place) (n : Nat) : List LByte := (List.range n).map fun i => s.loadByte (p.plus i)

/-- An interlocked operation of the bundle being issued is pending (03 R58). -/
def State.pending (s : State) (tg : Tgt) (op : POp) (v : Option (Dat × Bool)) (acq : Bool) : State :=
  let (n, s1) := s.fresh
  let st := s1.cur
  s1.setCur { st with pend := st.pend ++ [⟨n, tg, st.step, op, v, acq⟩] }

/-- A load: exposed with a latency through the local window, interlocked otherwise (R95). -/
def State.load (s : State) (tg : Tgt) (f : LoadForm) (bs : List LByte) (exposed : Option Nat) : State :=
  match exposed with
  | some lat => let v := loadValue f bs; s.resultP tg v.1 lat v.2
  | none => s.pending tg (.load f bs) (if allRead bs then some (loadValue f bs) else none) false

/-- The scalar loads (R92, R99). -/
def State.loadG (s : State) (d a : Reg) (i : BitVec 9) (size : Nat) (signed : Bool) : State :=
  let va := ea (s.cur.rg a) i size
  match s.access s.turn va size needR with
  | .error (cause, sub, faddr) => s.faultAt cause sub faddr
  | .ok p => ((((s.touch [va]).needBanks [p]).forwards [p] size).untorn (.scalar size signed) [(0, p)] size).load (.g d) (.scalar size signed) (s.loadBytes p size) (if isLocal va then some 3 else none)

def execLdbI (d a : Reg) (i : BitVec 9) (s : State) : Out := .next (s.loadG d a i 1 true)
def execLdbN (d a : Reg) (i : BitVec 9) (s : State) : Out := .next (s.loadG d a i 1 false)
def execLdhI (d a : Reg) (i : BitVec 9) (s : State) : Out := .next (s.loadG d a i 2 true)
def execLdhN (d a : Reg) (i : BitVec 9) (s : State) : Out := .next (s.loadG d a i 2 false)
def execLdwI (d a : Reg) (i : BitVec 9) (s : State) : Out := .next (s.loadG d a i 4 true)
def execLdwN (d a : Reg) (i : BitVec 9) (s : State) : Out := .next (s.loadG d a i 4 false)
def execLdd (d a : Reg) (i : BitVec 9) (s : State) : Out := .next (s.loadG d a i 8 false)

/-- The bytes of a vector load by lane: 0 for an inactive lane. -/
def State.laneBytes (s : State) (ps : List (Nat × Place)) : List LByte :=
  (List.range 64).flatMap fun i =>
    match tget ps i with
    | some p => s.loadBytes p 4
    | none => List.replicate 4 .zero

/-- vld: 256 bytes, checks on the active lanes alone (R100). -/
def State.loadV (s : State) (d a : Reg) (i : BitVec 9) (q : PReg) : State :=
  let va := ea (s.cur.rg a) i 32
  let k := s.cur.rk q.toNat
  let exposed := if isLocal va then some 5 else none
  if k = 0 then s.load (.v d) .vector (s.laneBytes []) exposed
  else if va.toNat % 32 ≠ 0 then s.faultAt causeAlign 0 va
  else
    match s.lanesFrom s.turn va k needR with
    | .error (cause, sub, faddr) => s.faultAt cause sub faddr
    | .ok ps =>
      ((((s.touch [va, va + 252]).needBanks (ps.map (·.2))).forwards (ps.map (·.2)) 4).untorn .vector ps 4).load (.v d) .vector
        (s.laneBytes ps) exposed

def execVld (d a : Reg) (i : BitVec 9) (q : PReg) (s : State) : Out := .next (s.loadV d a i q)

/-- Address of a lane of a gather or scatter (R101). -/
def laneAddr (base : W64) (b : VReg) (i : Nat) : W64 := base + (lane b i).signExtend 64

/-- vldg: one word per active lane, interlocked in every window (R101). -/
def State.gather (s : State) (d a b : Reg) (q : PReg) : State :=
  let xs := activeLanes (s.cur.rk q.toNat) (laneAddr (s.cur.rg a) (s.cur.rv b))
  match s.lanes s.turn xs 4 needR with
  | .error (cause, sub, faddr) => s.faultAt cause sub faddr
  | .ok ps =>
    ((((s.touch (xs.map (·.2))).needBanks (ps.map (·.2))).forwards (ps.map (·.2)) 4).untorn .gather ps 4).load (.v d) .gather
      (s.laneBytes ps) none

def execVldg (d a b : Reg) (q : PReg) (s : State) : Out := .next (s.gather d a b q)

/-! ## Stores (R99 to R101) -/

/-- Stores join the bundle. -/
def State.addStores (s : State) (xs : List StoreAt) : State := s.setIss { s.iss with stores := s.iss.stores ++ xs }

/-- The scalar stores: the d field is the data (R92, R99). -/
def State.storeG (s : State) (d a : Reg) (i : BitVec 9) (size : Nat) : State :=
  let va := ea (s.cur.rg a) i size
  match s.access s.turn va size needW with
  | .error (cause, sub, faddr) => s.faultAt cause sub faddr
  | .ok p => ((s.touch [va]).needBanks [p]).addStores [⟨va, p, withOffsets (leBytes size (s.cur.rg d).toNat), 0, s.iss.pos⟩]

def execStb (d a : Reg) (i : BitVec 9) (s : State) : Out := .next (s.storeG d a i 1)
def execSth (d a : Reg) (i : BitVec 9) (s : State) : Out := .next (s.storeG d a i 2)
def execStw (d a : Reg) (i : BitVec 9) (s : State) : Out := .next (s.storeG d a i 4)
def execStd (d a : Reg) (i : BitVec 9) (s : State) : Out := .next (s.storeG d a i 8)

/-- Size of the largest aligned block of at most 64 bytes around chunk c of a vst that its active lanes cover whole (22 R355). -/
def blockCovered (q : W64) (va : W64) (c : Nat) : Nat :=
  let first := fun n => (va.toNat + 16 * c) / n * n
  let full := fun n => (List.range (n / 4)).all fun j =>
    decide (va.toNat ≤ first n + 4 * j) && q.getLsbD ((first n + 4 * j - va.toNat) / 4) && decide (first n + 4 * j < va.toNat + 256)
  if full 64 then 64 else if full 32 then 32 else 0

/-- A vst at a position as its chunks of 16 bytes with an active lane (R100, R108): each is written as one action (14 R245). -/
def vstChunks (va : W64) (q : W64) (x : VReg) (ps : List (Nat × Place)) (pos : Nat) : List StoreAt :=
  (List.range 16).filterMap fun c =>
    let ls := (List.range 4).filter fun j => q.getLsbD (4 * c + j)
    match ls with
    | [] => none
    | j0 :: _ =>
      (tget ps (4 * c + j0)).map fun p =>
        ⟨va + BitVec.ofNat 64 (16 * c + 4 * j0), p,
          ls.flatMap fun j =>
            (withOffsets (leBytes 4 (lane x (4 * c + j)).toNat)).map fun b => (4 * (j - j0) + b.1, b.2),
          blockCovered q va c, pos⟩

/-- vst (R100). -/
def State.storeV (s : State) (d a : Reg) (i : BitVec 9) (q : PReg) : State :=
  let va := ea (s.cur.rg a) i 32
  let k := s.cur.rk q.toNat
  if k = 0 then s
  else if va.toNat % 32 ≠ 0 then s.faultAt causeAlign 0 va
  else
    match s.lanesFrom s.turn va k needW with
    | .error (cause, sub, faddr) => s.faultAt cause sub faddr
    | .ok ps => ((s.touch [va, va + 252]).needBanks (ps.map (·.2))).addStores (vstChunks va k (s.cur.rv d) ps s.iss.pos)

def execVst (d a : Reg) (i : BitVec 9) (q : PReg) (s : State) : Out := .next (s.storeV d a i q)

/-- vsts: one store per active lane in increasing lane order (R101). -/
def State.scatter (s : State) (d a b : Reg) (q : PReg) : State :=
  let base := s.cur.rg a
  let xs := activeLanes (s.cur.rk q.toNat) (laneAddr base (s.cur.rv b))
  match s.lanes s.turn xs 4 needW with
  | .error (cause, sub, faddr) => s.faultAt cause sub faddr
  | .ok ps =>
    ((s.touch (xs.map (·.2))).needBanks (ps.map (·.2))).addStores (ps.map fun x =>
      ⟨laneAddr base (s.cur.rv b) x.1, x.2, withOffsets (leBytes 4 (lane (s.cur.rv d) x.1).toNat), 0, s.iss.pos⟩)

def execVsts (d a b : Reg) (q : PReg) (s : State) : Out := .next (s.scatter d a b q)

/-! ## Hints (R102 to R104) -/

/-- The lease length of a fill at time `now` (20 R319). -/
def leaseLength (d : Die) (line : Nat) (ro : Bool) (now : Nat) : Nat :=
  if (match tget d.written line with | some w => decide (now ≤ w + 8000) | none => false) then d.lhot
  else if ro then d.lro else d.lord

/-- A slice of die d holds a copy of a line it can serve, its own home's copy made when it has none (20 R332). -/
def State.sliceCopy (s : State) (d : DieId) (line : Nat) : Option L2Line :=
  match tget (s.die d).l2 line with
  | some x => if x.st = .I then none else some x
  | none =>
    if homeDie (line * 128) = d ∧ s.homeCurrent line ∧ (tget (s.die d).txns line).isNone then
      let (data, poison) := s.homeLine line
      some ⟨if (tget (s.die d).dir line).isNone then .E else .S, data, poison, [], 0, none⟩
    else none

/-- A cluster cache of 2,048 lines in sets of 16 ways (00 R2), numbered by the line's address, drops a line of a full set before it takes
another; which one, the manual leaves open (DESIGN CHOICE, log 13). -/
def State.roomFor (s : State) (l : ClusterId) (line : Nat) : State :=
  let c := s.cluster l
  let mine := c.cache.filter fun x => x.1 % 128 == line % 128
  if mine.length < 16 ∨ (tget c.cache line).isSome then s
  else
    match mine[Config.choice s.tick % mine.length]? with
    | some x => s.dropCopy l x.1
    | none => s

/-- A cluster cache takes the sector of a byte from a line of its slice, under a lease that begins now (20 R319). -/
def State.fillFrom (s : State) (l : ClusterId) (pa : Nat) (ro : Bool) (x : L2Line) : State :=
  let line := lineOf pa
  let lend := s.now + leaseLength (s.die l.die) line ro s.now
  let s1 := (s.roomFor l line).setLine l.die line { x with holders := nsInsert x.holders l.cluster.val, lend := max x.lend lend }
  let c := s1.cluster l
  let bit := 1#4 <<< (pa % 128 / 32)
  let old := (tget c.cache line).getD ⟨List.replicate 128 0, 0, 0, 0⟩
  let data := (List.range 128).map fun i => if i / 32 = pa % 128 / 32 then x.data.getD i 0 else old.data.getD i 0
  let row : CacheLine := ⟨data, old.sectors ||| bit, (old.poison &&& ~~~bit) ||| (x.poison &&& bit), lend⟩
  s1.setCluster l { c with cache := tset c.cache line row }

/-- A slice fills a cluster cache with the sector of a byte, under a lease (20 R319 to R321, R327), unless its set has no room for the
line; without a copy the line is asked for. A line whose own lease has ended is dropped first (R320). -/
def State.fillLine (s : State) (l : ClusterId) (pa : Nat) (ro : Bool) : State :=
  let line := lineOf pa
  if s.lineWaits l.die line then s
  else
    let s0 := s.dropStale l pa
    match s0.sliceCopy l.die line with
    | none => s0.request l.die line .shared
    | some _ =>
      if (s0.die l.die).dieOff || (s0.cluster l).blind || (s0.cluster l).stopped then s0
      else
        match s0.makeRoom l.die line with
        | none => s0
        | some s1 => (match s1.sliceCopy l.die line with | some x => s1.fillFrom l pa ro x | none => s1)

/-- A slice fills a cluster cache with the four sectors of a line (R102). -/
def State.fillWhole (s : State) (l : ClusterId) (line : Nat) (ro : Bool) : State :=
  (List.range 4).foldl (fun s i => s.fillLine l (line * 128 + 32 * i) ro) s

/-- A hint is dropped and counted (R104). -/
def State.dropHint (s : State) (n : Nat) : State := s.setIss { s.iss with drops := s.iss.drops + n }

/-- A line is brought into the die's L2, if its set has room, and takes what a hint wants of it; without a copy on the die it is asked
for, and takes it as it comes (R102). -/
def State.bring (s : State) (d : DieId) (line : Nat) (here : State → L2Line → State) (wish : Outstanding → Outstanding) : State :=
  match s.makeRoom d line with
  | none => s
  | some s1 =>
    match s1.sliceCopy d line with
    | some x => here (s1.setLine d line x) x
    | none => (s1.request d line .shared).wish d line wish

/-- pref (R102, R104). A memory-side page without read permission is counted, an uncached page or one of a failed home is left alone and not
counted (DESIGN CHOICE, log 64). -/
def State.prefetch (s : State) (va : W64) : State :=
  match windowOf va with
  | .none => s.dropHint 1
  | .global =>
    let b := s.bindOf s.turn.ctxId
    (match s.leafFor s.turn.clusterId b.asid b.gen va.toNat with
     | .fail _ _ => s.dropHint 1
     | .leaf e =>
       if !pteR e then s.dropHint 1
       else
         let p := leafPlace e va
         let line := lineOf (leafPa e va.toNat)
         if !p.cacheable || s.lostAt (leafPa e va.toNat) then s
         else if pteCp e ≠ 0 then s.bring s.turn.die line (fun s _ => s) id
         else
           s.bring s.turn.die line (fun s _ => s.fillWhole s.turn.clusterId line p.ro) fun o =>
             { o with fills := (s.turn.cluster, p.ro) :: o.fills })
  | _ => s

def execPref (a : Reg) (s : State) : Out := .next (s.prefetch (s.cur.rg a))

/-- Lines of a slice that are retained (R103). -/
def retainedIn (d : Die) (slice : Nat) : Nat :=
  (d.l2.filter fun x => x.1 % 16 == slice && x.2.retained.isSome).length

/-- A line that a hint retains for a gang: not where its slice retains half of its lines already (R103). A
line that another gang had reserved changes hands (DESIGN CHOICE, log 52). -/
def State.retained (s : State) (d : DieId) (gang line : Nat) (x : L2Line) : L2Line :=
  if retainedIn (s.die d) (line % 16) < 12288 then { x with retained := some gang } else x

/-- A line is brought into the die's L2 and, with room in its slice, retained for the gang (R102, R103). -/
def State.retain (s : State) (d : DieId) (gang line : Nat) : State :=
  s.bring d line (fun s x => s.setLine d line (s.retained d gang line x)) fun o => { o with retain := some gang }

/-- res over the part [va, stop) of the global window in address order (R102, R104): `fuel` bounds the pages and regions that
remain. A walk that fails at no level, for a stale generation, is counted for each 64 KiB; uncached pages and those of a failed home are
left alone and not counted (DESIGN CHOICE, log 64). -/
def State.reserve (s : State) (va stop : Nat) (fuel : Nat) : State :=
  match fuel with
  | 0 => s
  | k + 1 =>
    if stop ≤ va then s
    else
      let b := s.bindOf s.turn.ctxId
      match s.leafFor s.turn.clusterId b.asid b.gen va with
      | .fail _ level =>
        let size := if level = 0 then 2 ^ 16 else 2 ^ (12 + 9 * level)
        (s.dropHint 1).reserve (va / size * size + size) stop k
      | .leaf e =>
        let size := 2 ^ pageBits (pteSz e)
        let next := va / size * size + size
        let s1 :=
          if !pteR e then s.dropHint 1
          else if pteMs e || pteCp e == 2 || s.lostAt (leafPa e va) then s
          else
            let lo := lineOf (leafPa e va)
            let hi := lineOf (leafPa e va + (min stop next - va) - 1)
            (List.range (hi + 1 - lo)).foldl (fun s i => s.retain s.turn.die b.gang.toNat (lo + i)) s
        s1.reserve next stop k

/-- Whether some byte of [va, stop) lies outside every window. -/
def reachesOutside (va stop : Nat) : Bool :=
  (decide (va < 0x100000) && decide (0x80000 < stop)) || (decide (va < 0x100000000) && decide (0x300000 < stop)) || decide (2 ^ 57 < stop)

/-- res (R102, R104): the length is clamped to 16 MiB; a range that reaches outside every window is counted once. -/
def execRes (a b : Reg) (s : State) : Out :=
  let va := (s.cur.rg a).toNat
  let n := min (s.cur.rg b).toNat (16 * 2 ^ 20)
  let s1 := if decide (0 < n) && reachesOutside va (va + n) then s.dropHint 1 else s
  .next (s1.reserve (max va 0x100000000) (min (va + n) (2 ^ 57)) 300)

/-! ## Cache range operations (R105 to R107) -/

/-- The lines of a range, page by page, as intervals, or XLATE of its first bad page (R105). Pages of a failed home have no lines any more. -/
def State.rangeLines (s : State) (t : StrandId) (va stop : Nat) (fuel : Nat) : Except AddrFault (List (Nat × Nat)) :=
  match fuel with
  | 0 => .ok []
  | k + 1 =>
    if stop ≤ va then .ok []
    else
      let b := s.bindOf t.ctxId
      match leafOk (s.leafFor t.clusterId b.asid b.gen va) (BitVec.ofNat 64 va) needR with
      | .error e => .error e
      | .ok e =>
        let pa := leafPa e va
        let next := va / 2 ^ 16 * 2 ^ 16 + 2 ^ 16
        match s.rangeLines t next stop k with
        | .error e => .error e
        | .ok r => .ok (if s.lostAt pa then r else (lineOf pa, lineOf (pa + (min stop next - va) - 1) + 1) :: r)

/-- Whether a line lies in a list of intervals. -/
def inLines (ls : List (Nat × Nat)) (line : Nat) : Bool := ls.any fun x => decide (x.1 ≤ line ∧ line < x.2)

/-- The issuing cluster's copies of the lines are dropped and their leases returned (R107). -/
def State.dropLines (s : State) (l : ClusterId) (ls : List (Nat × Nat)) : State :=
  (s.cluster l).cache.foldl (fun s x => if inLines ls x.1 then s.dropCopy l x.1 else s) s

/-- cop.wb and cop.inv: the checks, the drop of the cluster's copies for cop.inv, then the wait for the range operation (R105, R107).
FADDR for too great a length is ga (DESIGN CHOICE, log 82). -/
def State.cop (s : State) (wb : Bool) (a b : Reg) : State :=
  let va := s.cur.rg a
  let n := (s.cur.rg b).toNat
  if n = 0 then s
  else if n > 2 ^ 30 then s.faultAt causeBounds 0 va
  else if !isGlobal va then s.faultAt causeBounds 0 va
  else if va.toNat + n > 2 ^ 57 then s.faultAt causeBounds 0 (BitVec.ofNat 64 (2 ^ 57))
  else
    match s.rangeLines s.turn va.toNat (va.toNat + n) 16386 with
    | .error (cause, sub, faddr) => s.faultAt cause sub faddr
    | .ok ls =>
      let (n, s1) := (if wb then s else s.dropLines s.turn.clusterId ls).fresh
      s1.setCur { s1.cur with range := some (wb, ls, n) }

def execCopWb (a b : Reg) (s : State) : Out := .next (s.cop true a b)
def execCopInv (a b : Reg) (s : State) : Out := .next (s.cop false a b)

/-- Whether the strand's stores before the range operation, to its lines, are performed (R106). -/
def State.rangeStored (s : State) (t : StrandId) (ls : List (Nat × Nat)) (mark : Nat) : Bool :=
  s.writes.all fun w => !(w.strand == t.key && decide (w.seq < mark) &&
    (match w.at_.loc with | .phys pa => inLines ls (lineOf pa) | .spad _ _ => false))

/-- Whether data of the lines is on its way: in a message, a write-back buffer or a slice that has not taken it yet (R106). -/
def State.rangeMoves (s : State) (ls : List (Nat × Nat)) : Bool :=
  (s.msgs.any fun m => inLines ls m.line && m.data.isSome) ||
    allDies.any fun d =>
      ((s.die d).mshr.any fun x => inLines ls x.1 && x.2.data.isSome) || ((s.die d).owed.any fun o => inLines ls o.line && o.wb.isSome) ||
        (s.die d).wbuf.any fun x => inLines ls x.1

/-- A line whose retention for a gang a range operation of that gang ends (R103). -/
def L2Line.released (x : L2Line) (gang : Nat) : L2Line := if x.retained = some gang then { x with retained := none } else x

/-- Every dirty L2 copy of the lines on a die is written to HBM and left clean: M becomes E, O becomes S (R106). Lines of a failed home wait
for the salvage (20 R336). -/
def State.writeBackOn (s : State) (ls : List (Nat × Nat)) (gang : Nat) (d : DieId) : State :=
  (s.die d).l2.foldl (fun s x =>
    if !inLines ls x.1 || s.lostAt (128 * x.1) then s
    else if x.2.st = .M ∨ x.2.st = .O then
      (s.lineToHbm x.1 x.2.data x.2.poison).setLine d x.1 { x.2.released gang with st := if x.2.st = .M then .E else .S }
    else s.setLine d x.1 (x.2.released gang)) s

/-- The issuing die's copies of lines homed elsewhere are removed: a dirty one is written to its home, and the home's
directory records the removal (R107). Lines of a failed home wait for the salvage (20 R336). -/
def State.removeRemote (s : State) (d : DieId) (gang : Nat) (ls : List (Nat × Nat)) : State :=
  (s.die d).l2.foldl (fun s x =>
    let h := homeDie (x.1 * 128)
    if !inLines ls x.1 || s.lostAt (128 * x.1) then s
    else if h = d then s.setLine d x.1 (x.2.released gang)
    else if x.2.st = .I then s
    else
      let s1 := if x.2.st = .M ∨ x.2.st = .O then s.lineToHbm x.1 x.2.data x.2.poison else s
      let s2 := s1.setDie d { s1.die d with l2 := terase (s1.die d).l2 x.1 }
      let hd := s2.die h
      match tget hd.dir x.1 with
      | none => s2
      | some e =>
        let sharers := e.sharers &&& ~~~(1#4 <<< d.val)
        let e' : DirEntry := if e.owner = d ∧ e.st ≠ .S then { e with st := .S, sharers := sharers } else { e with sharers := sharers }
        s2.setDie h { hd with dir := if sharers = 0 ∧ e'.st = .S then terase hd.dir x.1 else tset hd.dir x.1 e' }) s

/-- Whether no cluster of the die holds a running lease on a copy that cop.inv removes (R107, 20 R330; DESIGN CHOICE, log 13). -/
def State.removable (s : State) (l : ClusterId) (ls : List (Nat × Nat)) : Bool :=
  (s.die l.die).l2.all fun x =>
    !inLines ls x.1 || homeDie (x.1 * 128) == l.die ||
      !s.lineBusy x.1 && s.leasesOver l.die x.2

/-- A range operation completes and its strand goes on (R105 to R107). -/
def execCacheRangeOperationComplete (t : StrandId) (s : State) : Out :=
  match (s.strand t).range with
  | none => .next s
  | some (wb, ls, mark) =>
    let gang := (s.bindOf t.ctxId).gang.toNat
    if wb then
      if s.rangeStored t ls mark && !s.rangeMoves ls then
        let s1 := allDies.foldl (fun s d => s.writeBackOn ls gang d) s
        .next (s1.setStrand t { s1.strand t with range := none })
      else .next s
    else if s.removable t.clusterId ls then
      let s1 := s.removeRemote t.die gang ls
      .next (s1.setStrand t { s1.strand t with range := none })
    else .next s

end Sys2Proof.Machine
end

