-- ==== Sys2Proof/Machine/Matrix.lean ====
section
/-! DEFINITION. The X class: the matrix unit of a core (11 R195 to R208, 09 R157 to R174), its array and the banks of the
scratchpad (03 R64). -/

namespace Sys2Proof.Machine

/-! ## Rows and images (09 R163, R164; 11 R205) -/

/-- Row length of a format code under %fmt (R163). -/
def rowBytes (f : W32) (code : Nat) : Nat :=
  match code with
  | 0 => 80
  | 1 => 144
  | 2 => 144
  | 3 => 256
  | 4 => 256
  | _ => if fmtQW f then 64 else 128

/-- Bits of an element of a format code. -/
def elemBits (f : W32) (code : Nat) : Nat :=
  match code with
  | 0 => 4
  | 1 => 8
  | 2 => 8
  | 3 => 16
  | 4 => 16
  | _ => narrowBits f

/-- Twice ρ of a format code (03 R57). -/
def twiceRho (f : W32) (code : Nat) : Nat := 16 / elemBits f code

/-- Byte i of a row. -/
def rowByte (row : ByteRow) (i : Nat) : Nat := (row.extractLsb' (8 * i) 8).toNat

/-- Code of element k in elements of w bits. -/
def rowCode (row : ByteRow) (w k : Nat) : Nat := (row.toNat >>> (w * k)) % 2 ^ w

/-- The value of a code with the scale and header bytes of its block, which lie from byte `base` on (R157 to R160). -/
def elemValue (f : W32) (code c : Nat) (row : ByteRow) (base k : Nat) : Fp :=
  match code with
  | 0 => decF4x c (rowByte row (base + 2 * (k / 32))) (rowByte row (base + 2 * (k / 32) + 1))
  | 1 => if rowByte row (base + k / 32) = 255 then .nan else (e4m3.decode c).scale (rowByte row (base + k / 32))
  | 2 => if rowByte row (base + k / 32) = 255 then .nan else (e5m2.decode c).scale (rowByte row (base + k / 32))
  | 3 => bf16.decode c
  | 4 => fp16.decode c
  | _ => fpOfInt (narrowValue f c) 0

/-- Element k of a dense row as a value (R163). -/
def denseElem (f : W32) (code : Nat) (row : ByteRow) (k : Nat) : Fp :=
  elemValue f code (rowCode row (elemBits f code) k) row (16 * elemBits f code) k

/-- The code that stands at element k after the expansion of a 2:4-compressed row (R205). -/
def expandCode (f : W32) (code : Nat) (row : ByteRow) (k : Nat) : Nat :=
  let w := elemBits f code
  let g := k / 4
  let m := rowByte row (8 * w + g / 2) / 16 ^ (g % 2) % 16
  if m / 4 = k % 4 then rowCode row w (2 * g + 1)
  else if m % 4 = k % 4 then rowCode row w (2 * g)
  else 0

/-- Element k of an expanded 2:4-compressed row as a value (R205, R174). -/
def sparseElem (f : W32) (code : Nat) (row : ByteRow) (k : Nat) : Fp :=
  elemValue f code (expandCode f code row k) row (8 * elemBits f code + 16) k

/-! ## The product (09 R171, R172) -/

/-- The exact sum of the products of one block of 32 elements; NaN as R172 says. -/
def blockSum (as ws : List Fp) : Fp :=
  (as.zip ws).foldl (fun acc x => acc.add (x.1.mul x.2) 0) (.fin false 0 0)

/-- A block sum with a zero taken as +0. -/
def plusZero (p : Fp) : Fp := match p with | .fin _ m e => if m = 0 then .fin false 0 0 else .fin (p.isNeg) m e | x => x

/-- One element of the result: four blocks added in order to the old value, each sum rounded to FP32 (R171). A NaN of R172
stays a NaN through every later sum, and is the canonical one when encoded. -/
def mmaElem (as ws : List Fp) (c : W32) : W32 :=
  (List.range 4).foldl (fun c b =>
    toF32 rne ((f32 c).add (plusZero (blockSum ((as.drop (32 * b)).take 32) ((ws.drop (32 * b)).take 32))) 0)) c

/-- An accumulator row from its 128 columns. -/
def accOf (f : Nat → W32) : AccRow :=
  BitVec.ofNat 4096 ((List.range 128).foldr (fun n acc => (f n).toNat + 2 ^ 32 * acc) 0)

/-- Column n of an accumulator row. -/
def accLane (r : AccRow) (n : Nat) : W32 := r.extractLsb' (32 * n) 32

/-! ## Addresses and holds (R196 to R198) -/

/-- A range of the local window of n bytes: its offset in the scratchpad, or ALIGN or BOUNDS at the first byte that fails. -/
def State.matrixRange (s : State) (va : W64) (n align : Nat) : Except AddrFault Nat :=
  let b := s.bindOf s.turn.ctxId
  if va.toNat % align ≠ 0 then .error (causeAlign, 0, va)
  else if !isLocal va || decide (b.partBytes ≤ va.toNat) then .error (causeBounds, 0, va)
  else if b.partBytes < va.toNat + n then .error (causeBounds, 0, BitVec.ofNat 64 b.partBytes)
  else .ok ((b.partBase + va.toNat) % 0x80000)

/-- A matrix syllable with its range resolved and its banks free; array work waits for the array (R64, R198). -/
def State.onRange (s : State) (va : W64) (n align : Nat) (array : Bool) (f : Nat → State → State) : State :=
  match s.matrixRange va n align with
  | .error (cause, sub, faddr) => s.faultAt cause sub faddr
  | .ok off =>
    if array && (s.core s.turn.coreId).arrayBusy then (s.checked (f off)).holdFor .array
    else if s.bankBusy s.turn.coreId.key (bankBits off n) then (s.checked (f off)).holdFor (.bank [(s.turn.coreId.key, bankBits off n)])
    else f off s

/-- n bytes of the strand's scratchpad as a row, with the poison of any of them: as they stand at issue, also those that another agent
writes while the operation runs (R197 allows old or new; DESIGN CHOICE, log 61). -/
def State.rowAt (s : State) (off n : Nat) : ByteRow × Bool :=
  (BitVec.ofNat 2048 (leNat (s.ownBytes off n)), (List.range n).any fun i => (s.ownByte (off + i)).2)

/-- The array begins work on banks it holds. -/
def State.workArray (s : State) (banks : BitVec 32) : State :=
  let s1 := s.setCore s.turn.coreId { s.core s.turn.coreId with arrayBusy := true }
  s1.reserveBanks s.turn.coreId banks true

/-! ## The syllables -/

/-- fmt writes %fmt for operations two steps later (R201, 09 R162). -/
def execFmt (a : Reg) (s : State) : Out :=
  .next (s.matrixOnly fun s => s.result .fmt (.fmt (fmtStored ((s.cur.rg a).setWidth 32))) 2)

/-- mlatch loads an image of 128 rows into a latch (R202). -/
def State.loadLatch (s : State) (a : Reg) (w : Fin 4) : State :=
  let rb := rowBytes s.cur.fmt (fmtWF s.cur.fmt)
  s.onRange (s.cur.rg a) (128 * rb) 64 true fun off s =>
    (s.workArray (bankBits off (128 * rb))).result (.latch w) (.rows ((List.range 128).map fun i => s.rowAt (off + i * rb) rb) 0) 20

def execMlatch (a : Reg) (w : BitVec 2) (s : State) : Out := .next (s.matrixOnly fun s => s.loadLatch a w.toFin)

/-- The rows that a gather names, in increasing lane order: their offsets, or the fault of the lowest lane that fails (R196,
R203). The sum is exact (00 R13): one of 2^64 or more lies outside every window. -/
def State.gatherRows (s : State) (base : W64) (v : VReg) (rb : Nat) (ls : List Nat) : Except AddrFault (List Nat) :=
  match ls with
  | [] => .ok []
  | i :: r =>
    let at_ := base.toNat + (lane v i).toNat * rb
    let va := BitVec.ofNat 64 at_
    match (if 2 ^ 64 ≤ at_ then .error (causeBounds, 0, va) else s.matrixRange va rb 1) with
    | .error _ => .error (causeBounds, 0, va)
    | .ok off =>
      match s.gatherRows base v rb r with
      | .error e => .error e
      | .ok xs => .ok (off :: xs)

/-- mgather fills a stage with the rows of the active lanes (R203). FADDR is the first byte of the lowest failing lane's row (R196). -/
def State.gatherStage (s : State) (c a : Reg) (q : PReg) (t : Fin 2) : State :=
  let rb := rowBytes s.cur.fmt (fmtAF s.cur.fmt)
  let k := s.cur.rk q.toNat
  let ls := (List.range 64).filter fun i => k.getLsbD i
  let base := s.cur.rg a
  if !ls.isEmpty && decide (base.toNat % 16 ≠ 0) then
    s.faultAt causeAlign 0 (base + BitVec.ofNat 64 ((lane (s.cur.rv c) (ls.headD 0)).toNat * rb))
  else
    match s.gatherRows base (s.cur.rv c) rb ls with
    | .error (cause, sub, faddr) => s.faultAt cause sub faddr
    | .ok offs =>
      let banks := offs.foldl (fun m off => m ||| bankBits off rb) 0
      if s.bankBusy s.turn.coreId.key banks then s.holdFor (.bank [(s.turn.coreId.key, banks)])
      else
        let s1 := if banks = 0 then s else s.reserveBanks s.turn.coreId banks false
        s1.result (.stage t) (.rows (offs.map fun off => s.rowAt off rb) banks) (8 + (offs.length + 15) / 16)

def execMgather (c a : Reg) (q : PReg) (t : BitVec 1) (s : State) : Out :=
  .next (s.matrixOnly fun s => s.gatherStage c a q t.toFin)

/-- The first number of a list that is a member of a set below a bound. -/
def anyBelow (m : NatSet) (n : Nat) : Bool := m.any fun x => decide (x < n)

/-- The poisoned rows that a multiply reads, each part of the matrix unit once (R199): of the latch, of the stage, and of the
accumulator when its old rows are added to (03 R61; DEDUCED, log 62). Of several, FADDR names the latch before the stage and the stage
before the accumulator: 12 R222 does not say which (DESIGN CHOICE, log 21). -/
def State.poisonedRows (s : State) (w : Fin 4) (z : Bool) (c t : Fin 2) (m : Nat) : State :=
  let o := s.core s.turn.coreId
  if !(o.latchPoison[w.val]).isEmpty then s.poisonAt (BitVec.ofNat 64 (3 * 64 + w.val))
  else if anyBelow (o.stagePoison[t.val]) m then s.poisonAt (BitVec.ofNat 64 (3 * 64 + 4 + t.val))
  else if !z && anyBelow (o.accPoison[c.val]) m then s.poisonAt (BitVec.ofNat 64 (3 * 64 + 6 + c.val))
  else s

/-- mma and mmas (R204): the rows of a stage by the columns of a latch into an accumulator. The rows that land are clean (R199). -/
def State.multiply (s : State) (w : Fin 4) (z : Bool) (c t : Fin 2) (sparse : Bool) : State :=
  let o := s.core s.turn.coreId
  let f := s.cur.fmt
  let m := o.stageRows[t.val]
  let rho := min (twiceRho f (fmtAF f)) (twiceRho f (fmtWF f))
  let occ := if sparse then (m + rho - 1) / rho else (2 * m + rho - 1) / rho
  if o.arrayBusy then (s.poisonedRows w z c t m).holdFor .array
  else if s.bankBusy s.turn.coreId.key (o.stageBanks[t.val]) then (s.poisonedRows w z c t m).holdFor (.bank [(s.turn.coreId.key, o.stageBanks[t.val])])
  else
    let cols := (List.range 128).map fun n =>
      (List.range 128).map fun k =>
        (if sparse then sparseElem else denseElem) f (fmtWF f) ((o.latch[w.val]).getD n 0) k
    let row := fun i =>
      let as := (List.range 128).map fun k => denseElem f (fmtAF f) ((o.stage[t.val]).getD i 0) k
      let old := (o.acc[c.val]).getD i 0
      (accOf fun n => mmaElem as (cols.getD n []) (if z then 0 else accLane old n), false)
    let s1 := s.poisonedRows w z c t m
    (if m = 0 then s1 else s1.workArray (o.stageBanks[t.val])).result (.acc c) (.accRows ((List.range m).map row)) (occ + 18)

def execMma (w : BitVec 2) (z c t : BitVec 1) (s : State) : Out :=
  .next (s.matrixOnly fun s => s.multiply w.toFin (z == 1) c.toFin t.toFin false)
def execMmas (w : BitVec 2) (z c t : BitVec 1) (s : State) : Out :=
  .next (s.matrixOnly fun s => s.multiply w.toFin (z == 1) c.toFin t.toFin true)

/-- The bytes of an accumulator row in a store code (R207). -/
def storeRow (f : W32) (code : Nat) (r : AccRow) : List Byte :=
  match code with
  | 0 => leBytes 512 r.toNat
  | 1 => (List.range 128).flatMap fun n => leBytes 2 (bf16.encode rne false (f32 (accLane r n)))
  | _ =>
    let q := fun n => narrowCode f rne (f32 (accLane r n))
    if fmtQW f then (List.range 64).map fun i => BitVec.ofNat 8 (q (2 * i) + 16 * q (2 * i + 1))
    else (List.range 128).map fun n => BitVec.ofNat 8 (q n)

/-- Row length of a store code. -/
def storeBytes (f : W32) (code : Nat) : Nat :=
  match code with
  | 0 => 512
  | 1 => 256
  | _ => if fmtQW f then 64 else 128

/-- mst stores the 64 rows of an accumulator (R207). -/
def State.storeAcc (s : State) (a : Reg) (code : Nat) (c : Fin 2) : State :=
  let rb := storeBytes s.cur.fmt code
  let va := s.cur.rg a
  s.onRange va (64 * rb) 64 false fun off s =>
    let o := s.core s.turn.coreId
    let s1 := if (o.accPoison[c.val]).isEmpty then s else s.poisonAt (BitVec.ofNat 64 (3 * 64 + 6 + c.val))
    let s2 := s1.reserveBanks s.turn.coreId (bankBits off (64 * rb)) false
    s2.addStores ((List.range 64).map fun m =>
      ⟨va + BitVec.ofNat 64 (m * rb), ⟨.spad s.turn.coreId.key (off + m * rb), false, 0, false⟩,
        withOffsets (storeRow s.cur.fmt code ((o.acc[c.val]).getD m 0)), 0, s.iss.pos⟩)

def execMst (a : Reg) (f : BitVec 4) (c : BitVec 1) (s : State) : Out :=
  if 2 < f.toNat then .next s.illegalEncoding
  else .next (s.matrixOnly fun s => s.storeAcc a f.toNat c.toFin)

/-- The first of n words from a scratchpad offset that differs from its literal. -/
def firstMismatch (ws ls : List W32) (i : Nat) : Option Nat :=
  match ws, ls with
  | w :: r, l :: q => if w = l then firstMismatch r q (i + 1) else some i
  | _, _ => none

/-- The first poisoned byte of n bytes from a scratchpad offset. -/
def State.firstPoison (s : State) (off n : Nat) : Option Nat :=
  ((List.range n).find? fun i => (s.ownByte (off + i)).2)

/-- mkat compares words of the scratchpad with its literals (R208). -/
def State.knownAnswer (s : State) (a : Reg) (n : Nat) : State :=
  let va := s.cur.rg a
  s.onRange va (4 * n) 4 false fun off s =>
    match s.firstPoison off (4 * n) with
    | some i => s.poisonAt (va + BitVec.ofNat 64 i ||| 0x8000000000000000)
    | none =>
      let ws := (List.range n).map fun i =>
        BitVec.ofNat 32 (leNat (s.ownBytes (off + 4 * i) 4))
      match firstMismatch ws s.iss.lits 0 with
      | some i => s.setIss { s.iss with katfail := some (s.iss.pos, va + BitVec.ofNat 64 (4 * i)) }
      | none => s

def execMkat (a : Reg) (n : BitVec 3) (s : State) : Out :=
  .next (s.matrixOnly fun s => s.knownAnswer a (n.toNat + 1))

/-! ## Ends of physical work (03 R64, 11 R198) -/

/-- Named work on scratchpad banks is complete; the banks of array work are freed with the array. -/
def execBankReservationEnd (o : CoreId) (n : Nat) (s : State) : Out :=
  let c := s.core o
  match c.reservations[n]? with
  | none => .next s
  | some r => if r.array then .next s else .next (s.setCore o { c with reservations := c.reservations.eraseIdx n })

/-- The array finishes its work and becomes free. -/
def execArrayWorkComplete (o : CoreId) (s : State) : Out :=
  let c := s.core o
  .next (s.setCore o { c with arrayBusy := false, reservations := c.reservations.filter fun r => !r.array })

end Sys2Proof.Machine
end

