-- ==== Sys2Proof/Machine/Allowance.lean ====
section
/-! DEFINITION. Allowance counters (17 R282 to R298): the six instructions, the tundish at a counter's home, the ladles of the
clusters and the messages between them. A counter is named by the physical address of its line. -/

namespace Sys2Proof.Machine

/-! ## The counter line (R282 to R284) -/

/-- The mark of a tundish's writes in the list of pending writes: no strand's key. -/
def tundishKey : Nat := 65535

/-- The home die of a counter. -/
def ctrHome (ctr : Nat) : DieId := homeDie ctr

/-- A word of the counter line as the home slice holds it, its own pending writes included; of a frame mapped in two ways a free value
(21 R339). -/
def State.ctrWord (s : State) (ctr w : Nat) : Nat :=
  leNat ((List.range 8).map fun i =>
    match (if s.mixed ctr then none else pathByte s.writes tundishKey (ctrHome ctr).val s.seq (.phys (ctr + 8 * w + i))) with
    | some x => x.1
    | none => s.frameByte (ctr + 8 * w + i))

/-- The tundish writes a word of the line as an ordinary write of the home slice (R282). -/
def State.ctrWrite (s : State) (ctr w v : Nat) : State :=
  let (n, s1) := s.fresh
  { s1 with writes := s1.writes ++ [⟨n, tundishKey, (ctrHome ctr).val * 32, ⟨.phys (ctr + 8 * w), false, 1, false⟩, 0,
      withOffsets (leBytes 8 v), 0, true⟩] }

/-- GMAX, THR and the lease in nanoseconds of a CONFIG word (R283). -/
def ctrConfig (c : Nat) : Nat × Nat × Nat :=
  (if c % 2 ^ 16 = 0 then 64 else c % 2 ^ 16, c / 2 ^ 16 % 2 ^ 16,
    match c / 2 ^ 32 % 8 with | 1 => 1000 | 2 => 16000 | 3 => 64000 | _ => 4000)

/-- The entry that a counter without one gets from its line (R283, R284). -/
def State.loadTundish (s : State) (ctr : Nat) : Tundish :=
  let c := ctrConfig (s.ctrWord ctr 1)
  let home := s.ctrWord ctr 2
  { reserve := home % 2 ^ 63, normal := decide (2 ^ 63 ≤ home), gmax := c.1, thr := c.2.1, lease := c.2.2
    holders := [], queue := [], recalling := none, found := false, entering := false, atHome := 0
    lost := s.ctrWord ctr 3, grants := s.ctrWord ctr 4, recalls := s.ctrWord ctr 5, exact := s.ctrWord ctr 6
    fails := s.ctrWord ctr 7, used := s.seq }

/-- A counter's entry, or what it would be loaded as. -/
def State.tundish (s : State) (ctr : Nat) : Tundish :=
  match tget (s.die (ctrHome ctr)).tundish ctr with
  | some x => x
  | none => s.loadTundish ctr

/-- Write a counter's entry. -/
def State.setTundish (s : State) (ctr : Nat) (x : Tundish) : State :=
  s.setDie (ctrHome ctr) { s.die (ctrHome ctr) with tundish := tset (s.die (ctrHome ctr)).tundish ctr x }

/-! ## The ladles (R285, R287, R291) -/

/-- The ladle entry of a cluster, by the cluster's key. -/
def State.ladle (s : State) (k ctr : Nat) : Option LadleEntry := tget (s.cluster (clusterOfKey k)).ladle ctr
/-- Write a ladle entry. -/
def State.setLadle (s : State) (k ctr : Nat) (e : LadleEntry) : State :=
  s.setCluster (clusterOfKey k) { s.cluster (clusterOfKey k) with ladle := tset (s.cluster (clusterOfKey k)).ladle ctr e }
/-- Give up a ladle entry. -/
def State.dropLadle (s : State) (k ctr : Nat) : State :=
  s.setCluster (clusterOfKey k) { s.cluster (clusterOfKey k) with ladle := terase (s.cluster (clusterOfKey k)).ladle ctr }

/-- A message of the allowance network sent. -/
def State.asend (s : State) (m : AMsg) : State := { s with amsgs := s.amsgs ++ [m] }

/-- A ladle returns its whole holding of a counter and gives up the entry. -/
def State.returnLadle (s : State) (k ctr : Nat) : State :=
  match s.ladle k ctr with
  | none => s
  | some e => if e.amount = 0 then s.dropLadle k ctr else (s.dropLadle k ctr).asend (.answer k ctr e.amount e.grantSeq)

/-- The least recently used entry of a ladle. -/
def oldestLadle (xs : Table LadleEntry) : Option Nat :=
  (xs.foldl (fun (acc : Option (Nat × Nat)) x =>
    match acc with
    | none => some (x.1, x.2.used)
    | some (k, u) => if x.2.used < u then some (x.1, x.2.used) else some (k, u)) none).map (·.1)

/-- Room for an entry in a ladle of 64 (R285). -/
def State.ladleRoom (s : State) (k : Nat) : State :=
  if (s.cluster (clusterOfKey k)).ladle.length < 64 then s
  else
    match oldestLadle (s.cluster (clusterOfKey k)).ladle with
    | some c => s.returnLadle k c
    | none => s

/-- Whether a ladle may spend an allowance now (R287, R291). -/
def State.spendable (s : State) (k : Nat) (e : LadleEntry) : Bool :=
  let l := clusterOfKey k
  let c := s.cluster l
  !c.blind && !c.stopped && decide (s.timeAt l + (s.die l.die).guard < e.leaseEnd)

/-! ## The value (R286) -/

/-- The recorded amount of a holder (R292). -/
def Holder.amount (h : Holder) : Nat := h.parts.foldl (fun n x => n + x.2) 0

/-- A return of `a` under grant `g` subtracts from the parts that came up to that grant (R292). -/
def Holder.returned (h : Holder) (g a : Nat) : Holder :=
  let old := h.parts.filter fun x => decide (x.1 ≤ g)
  { h with parts := (g, old.foldl (fun n x => n + x.2) 0 - a) :: h.parts.filter fun x => decide (g < x.1) }

/-- A holding of 0 under grant `g`: what later grants brought stays recorded (R292). -/
def Holder.emptied (h : Holder) (g : Nat) : Holder := { h with parts := h.parts.filter fun x => decide (g < x.1) }

/-- Amounts of a counter that messages carry. -/
def inTransit (ms : List AMsg) (ctr : Nat) : Nat :=
  ms.foldl (fun n m =>
    match m with
    | .grant _ c r _ _ _ => if c = ctr then n + r else n
    | .answer _ c a _ => if c = ctr then n + a else n
    | _ => n) 0

/-- Amounts of a counter that ladles hold. -/
def State.inLadles (s : State) (ctr : Nat) : Nat :=
  s.clusters.foldl (fun n x => match tget x.2.ladle ctr with | some e => n + e.amount | none => n) 0

/-- V, the logical value. -/
def State.ctrValue (s : State) (ctr : Nat) : Nat := (s.tundish ctr).reserve + s.inLadles ctr + inTransit s.amsgs ctr

/-- H: clusters that hold a nonzero allowance or have a request to decrement in the queue. -/
def Tundish.sharers (x : Tundish) : Nat :=
  (((x.holders.filter fun h => h.amount != 0).map (·.cluster) ++ (x.queue.filter fun q => q.kind != .axread).map (·.cluster)).foldl
    nsInsert []).length

/-- T, evaluated each time it is used. -/
def Tundish.threshold (x : Tundish) : Nat := if x.thr ≠ 0 then x.thr else 8 * max x.sharers 1

/-! ## Tundish entries (R285) -/

/-- The slice of a line. -/
def sliceOf (pa : Nat) : Nat := pa / 128 % 16

/-- The least recently used counter of a slice whose queue is empty. -/
def oldestTundish (xs : Table Tundish) (slice : Nat) : Option Nat :=
  (xs.foldl (fun (acc : Option (Nat × Nat)) x =>
    if sliceOf x.1 ≠ slice ∨ !x.2.queue.isEmpty then acc
    else
      match acc with
      | none => some (x.1, x.2.used)
      | some (k, u) => if x.2.used < u then some (x.1, x.2.used) else some (k, u)) none).map (·.1)

/-- Every allowance of a counter comes home at once: from the ladles and out of the messages. The reserve it adds up to, with
the state that is left. -/
def State.pullAll (s : State) (ctr : Nat) : Nat × State :=
  let v := s.inLadles ctr + inTransit s.amsgs ctr
  let s1 := { s with
    clusters := s.clusters.map fun x => (x.1, { x.2 with ladle := terase x.2.ladle ctr })
    amsgs := s.amsgs.filterMap fun m =>
      match m with
      | .grant k c _ l g q => if c = ctr then some (.grant k c 0 l g q) else some m
      | .recall _ c _ => if c = ctr then none else some m
      | .answer _ c _ _ => if c = ctr then none else some m
      | .zero _ c _ => if c = ctr then none else some m
      | .request _ _ => some m }
  (v, s1)

/-- Whether a cluster's ladle neither answers nor returns any more: its cluster is stopped or its die has failed (R291, R293). -/
def State.ladleDead (s : State) (k : Nat) : Bool :=
  (s.cluster (clusterOfKey k)).stopped || (s.die (clusterOfKey k).die).failed

/-- Whether some holder of a counter cannot answer. -/
def State.deafHolder (s : State) (ctr : Nat) : Bool := (s.tundish ctr).holders.any fun h => s.ladleDead h.cluster

/-- The counter has an entry, made when it had none; with 256 entries in its slice the least recently used counter without
requests gives up its own: recalled, written to HOME. None when that has to wait. -/
def State.withTundish (s : State) (ctr : Nat) : Option State :=
  let d := s.die (ctrHome ctr)
  if (tget d.tundish ctr).isSome then some s
  else if (d.tundish.filter fun x => sliceOf x.1 == sliceOf ctr).length < 256 then some (s.setTundish ctr (s.loadTundish ctr))
  else
    match oldestTundish d.tundish (sliceOf ctr) with
    | none => none
    | some c =>
      if s.deafHolder c then none
      else
        let x := s.tundish c
        let (v, s1) := s.pullAll c
        let s0 := if 0 < v then s1.ctrWrite c 5 (x.recalls + 1) else s1
        let s2 := s0.ctrWrite c 2 (x.reserve + v + 2 ^ 63 * x.normal.toNat)
        let s3 := s2.setDie (ctrHome c) { s2.die (ctrHome c) with tundish := terase (s2.die (ctrHome c)).tundish c }
        some (s3.setTundish ctr (s3.loadTundish ctr))

/-! ## Serving (R288 to R290) -/

/-- The status of a strand's pending allowance operation is known. -/
def State.answerReq (s : State) (q : AReq) (v : Nat) : State :=
  let t := strandOfKey q.strand
  let st := s.strand t
  s.setStrand t { st with pend := st.pend.map fun p => if p.seq = q.seq then { p with val := some (.w (BitVec.ofNat 64 v), false) } else p }

/-- Exact mode begins with nothing outstanding; EXACT counts it. -/
def State.goExact (s : State) (ctr : Nat) : State :=
  let x := s.tundish ctr
  (s.setTundish ctr { x with normal := false, entering := false, exact := x.exact + 1 }).ctrWrite ctr 6 (x.exact + 1)

/-- The head request served at home, nothing being outstanding (AtHome of R288; axread of R297). -/
def State.serveHome (s : State) (ctr : Nat) : State :=
  let x := s.tundish ctr
  match x.queue with
  | [] => s
  | q :: r =>
    let t := x.threshold
    let s0 := if x.normal && decide (x.reserve < t) then s.goExact ctr else s
    let x0 := s0.tundish ctr
    let x1 : Tundish := { x0 with queue := r, atHome := x0.atHome - 1, used := s.seq }
    match q.kind with
    | .axread => (s0.setTundish ctr x1).answerReq q x1.reserve
    | .adec n =>
      if x1.reserve < n then
        ((s0.setTundish ctr { x1 with fails := x1.fails + 1 }).ctrWrite ctr 7 (x1.fails + 1)).answerReq q 2
      else
        let x2 : Tundish := { x1 with reserve := x1.reserve - n }
        let s1 := (s0.setTundish ctr x2).answerReq q (if x2.reserve = 0 then 1 else 0)
        if x2.normal && decide (x2.reserve < t) then s1.goExact ctr else s1

/-- A recall begins (R289): with no holder it is complete at once. -/
def State.startRecall (s : State) (ctr : Nat) (entering : Bool) : State :=
  let x := s.tundish ctr
  if x.holders.isEmpty then
    let s0 := s.setTundish ctr { x with atHome := x.queue.length }
    let s1 := if entering then s0.goExact ctr else s0
    s1.serveHome ctr
  else
    let s1 := s.setTundish ctr { x with
      recalling := some (x.holders.foldl (fun ns h => nsInsert ns h.cluster) [])
      found := false, entering := entering, atHome := x.queue.length }
    x.holders.foldl (fun s h => s.asend (.recall h.cluster ctr h.last)) s1

/-- A recall is complete when no holder is awaited (R289): RECALLS counts one that found an allowance. -/
def State.endRecall (s : State) (ctr : Nat) : State :=
  let x := s.tundish ctr
  if x.recalling = some [] then
    let s1 := s.setTundish ctr { x with recalling := none, recalls := if x.found then x.recalls + 1 else x.recalls }
    let s2 := if x.found then s1.ctrWrite ctr 5 (x.recalls + 1) else s1
    if x.entering then s2.goExact ctr else s2
  else s

/-- A grant of g to the head request for n (R288). -/
def State.grantHead (s : State) (ctr : Nat) (q : AReq) (r : List AReq) (n g : Nat) : State :=
  let x := s.tundish ctr
  let (k, s1) := s.fresh
  let lend := s.now + x.lease
  let old := x.holders.find? fun h => h.cluster == q.cluster
  let h : Holder :=
    match old with
    | some h => { h with parts := h.parts ++ [(k, g - n)], leaseEnd := lend, last := k }
    | none => ⟨q.cluster, [(k, g - n)], lend, k, k⟩
  let s2 := s1.setTundish ctr { x with
    reserve := x.reserve - g, grants := x.grants + 1, queue := r, used := s.seq
    holders := (x.holders.filter fun h => h.cluster != q.cluster) ++ [h] }
  (s2.ctrWrite ctr 4 ((x.grants + 1) % 2 ^ 64)).asend (.grant q.cluster ctr (g - n) lend k q)

/-- The tundish serves the request at the head of its queue (R288): by a grant, at home, or after a recall. -/
def execServe (ctr : Nat) (s : State) : Out :=
  let x := s.tundish ctr
  match x.queue with
  | [] => .next s
  | q :: r =>
    if x.recalling.isSome then .next s
    else if 0 < x.atHome then .next (s.serveHome ctr)
    else
      match q.kind with
      | .axread => .next (s.startRecall ctr false)
      | .adec n =>
        let t := x.threshold
        if x.normal && decide (x.reserve < t) then .next (s.startRecall ctr true)
        else if x.normal && decide (n ≤ x.gmax) && decide (n ≤ x.reserve) then
          let g := min x.reserve (min x.gmax (max n (x.reserve / (2 * x.sharers))))
          if t ≤ x.reserve - g then .next (s.grantHead ctr q r n g) else .next (s.startRecall ctr true)
        else .next (s.startRecall ctr false)

/-! ## Messages (R287 to R289, R291, R292) -/

/-- The first message of a list that passes a test, and the list without it. -/
def takeMsg (f : AMsg → Bool) (ms : List AMsg) : Option (AMsg × List AMsg) :=
  match ms with
  | [] => none
  | m :: r => if f m then some (m, r) else (takeMsg f r).map fun x => (x.1, m :: x.2)

/-- A ladle's request arrives in the tundish's queue. -/
def execAllowanceRequest (l : ClusterId) (ctr : Nat) (s : State) : Out :=
  match takeMsg (fun m => match m with | .request c q => c == ctr && q.cluster == l.key | _ => false) s.amsgs with
  | some (.request _ q, r) =>
    (match ({ s with amsgs := r } : State).withTundish ctr with
     | none => .next s
     | some s1 => .next (s1.setTundish ctr { s1.tundish ctr with queue := (s1.tundish ctr).queue ++ [q], used := s.seq }))
  | _ => .next s

/-- A ladle receives a grant: what remains of it joins the holding, the request's status is OK; a holding of 0 is reported, that of a
lease-blind cluster returned (R291). Nothing reaches a failed die, and a failed home's allowance is discarded (R293). -/
def execGrant (l : ClusterId) (ctr : Nat) (s : State) : Out :=
  if (s.die l.die).failed ∨ s.lostAt ctr then .next s
  else
  match takeMsg (fun m => match m with | .grant k c _ _ _ _ => c == ctr && k == l.key | _ => false) s.amsgs with
  | some (.grant k _ rest lend g q, r) =>
    let s0 := { s with amsgs := r }
    let s1 := if (s0.ladle k ctr).isSome then s0 else s0.ladleRoom k
    let held := match s1.ladle k ctr with | some e => e.amount | none => 0
    let s2 := s1.answerReq q 0
    if held + rest = 0 then .next ((s2.dropLadle k ctr).asend (.zero k ctr g))
    else
      let s3 := s2.setLadle k ctr ⟨held + rest, lend, g, s.seq⟩
      .next (if (s.cluster l).blind && !s.ladleDead k then s3.returnLadle k ctr else s3)
  | _ => .next s

/-- A ladle receives a recall, after every grant sent to it before, and answers with its remainder, under the latest grant that the holding
came with; a dead one does not. -/
def execRecall (l : ClusterId) (ctr : Nat) (s : State) : Out :=
  if s.ladleDead l.key then .next s
  else if s.amsgs.any fun m => match m with | .grant k c _ _ _ _ => c == ctr && k == l.key | _ => false then .next s
  else
    match takeMsg (fun m => match m with | .recall k c _ => c == ctr && k == l.key | _ => false) s.amsgs with
    | some (.recall k _ g, r) =>
      let a := match s.ladle k ctr with | some e => (e.amount, e.grantSeq) | none => (0, g)
      .next ((({ s with amsgs := r } : State).dropLadle k ctr).asend (.answer k ctr a.1 a.2))
    | _ => .next s

/-- What a ladle has sent to a counter's home of its holding, the oldest first: returns and reports of a holding of 0 arrive in the order in which
they were sent (DEDUCED, log 77). -/
def State.firstBack (s : State) (k ctr : Nat) : Option AMsg :=
  s.amsgs.find? fun m =>
    match m with
    | .answer k' c _ _ => c == ctr && k' == k
    | .zero k' c _ => c == ctr && k' == k
    | _ => false

/-- A holder's record is reclaimed: LOST grows by it; what its ladle holds, or has on the way, is gone; a recall waits for it no
longer, and has found it (R289, R292). -/
def State.reclaim (s : State) (k ctr : Nat) : State :=
  let x := s.tundish ctr
  match x.holders.find? fun h => h.cluster == k with
  | none => s
  | some h =>
    let gone := (match s.ladle k ctr with | some e => e.amount | none => 0) + (s.amsgs.foldl (fun n m =>
      match m with
      | .grant k' c r _ _ _ => if c = ctr ∧ k' = k then n + r else n
      | .answer k' c a _ => if c = ctr ∧ k' = k then n + a else n
      | _ => n) 0)
    let s1 := (s.setTundish ctr { x with
      lost := x.lost + h.amount
      found := x.found || decide (0 < gone)
      holders := x.holders.filter fun h => h.cluster != k
      recalling := x.recalling.map fun w => nsErase w k }).ctrWrite ctr 3 (x.lost + h.amount)
    let s2 := { s1.dropLadle k ctr with amsgs := s1.amsgs.map fun m =>
      match m with
      | AMsg.grant k' c _ l g q => if c = ctr ∧ k' = k then AMsg.grant k' c 0 l g q else m
      | AMsg.answer k' c _ g => if c = ctr ∧ k' = k then AMsg.answer k' c 0 g else m
      | _ => m }
    s2.endRecall ctr

/-- The holder of a counter is reclaimed once its lease end plus guard has passed at the home (R292). -/
def State.lapse (s : State) (k ctr : Nat) : State :=
  match (s.tundish ctr).holders.find? fun h => h.cluster == k with
  | none => s
  | some h => if h.leaseEnd + (s.die (ctrHome ctr)).guard ≤ s.now then s.reclaim k ctr else s

/-- A returned amount reaches the tundish: added to the reserve unless its grant has been reclaimed; the holder of the latest
grant has then nothing more (R289, R292). Nothing of a failed die arrives (R293). -/
def State.takeAnswer (s : State) (l : ClusterId) (ctr : Nat) : State :=
  if (s.die l.die).failed || (s.firstBack l.key ctr).any (fun m => match m with | .zero _ _ _ => true | _ => false) then s
  else
  match takeMsg (fun m => match m with | .answer k c _ _ => c == ctr && k == l.key | _ => false) s.amsgs with
  | some (.answer k _ a g, r) =>
    let s0 := { s with amsgs := r }
    let x := s0.tundish ctr
    (match x.holders.find? fun h => h.cluster == k with
     | none => s0
     | some h =>
       if g < h.first then s0
       else
         let rest := x.holders.filter fun h => h.cluster != k
         let x1 : Tundish := { x with reserve := x.reserve + a, found := x.found || decide (0 < a) }
         if g = h.last then
           ((s0.setTundish ctr { x1 with holders := rest, recalling := x1.recalling.map fun w => nsErase w k }).endRecall ctr)
         else (s0.setTundish ctr { x1 with holders := rest ++ [h.returned g a] }))
  | _ => s

/-- The return of a ladle arrives; one that comes after its grant's lease end plus guard has passed is discarded (R292). -/
def execRecallAnswer (l : ClusterId) (ctr : Nat) (s : State) : Out := .next ((s.lapse l.key ctr).takeAnswer l ctr)

/-- A reported holding of 0 takes the cluster out of the holder set, unless it has had a later grant, whose part stays recorded
(R287, R292). A counter whose entry has been given up has no holders (R285). -/
def State.takeZero (s : State) (l : ClusterId) (ctr : Nat) : State :=
  if (s.die l.die).failed || (s.firstBack l.key ctr).any (fun m => match m with | .answer _ _ _ _ => true | _ => false) then s
  else
  match takeMsg (fun m => match m with | .zero k c _ => c == ctr && k == l.key | _ => false) s.amsgs with
  | some (.zero k _ g, r) =>
    let s0 := { s with amsgs := r }
    let x := s0.tundish ctr
    if (tget (s0.die (ctrHome ctr)).tundish ctr).isNone then s0
    else ((s0.setTundish ctr { x with
      holders := (x.holders.filter fun h => !(h.cluster == k && h.last == g)).map fun h => if h.cluster = k then h.emptied g else h
      recalling := x.recalling.map fun w => if x.holders.any fun h => h.cluster == k && h.last == g then nsErase w k else w }).endRecall ctr)
  | _ => s

/-- The report of a holding of 0 arrives, unless its holder is reclaimed (R287, R292). -/
def execHoldingZeroReport (l : ClusterId) (ctr : Nat) (s : State) : Out := .next ((s.lapse l.key ctr).takeZero l ctr)

/-- A ladle returns the remainder of an allowance at its lease end, or because its cluster is lease-blind (R291). -/
def execAllowanceLeaseEnd (l : ClusterId) (ctr : Nat) (s : State) : Out :=
  match s.ladle l.key ctr with
  | none => .next s
  | some e =>
    if !s.ladleDead l.key && ((s.cluster l).blind || decide (e.leaseEnd ≤ s.timeAt l)) then .next (s.returnLadle l.key ctr)
    else .next s

/-- A remainder that has not come back by lease end plus guard is reclaimed (R292). -/
def execReclamation (l : ClusterId) (ctr : Nat) (s : State) : Out := .next (s.lapse l.key ctr)

/-- The state after an event that goes on, else the state before it. -/
def State.after_ (s : State) (o : Out) : State := match o with | .next s1 => s1 | _ => s

/-- What is on its way between a ladle and a counter's home when the recorded lease end plus guard has come: grants have reached the ladle, a
live one has returned its remainder at its lease end, or because its cluster is lease-blind (R291), and what it has sent has arrived (01 R281;
DEDUCED, log 68). -/
def State.comesBack (s : State) (l : ClusterId) (ctr : Nat) : State :=
  let s1 := (List.range s.amsgs.length).foldl (fun s _ => s.after_ (execGrant l ctr s)) s
  let s2 := s1.after_ (execAllowanceLeaseEnd l ctr s1)
  (List.range s2.amsgs.length).foldl (fun s _ => (s.takeAnswer l ctr).takeZero l ctr) s2

/-- The holders of every counter whose recorded lease end plus guard comes before or at an instant: that time, the cluster, the counter. -/
def State.dueBy (s : State) (later : Nat) : List (Nat × Nat × Nat) :=
  (s.dies.filter fun d => !d.2.failed).flatMap fun d => d.2.tundish.flatMap fun x =>
    (x.2.holders.map fun h => (h.leaseEnd + d.2.guard, h.cluster, x.1)).filter fun y => decide (y.1 ≤ later)

/-- A list with an entry put in its place by time. -/
def byTime (x : Nat × Nat × Nat) (xs : List (Nat × Nat × Nat)) : List (Nat × Nat × Nat) :=
  match xs with
  | [] => [x]
  | y :: r => if x.1 < y.1 then x :: y :: r else y :: byTime x r

/-- Device time passes to an instant: each holder whose lease end plus guard comes on the way has returned its remainder, or is reclaimed then
(R291, R292). -/
def State.leasesPass (s : State) (later : Nat) : State :=
  let s1 := ((s.dueBy later).foldr byTime []).foldl (fun s x =>
    (({ s with now := max s.now x.1 } : State).comesBack (clusterOfKey x.2.1) x.2.2).lapse x.2.1 x.2.2) s
  { s1 with now := s.now }

/-! ## The instructions (R296 to R298) -/

/-- The counter that an address names, its checks in the order of R297. -/
def State.counterAt (s : State) (va : W64) : Except AddrFault Nat :=
  if va.toNat % 64 ≠ 0 then .error (causeAlign, 0, va)
  else if !isGlobal va then .error (causeBounds, 0, va)
  else
    let b := s.bindOf s.turn.ctxId
    match leafOk (s.leafFor s.turn.clusterId b.asid b.gen va.toNat) va needRW with
    | .error f => .error f
    | .ok e =>
      let pa := leafPa e va.toNat
      if hbmEnd ≤ pa ∨ pteMs e ∨ pteCp e = 2 then .error (causeBounds, 0, va)
      else if s.lostAt pa then .error (causeHomelost, 0, va)
      else .ok pa

/-- Whether a pending operation is an allowance operation on a counter. -/
def POp.onCounter (o : POp) (ctr : Nat) : Bool :=
  match o with
  | .adec c _ => c == ctr
  | .aread c => c == ctr
  | .axread c => c == ctr
  | _ => false

/-- Whether the return of a cluster's holding of a counter under a grant is still on its way. -/
def State.returning (s : State) (x : Nat × Nat × Nat) : Bool :=
  s.amsgs.any fun m =>
    match m with
    | .answer k c _ g => k == x.1 && c == x.2.1 && g == x.2.2
    | _ => false

/-- Whether an allowance operation of a strand on a counter has yet to take effect, the return of an afree included (R298). -/
def State.counterBusy (s : State) (t : Strand) (ctr : Nat) : Bool :=
  (t.pend.any fun p => p.val.isNone && p.op.onCounter ctr) ||
    t.freed.any fun x => x.2.1 == ctr && s.returning x

/-- An allowance instruction on the counter at ga: excluded in a region, its address checked, held behind the strand's previous
one on that counter. -/
def State.onCounter (s : State) (a : Reg) (f : Nat → State → State) : State :=
  s.outsideRegion fun s =>
    match s.counterAt (s.cur.rg a) with
    | .error (cause, sub, faddr) => s.faultAt cause sub faddr
    | .ok ctr => if s.counterBusy s.cur ctr then (s.checked (f ctr)).holdFor (.counter ctr) else f ctr s

/-- The same with the counter's entry at hand; held while none can be had. -/
def State.onTundish (s : State) (a : Reg) (f : Nat → Tundish → State → State) : State :=
  s.onCounter a fun ctr s =>
    match s.withTundish ctr with
    | none => (s.checked fun s => f ctr (s.tundish ctr) s).holdFor (.counter ctr)
    | some s1 => f ctr (s1.tundish ctr) s1

/-- The words that ainit writes (R297). -/
def State.ainitWords (s : State) (ctr v : Nat) : State :=
  [(0, v), (3, 0), (4, 0), (5, 0), (6, 0), (7, 0)].foldl (fun s (x : Nat × Nat) => s.ctrWrite ctr x.1 x.2) s

/-- ainit (R297): recalls and discards, reads CONFIG, sets the value; requests that wait meanwhile are served at home (R289); the strand's next bundle waits for the writes. -/
def execAinit (a b : Reg) (s : State) : Out :=
  .next (s.onTundish a fun ctr x s =>
    let v := (s.cur.rg b).toNat
    if 2 ^ 63 ≤ v then s.faultAt causeBounds 0 (s.cur.rg a)
    else
      let c := ctrConfig (s.ctrWord ctr 1)
      let s1 := (s.pullAll ctr).2
      let s2 := s1.setTundish ctr { x with
        reserve := v, normal := decide (if c.2.1 ≠ 0 then c.2.1 ≤ v else 8 ≤ v), gmax := c.1, thr := c.2.1, lease := c.2.2
        holders := [], recalling := none, found := false, entering := false, atHome := x.queue.length
        lost := 0, grants := 0, recalls := 0, exact := 0, fails := 0, used := s.seq }
      let s3 := s2.ainitWords ctr v
      s3.setCur { s3.cur with ainit := some (ctr, s3.seq) })

/-- adec (R287, R297): from the cluster's ladle when it may, else by a request. -/
def execAdec (d a b : Reg) (s : State) : Out :=
  .next (s.onCounter a fun ctr s =>
    let n := (s.cur.rg b).toNat
    let k := s.turn.clusterId.key
    let ask := fun (s : State) =>
      (s.pending (.g d) (.adec ctr n) none false).asend (.request ctr ⟨k, s.turn.key, s.seq, .adec n⟩)
    if n = 0 then s.pending (.g d) .done (some (.w 0, false)) false
    else
      match s.ladle k ctr with
      | none => ask s
      | some e =>
        if n ≤ e.amount ∧ s.spendable k e then
          let s1 := s.pending (.g d) .done (some (.w 0, false)) false
          if e.amount = n then (s1.dropLadle k ctr).asend (.zero k ctr e.grantSeq)
          else s1.setLadle k ctr { e with amount := e.amount - n, used := s.seq }
        else ask s)

/-- ainc (R297): at home, up to 2^63 − 1; exact mode ends when V ≥ 2T (R290). It acts at its issue, ahead of what is queued already, and
during a recall (DESIGN CHOICE, log 93). -/
def execAinc (a b : Reg) (s : State) : Out :=
  .next (s.onTundish a fun ctr x s =>
    let x1 : Tundish := { x with reserve := min (x.reserve + (s.cur.rg b).toNat) (2 ^ 63 - 1), used := s.seq }
    let s1 := s.setTundish ctr x1
    if !x1.normal && decide (2 * x1.threshold ≤ s1.ctrValue ctr) then s1.setTundish ctr { x1 with normal := true } else s1)

/-- aread: interlocked, sampled when it is satisfied (R297). -/
def execAread (d a : Reg) (s : State) : Out :=
  .next (s.onTundish a fun ctr x s => (s.setTundish ctr { x with used := s.seq }).pending (.g d) (.aread ctr) none false)

/-- axread: a request in the tundish's queue (R297). -/
def execAxread (d a : Reg) (s : State) : Out :=
  .next (s.onCounter a fun ctr s =>
    (s.pending (.g d) (.axread ctr) none false).asend (.request ctr ⟨s.turn.clusterId.key, s.turn.key, s.seq, .axread⟩))

/-- afree: the ladle's whole holding goes back (R297); the strand remembers the return while it is on its way (R298). -/
def execAfree (a : Reg) (s : State) : Out :=
  .next (s.onCounter a fun ctr s =>
    let k := s.turn.clusterId.key
    match s.ladle k ctr with
    | none => s
    | some e => (s.setCur { s.cur with freed := (k, ctr, e.grantSeq) :: s.cur.freed.filter s.returning }).returnLadle k ctr)

/-- The value of an aread (R297): the reserve and this ladle's holding. -/
def State.areadValue (s : State) (k ctr : Nat) : Nat :=
  (s.tundish ctr).reserve + (match s.ladle k ctr with | some e => e.amount | none => 0)

/-- Whether an allowance operation on a counter is in progress or outstanding (R284): held, queued, asked for or on its way, on a failed
die too (DESIGN CHOICE, log 94). -/
def State.counterUsed (s : State) (ctr : Nat) : Bool :=
  !(s.tundish ctr).holders.isEmpty || !(s.tundish ctr).queue.isEmpty ||
    (s.amsgs.any fun m => match m with
      | .request c _ => c == ctr
      | .grant _ c _ _ _ _ => c == ctr
      | .answer _ c _ _ => c == ctr
      | _ => false) ||
    s.strands.any fun t => t.2.pend.any fun p => p.val.isNone && p.op.onCounter ctr

/-- Whether an ainit on a counter is in progress. -/
def State.initialising (s : State) (ctr : Nat) : Bool :=
  s.strands.any fun t => match t.2.ainit with
    | some (c, mark) => c == ctr && s.writes.any fun y => y.strand == tundishKey && decide (y.seq < mark) &&
        (match y.at_.loc with | .phys q => q / 64 * 64 == ctr | .spad _ _ => false)
    | none => false

/-- V becomes undefined (R284): the reserve of the counter's entry, or of the HOME word it will be loaded from. -/
def State.undefineCounter (s : State) (ctr : Nat) : State :=
  let v := Config.counterAfterStore s.tick % 2 ^ 63
  let s1 := { s with tick := s.tick + 1 }
  match tget (s.die (ctrHome ctr)).tundish ctr with
  | some x => s1.setTundish ctr { x with reserve := v }
  | none => s1.ctrWrite ctr 2 v

/-- A store of a program to a counter line that R284 forbids makes V undefined (DESIGN CHOICE, log 8): to words 0 and 2 to 7 while an operation
is in progress or outstanding, to word 1 while an ainit is in progress. -/
def State.counterStore (s : State) (w : PWrite) : State :=
  match w.at_.loc with
  | .spad _ _ => s
  | .phys pa =>
    let ctr := pa / 64 * 64
    let config := w.bytes.all fun b => (pa + b.1) % 64 / 8 == 1
    if w.strand = tundishKey ∨ !(s.initialising ctr || (s.counterUsed ctr && !config)) then s else s.undefineCounter ctr

end Sys2Proof.Machine
end

