-- ==== Sys2Proof/Machine/Sync.lean ====
section
/-! DEFINITION. The Y class less the allowances: tag operations, bind, drain, fences, barriers, atomics (15 R262 to R278, 14 R246
to R257), the arrival of interlocked results (03 R58) and the events of waiting bundles. -/

namespace Sys2Proof.Machine

/-! ## Gangs and bindings (14 R247, 15 R270) -/

/-- Key of a gang: its die and its identifier (18 R307, R309). -/
def gangKey (d : DieId) (gang : BitVec 16) : Nat := d.val * 65536 + gang.toNat

/-- A gang that holds nothing. -/
def Gang.reset : Gang := ⟨0, 0, 0, 0, [], [], none, none, false⟩

/-- The gang of a key. -/
def State.gangAt (s : State) (k : Nat) : Gang := (tget s.gangs k).getD Gang.reset

/-- The key of the gang of a strand. -/
def State.gangOf (s : State) (t : StrandId) : Nat := gangKey t.die (s.bindOf t.ctxId).gang

/-- Whether a pending write lies in a region bound to an object (R247, R270: by the address it was issued through). -/
def State.boundTo (s : State) (t : StrandId) (w : TagWord) (x : PWrite) : Bool :=
  (s.gangAt (s.gangOf t)).table.any fun e =>
    e.obj == w && x.bytes.any fun b => decide (e.base ≤ x.va + b.1 ∧ x.va + b.1 < e.base + e.len)

/-- Whether a pending write is performed at a scope already (14 R243): 1 cluster, 2 die, 3 device, 4 system. -/
def State.performedAt (s : State) (w : PWrite) (scope : Nat) : Bool :=
  (decide (scope ≤ 1) && w.onPath) || (decide (scope ≤ 3) && w.accepted && !w.at_.cacheable)

/-- Scope of an object: the cluster for a scratchpad word, the device for a sync word (14 R246). -/
def tagScope (w : TagWord) : Nat := match w with | .spad _ _ => 1 | .sync _ => 3

/-- The two conditions of a release of an object by the bundle being issued, over what its strand did before the bundle (14 R249; that the
accesses of the bundle itself do not count is a DESIGN CHOICE, log 72). -/
def State.releaseReady (s : State) (t : StrandId) (w : TagWord) : Bool :=
  s.readsDone t s.iss.mark &&
    s.writes.all fun x => !(x.strand == t.key && s.boundTo t w x && !s.performedAt x (tagScope w))

/-- Whether a pending operation still has to read one of n bytes from a place on. -/
def Pend.readsWord (x : Pend) (p : Place) (n : Nat) : Bool := x.unread && (List.range n).any fun i => x.op.reads (p.plus i).loc

/-- Whether a load may read a byte as far as its strand's older reads of it go: each of them comes first (14 R244, R278). -/
def State.afterOlder (s : State) (t : StrandId) (seq : Nat) (p : Place) : Bool :=
  (s.strand t).pend.all fun q => !(decide (q.seq < seq) && q.unread && q.op.reads p.loc)

/-- A pending load after it has read what it can read now. -/
def State.readNow (s : State) (t : StrandId) (x : Pend) : Pend :=
  match x.op with
  | .load f bs =>
    let bs' := s.readBytes t x.seq f bs
    { x with op := .load f bs', val := if allRead bs' then some (loadValue f bs') else none }
  | _ => x

/-- Whether a strand's accesses to a place before the bundle being issued are done, and the writes there that its cluster's write path has
accepted, which are performed towards it (14 R243, R244), so that a tag operation may act on its data (R95), and whether the bundle's own
loads of it can read it before that (02 R32). -/
def State.ownDone (s : State) (t : StrandId) (p : Place) (n : Nat) : Bool :=
  (s.writes.all fun x => !((x.strand == t.key || decide (x.cluster = t.clusterId.key) && x.onPath) &&
      (List.range n).any fun i => (x.byte (p.plus i).loc).isSome)) &&
    (s.strand t).pend.all fun x => !x.readsWord p n || (decide (s.iss.mark ≤ x.seq) && !(s.readNow t x).readsWord p n &&
      (match x.op with
       | .load _ bs => bs.all fun b => match b with | .at_ q => s.afterOlder t s.iss.mark q | _ => true
       | _ => false))

/-- The loads of the bundle being issued that read a word read it before a tag operation of the bundle writes it; what the bundle's stores
at lower positions put there gives way to that operation (02 R32). -/
def State.beforeTag (s : State) (p : Place) (n : Nat) : State :=
  let st := s.cur
  let seen := (st.pend.filter fun x => x.readsWord p n).flatMap fun x =>
    match x.op with | .load f bs => s.observes s.turn x.seq f bs | _ => []
  let left := s.iss.stores.map fun (x : StoreAt) =>
    if x.pos < s.iss.pos then
      { x with bytes := x.bytes.filter fun b => (offsetFrom p.loc (x.at_.plus b.1).loc).all fun i => decide (n ≤ i) }
    else x
  (s.setCur { st with
    pend := st.pend.map fun x => if x.readsWord p n then s.readNow s.turn x else x
    observed := seen.foldl nsInsert st.observed }).setIss { s.iss with stores := left.filter fun x => !x.bytes.isEmpty }

/-! ## Tag operations (R266 to R268) -/

/-- n bytes of data of a tag word, with their poison. -/
def State.tagData (s : State) (p : Place) (n : Nat) : W64 × Bool :=
  match p.loc with
  | .spad o off => (BitVec.ofNat 64 (leNat (s.spadBytes o off n)), s.spadPoisoned o off)
  | .phys pa => (BitVec.ofNat 64 (leNat ((List.range n).map fun i => s.frameByte (pa + i))), s.devicePoison pa)

/-- A tag operation under a condition on its tag: it is performed when the condition holds, else the bundle is held (R266). The order in
which contexts began to wait is that in which they are made ready again (18 R312): State.wakesLater. -/
def State.whenTag (s : State) (w : TagWord) (want : Bool) (f : State → State) : State :=
  if s.tagOf w = want then f s else s.holdFor (.tag w want)

/-- A tag operation on a sync word reads or writes its 8 bytes of HBM once its class's budget admits it, else its bundle is held (18 R314). -/
def State.metered (s : State) (w : TagWord) (f : State → State) : State :=
  match w with
  | .spad _ _ => f s
  | .sync pa =>
    let r := s.chargeMem (s.bindOf s.turn.ctxId).bclass.toNat pa 8 (tagAccess + bundleKey s.turn.key s.cur.pc)
    if r.1 then f r.2 else r.2.holdFor .budget

/-- The address of a tag operation resolved, or its fault raised. -/
def State.onTag (s : State) (a : Reg) (n : Need) (f : TagWord → Nat → Place → State → State) : State :=
  s.outsideRegion fun s =>
    match s.tagWord s.turn (s.cur.rg a) n with
    | .error (cause, sub, faddr) => s.faultAt cause sub faddr
    | .ok (w, k, p) => f w k p ((s.touch [s.cur.rg a]).needBanks [p])

/-- ldt: waits for full, reads, empties, acquires (R267). -/
def execLdt (d a : Reg) (s : State) : Out :=
  .next (s.onTag a needRW fun w n p s =>
    if !s.ownDone s.turn p n then s.holdFor (.release none (some (p, n)))
    else s.whenTag w true fun s => s.metered w fun s =>
      let x := s.tagData p n
      (s.setTag w false).pending (.g d) (.tag w) (some (.w x.1, x.2)) true)

/-- ldtp: waits for full, reads, acquires, leaves the tag full (R267). -/
def execLdtp (d a : Reg) (s : State) : Out :=
  .next (s.onTag a needR fun w n p s =>
    if !s.ownDone s.turn p n then s.holdFor (.release none (some (p, n)))
    else s.whenTag w true fun s => s.metered w fun s =>
      let x := s.tagData p n
      s.pending (.g d) (.tag w) (some (.w x.1, x.2)) true)

/-- stt: waits for the release conditions, then for empty; writes, fills, releases (R267). -/
def execStt (a b : Reg) (s : State) : Out :=
  .next (s.onTag a needRW fun w n p s =>
    if !(s.releaseReady s.turn w && s.ownDone s.turn p n) then s.holdFor (.release (some w) (some (p, n)))
    else s.whenTag w false fun s => s.metered w fun s =>
      ((s.beforeTag p n).performAt p (withOffsets (leBytes n (s.cur.rg b).toNat)) 0).setTag w true)

/-- sttn: waits for the release conditions alone; writes and fills an empty word, else returns 1 (R267). -/
def execSttn (d a b : Reg) (s : State) : Out :=
  .next (s.onTag a needRW fun w n p s =>
    if !(s.releaseReady s.turn w && s.ownDone s.turn p n) then s.holdFor (.release (some w) (some (p, n)))
    else s.metered w fun s =>
      if s.tagOf w then s.pending (.g d) (.tag w) (some (.w 1, false)) false
      else
        (((s.beforeTag p n).performAt p (withOffsets (leBytes n (s.cur.rg b).toNat)) 0).setTag w true).pending (.g d) (.tag w)
          (some (.w 0, false)) false)

/-- tagr: reads the tag, no wait, no order (R267). -/
def execTagr (d a : Reg) (s : State) : Out :=
  .next (s.onTag a needR fun w _ _ s => s.metered w fun s => s.pending (.g d) (.tag w) (some (.w (truth (s.tagOf w)), false)) false)

/-- tagw: writes the tag from gb[0], no wait, no order (R267). -/
def execTagw (a b : Reg) (s : State) : Out :=
  .next (s.onTag a needRW fun w _ _ s => s.metered w fun s => s.setTag w ((s.cur.rg b).getLsbD 0))

/-- bind: adds or removes an entry of the gang's table (R270, R271). -/
def execBind (d a b : Reg) (s : State) : Out :=
  .next (s.onTag d needR fun w _ _ s =>
    let k := s.gangOf s.turn
    let g := s.gangAt k
    let base := (s.cur.rg a).toNat
    let len := (s.cur.rg b).toNat
    if len = 0 then { s with gangs := tset s.gangs k { g with table := g.table.filter fun e => !(e.obj == w && e.base == base) } }
    else
      let e : Binding := ⟨w, base, min len (2 ^ 64 - base)⟩
      if g.table.contains e then s
      else if g.table.length ≥ 64 then s.faultAt causeBounds 0 (s.cur.rg d)
      else { s with gangs := tset s.gangs k { g with table := g.table ++ [e] } })

/-- drain: held until the release conditions of the object hold (R272). -/
def execDrain (a : Reg) (s : State) : Out :=
  .next (s.onTag a needR fun w _ _ s => if s.releaseReady s.turn w then s else s.holdFor (.release (some w) none))

/-! ## Fences (R273, 14 R251 to R255) -/

/-- A fence with a scope code: it is in force for later bundles (R251). -/
def State.addFence (s : State) (b : Reg) (rel acq full : Bool) : State :=
  s.outsideRegion fun s =>
    if b.toNat = 0 ∨ 4 < b.toNat then s.illegalEncoding
    else s.setIss { s.iss with fence := some ⟨s.iss.mark, if rel then some b.toNat else none, acq, full⟩ }

def execFenceAcq (b : Reg) (s : State) : Out := .next (s.addFence b false true false)
def execFenceRel (b : Reg) (s : State) : Out := .next (s.addFence b true false false)
def execFenceFull (b : Reg) (s : State) : Out := .next (s.addFence b true true true)

/-- Whether the strand's writes before a fence are performed at its scope (R253). -/
def State.fenceWrites (s : State) (t : StrandId) (f : Fence) : Bool :=
  match f.rel with
  | none => true
  | some scope => s.writes.all fun w => !(w.strand == t.key && decide (w.seq < f.seq) && !s.performedAt w scope)

/-- Whether the writes that its earlier reads returned are performed at its scope (R255). -/
def State.fenceObserved (s : State) (t : StrandId) (f : Fence) : Bool :=
  match f.full, f.rel with
  | true, some scope => s.writes.all fun w => !((s.strand t).observed.contains w.seq && !s.performedAt w scope)
  | _, _ => true

/-- Whether every condition of a fence holds, so that it orders nothing any more. -/
def State.fenceDone (s : State) (t : StrandId) (f : Fence) : Bool :=
  s.fenceWrites t f && s.readsDone t f.seq && s.fenceObserved t f

/-- Whether a bundle that reads (or writes) memory may issue past the fences in force (R251 to R255). -/
def State.fencesAllow (s : State) (t : StrandId) (reads writes : Bool) : Bool :=
  (s.strand t).fences.all fun f =>
    (!writes || (s.fenceWrites t f && s.readsDone t f.seq)) &&
    (!reads || ((!f.acq || s.readsDone t f.seq) && (!f.full || (s.fenceWrites t f && s.fenceObserved t f))))

/-! ## Barriers (R274, R275) -/

/-- The open phase advances while its arrivals reach the count (R274). -/
def Barrier.advance (b : Barrier) (fuel : Nat) : Barrier :=
  match fuel with
  | 0 => b
  | k + 1 =>
    if b.count ≠ 0 ∧ b.count ≤ b.tally0 then
      Barrier.advance { b with phase := b.phase + 1, tally0 := b.tally1, tally1 := 0 } k
    else b

/-- Write a barrier slot of the issuing strand's context. -/
def State.setBar (s : State) (c : CtxId) (j : Nat) (b : Barrier) : State :=
  s.setCtx c { s.ctx c with bars := (s.ctx c).bars.set (j % 8) b (Nat.mod_lt _ (by decide)) }

/-- A barrier slot of a context. -/
def State.bar (s : State) (c : CtxId) (j : Nat) : Barrier := (s.ctx c).bars[j % 8]'(Nat.mod_lt _ (by decide))

/-- bar.init (R274, R275). -/
def execBarInit (j a : Reg) (s : State) : Out :=
  .next (s.outsideRegion fun s =>
    let c := (s.cur.rg a).toNat
    let b := s.bar s.turn.ctxId j.toNat
    if 7 < j.toNat then s.illegalEncoding
    else if 4 < c then s.faultAt causeBounds 0 (s.cur.rg a)
    else if c = b.count then s
    else if c = 0 then
      s.setBar s.turn.ctxId j.toNat { b with count := 0, tally0 := 0, tally1 := 0, last := Vector.replicate 4 none }
    else s.setBar s.turn.ctxId j.toNat (Barrier.advance { b with count := c } 2))

/-- bar.arrive: its phase is fixed as the bundle commits, the arrival is counted later (R274), once the accesses of the bundles
before it are done (DESIGN CHOICE, log 72). -/
def execBarArrive (j : Reg) (s : State) : Out :=
  .next (s.outsideRegion fun s =>
    let b := s.bar s.turn.ctxId j.toNat
    if 7 < j.toNat then s.illegalEncoding
    else if b.count = 0 then s.faultAt causeBounds 0 (zx j)
    else
      let p := match b.last[s.turn.core.val] with | some l => if b.phase ≤ l then l + 1 else b.phase | none => b.phase
      if b.phase + 1 < p then s.holdFor (.arrive j.toNat)
      else
        let s1 := s.setBar s.turn.ctxId j.toNat
          { b with last := b.last.set s.turn.core.val (some p), coming := b.coming ++ [(s.turn.core.val, p, s.iss.mark)] }
        if b.phase < p then s1.setCur { s1.cur with barovr := s1.cur.barovr ||| (1#8 <<< j.toNat) } else s1)

/-- bar.wait: held until the phase of the strand's latest arrival has completed (R274). -/
def execBarWait (j : Reg) (s : State) : Out :=
  .next (s.outsideRegion fun s =>
    let b := s.bar s.turn.ctxId j.toNat
    if 7 < j.toNat then s.illegalEncoding
    else
      match b.last[s.turn.core.val] with
      | none => s
      | some l => if l < b.phase then s else s.holdFor (.barrier j.toNat))

/-- Whether the accesses of a strand before an age are done at cluster scope (R249 at .cl, R274). -/
def State.doneAtCluster (s : State) (t : StrandId) (before : Nat) : Bool :=
  s.readsDone t before &&
    s.writes.all fun w => !(w.strand == t.key && decide (w.seq < before) && !s.performedAt w 1)

/-- The first uncounted arrival of a core in a list. -/
def firstOf (core : Nat) (xs : List (Nat × Nat × Nat)) : Option (Nat × Nat × Nat) :=
  match xs with
  | [] => none
  | x :: r => if x.1 = core then some x else firstOf core r

/-- An arrival whose earlier accesses are done is counted, and phases complete (R274). -/
def execBarrierArrivalCounted (t : StrandId) (j : Fin 8) (s : State) : Out :=
  let b := s.bar t.ctxId j.val
  match firstOf t.core.val b.coming with
  | none => .next s
  | some (core, p, mark) =>
    if s.doneAtCluster t mark then
      let b1 := { b with coming := b.coming.erase (core, p, mark) }
      let b2 := if p ≤ b.phase then { b1 with tally0 := b1.tally0 + 1 } else { b1 with tally1 := b1.tally1 + 1 }
      .next (s.setBar t.ctxId j.val (Barrier.advance b2 2))
    else .next s

/-! ## Atomics (R277, R278, 14 R257) -/

/-- The new value of an atomic, if it writes (R277): `d` is gd as before the bundle. -/
def amoNew (op : AmoOp) (old b d : W64) : Option W64 :=
  match op with
  | .add => some (old + b)
  | .minI => some (minI old b)
  | .maxI => some (maxI old b)
  | .and => some (old &&& b)
  | .or => some (old ||| b)
  | .swap => some b
  | .cas => if old = d then some b else none

/-- The address of an atomic: ALIGN, BOUNDS outside the global window, XLATE, BOUNDS for a host window, HOMELOST (R277). -/
def State.amoPlace (s : State) (va : W64) : Except AddrFault Place :=
  if va.toNat % 8 ≠ 0 then .error (causeAlign, 0, va)
  else if !isGlobal va then .error (causeBounds, 0, va)
  else
    match s.resolve s.turn va needRW with
    | .error e => .error e
    | .ok p =>
      match p.loc with
      | .phys pa => if pa < hbmEnd then .ok p else .error (causeBounds, 0, va)
      | .spad _ _ => .error (causeBounds, 0, va)

/-- An atomic is issued; it takes its place in the word's write order when it is satisfied, before the stores of its own bundle to the word,
whatever the positions (DESIGN CHOICE, log 71). -/
def State.amo (s : State) (op : AmoOp) (d a b : Reg) : State :=
  s.outsideRegion fun s =>
    match s.amoPlace (s.cur.rg a) with
    | .error (cause, sub, faddr) => s.faultAt cause sub faddr
    | .ok p => (s.touch [s.cur.rg a]).pending (.g d) (.amo op p (s.cur.rg b) (s.cur.rg d)) none false

def execAmoAdd (d a b : Reg) (s : State) : Out := .next (s.amo .add d a b)
def execAmoMinI (d a b : Reg) (s : State) : Out := .next (s.amo .minI d a b)
def execAmoMaxI (d a b : Reg) (s : State) : Out := .next (s.amo .maxI d a b)
def execAmoAnd (d a b : Reg) (s : State) : Out := .next (s.amo .and d a b)
def execAmoOr (d a b : Reg) (s : State) : Out := .next (s.amo .or d a b)
def execAmoSwap (d a b : Reg) (s : State) : Out := .next (s.amo .swap d a b)
def execAmoCas (d a b : Reg) (s : State) : Out := .next (s.amo .cas d a b)

/-- The atomic performed at the home of its word as it stands: the old value with its poison, and the state after (R277). -/
def State.amoAt (s : State) (op : AmoOp) (p : Place) (b d : W64) (pa : Nat) (x : Option (DieId × L2Line)) :
    (W64 × Bool) × State :=
  let old : W64 × Bool :=
    match x with
    | some (_, l) =>
      (BitVec.ofNat 64 (leNat ((List.range 8).map fun i =>
        if s.mixed pa then s.frameByte (pa + i) else l.data.getD (pa % 128 + i) 0)), l.poison.getLsbD (pa % 128 / 32))
    | none => (BitVec.ofNat 64 (leNat ((List.range 8).map fun i => s.frameByte (pa + i))), s.devicePoison pa)
  if old.2 then (old, s)
  else
    match amoNew op old.1 b d with
    | none => (old, s)
    | some y =>
      let bs := withOffsets (leBytes 8 y.toNat)
      (old, match x with | some (h, l) => s.performIn h pa bs 0 l | none => s.performAt p bs 0)

/-- An atomic is performed when it can be: the earlier accesses to the word are done and, for cacheable memory, the home slice has room
for the line, holds it in M and no lease on it runs (R257, 20 R321, R332). -/
def State.amoTry (s : State) (t : StrandId) (seq : Nat) (op : AmoOp) (p : Place) (b d : W64) : Option (W64 × Bool) × State :=
  match p.loc with
  | .spad _ _ => (none, s)
  | .phys pa =>
    if s.amoBlocked t seq p then (none, s)
    else if !p.cacheable then
      let r := s.amoAt op p b d pa none
      (some r.1, r.2)
    else
      let h := homeDie pa
      match s.takeM h (lineOf pa) with
      | none => (none, s.request h (lineOf pa) .own)
      | some l =>
        if s.leasesOver h l then
          match s.makeRoom h (lineOf pa) with
          | none => (none, s)
          | some s1 =>
            let r := s1.amoAt op p b d pa (some (h, l))
            (some r.1, r.2)
        else (none, s)

/-! ## Arrival (03 R58, 14 R244, 20 R337) -/

/-- Whether a place lies in a range whose home has failed. -/
def State.placeLost (s : State) (p : Place) : Bool := match p.loc with | .phys pa => s.lostAt pa | .spad _ _ => false

/-- The lookups of a load drop the lines of its cluster whose leases no longer hold (20 R320). -/
def State.lookUp (s : State) (t : StrandId) (bs : List LByte) : State :=
  bs.foldl (fun s b =>
    match b with
    | .at_ p => (match p.loc with | .phys pa => if p.cacheable && p.cp == 0 then s.dropStale t.clusterId pa else s | .spad _ _ => s)
    | _ => s) s

/-- The sectors that a load fetches from the slices are kept in the cluster cache, under leases, or serve the load alone
(20 R319, R325): which, the manual leaves open (DESIGN CHOICE, log 13). -/
def State.keepFills (s : State) (t : StrandId) (before : Nat) (bs : List LByte) : State :=
  let sectors := bs.filterMap fun b =>
    match b with
    | .at_ p =>
      (match p.loc with
       | .phys pa =>
         if p.cacheable && p.cp == 0 && (s.cacheHit t.clusterId pa).isNone && (s.view t before p).isSome then
           some (pa / 32, p.ro) else none
       | .spad _ _ => none)
    | _ => none
  sectors.eraseDups.foldl (fun s x => if Config.either s.tick x.1 then s.fillLine t.clusterId (32 * x.1) x.2 else s) s

/-- Whether the bytes that a load reads now from HBM, past its cluster's cache, are admitted by its class's budget, and the meters after
them (18 R314). -/
def State.admitLoad (s : State) (t : StrandId) (seq : Nat) (bs bs' : List LByte) : Bool × State :=
  let from_ := (bs.zip bs').filterMap fun x =>
    match x with
    | (.at_ p, .got _ _) =>
      (match p.loc with
       | .phys pa => if p.cp == 0 && (s.cacheHit t.clusterId pa).isSome then none else some pa
       | .spad _ _ => none)
    | _ => none
  match from_ with
  | [] => (true, s)
  | pa :: _ => s.chargeMem (s.bindOf t.ctxId).bclass.toNat pa from_.length seq

/-- Whether a write that is about to be performed is admitted by its class's budget; those of a tundish belong to no class (18 R314). -/
def State.admitWrite (s : State) (w : PWrite) : Bool × State :=
  match w.at_.loc with
  | .phys pa =>
    if w.strand = tundishKey then (true, s)
    else s.chargeMem (s.bindOf (strandOfKey (w.strand % 65536)).ctxId).bclass.toNat pa w.bytes.length w.seq
  | .spad _ _ => (true, s)

/-- Whether an atomic that could be performed is admitted by its class's budget (18 R314). -/
def State.admitAmo (s : State) (t : StrandId) (seq : Nat) (p : Place) : Bool × State :=
  match p.loc with
  | .phys pa => s.chargeMem (s.bindOf t.ctxId).bclass.toNat pa 8 seq
  | .spad _ _ => (true, s)

/-- An allowance operation pending at a home that has failed lands its register marked poisoned, as an atomic does (20 R337; DEDUCED,
log 68). -/
def State.lostCounter (s : State) (o : POp) : POp × Option (Dat × Bool) × State :=
  (o, some (.w (BitVec.ofNat 64 (leNat ((List.range 8).map fun i => Config.lostByte s.tick i))), true), { s with tick := s.tick + 1 })

/-- What an interlocked result brings as it lands: what its operation answered, but of a tag word whose home has failed meanwhile a free
value, poisoned (20 R337; log 14). -/
def State.landing (s : State) (p : Pend) (d : Dat) (q : Bool) : (Dat × Bool) × State :=
  match p.op with
  | .tag (.sync pa) =>
    if s.lostAt pa then
      ((.w (BitVec.ofNat 64 (leNat ((List.range 8).map fun i => Config.lostByte s.tick (pa + i)))), true), { s with tick := s.tick + 1 })
    else ((d, q), s)
  | _ => ((d, q), s)

/-- The value of a pending operation that reads memory, if it can be satisfied now, with the operation as far as it has come
and the state after. -/
def State.satisfy (s : State) (t : StrandId) (p : Pend) : POp × Option (Dat × Bool) × State :=
  match p.op with
  | .load f bs =>
    if bs.any fun b => match b with | .at_ q => s.placeLost q | _ => false then
      let bs' := bs.map fun b => match b with
        | .at_ q => if s.placeLost q then .got (Config.lostByte s.tick (match q.loc with | .phys pa => pa | .spad _ o => o)) true else b
        | _ => b
      (.load f bs', none, { s with tick := s.tick + 1 })
    else if bs.any fun b => match b with | .at_ q => !s.afterOlder t p.seq q | _ => false then (p.op, none, s)
    else
      let s0 := s.lookUp t bs
      let bs' := s0.readBytes t p.seq f bs
      let seen := s0.observes t p.seq f bs
      let r := s0.admitLoad t p.seq bs bs'
      let st := r.2.strand t
      let s1 := (if seen.isEmpty then r.2 else r.2.setStrand t { st with observed := seen.foldl nsInsert st.observed }).keepFills t
        p.seq bs
      if !r.1 then (p.op, none, r.2)
      else if allRead bs' then (.load f bs', some (loadValue f bs'), s1) else (.load f bs', none, s1.requestFor t bs')
  | .amo op q b d =>
    if s.placeLost q then
      let pa := match q.loc with | .phys a => a | .spad _ o => o
      (p.op, some (.w (BitVec.ofNat 64 (leNat ((List.range 8).map fun i => Config.lostByte s.tick i))), true),
        ({ s with tick := s.tick + 1 } : State).log t.die logL2 5 (pa / 128 % 16) 0 pa 0)
    else
      let r := s.amoTry t p.seq op q b d
      let m := s.admitAmo t p.seq q
      if r.1.isNone then (p.op, none, r.2)
      else if !m.1 then (p.op, none, m.2)
      else
        let r1 := m.2.amoTry t p.seq op q b d
        (p.op, r1.1.map fun x => (.w x.1, x.2), r1.2)
  | .cpStatus =>
    let o := s.core t.coreId
    (p.op, some (.w (BitVec.ofNat 64 ((List.range 8).foldr (fun q acc => min 255 (o.copyq[q]!).length + 256 * acc) 0)), false), s)
  | .aread ctr =>
    if s.lostAt ctr then s.lostCounter p.op else (p.op, some (.w (BitVec.ofNat 64 (s.areadValue t.clusterId.key ctr)), false), s)
  | .adec ctr _ => if s.lostAt ctr then s.lostCounter p.op else (p.op, none, s)
  | .axread ctr => if s.lostAt ctr then s.lostCounter p.op else (p.op, none, s)
  | _ => (p.op, none, s)

/-- The pending operation of an age. -/
def pendAt (ps : List Pend) (n : Nat) : Option Pend :=
  match ps with
  | [] => none
  | p :: r => if p.seq = n then some p else pendAt r n

/-- The pending operation of an age replaced. -/
def pendSet (ps : List Pend) (n : Nat) (x : Pend) : List Pend := ps.map fun p => if p.seq = n then x else p

/-- The bytes of a value. -/
def Dat.bytes (d : Dat) : List Byte :=
  match d with
  | .w x => leBytes 8 x.toNat
  | .v x => leBytes 256 x.toNat
  | .fmt x => leBytes 4 x.toNat
  | .rows xs _ => xs.flatMap fun x => leBytes 256 x.1.toNat
  | .accRows xs => xs.flatMap fun x => leBytes 512 x.1.toNat

/-- A part of a signature once the operation of an age has brought its value (22 R363). -/
def SigPart.fill (x : SigPart) (seq : Nat) (d : Dat) : SigPart :=
  match x with
  | .awaited n => if n = seq then .known d.bytes else x
  | _ => x

/-- An interlocked result that comes is in the registers before every later bundle that is not yet confirmed (22 R364); with its own it goes
into the signature and to the trailing copy (R362, R363). -/
def State.landBefore (s : State) (t : StrandId) (seq : Nat) (tg : Tgt) (d : Dat) (p : Bool) (issued : W64) : State :=
  let st := s.strand t
  if st.unconfirmed.isEmpty then s
  else
    let put := fun (u : Unconfirmed) =>
      let u1 := { u with parts := u.parts.map fun x => x.fill seq d
                         brought := if u.step = issued then u.brought ++ [⟨tg, d, issued, issued, p⟩] else u.brought }
      if stepBefore issued u.step then { u1 with before := u1.before.put tg d p } else u1
    s.setStrand t { st with unconfirmed := st.unconfirmed.map put }

/-! ## Waiting bundles (R266, 18 R311) -/

/-- Whether a strand has been held at issue, or has waited in a join, for 64 cycles (18 R311). -/
def State.heldLong (s : State) (t : StrandId) : Bool := decide (64 ≤ s.cycles t.die (s.now - (s.strand t).waitTime))

/-- A tag operation still false after 64 cycles is withdrawn and its bundle waits (R266). -/
def execTagWaitTimeout (t : StrandId) (s : State) : Out :=
  match (s.strand t).hold with
  | some (.tag w want) =>
    if s.tagOf w = want || !s.heldLong t then .next s else .next (s.setStrand t { s.strand t with waited := true })
  | _ => .next s

/-- A change of the tag re-presents the bundles that wait on the word (R266). -/
def execTagChangeWake (w : TagWord) (s : State) : Out :=
  .next { s with strands := s.strands.map fun x =>
    match x.2.hold with
    | some (.tag w' _) => if w' = w then (x.1, { x.2 with waited := false }) else x
    | _ => x }

/-- A join, cp.wait or barrier hold of 64 cycles makes its bundle a waiting bundle (18 R311). -/
def execWaitHoldTimeout (t : StrandId) (s : State) : Out :=
  let waits := match (s.strand t).hold with
    | some (.join _ _) => true
    | some (.cpWait _) => true
    | some (.barrier _) => true
    | some (.arrive _) => true
    | _ => false
  if waits && s.heldLong t then .next (s.setStrand t { s.strand t with waited := true }) else .next s

/-! ## Writes reach their performing point (14 R243, 20 R321) -/

/-- A pending write by its age. -/
def writeAt (ws : List PWrite) (n : Nat) : Option PWrite :=
  match ws with
  | [] => none
  | w :: r => if w.seq = n then some w else writeAt r n

/-- A write to a failed home is discarded and logged (20 R337). -/
def State.discardWrite (s : State) (w : PWrite) : State :=
  { s with writes := s.writes.filter fun x => x.seq != w.seq }.log (clusterOfKey w.cluster).die logL2 5
    (match w.at_.loc with | .phys pa => pa / 128 % 16 | .spad _ _ => 0) 0 (match w.at_.loc with | .phys pa => pa | .spad _ o => o) 0

/-- A pending write removed. -/
def State.dropWrite (s : State) (n : Nat) : State := { s with writes := s.writes.filter fun w => w.seq != n }

/-- A write through the cluster window, to uncached or memory-side memory, or to a host window reaches its performing point;
in a host window first the PCIe controller's acceptance, then the completer's acknowledgement (R243). A write to a failed
home is discarded (20 R337). -/
def execWritePerformed (n : Nat) (s : State) : Out :=
  match writeAt s.writes n with
  | none => .next s
  | some w =>
    if w.at_.cacheable then .next s
    else if !s.inOrder w then .next s
    else if s.placeLost w.at_ then .next (s.discardWrite w)
    else
      match w.at_.loc with
      | .phys pa =>
        if s.hostGone pa then .next s
        else if hostBase ≤ pa ∧ !w.accepted then
          .next { s.performAt w.at_ w.bytes 0 with
            writes := s.writes.map fun x => if x.seq = n then { x with accepted := true } else x }
        else if hostBase ≤ pa then .next (s.dropWrite n)
        else
          let (admitted, s1) := s.admitWrite w
          .next (if admitted then ((s1.performAt w.at_ w.bytes (s1.clearsNow w 64)).dropWrite n).counterStore w else s1)
      | .spad _ _ => .next ((s.performAt w.at_ w.bytes (s.clearsNow w 8)).dropWrite n)

/-- A waiting cacheable write is performed once its slice has room for the line, holds it in M and every lease has ended or been returned;
until it holds M the slice asks for it (R321, R330). -/
def execSliceWritePerformed (n : Nat) (s : State) : Out :=
  match writeAt s.writes n with
  | none => .next s
  | some w =>
    match w.at_.loc with
    | .spad _ _ => .next s
    | .phys pa =>
      if !w.at_.cacheable || !s.inOrder w then .next s
      else if s.placeLost w.at_ then .next (s.discardWrite w)
      else
        let d := (clusterOfKey w.cluster).die
        match s.takeM d (lineOf pa) with
        | none =>
          (match tget (s.die d).l2 (lineOf pa) with
           | some x => .next (s.request d (lineOf pa) (if x.st = .S ∨ x.st = .O then .upgrade else .own))
           | none => .next (s.request d (lineOf pa) .own))
        | some x =>
          if s.leasesOver d x then
            match s.makeRoom d (lineOf pa) with
            | none => .next s
            | some s1 =>
              let (admitted, s2) := s1.admitWrite w
              .next (if admitted then ((s2.performIn d pa w.bytes (s2.clearsNow w 32) x).dropWrite n).counterStore w else s2)
          else .next s

end Sys2Proof.Machine
end

