-- ==== Sys2Proof/Machine/Engines.lean ====
section
/-! DEFINITION. The E class: the copy engine (11 R209 to R218), the memory-side engine (21 R339 to R346) and the link engine
(21 R348 to R353) of a core, with the events in which their queues move bytes and complete. -/

namespace Sys2Proof.Machine

/-! ## Completion words (11 R211, R214) -/

/-- A completion word checked at issue: ALIGN, BOUNDS, XLATE for want of write permission, HOMELOST. -/
def State.cwordAt (s : State) (va : W64) : Except AddrFault CWord :=
  match s.tagWord s.turn va needW with
  | .error e => .error e
  | .ok (.spad o off, _, _) => .ok (.spad o.key off)
  | .ok (.sync pa, _, _) => .ok (.sync pa va.toNat (s.bindOf s.turn.ctxId).asid)

/-- The fill: the status is written and the tag set full, whatever they held. -/
def State.fillWord (s : State) (w : Option CWord) (status : Nat) : State :=
  match w with
  | none => s
  | some (.spad k off) =>
    (s.performAt ⟨.spad k off, false, 0, false⟩ (withOffsets (leBytes 4 status)) 0).setTag (.spad (coreOfKey k) off) true
  | some (.sync pa _ _) =>
    if s.lostAt pa then s
    else (s.performAt ⟨.phys pa, true, 0, false⟩ (withOffsets (leBytes 8 status)) 0).setTag (.sync pa) true

/-- The strand value that marks the writes of an engine operation of age `seq`. -/
def engineKey (seq strand : Nat) : Nat := 65536 * (seq + 1) + strand

/-- The status of a byte that cannot be reached (R214, R216; 20 R337). -/
def stopStatus (cause : BitVec 8) : Nat := if cause = causeXlate then 1 else 2

/-- Change the issuing strand's core. -/
def State.onCore (s : State) (f : Core → Core) : State := s.setCore s.turn.coreId (f (s.core s.turn.coreId))

/-- Change the geometry registers of the issuing strand's core. -/
def State.onGeo (s : State) (f : Geometry → Geometry) : State := s.onCore fun o => { o with geo := f o.geo }

/-! ## Copy engine: the sub-commands (R210, R211, R213, R215) -/

def execCpSrc (a : Reg) (s : State) : Out :=
  .next (s.matrixOnly fun s => s.onGeo fun g => { g with csrc := s.cur.rg a })
def execCpDst (a : Reg) (s : State) : Out :=
  .next (s.matrixOnly fun s => s.onGeo fun g => { g with cdst := s.cur.rg a })
/-- cp.dims: the count and source stride of a dimension. -/
def execCpDims (a b : Reg) (n : BitVec 5) (s : State) : Out :=
  if 5 < n.toNat then .next s.illegalEncoding
  else .next (s.matrixOnly fun s => s.onGeo fun g =>
    { g with ccount := g.ccount.set! n.toNat ((s.cur.rg a).setWidth 32), csstr := g.csstr.set! n.toNat (s.cur.rg b) })
/-- cp.dimd: the destination stride of a dimension. -/
def execCpDimd (b : Reg) (n : BitVec 5) (s : State) : Out :=
  if 5 < n.toNat then .next s.illegalEncoding
  else .next (s.matrixOnly fun s => s.onGeo fun g => { g with cdstr := g.cdstr.set! n.toNat (s.cur.rg b) })

/-- Index count of a dimension: 0 acts as 1. -/
def dimCount (g : Geometry) (n : Nat) : Nat := max 1 (g.ccount[n]!).toNat

/-- The addresses of a copy from a base, modulo the 2,048 bytes over which the banks repeat. -/
def Geometry.residues (g : Geometry) (base : W64) (strides : Vector W64 6) : BitVec 2048 :=
  (List.range 6).foldl (fun (m : BitVec 2048) n =>
    (List.range (min 2048 (dimCount g n))).foldl (fun acc i => acc ||| m.rotateLeft (i * (strides[n]!).toNat % 2048)) 0)
    (1#2048 <<< (base.toNat % 2048))

/-- The banks of a set of addresses modulo 2,048. -/
def residueBanks (m : BitVec 2048) : BitVec 32 :=
  (List.range 32).foldl (fun b i => if m.extractLsb' (64 * i) 64 = 0 then b else b ||| (1#32 <<< i)) 0

/-- The lowest and the highest address of a copy from a base, as integers: its strides are signed. -/
def Geometry.hull (g : Geometry) (base : W64) (strides : Vector W64 6) : Int × Int :=
  (List.range 6).foldl (fun (x : Int × Int) n =>
    let d := Int.ofNat (dimCount g n - 1) * (strides[n]!).toInt
    (x.1 + min 0 d, x.2 + max 0 d)) (Int.ofNat base.toNat, Int.ofNat base.toNat)

/-- The banks that one side of a copy needs (03 R64): on every core of whose window addresses it reaches some, by the lowest and the
highest of them (DESIGN CHOICE, log 73). -/
def State.sideNeeds (s : State) (g : Geometry) (base : W64) (strides : Vector W64 6) : List (Nat × BitVec 32) :=
  let banks := residueBanks (g.residues base strides)
  let part := (s.bindOf s.turn.ctxId).partBytes
  let meets := fun (lo : Nat) => decide ((g.hull base strides).1 < Int.ofNat (lo + part) ∧ Int.ofNat lo ≤ (g.hull base strides).2)
  (if meets 0 then [(s.turn.coreId.key, banks)] else []) ++
    (List.finRange 4).filterMap fun c => if meets (0x100000 + 0x80000 * c.val) then some ((s.turn.ctxId.coreId c).key, banks) else none

/-- The banks that a copy of a geometry needs. -/
def State.copyNeeds (s : State) (g : Geometry) : List (Nat × BitVec 32) :=
  s.sideNeeds g g.csrc g.csstr ++ s.sideNeeds g g.cdst g.cdstr

/-- A copy joins its queue with a copy of the geometry, under the fences issued before it (R211, R213); it is held on a reserved bank
that it needs (03 R64). -/
def State.enqueueCopy (s : State) (q : Nat) (w : Option CWord) : State :=
  let o := s.core s.turn.coreId
  if 16 ≤ (o.copyq[q]!).length then s.holdFor (.queue (.copies q))
  else if s.busyOf (s.copyNeeds o.geo) then s.holdFor (.bank (s.copyNeeds o.geo))
  else
    let (n, s1) := s.fresh
    let b := s.bindOf s.turn.ctxId
    let op : CopyOp := { geo := o.geo, asid := b.asid, gen := b.gen, ctx := s.turn.ctx.val, core := s.turn.core.val, cw := w
                         seq := n, after := o.qfence[q]!, moved := 0, chunk := [], prior := [], begun := false, corrupt := false
                         status := none }
    s1.onCore fun o => { o with copyq := o.copyq.set! q (o.copyq[q]! ++ [op]) }

/-- cp.go checks the completion word, then queues (R211). -/
def execCpGo (a : Reg) (n : BitVec 5) (s : State) : Out :=
  if 7 < n.toNat then .next s.illegalEncoding
  else .next (s.matrixOnly fun s =>
    if a = 0 then s.enqueueCopy n.toNat none
    else
      match s.cwordAt (s.cur.rg a) with
      | .error (cause, sub, faddr) => s.faultAt cause sub faddr
      | .ok w => s.enqueueCopy n.toNat (some w))

/-- The ages of the operations in the queues that a mask names. -/
def agesIn (o : Core) (m : BitVec 8) : NatSet :=
  (List.range 8).foldl (fun ns q => if m.getLsbD q then (o.copyq[q]!).foldl (fun ns x => nsInsert ns x.seq) ns else ns) []

/-- cp.qfence: operations appended from now on to the named queues wait for those appended to them before (R213). -/
def execCpQfence (m : BitVec 8) (s : State) : Out :=
  .next (s.matrixOnly fun s => s.onCore fun o =>
    let ages := agesIn o m
    { o with qfence := Vector.ofFn fun q => if m.getLsbD q.val then ages.foldl nsInsert (o.qfence[q.val]) else o.qfence[q.val] })

/-- cp.status is interlocked (R215). -/
def execCpStatus (d : Reg) (s : State) : Out := .next (s.matrixOnly fun s => s.pending (.g d) .cpStatus none false)

/-- cp.wait holds until its queue is idle (R215). -/
def execCpWait (n : BitVec 5) (s : State) : Out :=
  if 7 < n.toNat then .next s.illegalEncoding
  else .next (s.matrixOnly fun s =>
    if ((s.core s.turn.coreId).copyq[n.toNat]!).isEmpty then s else s.holdFor (.cpWait n.toNat))

/-! ## Copy engine: the moves (R212, R216, R217) -/

/-- Number of index tuples. -/
def Geometry.total (g : Geometry) : Nat := (List.range 6).foldl (fun p n => p * dimCount g n) 1
/-- Address of tuple i from a base, dimension 0 fastest. -/
def Geometry.addr (g : Geometry) (base : W64) (strides : Vector W64 6) (i : Nat) : W64 :=
  ((List.range 6).foldl (fun (x : W64 × Nat) n =>
    (x.1 + BitVec.ofNat 64 (x.2 % dimCount g n) * strides[n]!, x.2 / dimCount g n)) (base, i)).1

/-- What a byte held before an operation wrote it. -/
def priorByte (xs : List (Loc × Byte)) (l : Loc) : Option Byte :=
  match xs with
  | [] => none
  | (l', b) :: r => if l' = l then some b else priorByte r l

/-- A byte that the operation has written itself is read as before or after that write (R212, DESIGN CHOICE, log 7). -/
def State.oldOrNew (s : State) (xs : List (Loc × Byte)) (l : Loc) (i : Nat) (b : Byte) : Byte :=
  match priorByte xs l with
  | some old => if Config.either s.tick i then old else b
  | none => b

/-- An engine write: at once in the issuing strand's own scratchpad, else on its cluster's write path. -/
def State.engineWrite (s : State) (t : StrandId) (key : Nat) (va : W64) (p : Place) (b : Byte) : State :=
  match p.loc with
  | .spad o _ =>
    if o = t.coreId.key then s.performAt p [(0, b)] 0
    else
      let (n, s1) := s.fresh
      { s1 with writes := s1.writes ++ [⟨n, key, t.clusterId.key, p, va.toNat, [(0, b)], 0, false⟩] }
  | .phys _ =>
    let (n, s1) := s.fresh
    s1.putWrite ⟨n, key, t.clusterId.key, p, va.toNat, [(0, b)], 0, false⟩

/-- DETAIL of an engine fault: the status, the queue (8 for the memory-side engine) and the age of the operation; their places in the
word the manual leaves open (DESIGN CHOICE, log 63). -/
def faultDetail (status queue seq : Nat) : Nat := status + 2 ^ 8 * queue + 2 ^ 16 * (seq % 2 ^ 48)

/-- The queue of a core that holds a copy. -/
def Core.queueOf (o : Core) (op : CopyOp) : Nat := ((List.range 8).find? fun q => (o.copyq[q]!).any fun x => x.seq == op.seq).getD 0

/-- An operation stops with a status; the fault is logged with core, queue, operation and address (R216). -/
def State.stopCopy (s : State) (o : CoreId) (op : CopyOp) (status : Nat) (va : W64) : CopyOp × State × Bool :=
  ({ op with status := some status },
    s.log o.die logEngine 9 (coreUnit o) 0 va.toNat (faultDetail status ((s.core o).queueOf op) op.seq), false)

/-- Whether the budget of a strand's class admits a byte that an engine reads, and the meters after it (18 R314); the byte's write
is charged as it is performed. -/
def State.admitByte (s : State) (t : StrandId) (seq : Nat) (p : Place) : Bool × State :=
  match p.loc with
  | .phys pa => s.chargeMem (s.bindOf t.ctxId).bclass.toNat pa 1 seq
  | .spad _ _ => (true, s)

/-- The next byte of a copy: moved, stopped, or waiting for a line. The third result says whether the copy goes on. -/
def State.copyByte (s : State) (o : CoreId) (op : CopyOp) : CopyOp × State × Bool :=
  let t : StrandId := ⟨o.die, o.cluster, Fin.ofNat 8 op.ctx, Fin.ofNat 4 op.core⟩
  let sa := op.geo.addr op.geo.csrc op.geo.csstr op.moved
  let da := op.geo.addr op.geo.cdst op.geo.cdstr op.moved
  match s.resolveIn t op.asid op.gen sa needR with
  | .error e => s.stopCopy o op (stopStatus e.1) sa
  | .ok p =>
    let s := s.lookUp t [.at_ p]
    match s.view t op.seq p with
    | none => (op, s.requestFor t [.at_ p], false)
    | some (_, true, _) => s.stopCopy o op 3 sa
    | some (b, false, _) =>
      match s.resolveIn t op.asid op.gen da needW with
      | .error e => s.stopCopy o op (stopStatus e.1) da
      | .ok q =>
        match s.view t op.seq q with
        | none => (op, s.requestFor t [.at_ q], false)
        | some (was, _, _) =>
          let b' := s.oldOrNew op.prior p.loc op.moved b
          let prior := match priorByte op.prior q.loc with | some _ => op.prior | none => (q.loc, was) :: op.prior
          let (admitted, s1) := s.admitByte t op.seq p
          if admitted then ({ op with moved := op.moved + 1, prior := prior }, s1.engineWrite t (engineKey op.seq t.key) da q b', true)
          else (op, s1, false)

/-- At most n bytes of a copy. -/
def State.copyRun (s : State) (o : CoreId) (op : CopyOp) (n : Nat) : CopyOp × State :=
  match n with
  | 0 => (op, s)
  | k + 1 =>
    if op.geo.total ≤ op.moved then (op, s)
    else
      let r := s.copyByte o op
      if r.2.2 then r.2.1.copyRun o r.1 k else (r.1, r.2.1)

/-- The operations of a queue behind one that stopped are cancelled (R216). -/
def cancelRest (xs : List CopyOp) : List CopyOp := xs.map fun x => { x with status := x.status.orElse fun _ => some 4 }

/-- Write a copy queue. -/
def State.setCopyq (s : State) (o : CoreId) (n : Fin 8) (xs : List CopyOp) : State :=
  s.setCore o { s.core o with copyq := (s.core o).copyq.set n.val xs }

/-- The scratchpad bytes that a copy moves next, the chunk whose banks it holds (R64; DESIGN CHOICE, log 54). -/
def State.nextChunk (s : State) (o : CoreId) (op : CopyOp) : List Loc :=
  let t : StrandId := ⟨o.die, o.cluster, Fin.ofNat 8 op.ctx, Fin.ofNat 4 op.core⟩
  let side := fun (va : W64) =>
    if isGlobal va then []
    else match s.resolveIn t op.asid op.gen va needR with | .ok p => [p.loc] | .error _ => []
  if op.geo.total ≤ op.moved then []
  else side (op.geo.addr op.geo.csrc op.geo.csstr op.moved) ++ side (op.geo.addr op.geo.cdst op.geo.cdstr op.moved)

/-- The operation at the head of a queue begins and moves up to `count` bytes (R212, R213); one whose descriptor fails its check as it
is read stops before it moves any (22 R358). The operations behind one that stops are cancelled. -/
def execCopyOperationStart (o : CoreId) (n : Fin 8) (count : Nat) (s : State) : Out :=
  match (s.core o).copyq[n.val] with
  | [] => .next s
  | op :: r =>
    if op.status.isSome then .next s
    else if (agesIn (s.core o) 255).any fun x => op.after.contains x then .next s
    else
      let x := if op.corrupt then ((s.stopCopy o op 7 0).1, (s.stopCopy o op 7 0).2.1) else s.copyRun o { op with begun := true } count
      let op1 := { x.1 with chunk := x.2.nextChunk o x.1 }
      .next (x.2.setCopyq o n (op1 :: (if op1.status.isSome then cancelRest r else r)))

/-- Whether a list of locations holds n bytes from one. -/
def coversAll (xs : List (Loc × Byte)) (f : Nat → Loc) (n : Nat) : Bool :=
  (List.range n).all fun i => (priorByte xs (f i)).isSome

/-- Granules that the operation wrote whole lose their poison (22 R355). -/
def State.clearCovered (s : State) (xs : List (Loc × Byte)) : State :=
  xs.foldl (fun s x =>
    match x.1 with
    | .spad o off =>
      if off % 8 = 0 ∧ s.spadPoisoned o off ∧ coversAll xs (fun i => .spad o (off + i)) 8 then
        let c := s.core (coreOfKey o)
        s.setCore (coreOfKey o) { c with spadPoison := nsErase c.spadPoison (off / 8) }
      else s
    | .phys pa =>
      let s1 := if pa % 64 = 0 ∧ s.hbmPoison.contains (pa / 64) ∧ coversAll xs (fun i => .phys (pa + i)) 64 then s.clearHbm pa true else s
      if pa % 32 = 0 ∧ s1.devicePoison pa ∧ coversAll xs (fun i => .phys (pa + i)) 32 then
        allDies.foldl (fun s d =>
          match tget (s.die d).l2 (lineOf pa) with
          | some l => s.setLine d (lineOf pa) { l with poison := l.poison &&& ~~~(1#4 <<< (pa % 128 / 32)) }
          | none => s) s1
      else s1) s

/-- The operation at the head of a queue completes when it has moved every byte, or has stopped, and its writes are performed:
its word is filled and it leaves the queue (R213, R214). -/
def execCopyOperationComplete (o : CoreId) (n : Fin 8) (s : State) : Out :=
  match (s.core o).copyq[n.val] with
  | [] => .next s
  | op :: r =>
    let key := engineKey op.seq (⟨o.die, o.cluster, Fin.ofNat 8 op.ctx, Fin.ofNat 4 op.core⟩ : StrandId).key
    if s.writes.any fun w => w.strand == key then .next s
    else
      match op.status with
      | some st => .next ((s.setCopyq o n r).fillWord op.cw st)
      | none =>
        if op.geo.total ≤ op.moved then .next (((s.clearCovered op.prior).setCopyq o n r).fillWord op.cw 0) else .next s

/-! ## Memory-side engine (21 R340 to R346) -/

def execMsLen (a : Reg) (s : State) : Out := .next (s.matrixOnly fun s => s.onCore fun o => { o with mlen := s.cur.rg a })

/-- What a write of a completion-word register stores (R341, R349). -/
def State.cwReg (s : State) (a : Reg) (old : CwReg) : CwReg :=
  if a = 0 then { old with valid := false } else ⟨true, (s.cur.rg a).setWidth 57⟩

def execMsCw (a : Reg) (s : State) : Out := .next (s.matrixOnly fun s => s.onCore fun o => { o with mcw := s.cwReg a o.mcw })

/-- The first address at which a range leaves the global window, if it does. -/
def leavesGlobal (va : W64) (n : Nat) : Option W64 :=
  if n = 0 then none
  else if !isGlobal va then some va
  else if 2 ^ 57 < va.toNat + n then some (BitVec.ofNat 64 (2 ^ 57))
  else none

/-- The completion word of a register checked as R211 does. -/
def State.cwChecked (s : State) (r : CwReg) : Except AddrFault (Option CWord) :=
  if r.valid then
    match s.cwordAt (r.addr.setWidth 64) with
    | .error e => .error e
    | .ok w => .ok (some w)
  else .ok none

/-- ms.zero and ms.copy: the checks in their order, then the queue of 8 (R342). -/
def State.rowOp (s : State) (copy : Bool) (dst src : W64) : State :=
  let o := s.core s.turn.coreId
  let n := o.mlen.toNat
  if n % 1024 ≠ 0 ∨ 2 ^ 30 < n then s.faultAt causeBounds 0 o.mlen
  else if dst.toNat % 1024 ≠ 0 then s.faultAt causeAlign 0 dst
  else if copy ∧ src.toNat % 1024 ≠ 0 then s.faultAt causeAlign 0 src
  else
    match (match leavesGlobal dst n with | some a => some a | none => if copy then leavesGlobal src n else none) with
    | some a => s.faultAt causeBounds 0 a
    | none =>
      match s.cwChecked o.mcw with
      | .error (cause, sub, faddr) => s.faultAt cause sub faddr
      | .ok w =>
        if 8 ≤ o.msq.length then s.holdFor (.queue .rows)
        else
          let (k, s1) := s.fresh
          let b := s.bindOf s.turn.ctxId
          let op : MsOp := { copy := copy, dst := dst, src := src, len := n, asid := b.asid, gen := b.gen
                             strand := s.turn.key, cw := w, seq := k, moved := 0, prior := [], begun := false, corrupt := false
                             status := none }
          s1.onCore fun o => { o with msq := o.msq ++ [op] }

def execMsZero (a : Reg) (s : State) : Out := .next (s.matrixOnly fun s => s.rowOp false (s.cur.rg a) 0)
def execMsCopy (a b : Reg) (s : State) : Out := .next (s.matrixOnly fun s => s.rowOp true (s.cur.rg a) (s.cur.rg b))

/-- Whether stores that the issuing strand made before an operation are still pending in n bytes from an address. -/
def State.storesBefore (s : State) (strand seq pa n : Nat) : Bool :=
  s.writes.any fun w => w.strand == strand && decide (w.seq < seq) &&
    (match w.at_.loc with
     | .phys q => w.bytes.any fun b => decide (pa ≤ q + b.1 ∧ q + b.1 < pa + n)
     | .spad _ _ => false)

/-- Whether a write that the cluster's write path has accepted, and so forwards to the reads of its engines (14 R243), is still to be performed
in n bytes from an address. -/
def State.pathHolds (s : State) (cluster pa n : Nat) : Bool :=
  s.writes.any fun w => w.onPath && decide (w.cluster = cluster) &&
    (match w.at_.loc with
     | .phys q => w.bytes.any fun b => decide (pa ≤ q + b.1 ∧ q + b.1 < pa + n)
     | .spad _ _ => false)

/-- A piece of an operation resolved: its physical address and whether its page is memory-side, or a status. -/
def State.pieceAt (s : State) (o : CoreId) (op : MsOp) (va : W64) (n : Need) : Except Nat (Nat × Bool) :=
  match s.translate o.clusterId op.asid op.gen va n with
  | .error e => .error (stopStatus e.1)
  | .ok p =>
    match p.loc with
    | .phys pa => if hostBase ≤ pa then .error 2 else .ok (pa, p.ms)
    | .spad _ _ => .error 2

/-- A row operation stops (R346). -/
def State.stopRow (s : State) (o : CoreId) (op : MsOp) (status : Nat) (va : W64) : MsOp × State × Bool :=
  ({ op with status := some status }, s.log o.die logEngine 9 (coreUnit o) 0 va.toNat (faultDetail status 8 op.seq), false)

/-- 512 bytes written to HBM at device scope, with valid check bits. -/
def State.writePiece (s : State) (pa : Nat) (bs : List Byte) : State :=
  (List.range 8).foldl (fun s i => s.homeWrite (pa + 64 * i) (withOffsets ((bs.drop (64 * i)).take 64)) 64) s

/-- A piece is written once the budget of its strand's class admits it (18 R314). -/
def State.admitPiece (s : State) (op : MsOp) (pa bytes : Nat) : Bool × State :=
  s.chargeMem (s.bindOf (strandOfKey op.strand).ctxId).bclass.toNat pa bytes op.seq

/-- The next piece of a row operation (R343, R345). The third result says whether the operation goes on. -/
def State.rowPiece (s : State) (o : CoreId) (op : MsOp) : MsOp × State × Bool :=
  let i := BitVec.ofNat 64 op.moved
  match s.pieceAt o op (op.dst + i) needW with
  | .error st => s.stopRow o op st (op.dst + i)
  | .ok (pa, ms) =>
    if s.storesBefore op.strand op.seq pa 512 || s.pathHolds o.clusterId.key pa 512 then (op, s, false)
    else
      match (if ms then some s else s.purgeLines ((List.range 4).map fun j => lineOf pa + j)) with
      | none => (op, s, false)
      | some s1 =>
        if !op.copy then
          let (admitted, s2) := s1.admitPiece op pa 512
          if admitted then ({ op with moved := op.moved + 512 }, s2.writePiece pa (List.replicate 512 0), true) else (op, s2, false)
        else
          match s.pieceAt o op (op.src + i) needR with
          | .error st => s.stopRow o op st (op.src + i)
          | .ok (qa, _) =>
            if s.storesBefore op.strand op.seq qa 512 || s.pathHolds o.clusterId.key qa 512 then (op, s, false)
            else
              let s2 := (List.range 4).foldl (fun s j => s.cleanLine (lineOf qa + j)) s1
              if (List.range 8).any fun j => s2.devicePoison (qa + 64 * j) || s2.devicePoison (qa + 64 * j + 32) then
                s.stopRow o op 3 (op.src + i)
              else
                let bs := (List.range 512).map fun j =>
                  s2.oldOrNew op.prior (.phys (qa + j)) (op.moved + j) (s2.frameByte (qa + j))
                let was := (List.range 512).map fun j => (Loc.phys (pa + j), s2.frameByte (pa + j))
                let (admitted, s3) := s2.admitPiece op pa 1024
                if admitted then ({ op with moved := op.moved + 512, prior := was ++ op.prior }, s3.writePiece pa bs, true)
                else (op, s3, false)

/-- At most n pieces of a row operation. -/
def State.rowRun (s : State) (o : CoreId) (op : MsOp) (n : Nat) : MsOp × State :=
  match n with
  | 0 => (op, s)
  | k + 1 =>
    if op.len ≤ op.moved then (op, s)
    else
      let r := s.rowPiece o op
      if r.2.2 then r.2.1.rowRun o r.1 k else (r.1, r.2.1)

/-- The row operations behind one that stopped are cancelled (R346). -/
def cancelRows (xs : List MsOp) : List MsOp := xs.map fun x => { x with status := x.status.orElse fun _ => some 4 }

/-- Write the memory-side queue of a core. -/
def State.setMsq (s : State) (o : CoreId) (xs : List MsOp) : State := s.setCore o { s.core o with msq := xs }

/-- The operation at the head of the queue begins and moves up to `count` pieces (R343, R346). -/
def execMsOperationStart (o : CoreId) (count : Nat) (s : State) : Out :=
  match (s.core o).msq with
  | [] => .next s
  | op :: r =>
    if op.status.isSome then .next s
    else
      let x := if op.corrupt then ((s.stopRow o op 7 0).1, (s.stopRow o op 7 0).2.1) else s.rowRun o { op with begun := true } count
      .next (x.2.setMsq o (x.1 :: (if x.1.status.isSome then cancelRows r else r)))

/-- The operation at the head of the queue completes and fills its word (R346). -/
def execMsOperationComplete (o : CoreId) (s : State) : Out :=
  match (s.core o).msq with
  | [] => .next s
  | op :: r =>
    match op.status with
    | some st => .next ((s.setMsq o r).fillWord op.cw st)
    | none => if op.len ≤ op.moved then .next ((s.setMsq o r).fillWord op.cw 0) else .next s

/-! ## Link engine (21 R348 to R353) -/

/-- A link port. -/
def State.port (s : State) (p : Nat) : Port := (tget s.ports p).getD ⟨0, [], [], []⟩
/-- Write a link port. -/
def State.setPort (s : State) (p : Nat) (x : Port) : State := { s with ports := tset s.ports p x }

/-- lk.cw (R349). -/
def execLkCw (a : Reg) (p : BitVec 5) (s : State) : Out :=
  if 15 < p.toNat then .next s.illegalEncoding
  else .next (s.matrixOnly fun s => s.onCore fun o => { o with lcw := o.lcw.set! p.toNat (s.cwReg a (o.lcw.getD p.toNat ⟨false, 0⟩)) })

/-- Operations of a core in a list of a port. -/
def ofCore (k : Nat) (xs : List LinkOp) : Nat := (xs.filter fun x => x.core == k).length

/-- The transfer forms: the checks in their order, then the queue of 8 (R350) and the banks of the range (03 R64). -/
def State.linkOp (s : State) (f : LinkForm) (a b : Reg) (p : Nat) : State :=
  let va := s.cur.rg a
  let n := (s.cur.rg b).toNat
  let bind := s.bindOf s.turn.ctxId
  let k := s.turn.coreId.key
  if p / 4 ≠ s.turn.die.val then s.faultAt causeBounds 0 (BitVec.ofNat 64 p)
  else if va.toNat % 64 ≠ 0 then s.faultAt causeAlign 0 va
  else if n % 64 ≠ 0 then s.faultAt causeBounds 0 va
  else if n ≠ 0 ∧ (!isLocal va ∨ bind.partBytes ≤ va.toNat) then s.faultAt causeBounds 0 va
  else if n ≠ 0 ∧ bind.partBytes < va.toNat + n then s.faultAt causeBounds 0 (BitVec.ofNat 64 bind.partBytes)
  else
    match s.cwChecked ((s.core s.turn.coreId).lcw.getD p ⟨false, 0⟩) with
    | .error (cause, sub, faddr) => s.faultAt cause sub faddr
    | .ok w =>
      let q := s.port p
      if 8 ≤ ofCore k (if f = .send then q.sends else q.recvs) then s.holdFor (.queue (.link p (f == .send)))
      else if n ≠ 0 ∧ s.bankBusy k (bankBits (bind.partBase + va.toNat) n) then
        s.holdFor (.bank [(k, bankBits (bind.partBase + va.toNat) n)])
      else
        let (m, s1) := s.fresh
        let op : LinkOp := ⟨f, bind.partBase + va.toNat, n, k, w, m, bind.bclass.toNat, 0, false, false⟩
        s1.setPort p (if f = .send then { q with sends := q.sends ++ [op] } else { q with recvs := q.recvs ++ [op] })

/-- A transfer form of the link engine. -/
def State.link (s : State) (f : LinkForm) (a b : Reg) (p : BitVec 5) : State :=
  if 15 < p.toNat then s.illegalEncoding else s.matrixOnly fun s => s.linkOp f a b p.toNat

def execLkSend (a b : Reg) (p : BitVec 5) (s : State) : Out := .next (s.link .send a b p)
def execLkRecv (a b : Reg) (p : BitVec 5) (s : State) : Out := .next (s.link .recv a b p)
def execLkRaddF32 (a b : Reg) (p : BitVec 5) (s : State) : Out := .next (s.link .raddF32 a b p)
def execLkRaddBf16 (a b : Reg) (p : BitVec 5) (s : State) : Out := .next (s.link .raddBf16 a b p)
def execLkRaddI32 (a b : Reg) (p : BitVec 5) (s : State) : Out := .next (s.link .raddI32 a b p)

/-- 64 bytes of a scratchpad as a flit with the poison marks of its granules. -/
def State.flitAt (s : State) (k off : Nat) : BitVec 512 × BitVec 8 :=
  (BitVec.ofNat 512 (leNat (s.spadBytes k off 64)),
    (List.range 8).foldl (fun m i => if s.spadPoisoned k (off + 8 * i) then m ||| (1#8 <<< i) else m) 0)

/-- Operations end with a status and their words are filled. -/
def State.endOps (s : State) (xs : List LinkOp) (status : Nat) : State := xs.foldl (fun s x => s.fillWord x.cw status) s

/-- The peer has acknowledged every flit of the oldest send, whose receive has a length: the send completes (R351, R352). A
corrupt descriptor moves nothing and cancels its core's later sends (22 R358). -/
def execLinkSendComplete (p : Fin 16) (peerLen : Nat) (s : State) : Out :=
  let q := s.port p.val
  match q.sends with
  | [] => .next s
  | x :: r =>
    if x.corrupt then
      .next (((s.setPort p.val { q with sends := r.filter fun y => y.core != x.core }).fillWord x.cw 7).endOps
        (r.filter fun y => y.core == x.core) 4)
    else
      let flits := (List.range (x.len / 64)).map fun i => s.flitAt x.core (x.base + 64 * i)
      let (admitted, s1) := s.chargeLink x.cls p x.len x.seq
      .next (if admitted then (s1.setPort p.val { q with sends := r, out := q.out ++ flits }).fillWord x.cw (if peerLen = x.len then 0 else 5)
        else s1)

/-- The sum that a receive-and-add form stores for an element of its width (R353). -/
def raddElem (f : LinkForm) (old new : Nat) : Nat :=
  match f with
  | .raddF32 => (toF32 rne ((f32 (BitVec.ofNat 32 old)).add (f32 (BitVec.ofNat 32 new)) 0)).toNat
  | .raddBf16 => bf16.encode rne false ((bf16.decode old).add (bf16.decode new) 0)
  | .raddI32 => (old + new) % 2 ^ 32
  | _ => new

/-- Width in bytes of an element of a form. -/
def raddWidth (f : LinkForm) : Nat := match f with | .raddBf16 => 2 | _ => 4

/-- The bytes that a flit leaves in a receive range. -/
def State.flitBytes (s : State) (f : LinkForm) (k off : Nat) (flit : BitVec 512) : List Byte :=
  let w := raddWidth f
  (List.range (64 / w)).flatMap fun i =>
    leBytes w (raddElem f (leNat (s.spadBytes k (off + w * i) w)) ((flit.toNat >>> (8 * w * i)) % 2 ^ (8 * w)))

/-- Poison marks of the 8 granules of a flit's place. -/
def State.flitMarks (s : State) (k off : Nat) (f : Nat → Bool) : State :=
  let c := s.core (coreOfKey k)
  s.setCore (coreOfKey k) { c with spadPoison := (List.range 8).foldl (fun m i => nsPut m (off / 8 + i) (f i)) c.spadPoison }

/-- A flit of the oldest receive arrives: written or added into its range, poison with it (R351 to R353). Flits beyond the
receive's length are dropped. -/
def execLinkFlitArrival (p : Fin 16) (flit : BitVec 512) (poison : BitVec 8) (s : State) : Out :=
  let q := s.port p.val
  match q.recvs with
  | [] => .next s
  | x :: r =>
    if x.corrupt || decide (x.len ≤ x.moved) then .next s
    else
      let off := x.base + x.moved
      let was := fun i => (x.form != .recv) && s.spadPoisoned x.core (off + 8 * i)
      let s1 := s.performAt ⟨.spad x.core off, false, 0, false⟩ (withOffsets (s.flitBytes x.form x.core off flit)) 0
      let s2 := s1.flitMarks x.core off fun i => poison.getLsbD i || was i
      .next (s2.setPort p.val { q with recvs := { x with moved := x.moved + 64, poison := x.poison || poison != 0 } :: r })

/-- The oldest receive has written every byte of min(send length, its length) and completes (R351, R352). -/
def execLinkReceiveComplete (p : Fin 16) (sendLen : Nat) (s : State) : Out :=
  let q := s.port p.val
  match q.recvs with
  | [] => .next s
  | x :: r =>
    if x.corrupt then
      .next (((s.setPort p.val { q with recvs := r.filter fun y => y.core != x.core }).fillWord x.cw 7).endOps
        (r.filter fun y => y.core == x.core) 4)
    else if x.moved < min sendLen x.len then .next s
    else
      .next ((s.setPort p.val { q with recvs := r }).fillWord x.cw
        (if sendLen ≠ x.len then 5 else if x.poison then 3 else 0))

/-- A link fails beyond retry: every unfinished operation of the port ends with status 6 (R352). -/
def State.linkdown (s : State) (p : Fin 16) : State :=
  let q := s.port p.val
  (s.setPort p.val { q with sends := [], recvs := [], peer := q.peer &&& 0x0FFFFFFFFF }).endOps (q.sends ++ q.recvs) 6

def execLinkdown (p : Fin 16) (s : State) : Out := .next (s.linkdown p)

/-- The control core cancels a port's unfinished operations with status 4 (R352). -/
def execLinkCancel (p : Fin 16) (s : State) : Out :=
  let q := s.port p.val
  .next ((s.setPort p.val { q with sends := [], recvs := [] }).endOps (q.sends ++ q.recvs) 4)

/-- A port comes up and its peer is recorded (23 R381). -/
def execLinkUp (p : Fin 16) (peer : BitVec 38) (s : State) : Out := .next (s.setPort p.val { s.port p.val with peer := peer })

/-- Whether the copy, memory-side and link queues of a core are idle (03 R50, 11 R218, 21 R353). -/
def State.enginesIdle (s : State) (o : CoreId) : Bool :=
  (s.core o).copyq.all (fun q => q.isEmpty) && (s.core o).msq.isEmpty &&
    (List.range 16).all fun p => ofCore o.key (s.port p).sends == 0 && ofCore o.key (s.port p).recvs == 0

end Sys2Proof.Machine
end

