-- ==== Sys2Proof/Machine/Fetch.lean ====
section
/-! DEFINITION. Fetching the words of a bundle through the cluster's instruction buffer (02 R27, R28, R35, 07 R139), and the
walk over a loop body (04 R83). -/

namespace Sys2Proof.Machine

/-- A byte of text as a fetch reads it: from the cluster's instruction buffer, which does not observe stores, when it holds
the line, else from memory (R35, R139). -/
def State.textByte (s : State) (l : ClusterId) (pa : Nat) : Byte :=
  match tget (s.cluster l).ibuf (lineOf pa) with
  | some xs => xs.getD (pa % 128) 0
  | none => s.frameByte pa

/-- Lines of an instruction buffer of 64 KiB (R139). -/
def textLines : Nat := 512

/-- A line in a cluster's instruction buffer as memory holds it now; a full buffer drops another, which one the manual leaves open
(DESIGN CHOICE, log 13). -/
def State.setText (s : State) (l : ClusterId) (line : Nat) : State :=
  let c := s.cluster l
  let kept := if c.ibuf.length < textLines ∨ (tget c.ibuf line).isSome then c.ibuf
    else c.ibuf.eraseIdx (Config.choice s.tick % c.ibuf.length)
  s.setCluster l { c with ibuf := tset kept line ((List.range 128).map fun i => s.frameByte (128 * line + i)) }

/-- A fetch leaves the line it read in the buffer. -/
def State.addText (s : State) (l : ClusterId) (line : Nat) : State :=
  if (tget (s.cluster l).ibuf line).isSome then s else s.setText l line

/-- One word of text at a virtual address, or the fault of fetching it: ALIGN for an address that is no multiple of 4 (12
R221), BOUNDS outside the global window, XLATE, HOMELOST. -/
def State.fetchWord (s : State) (t : StrandId) (va : W64) : Except AddrFault W32 :=
  if va.toNat % 4 ≠ 0 then .error (causeAlign, 0, va)
  else if !isGlobal va then .error (causeBounds, 0, va)
  else
    match s.resolve t va needX with
    | .error e => .error e
    | .ok p =>
      match p.loc with
      | .spad _ _ => .error (causeBounds, 0, va)
      | .phys pa =>
        .ok (bytesWord (s.textByte t.clusterId pa) (s.textByte t.clusterId (pa + 1))
          (s.textByte t.clusterId (pa + 2)) (s.textByte t.clusterId (pa + 3)))

/-- Words from an address through the first with S = 1, at most n of them: the words, whether the stop bit was found. -/
def State.fetchBundle (s : State) (t : StrandId) (va : W64) (n : Nat) : Except AddrFault (List W32 × Bool) :=
  match n with
  | 0 => .ok ([], false)
  | k + 1 =>
    match s.fetchWord t va with
    | .error e => .error e
    | .ok w =>
      if stopBit w then .ok ([w], true)
      else
        match s.fetchBundle t (va + 4) k with
        | .error e => .error e
        | .ok (ws, b) => .ok (w :: ws, b)

/-- Literal words that follow a syllable: n for an `mkat` (R28), none for any other. -/
def literalCount (w : W32) : Nat := if majorOf w = 0x66 then (w.extractLsb' 6 3).toNat + 1 else 0

/-- n words from an address. -/
def State.fetchWords (s : State) (t : StrandId) (va : W64) (n : Nat) : Except AddrFault (List W32) :=
  match n with
  | 0 => .ok []
  | k + 1 =>
    match s.fetchWord t va with
    | .error e => .error e
    | .ok w =>
      match s.fetchWords t (va + 4) k with
      | .error e => .error e
      | .ok ws => .ok (w :: ws)

/-- A bundle fetched at an address: its words and the literal words after its `mkat`; a bundle without a stop bit in its
eight positions has no literals. -/
def State.fetchAt (s : State) (t : StrandId) (va : W64) : Except AddrFault Decoded :=
  match s.fetchBundle t va 8 with
  | .error e => .error e
  | .ok (ws, found) =>
    let n := if found then literalCount (ws.getLastD 0) else 0
    match s.fetchWords t (va + BitVec.ofNat 64 (4 * ws.length)) n with
    | .error e => .error e
    | .ok ls => .ok ⟨va, ws, ls⟩

/-- The bundle that follows in memory (R27, R28). -/
def Decoded.following (b : Decoded) : W64 := b.addr + BitVec.ofNat 64 (4 * (b.words.length + b.lits.length))

/-- The walk of R83 in memory order: from the bundle at `va`, reading only stop bits and literal counts, to the end of the
bundle that holds address a. `fuel` exceeds the words of the global window, so the walk ends at a
stop bit or at a fetch fault. -/
def State.walkBody (s : State) (t : StrandId) (va a : W64) (fuel : Nat) : Except AddrFault W64 :=
  match fuel with
  | 0 => .ok va
  | k + 1 =>
    match s.fetchWord t va with
    | .error e => .error e
    | .ok w =>
      if stopBit w then
        let next := va + BitVec.ofNat 64 (4 * (1 + literalCount w))
        if a.toNat < next.toNat then .ok next else s.walkBody t next a k
      else s.walkBody t (va + 4) a k

end Sys2Proof.Machine
end

