-- ==== Sys2Proof/Machine/Control.lean ====
section
/-! DEFINITION. The C class: branches, calls, jumps, loops, yield, join, exit and trap (04 R76 to R90, 07 R136, R141 to R143).
A meaning records what the strand does next; the commit of the bundle carries it out. -/

namespace Sys2Proof.Machine

/-- A branch, taken or not. -/
def State.branchIf (s : State) (c : Bool) (i : BitVec 18) : State :=
  s.setIss { s.iss with transfer := if c then .to (target s.iss.addr i) else .none }

def execBrNz (c : Reg) (i : BitVec 18) (s : State) : Out := .next (s.branchIf (s.cur.rg c != 0) i)
def execBrZ (c : Reg) (i : BitVec 18) (s : State) : Out := .next (s.branchIf (s.cur.rg c == 0) i)

/-- brq branches on a uniform predicate and traps NONUNIFORM on a mixed one (R141). -/
def execBrq (c : Reg) (i : BitVec 18) (s : State) : Out :=
  if !kReg c then .next s.illegalEncoding
  else
    let k := s.cur.rk c.toNat
    if allSet k then .next (s.branchIf true i)
    else if k = 0 then .next (s.branchIf false i)
    else .next (s.faultAt 3 0 k)

/-- jal: the link is the address of the bundle that follows in memory (R79). -/
def execJal (d : Reg) (i : BitVec 18) (s : State) : Out :=
  .next ((s.resultG d s.iss.following 1).branchIf true i)

/-- jr: ALIGN, then BOUNDS, for an address that is no bundle address of the global window (R80). -/
def execJr (a : Reg) (s : State) : Out :=
  let x := s.cur.rg a
  if x.toNat % 4 ≠ 0 then .next (s.faultAt causeAlign 0 x)
  else if !isGlobal x then .next (s.faultAt causeBounds 0 x)
  else .next (s.setIss { s.iss with transfer := .to x })

/-- Whether a `loop` of displacement i in a bundle of n bytes raises ILLEGAL: both frames are active, or its body would end at or
before its own bundle (R81, R83). -/
def Strand.loopIllegal (t : Strand) (i : BitVec 18) (n : W64) : Bool :=
  (t.f0.active && t.f1.active) || decide (4 * i.toInt < Int.ofNat n.toNat)

/-- loop opens the innermost free frame, or skips the body when the count is 0 (R81, R83). -/
def execLoop (c : Reg) (i : BitVec 18) (s : State) : Out :=
  let st := s.cur
  if st.loopIllegal i (s.iss.following - s.iss.addr) then .next s.illegal
  else
    let a := target s.iss.addr i
    let n := st.rg c
    if n = 0 then
      match s.walkBody s.turn s.iss.following a (2 ^ 56) with
      | .error (cause, sub, faddr) => .next (s.faultAt cause sub faddr)
      | .ok next => .next (s.setIss { s.iss with transfer := .skip next })
    else
      .next (s.setIss { s.iss with loop_ := some (if st.f0.active then 1 else 0, n, s.iss.following, a) })

/-- yield offers the context's issue to the picker (R87). -/
def execYield (s : State) : Out := .next (s.outsideRegion fun s => s.transfer .yield)
/-- exit ends the strand once its bundle has committed (R88). -/
def execExit (s : State) : Out := .next (s.outsideRegion fun s => s.transfer .exit)
/-- trap commits its bundle and raises BREAK with its code (R89). -/
def execTrap (c : BitVec 12) (s : State) : Out := .next (s.outsideRegion fun s => s.transfer (.break_ c))
/-- join waits for the strands that are not attached up to the budget (07 R143). -/
def execJoin (s : State) : Out := .next (s.outsideRegion fun s => s.transfer (.join false))
/-- join.all waits for every strand (07 R143). -/
def execJoinAll (s : State) : Out := .next (s.outsideRegion fun s => s.transfer (.join true))

/-! ## The next bundle (R76, R84, R85) -/

/-- Frame j of a strand. -/
def Strand.frame (t : Strand) (j : Fin 2) : Frame := if j = 0 then t.f0 else t.f1
/-- Counter of frame j. -/
def Strand.lc (t : Strand) (j : Fin 2) : W64 := if j = 0 then t.lc0 else t.lc1
/-- Write frame j with its counter. -/
def Strand.setFrame (t : Strand) (j : Fin 2) (f : Frame) (n : W64) : Strand :=
  if j = 0 then { t with f0 := f, lc0 := n } else { t with f1 := f, lc1 := n }

/-- Frame j made inactive with counter 0 when its range excludes a target (R85). The range runs from the body start to address A of
`loop`, inclusive; an address after A in the body-end bundle is outside it (DESIGN CHOICE, log 57). -/
def Strand.leaveFrame (t : Strand) (j : Fin 2) (a : W64) : Strand :=
  let f := t.frame j
  if f.active && !(decide (f.start.toNat ≤ a.toNat) && decide (a.toNat ≤ f.stop.toNat)) then
    t.setFrame j Frame.reset 0
  else t

/-- Whether the bundle from addr to following is the body end of frame j. -/
def Strand.endsFrame (t : Strand) (j : Fin 2) (addr following : W64) : Bool :=
  (t.frame j).active && decide (addr.toNat ≤ (t.frame j).stop.toNat) && decide ((t.frame j).stop.toNat < following.toNat)

/-- The body-end test of frame j (R84): the strand, its next bundle, whether the frame ended. An ended frame's addresses are 0 (DESIGN CHOICE,
log 81). -/
def Strand.bodyEnd (t : Strand) (j : Fin 2) (following : W64) : Strand × W64 × Bool :=
  if 1 < (t.lc j).toNat then (t.setFrame j (t.frame j) (t.lc j - 1), (t.frame j).start, false)
  else (t.setFrame j Frame.reset 0, following, true)

/-- The body-end tests of a bundle without a branch: the innermost active frame, then, when it ends here, the outer one. Frame 1 is
the inner one while both are active, also when frame 0 was opened later (DESIGN CHOICE, log 57). -/
def Strand.bodyEnds (t : Strand) (addr following next : W64) : Strand × W64 :=
  if t.f1.active then
    if t.endsFrame 1 addr following then
      let (t1, n1, ended) := t.bodyEnd 1 next
      if ended && t1.endsFrame 0 addr following then
        let (t2, n2, _) := t1.bodyEnd 0 next
        (t2, n2)
      else (t1, n1)
    else (t, next)
  else if t.endsFrame 0 addr following then
    let (t1, n1, _) := t.bodyEnd 0 next
    (t1, n1)
  else (t, next)

/-- The strand after the control part of a bundle that commits, its pc at the next bundle. A `loop` bundle that is itself the body end
of an outer frame makes no outer test when it enters its body, and makes it when it skips it, with the bundle after the skipped body
as the one that follows (DESIGN CHOICE, log 57). -/
def Strand.advance (t : Strand) (b : Issue) : Strand :=
  match b.transfer with
  | .to a => { (t.leaveFrame 1 a).leaveFrame 0 a with pc := a }
  | .skip a => { (t.bodyEnds b.addr b.following a).1 with pc := (t.bodyEnds b.addr b.following a).2 }
  | _ =>
    match b.loop_ with
    | some (j, n, start, stop) => { t.setFrame j ⟨true, start, stop⟩ n with pc := start }
    | none => { (t.bodyEnds b.addr b.following b.following).1 with pc := (t.bodyEnds b.addr b.following b.following).2 }

end Sys2Proof.Machine
end

