-- ==== Sys2Proof/Machine/Uses.lean ====
section
/-! DEFINITION. Which registers a syllable reads and which it writes, for the limits and conflicts of a bundle, the interlocks and the
poison check (02 R29 to R31, 03 R58, R61), and the slot classes. -/

namespace Sys2Proof.Machine

/-- A register as R30 counts them: scalar, vector, predicate or special. -/
inductive RegName where
  | g (n : Nat)
  | v (n : Nat)
  | k (n : Nat)
  | s (n : Nat)
  deriving DecidableEq, Repr

/-- The registers that a syllable names as sources (R30), in the order of its entry. -/
def Instr.sources (i : Instr) : List RegName :=
  match i with
  | .nop _ => []
  | .add _ a b => [.g a.toNat, .g b.toNat]
  | .sub _ a b => [.g a.toNat, .g b.toNat]
  | .and _ a b => [.g a.toNat, .g b.toNat]
  | .or _ a b => [.g a.toNat, .g b.toNat]
  | .xor _ a b => [.g a.toNat, .g b.toNat]
  | .andn _ a b => [.g a.toNat, .g b.toNat]
  | .shl _ a b => [.g a.toNat, .g b.toNat]
  | .shr _ a b => [.g a.toNat, .g b.toNat]
  | .sra _ a b => [.g a.toNat, .g b.toNat]
  | .ror _ a b => [.g a.toNat, .g b.toNat]
  | .mul _ a b => [.g a.toNat, .g b.toNat]
  | .mulhI _ a b => [.g a.toNat, .g b.toNat]
  | .mulhN _ a b => [.g a.toNat, .g b.toNat]
  | .divI _ a b => [.g a.toNat, .g b.toNat]
  | .divN _ a b => [.g a.toNat, .g b.toNat]
  | .remI _ a b => [.g a.toNat, .g b.toNat]
  | .remN _ a b => [.g a.toNat, .g b.toNat]
  | .minI _ a b => [.g a.toNat, .g b.toNat]
  | .maxI _ a b => [.g a.toNat, .g b.toNat]
  | .minN _ a b => [.g a.toNat, .g b.toNat]
  | .maxN _ a b => [.g a.toNat, .g b.toNat]
  | .clz _ a => [.g a.toNat]
  | .popc _ a => [.g a.toNat]
  | .sext _ a _ => [.g a.toNat]
  | .zext _ a _ => [.g a.toNat]
  | .cmpEq _ a b => [.g a.toNat, .g b.toNat]
  | .cmpLtI _ a b => [.g a.toNat, .g b.toNat]
  | .cmpLeI _ a b => [.g a.toNat, .g b.toNat]
  | .cmpLtN _ a b => [.g a.toNat, .g b.toNat]
  | .cmpLeN _ a b => [.g a.toNat, .g b.toNat]
  | .sel d a b => [.g d.toNat, .g a.toNat, .g b.toNat]
  | .addi _ a _ => [.g a.toNat]
  | .andi _ a _ => [.g a.toNat]
  | .ori _ a _ => [.g a.toNat]
  | .xori _ a _ => [.g a.toNat]
  | .shli _ a _ => [.g a.toNat]
  | .shri _ a _ => [.g a.toNat]
  | .srai _ a _ => [.g a.toNat]
  | .cmpiEq _ a _ => [.g a.toNat]
  | .cmpiLtI _ a _ => [.g a.toNat]
  | .cmpiLtN _ a _ => [.g a.toNat]
  | .li _ _ => []
  | .lih1 d _ => [.g d.toNat]
  | .lih2 d _ => [.g d.toNat]
  | .lih3 d _ => [.g d.toNat]
  | .addpc _ _ => []
  | .gets _ i => [.s i.toNat]
  | .sets a _ => [.g a.toNat]
  | .vaddI32 _ a b q => [.v a.toNat, .v b.toNat, .k q.toNat]
  | .vsubI32 _ a b q => [.v a.toNat, .v b.toNat, .k q.toNat]
  | .vmulI32 _ a b q => [.v a.toNat, .v b.toNat, .k q.toNat]
  | .vmulhI32 _ a b q => [.v a.toNat, .v b.toNat, .k q.toNat]
  | .vmulhN32 _ a b q => [.v a.toNat, .v b.toNat, .k q.toNat]
  | .vand _ a b q => [.v a.toNat, .v b.toNat, .k q.toNat]
  | .vor _ a b q => [.v a.toNat, .v b.toNat, .k q.toNat]
  | .vxor _ a b q => [.v a.toNat, .v b.toNat, .k q.toNat]
  | .vshlI32 _ a b q => [.v a.toNat, .v b.toNat, .k q.toNat]
  | .vshrI32 _ a b q => [.v a.toNat, .v b.toNat, .k q.toNat]
  | .vsraI32 _ a b q => [.v a.toNat, .v b.toNat, .k q.toNat]
  | .vminI32 _ a b q => [.v a.toNat, .v b.toNat, .k q.toNat]
  | .vmaxI32 _ a b q => [.v a.toNat, .v b.toNat, .k q.toNat]
  | .vminN32 _ a b q => [.v a.toNat, .v b.toNat, .k q.toNat]
  | .vmaxN32 _ a b q => [.v a.toNat, .v b.toNat, .k q.toNat]
  | .vaddI16 _ a b q => [.v a.toNat, .v b.toNat, .k q.toNat]
  | .vsubI16 _ a b q => [.v a.toNat, .v b.toNat, .k q.toNat]
  | .vaddsI16 _ a b q => [.v a.toNat, .v b.toNat, .k q.toNat]
  | .vsubsI16 _ a b q => [.v a.toNat, .v b.toNat, .k q.toNat]
  | .vcmpEqI32 _ a b q => [.v a.toNat, .v b.toNat, .k q.toNat]
  | .vcmpLtI32 _ a b q => [.v a.toNat, .v b.toNat, .k q.toNat]
  | .vcmpLeI32 _ a b q => [.v a.toNat, .v b.toNat, .k q.toNat]
  | .vcmpLtN32 _ a b q => [.v a.toNat, .v b.toNat, .k q.toNat]
  | .vcmpLeN32 _ a b q => [.v a.toNat, .v b.toNat, .k q.toNat]
  | .vaddF32 _ a b q => [.v a.toNat, .v b.toNat, .k q.toNat]
  | .vsubF32 _ a b q => [.v a.toNat, .v b.toNat, .k q.toNat]
  | .vmulF32 _ a b q => [.v a.toNat, .v b.toNat, .k q.toNat]
  | .vminF32 _ a b q => [.v a.toNat, .v b.toNat, .k q.toNat]
  | .vmaxF32 _ a b q => [.v a.toNat, .v b.toNat, .k q.toNat]
  | .vfmaF32 d a b q => [.v d.toNat, .v a.toNat, .v b.toNat, .k q.toNat]
  | .vfmsF32 d a b q => [.v d.toNat, .v a.toNat, .v b.toNat, .k q.toNat]
  | .vcmpEqF32 _ a b q => [.v a.toNat, .v b.toNat, .k q.toNat]
  | .vcmpLtF32 _ a b q => [.v a.toNat, .v b.toNat, .k q.toNat]
  | .vcmpLeF32 _ a b q => [.v a.toNat, .v b.toNat, .k q.toNat]
  | .vrcpF32 _ a q => [.v a.toNat, .k q.toNat]
  | .vrsqF32 _ a q => [.v a.toNat, .k q.toNat]
  | .vexp2F32 _ a q => [.v a.toNat, .k q.toNat]
  | .vlog2F32 _ a q => [.v a.toNat, .k q.toNat]
  | .vsqrtF32 _ a q => [.v a.toNat, .k q.toNat]
  | .vcvtBf16F32 _ a q => [.v a.toNat, .k q.toNat]
  | .vcvtF32Bf16 _ a q => [.v a.toNat, .k q.toNat]
  | .vcvtF16F32 _ a q => [.v a.toNat, .k q.toNat]
  | .vcvtF32F16 _ a q => [.v a.toNat, .k q.toNat]
  | .vcvtE4m3F32 _ a q => [.v a.toNat, .k q.toNat]
  | .vcvtE5m2F32 _ a q => [.v a.toNat, .k q.toNat]
  | .vcvtF32E4m3 _ a q => [.v a.toNat, .k q.toNat]
  | .vcvtF32E5m2 _ a q => [.v a.toNat, .k q.toNat]
  | .vcvtF4xF32 _ a q => [.v a.toNat, .k q.toNat]
  | .vcvtF32F4x _ a q => [.v a.toNat, .k q.toNat]
  | .vcvtI32F32 _ a q => [.v a.toNat, .k q.toNat]
  | .vcvtF32I32 _ a q => [.v a.toNat, .k q.toNat]
  | .vcvtQF32 _ a q => [.v a.toNat, .k q.toNat]
  | .vcvtF32Q _ a q => [.v a.toNat, .k q.toNat]
  | .vredaddI32 _ a q => [.v a.toNat, .k q.toNat]
  | .vredaddF32 _ a q => [.v a.toNat, .k q.toNat]
  | .vredmaxF32 _ a q => [.v a.toNat, .k q.toNat]
  | .vredmaxI32 _ a q => [.v a.toNat, .k q.toNat]
  | .vperm _ a b q => [.v a.toNat, .v b.toNat, .k q.toNat]
  | .vrot _ a b q => [.v a.toNat, .g b.toNat, .k q.toNat]
  | .vbcast _ a q => [.g a.toNat, .k q.toNat]
  | .vext _ a b => [.v a.toNat, .g b.toNat]
  | .vins d a b => [.v d.toNat, .g a.toNat, .g b.toNat]
  | .vsel _ a b k => [.v a.toNat, .v b.toNat, .k k.toNat]
  | .vli _ _ => []
  | .pand _ a b => [.k a.toNat, .k b.toNat]
  | .por _ a b => [.k a.toNat, .k b.toNat]
  | .pxor _ a b => [.k a.toNat, .k b.toNat]
  | .pnot _ a => [.k a.toNat]
  | .pset _ a => [.g a.toNat]
  | .pany _ a => [.k a.toNat]
  | .pall _ a => [.k a.toNat]
  | .ppop _ a => [.k a.toNat]
  | .ldbI _ a _ => [.g a.toNat]
  | .ldbN _ a _ => [.g a.toNat]
  | .ldhI _ a _ => [.g a.toNat]
  | .ldhN _ a _ => [.g a.toNat]
  | .ldwI _ a _ => [.g a.toNat]
  | .ldwN _ a _ => [.g a.toNat]
  | .ldd _ a _ => [.g a.toNat]
  | .stb d a _ => [.g a.toNat, .g d.toNat]
  | .sth d a _ => [.g a.toNat, .g d.toNat]
  | .stw d a _ => [.g a.toNat, .g d.toNat]
  | .std d a _ => [.g a.toNat, .g d.toNat]
  | .vld _ a _ q => [.g a.toNat, .k q.toNat]
  | .vst d a _ q => [.g a.toNat, .v d.toNat, .k q.toNat]
  | .vldg _ a b q => [.g a.toNat, .v b.toNat, .k q.toNat]
  | .vsts d a b q => [.g a.toNat, .v b.toNat, .v d.toNat, .k q.toNat]
  | .pref a => [.g a.toNat]
  | .res a b => [.g a.toNat, .g b.toNat]
  | .ldt _ a => [.g a.toNat]
  | .ldtp _ a => [.g a.toNat]
  | .stt a b => [.g a.toNat, .g b.toNat]
  | .sttn _ a b => [.g a.toNat, .g b.toNat]
  | .tagr _ a => [.g a.toNat]
  | .tagw a b => [.g a.toNat, .g b.toNat]
  | .bind d a b => [.g d.toNat, .g a.toNat, .g b.toNat]
  | .drain a => [.g a.toNat]
  | .fenceAcq _ => []
  | .fenceRel _ => []
  | .fenceFull _ => []
  | .barInit _ a => [.g a.toNat]
  | .barArrive _ => []
  | .barWait _ => []
  | .amoAdd _ a b => [.g a.toNat, .g b.toNat]
  | .amoMinI _ a b => [.g a.toNat, .g b.toNat]
  | .amoMaxI _ a b => [.g a.toNat, .g b.toNat]
  | .amoAnd _ a b => [.g a.toNat, .g b.toNat]
  | .amoOr _ a b => [.g a.toNat, .g b.toNat]
  | .amoSwap _ a b => [.g a.toNat, .g b.toNat]
  | .amoCas d a b => [.g d.toNat, .g a.toNat, .g b.toNat]
  | .ainit a b => [.g a.toNat, .g b.toNat]
  | .adec _ a b => [.g a.toNat, .g b.toNat]
  | .ainc a b => [.g a.toNat, .g b.toNat]
  | .aread _ a => [.g a.toNat]
  | .axread _ a => [.g a.toNat]
  | .afree a => [.g a.toNat]
  | .brNz c _ => [.g c.toNat]
  | .brZ c _ => [.g c.toNat]
  | .brq c _ => [.k c.toNat]
  | .jal _ _ => []
  | .jr a => [.g a.toNat]
  | .loop c _ => [.g c.toNat]
  | .join => []
  | .joinAll => []
  | .yield => []
  | .exit => []
  | .trap _ => []
  | .fmt a => [.g a.toNat]
  | .mlatch a _ => [.g a.toNat]
  | .mgather c a q _ => [.v c.toNat, .g a.toNat, .k q.toNat]
  | .mma _ _ _ _ => []
  | .mmas _ _ _ _ => []
  | .mst a _ _ => [.g a.toNat]
  | .mkat a _ => [.g a.toNat]
  | .cpSrc a => [.g a.toNat]
  | .cpDst a => [.g a.toNat]
  | .cpDims a b _ => [.g a.toNat, .g b.toNat]
  | .cpDimd b _ => [.g b.toNat]
  | .cpGo a _ => [.g a.toNat]
  | .cpQfence _ => []
  | .cpStatus _ => []
  | .cpWait _ => []
  | .msLen a => [.g a.toNat]
  | .msCw a => [.g a.toNat]
  | .msZero a => [.g a.toNat]
  | .msCopy a b => [.g a.toNat, .g b.toNat]
  | .lkCw a _ => [.g a.toNat]
  | .lkSend a b _ => [.g a.toNat, .g b.toNat]
  | .lkRecv a b _ => [.g a.toNat, .g b.toNat]
  | .lkRaddF32 a b _ => [.g a.toNat, .g b.toNat]
  | .lkRaddBf16 a b _ => [.g a.toNat, .g b.toNat]
  | .lkRaddI32 a b _ => [.g a.toNat, .g b.toNat]
  | .ckpt _ => []
  | .commit => []
  | .guard a b => [.g a.toNat, .g b.toNat]
  | .assert a => [.g a.toNat]
  | .abort => []
  | .copWb a b => [.g a.toNat, .g b.toNat]
  | .copInv a b => [.g a.toNat, .g b.toNat]
  | .suspensionComplete _ => []
  | .exposedResultLands _ => []
  | .interlockedResultArrives _ _ => []
  | .idleStep _ => []
  | .pipelineError _ => []
  | .bankReservationEnd _ _ => []
  | .arrayWorkComplete _ => []
  | .fetchDecode _ _ => []
  | .ibufFill _ _ => []
  | .joinBudgetExpiry _ _ => []
  | .tagWaitTimeout _ => []
  | .waitHoldTimeout _ => []
  | .tagChangeWake _ => []
  | .barrierArrivalCounted _ _ => []
  | .pickerSwitch _ => []
  | .epAging _ => []
  | .contextWake _ => []
  | .budgetPeriod _ => []
  | .pageWalk _ _ _ => []
  | .copyOperationStart _ _ _ => []
  | .copyOperationComplete _ _ => []
  | .msOperationStart _ _ => []
  | .msOperationComplete _ => []
  | .linkFlitArrival _ _ _ => []
  | .linkSendComplete _ _ => []
  | .linkReceiveComplete _ _ => []
  | .linkdown _ => []
  | .linkCancel _ => []
  | .linkUp _ _ => []
  | .timeBeacon _ _ => []
  | .clusterCounterStop _ => []
  | .clusterCounterResume _ => []
  | .clusterFill _ _ _ => []
  | .leaseReturn _ _ => []
  | .sliceWritePerformed _ => []
  | .deferredAck _ _ => []
  | .readshared _ _ => []
  | .readown _ _ => []
  | .upgrade _ _ => []
  | .fwdshared _ _ => []
  | .fwdown _ _ => []
  | .inv _ _ => []
  | .backinv _ _ => []
  | .wbdirty _ _ => []
  | .ack _ _ => []
  | .data _ _ => []
  | .allowanceRequest _ _ => []
  | .serve _ => []
  | .grant _ _ => []
  | .recall _ _ => []
  | .recallAnswer _ _ => []
  | .holdingZeroReport _ _ => []
  | .allowanceLeaseEnd _ _ => []
  | .reclamation _ _ => []
  | .kernelNodeEval _ => []
  | .condNodeEval _ => []
  | .switchNodeEval _ => []
  | .loopNodeEval _ => []
  | .joinNodeEval _ => []
  | .gangRetirement _ _ => []
  | .heldRetirementProceeds _ => []
  | .gcommit _ _ => []
  | .placementRetry _ _ _ => []
  | .grstatFaultClear _ => []
  | .registerWrite _ _ => []
  | .freeze _ => []
  | .controlCoreResume _ => []
  | .restoration _ _ _ _ => []
  | .katfailPolicy _ => []
  | .regionMachineResume _ => []
  | .lockstepConfirm _ _ => []
  | .patrolScrub _ => []
  | .dieFailureDeclaration _ => []
  | .declarationAtHome _ _ => []
  | .salvage _ _ => []
  | .declarationAtTundish _ _ => []
  | .powerGood _ => []
  | .powerOff => []
  | .deviceReset _ => []
  | .tamperAlarm _ _ => []
  | .junctionTemperature _ _ => []
  | .packagePowerLimit => []
  | .loadGraph => []
  | .launch => []
  | .map => []
  | .unmap => []
  | .asidAlloc => []
  | .asidRetire => []
  | .ptsync => []
  | .resume => []
  | .evict => []
  | .query => []
  | .scrubSet => []
  | .attest => []
  | .writeMem => []
  | .readMem => []
  | .illegalSyllable _ => []
  | .softError _ _ => []
  | .writePerformed _ => []
  | .cacheRangeOperationComplete _ => []

/-- The registers that a syllable names as destinations (R30). -/
def Instr.dests (i : Instr) : List RegName :=
  match i with
  | .nop _ => []
  | .add d _ _ => [.g d.toNat]
  | .sub d _ _ => [.g d.toNat]
  | .and d _ _ => [.g d.toNat]
  | .or d _ _ => [.g d.toNat]
  | .xor d _ _ => [.g d.toNat]
  | .andn d _ _ => [.g d.toNat]
  | .shl d _ _ => [.g d.toNat]
  | .shr d _ _ => [.g d.toNat]
  | .sra d _ _ => [.g d.toNat]
  | .ror d _ _ => [.g d.toNat]
  | .mul d _ _ => [.g d.toNat]
  | .mulhI d _ _ => [.g d.toNat]
  | .mulhN d _ _ => [.g d.toNat]
  | .divI d _ _ => [.g d.toNat]
  | .divN d _ _ => [.g d.toNat]
  | .remI d _ _ => [.g d.toNat]
  | .remN d _ _ => [.g d.toNat]
  | .minI d _ _ => [.g d.toNat]
  | .maxI d _ _ => [.g d.toNat]
  | .minN d _ _ => [.g d.toNat]
  | .maxN d _ _ => [.g d.toNat]
  | .clz d _ => [.g d.toNat]
  | .popc d _ => [.g d.toNat]
  | .sext d _ _ => [.g d.toNat]
  | .zext d _ _ => [.g d.toNat]
  | .cmpEq d _ _ => [.g d.toNat]
  | .cmpLtI d _ _ => [.g d.toNat]
  | .cmpLeI d _ _ => [.g d.toNat]
  | .cmpLtN d _ _ => [.g d.toNat]
  | .cmpLeN d _ _ => [.g d.toNat]
  | .sel d _ _ => [.g d.toNat]
  | .addi d _ _ => [.g d.toNat]
  | .andi d _ _ => [.g d.toNat]
  | .ori d _ _ => [.g d.toNat]
  | .xori d _ _ => [.g d.toNat]
  | .shli d _ _ => [.g d.toNat]
  | .shri d _ _ => [.g d.toNat]
  | .srai d _ _ => [.g d.toNat]
  | .cmpiEq d _ _ => [.g d.toNat]
  | .cmpiLtI d _ _ => [.g d.toNat]
  | .cmpiLtN d _ _ => [.g d.toNat]
  | .li d _ => [.g d.toNat]
  | .lih1 d _ => [.g d.toNat]
  | .lih2 d _ => [.g d.toNat]
  | .lih3 d _ => [.g d.toNat]
  | .addpc d _ => [.g d.toNat]
  | .gets d _ => [.g d.toNat]
  | .sets _ i => [.s i.toNat]
  | .vaddI32 d _ _ _ => [.v d.toNat]
  | .vsubI32 d _ _ _ => [.v d.toNat]
  | .vmulI32 d _ _ _ => [.v d.toNat]
  | .vmulhI32 d _ _ _ => [.v d.toNat]
  | .vmulhN32 d _ _ _ => [.v d.toNat]
  | .vand d _ _ _ => [.v d.toNat]
  | .vor d _ _ _ => [.v d.toNat]
  | .vxor d _ _ _ => [.v d.toNat]
  | .vshlI32 d _ _ _ => [.v d.toNat]
  | .vshrI32 d _ _ _ => [.v d.toNat]
  | .vsraI32 d _ _ _ => [.v d.toNat]
  | .vminI32 d _ _ _ => [.v d.toNat]
  | .vmaxI32 d _ _ _ => [.v d.toNat]
  | .vminN32 d _ _ _ => [.v d.toNat]
  | .vmaxN32 d _ _ _ => [.v d.toNat]
  | .vaddI16 d _ _ _ => [.v d.toNat]
  | .vsubI16 d _ _ _ => [.v d.toNat]
  | .vaddsI16 d _ _ _ => [.v d.toNat]
  | .vsubsI16 d _ _ _ => [.v d.toNat]
  | .vcmpEqI32 d _ _ _ => [.k d.toNat]
  | .vcmpLtI32 d _ _ _ => [.k d.toNat]
  | .vcmpLeI32 d _ _ _ => [.k d.toNat]
  | .vcmpLtN32 d _ _ _ => [.k d.toNat]
  | .vcmpLeN32 d _ _ _ => [.k d.toNat]
  | .vaddF32 d _ _ _ => [.v d.toNat]
  | .vsubF32 d _ _ _ => [.v d.toNat]
  | .vmulF32 d _ _ _ => [.v d.toNat]
  | .vminF32 d _ _ _ => [.v d.toNat]
  | .vmaxF32 d _ _ _ => [.v d.toNat]
  | .vfmaF32 d _ _ _ => [.v d.toNat]
  | .vfmsF32 d _ _ _ => [.v d.toNat]
  | .vcmpEqF32 d _ _ _ => [.k d.toNat]
  | .vcmpLtF32 d _ _ _ => [.k d.toNat]
  | .vcmpLeF32 d _ _ _ => [.k d.toNat]
  | .vrcpF32 d _ _ => [.v d.toNat]
  | .vrsqF32 d _ _ => [.v d.toNat]
  | .vexp2F32 d _ _ => [.v d.toNat]
  | .vlog2F32 d _ _ => [.v d.toNat]
  | .vsqrtF32 d _ _ => [.v d.toNat]
  | .vcvtBf16F32 d _ _ => [.v d.toNat]
  | .vcvtF32Bf16 d _ _ => [.v d.toNat]
  | .vcvtF16F32 d _ _ => [.v d.toNat]
  | .vcvtF32F16 d _ _ => [.v d.toNat]
  | .vcvtE4m3F32 d _ _ => [.v d.toNat]
  | .vcvtE5m2F32 d _ _ => [.v d.toNat]
  | .vcvtF32E4m3 d _ _ => [.v d.toNat]
  | .vcvtF32E5m2 d _ _ => [.v d.toNat]
  | .vcvtF4xF32 d _ _ => [.v d.toNat]
  | .vcvtF32F4x d _ _ => [.v d.toNat]
  | .vcvtI32F32 d _ _ => [.v d.toNat]
  | .vcvtF32I32 d _ _ => [.v d.toNat]
  | .vcvtQF32 d _ _ => [.v d.toNat]
  | .vcvtF32Q d _ _ => [.v d.toNat]
  | .vredaddI32 d _ _ => [.g d.toNat]
  | .vredaddF32 d _ _ => [.g d.toNat]
  | .vredmaxF32 d _ _ => [.g d.toNat]
  | .vredmaxI32 d _ _ => [.g d.toNat]
  | .vperm d _ _ _ => [.v d.toNat]
  | .vrot d _ _ _ => [.v d.toNat]
  | .vbcast d _ _ => [.v d.toNat]
  | .vext d _ _ => [.g d.toNat]
  | .vins d _ _ => [.v d.toNat]
  | .vsel d _ _ _ => [.v d.toNat]
  | .vli d _ => [.v d.toNat]
  | .pand d _ _ => [.k d.toNat]
  | .por d _ _ => [.k d.toNat]
  | .pxor d _ _ => [.k d.toNat]
  | .pnot d _ => [.k d.toNat]
  | .pset d _ => [.k d.toNat]
  | .pany d _ => [.g d.toNat]
  | .pall d _ => [.g d.toNat]
  | .ppop d _ => [.g d.toNat]
  | .ldbI d _ _ => [.g d.toNat]
  | .ldbN d _ _ => [.g d.toNat]
  | .ldhI d _ _ => [.g d.toNat]
  | .ldhN d _ _ => [.g d.toNat]
  | .ldwI d _ _ => [.g d.toNat]
  | .ldwN d _ _ => [.g d.toNat]
  | .ldd d _ _ => [.g d.toNat]
  | .stb _ _ _ => []
  | .sth _ _ _ => []
  | .stw _ _ _ => []
  | .std _ _ _ => []
  | .vld d _ _ _ => [.v d.toNat]
  | .vst _ _ _ _ => []
  | .vldg d _ _ _ => [.v d.toNat]
  | .vsts _ _ _ _ => []
  | .pref _ => []
  | .res _ _ => []
  | .ldt d _ => [.g d.toNat]
  | .ldtp d _ => [.g d.toNat]
  | .stt _ _ => []
  | .sttn d _ _ => [.g d.toNat]
  | .tagr d _ => [.g d.toNat]
  | .tagw _ _ => []
  | .bind _ _ _ => []
  | .drain _ => []
  | .fenceAcq _ => []
  | .fenceRel _ => []
  | .fenceFull _ => []
  | .barInit _ _ => []
  | .barArrive _ => []
  | .barWait _ => []
  | .amoAdd d _ _ => [.g d.toNat]
  | .amoMinI d _ _ => [.g d.toNat]
  | .amoMaxI d _ _ => [.g d.toNat]
  | .amoAnd d _ _ => [.g d.toNat]
  | .amoOr d _ _ => [.g d.toNat]
  | .amoSwap d _ _ => [.g d.toNat]
  | .amoCas d _ _ => [.g d.toNat]
  | .ainit _ _ => []
  | .adec d _ _ => [.g d.toNat]
  | .ainc _ _ => []
  | .aread d _ => [.g d.toNat]
  | .axread d _ => [.g d.toNat]
  | .afree _ => []
  | .brNz _ _ => []
  | .brZ _ _ => []
  | .brq _ _ => []
  | .jal d _ => [.g d.toNat]
  | .jr _ => []
  | .loop _ _ => [.s 9, .s 10]
  | .join => []
  | .joinAll => []
  | .yield => []
  | .exit => []
  | .trap _ => []
  | .fmt _ => [.s 15]
  | .mlatch _ _ => []
  | .mgather _ _ _ _ => []
  | .mma _ _ _ _ => []
  | .mmas _ _ _ _ => []
  | .mst _ _ _ => []
  | .mkat _ _ => []
  | .cpSrc _ => []
  | .cpDst _ => []
  | .cpDims _ _ _ => []
  | .cpDimd _ _ => []
  | .cpGo _ _ => []
  | .cpQfence _ => []
  | .cpStatus d => [.g d.toNat]
  | .cpWait _ => []
  | .msLen _ => []
  | .msCw _ => []
  | .msZero _ => []
  | .msCopy _ _ => []
  | .lkCw _ _ => []
  | .lkSend _ _ _ => []
  | .lkRecv _ _ _ => []
  | .lkRaddF32 _ _ _ => []
  | .lkRaddBf16 _ _ _ => []
  | .lkRaddI32 _ _ _ => []
  | .ckpt _ => []
  | .commit => []
  | .guard _ _ => []
  | .assert _ => []
  | .abort => []
  | .copWb _ _ => []
  | .copInv _ _ => []
  | .suspensionComplete _ => []
  | .exposedResultLands _ => []
  | .interlockedResultArrives _ _ => []
  | .idleStep _ => []
  | .pipelineError _ => []
  | .bankReservationEnd _ _ => []
  | .arrayWorkComplete _ => []
  | .fetchDecode _ _ => []
  | .ibufFill _ _ => []
  | .joinBudgetExpiry _ _ => []
  | .tagWaitTimeout _ => []
  | .waitHoldTimeout _ => []
  | .tagChangeWake _ => []
  | .barrierArrivalCounted _ _ => []
  | .pickerSwitch _ => []
  | .epAging _ => []
  | .contextWake _ => []
  | .budgetPeriod _ => []
  | .pageWalk _ _ _ => []
  | .copyOperationStart _ _ _ => []
  | .copyOperationComplete _ _ => []
  | .msOperationStart _ _ => []
  | .msOperationComplete _ => []
  | .linkFlitArrival _ _ _ => []
  | .linkSendComplete _ _ => []
  | .linkReceiveComplete _ _ => []
  | .linkdown _ => []
  | .linkCancel _ => []
  | .linkUp _ _ => []
  | .timeBeacon _ _ => []
  | .clusterCounterStop _ => []
  | .clusterCounterResume _ => []
  | .clusterFill _ _ _ => []
  | .leaseReturn _ _ => []
  | .sliceWritePerformed _ => []
  | .deferredAck _ _ => []
  | .readshared _ _ => []
  | .readown _ _ => []
  | .upgrade _ _ => []
  | .fwdshared _ _ => []
  | .fwdown _ _ => []
  | .inv _ _ => []
  | .backinv _ _ => []
  | .wbdirty _ _ => []
  | .ack _ _ => []
  | .data _ _ => []
  | .allowanceRequest _ _ => []
  | .serve _ => []
  | .grant _ _ => []
  | .recall _ _ => []
  | .recallAnswer _ _ => []
  | .holdingZeroReport _ _ => []
  | .allowanceLeaseEnd _ _ => []
  | .reclamation _ _ => []
  | .kernelNodeEval _ => []
  | .condNodeEval _ => []
  | .switchNodeEval _ => []
  | .loopNodeEval _ => []
  | .joinNodeEval _ => []
  | .gangRetirement _ _ => []
  | .heldRetirementProceeds _ => []
  | .gcommit _ _ => []
  | .placementRetry _ _ _ => []
  | .grstatFaultClear _ => []
  | .registerWrite _ _ => []
  | .freeze _ => []
  | .controlCoreResume _ => []
  | .restoration _ _ _ _ => []
  | .katfailPolicy _ => []
  | .regionMachineResume _ => []
  | .lockstepConfirm _ _ => []
  | .patrolScrub _ => []
  | .dieFailureDeclaration _ => []
  | .declarationAtHome _ _ => []
  | .salvage _ _ => []
  | .declarationAtTundish _ _ => []
  | .powerGood _ => []
  | .powerOff => []
  | .deviceReset _ => []
  | .tamperAlarm _ _ => []
  | .junctionTemperature _ _ => []
  | .packagePowerLimit => []
  | .loadGraph => []
  | .launch => []
  | .map => []
  | .unmap => []
  | .asidAlloc => []
  | .asidRetire => []
  | .ptsync => []
  | .resume => []
  | .evict => []
  | .query => []
  | .scrubSet => []
  | .attest => []
  | .writeMem => []
  | .readMem => []
  | .illegalSyllable _ => []
  | .softError _ _ => []
  | .writePerformed _ => []
  | .cacheRangeOperationComplete _ => []

/-- g0 and k0 are never counted (R30). -/
def RegName.counted (r : RegName) : Bool :=
  match r with
  | .g n => n != 0
  | .k n => n % 8 != 0
  | _ => true

/-- The registers a syllable reads. -/
def readsOf (i : Instr) : List RegName := (Instr.sources i).filter RegName.counted
/-- The registers a syllable writes. -/
def writesOf (i : Instr) : List RegName := (Instr.dests i).filter RegName.counted

/-- The slot classes (R29). -/
inductive SlotClass where
  | S | V | M | Y | C | X | E | K | Z
  deriving DecidableEq, Repr

/-- The class of a syllable by its major opcode (R29). -/
def classOf (w : W32) : SlotClass :=
  let m := majorOf w
  if m < 0x20 then .S else if m < 0x40 then .V else if m < 0x50 then .M else if m < 0x58 then .Y else if m < 0x60 then .C
  else if m < 0x68 then .X else if m < 0x70 then .E else if m < 0x78 then .K else .Z

/-- Syllables of a class that a bundle may hold (R29). -/
def SlotClass.limit (c : SlotClass) : Nat :=
  match c with
  | .S => 2
  | .V => 2
  | .M => 2
  | _ => 1

/-- A mask that marks the positions of a list. -/
def maskOf (ps : List Nat) : BitVec 8 := ps.foldl (fun m p => m ||| (1#8 <<< p)) 0

/-- The syllables that break a class limit (R29, R31). -/
def classMask (ws : List (Nat × W32)) : BitVec 8 :=
  maskOf ((ws.filter fun x => decide ((classOf x.2).limit < (ws.filter fun y => classOf y.2 == classOf x.2).length)).map (·.1))

/-- Whether a register is one of a file whose destinations are limited. -/
def RegName.file (r : RegName) : Option Nat :=
  match r with
  | .g _ => some 0
  | .v _ => some 1
  | .k _ => some 2
  | .s _ => none

/-- Destination registers of a file that a bundle may name (R29): each syllable's counts, whether or not another names the same
register (DESIGN CHOICE, log 56). -/
def fileLimit (f : Nat) : Nat := if f = 2 then 1 else 3

/-- The syllables that write an oversubscribed file (R29, R31). -/
def portMask (is : List (Nat × Instr)) : BitVec 8 :=
  let count := fun f => (is.flatMap fun x => (writesOf x.2).filter fun r => r.file == some f).length
  let bad := [0, 1, 2].filter fun f => decide (fileLimit f < count f)
  maskOf ((is.filter fun x => (writesOf x.2).any fun r => bad.any fun f => r.file == some f).map (·.1))

/-- The syllables that write one register, or read one that another writes (R31). -/
def conflictMask (is : List (Nat × Instr)) : BitVec 8 :=
  maskOf ((is.filter fun x => is.any fun y =>
    x.1 != y.1 &&
      ((writesOf x.2).any (fun r => (writesOf y.2).contains r || (readsOf y.2).contains r) ||
        (readsOf x.2).any fun r => (writesOf y.2).contains r)).map (·.1))

/-- Whether a class reads or writes memory, for the holds of acquires and fences (14 R250 to R255). -/
def SlotClass.memory (c : SlotClass) : Bool :=
  match c with
  | .M => true
  | .Y => true
  | .X => true
  | .E => true
  | .K => true
  | _ => false

/-- Whether an instruction is a hint (05 R102) or a fence (14 R251): neither is held by an acquire or a fence. -/
def unheld (i : Instr) : Bool :=
  match i with
  | .pref _ => true
  | .res _ _ => true
  | .fenceAcq _ => true
  | .fenceRel _ => true
  | .fenceFull _ => true
  | _ => false

/-! ## The syllables of a bundle -/

/-- The words of a bundle with their positions. -/
def Decoded.positions (b : Decoded) : List (Nat × W32) := (List.range b.words.length).zip b.words

/-- The instruction of a word; a word that is none is the syllable that raises ILLEGAL (R33). -/
def instrOf (w : W32) : Instr := match Sys2Proof.decodeWord w with | .ok i => i | .error _ => .illegalSyllable w

/-- The syllables of a bundle with their positions. -/
def Decoded.syllables (b : Decoded) : List (Nat × Instr) := b.positions.map fun x => (x.1, instrOf x.2)

/-- Whether an interlocked result is pending for a register. -/
def Strand.pendsOn (t : Strand) (r : RegName) : Bool :=
  t.pend.any fun p =>
    match p.tgt, r with
    | .g x, .g n => x.toNat == n
    | .v x, .v n => x.toNat == n
    | .k x, .k n => x.toNat % 8 == n % 8
    | _, _ => false

/-- Whether a bundle stalls on an interlocked result (03 R58). -/
def Strand.stallsOn (t : Strand) (b : Decoded) : Bool :=
  (b.syllables.flatMap fun x => readsOf x.2 ++ writesOf x.2).any t.pendsOn

/-- The ages of the interlocked results that a bundle stalls on. -/
def Strand.stallAges (t : Strand) (b : Decoded) : NatSet :=
  (t.pend.filter fun p => ({ t with pend := [p] } : Strand).stallsOn b).map (·.seq)

/-- Whether a bundle is held by an acquire or a fence: it holds a syllable of a memory class that is no hint and no fence. -/
def Decoded.heldByOrder (b : Decoded) : Bool := b.positions.any fun x => (classOf x.2).memory && !unheld (instrOf x.2)

end Sys2Proof.Machine
end

