-- ==== Sys2Proof/Machine/FrontEnd.lean ====
section
/-! DEFINITION. The front end of a cluster: the team stream, private fetch, detachment and joins (07 R133 to R146), the contexts and
the picker (18 R310 to R313), budget periods (R314), the instruction buffer and the TLBs (07 R139, 12 R232). -/

namespace Sys2Proof.Machine

/-! ## Streams (07 R133 to R140) -/

/-- Whether a transfer to an address would deactivate a frame of some strand of the context (04 R85). -/
def State.leavesFrames (s : State) (c : CtxId) (a : W64) : Bool :=
  c.strands.any fun t => ((s.strand t).leaveFrame 1 a).leaveFrame 0 a != s.strand t

/-- Where a stream goes on behind a decoded bundle: none behind a join, until it completes (R142), or a resolution point (R136), a bundle
whose successor depends on the state of strands; stopping where a loop body of some other strand of the context ends is only a matter of cycles. -/
def State.streamNext (s : State) (c : CtxId) (b : Decoded) : Option W64 :=
  let go := fun (i : BitVec 18) => if s.leavesFrames c (target b.addr i) then none else some (target b.addr i)
  let ends := c.strands.any fun t => (s.strand t).endsFrame 0 b.addr b.following || (s.strand t).endsFrame 1 b.addr b.following
  let on := if ends then none else some b.following
  match (b.positions.find? fun x => classOf x.2 == .C).map fun x => instrOf x.2 with
  | some (.brNz r _) => if r = 0 then on else none
  | some (.brZ r i) => if r = 0 then go i else none
  | some (.brq _ _) => none
  | some (.jal _ i) => go i
  | some (.jr _) => none
  | some (.loop _ _) => none
  | some .join => none
  | some .joinAll => none
  | _ => on

/-- The attached strands that still take bundles of the team stream. -/
def State.teamSet (s : State) (c : CtxId) : List StrandId := (s.attachedSet c).filter fun t => !(s.strand t).exiting

/-- Whether the team stream stands still because the queue of an attached strand is full (R134). -/
def State.teamFull (s : State) (c : CtxId) : Bool := (s.teamSet c).any fun u => decide (32 ≤ (s.strand u).queue.length)

/-- The lines of a fetched bundle enter the cluster's instruction buffer (R139). -/
def State.fillText (s : State) (t : StrandId) (b : Decoded) : State :=
  (List.range (b.words.length + b.lits.length)).foldl (fun s i =>
    let va := b.addr + BitVec.ofNat 64 (4 * i)
    if 0 < i ∧ va.toNat % 128 ≠ 0 then s
    else
      match s.resolve t va needX with
      | .ok p => (match p.loc with | .phys pa => s.addText t.clusterId (lineOf pa) | .spad _ _ => s)
      | .error _ => s) s

/-- A bundle fetched for a strand, its lines left in the instruction buffer. -/
def State.fetchFor (s : State) (t : StrandId) (va : W64) : Except AddrFault (Decoded × State) :=
  match s.fetchAt t va with
  | .error e => .error e
  | .ok b => .ok (b, s.fillText t b)

/-- The first of the discarded bundles in a queue: how many stand before it, its address. -/
def firstEmpty (q : List Decoded) (n : Nat) : Option (Nat × W64) :=
  match q with
  | [] => none
  | b :: r => if b.words.isEmpty then some (n, b.addr) else firstEmpty r (n + 1)

/-- The first bundle of the team stream that was discarded before every attached strand had issued it: the next one of the strand that has
drifted furthest behind (R146). The number of the team's bundles before it, its address. -/
def State.discarded (s : State) (c : CtxId) : Option (Nat × W64) :=
  (s.teamSet c).foldl (fun (acc : Option (Nat × W64)) u =>
    match firstEmpty (s.strand u).queue (s.strand u).issuedTeam, acc with
    | none, _ => acc
    | some x, none => some x
    | some x, some y => if x.1 < y.1 then some x else some y) none

/-- A bundle of the team stream whose decoded words were discarded is fetched again (R146), for every attached strand that has yet
to issue it: `n` counts the team's bundles before it. -/
def State.refetched (s : State) (c : CtxId) (n : Nat) (d : Decoded) : State :=
  (s.teamSet c).foldl (fun s u =>
    let st := s.strand u
    match (if st.issuedTeam ≤ n then st.queue[n - st.issuedTeam]? else none) with
    | some b => if b.words.isEmpty ∧ b.addr = d.addr then s.setStrand u { st with queue := st.queue.set (n - st.issuedTeam) d } else s
    | none => s) s

/-- The team stream decodes its next bundle into the queue of every attached strand; it stops at a full queue and behind a resolution
point (R134, R136, R137). -/
def State.fetchNew (s : State) (c : CtxId) : Except AddrFault State :=
  match s.teamSet c with
  | [] => .ok s
  | t :: r =>
    if (s.ctx c).teamWait || s.teamFull c then .ok s
    else
      match s.fetchFor t (s.ctx c).teamNext with
      | .error e => .error e
      | .ok (b, s0) =>
        let s1 := (t :: r).foldl (fun s u => s.setStrand u { s.strand u with queue := (s.strand u).queue ++ [b] }) s0
        .ok (s1.setCtx c { s1.ctx c with teamNext := (s.streamNext c b).getD b.following, teamWait := (s.streamNext c b).isNone })

/-- The team stream decodes one bundle. After a stop it begins with what was discarded, in the order in which it had gone (R146; DEDUCED, log
70). -/
def State.fetchTeam (s : State) (c : CtxId) : Except AddrFault State :=
  match s.teamSet c, s.discarded c with
  | t :: _, some (n, va) =>
    (match s.fetchFor t va with
     | .error e => .error e
     | .ok (b, s0) => .ok (s0.refetched c n b))
  | _, _ => s.fetchNew c

/-- The team stream fetches what was discarded, as far as it comes without a fault (R146): the fault of one bundle is raised in the strand that
comes to it, and keeps no strand that has issued the bundle from going on (R147). -/
def State.refetchAll (s : State) (c : CtxId) (fuel : Nat) : State :=
  match fuel with
  | 0 => s
  | k + 1 =>
    if (s.discarded c).isNone then s
    else match s.fetchTeam c with | .ok s1 => s1.refetchAll c k | .error _ => s

/-- A detached strand fetches into its own queue, not past a resolution point of its own (R139). -/
def State.fetchPrivate (s : State) (t : StrandId) : Except AddrFault State :=
  let st := s.strand t
  let at_ := match st.queue.getLast? with
    | none => some st.pc
    | some b => if b.words.isEmpty then none else s.streamNext t.ctxId b
  match at_ with
  | none => .ok s
  | some va =>
    if 32 ≤ st.queue.length then .ok s
    else
      match s.fetchFor t va with
      | .error e => .error e
      | .ok (b, s1) => .ok (s1.setStrand t { s1.strand t with queue := st.queue ++ [b] })

/-- The front end decodes one bundle for one stream (R133); a fetch that faults decodes nothing, and its fault is raised at the
bundle when a strand comes to it. -/
def execFetchDecode (c : CtxId) (priv : Option (Fin 4)) (s : State) : Out :=
  let go := (s.bindOf c).valid && (s.ctx c).run == .running
  if !go then .next s
  else
    match priv with
    | none => (match s.fetchTeam c with | .ok s1 => .next s1 | .error _ => .next s)
    | some n =>
      if (s.strand (c.strand n)).attached || (s.strand (c.strand n)).exited || (s.strand (c.strand n)).exiting then .next s
      else (match s.fetchPrivate (c.strand n) with | .ok s1 => .next s1 | .error _ => .next s)

/-- What a strand finds as it comes to its next bundle: a fault of the fetch, the bundle, or that it has to wait for the team stream. -/
inductive Next where
  | fault (f : AddrFault)
  | wait
  | got (b : Decoded) (s : State)

/-- Whether a strand has to wait for the team stream, which stands still before its next bundle (07 R134). -/
def State.dry (s : State) (t : StrandId) : Bool :=
  let st := s.strand t
  st.queue.isEmpty && st.attached && !(s.ctx t.ctxId).teamWait && (s.ctx t.ctxId).teamNext == st.pc && s.teamFull t.ctxId

/-- A strand comes to its next bundle: at the head of its queue, fetched now if it is not there, after what the team stream fetches before it
(R146). An attached strand that has issued all the team's bundles waits while the queue of another is full (R134). -/
def State.nextBundle (s : State) (t : StrandId) : Next :=
  let st := s.strand t
  match st.queue with
  | b :: r =>
    if !b.words.isEmpty then .got b s
    else
      let s0 := if st.attached then s.refetchAll t.ctxId 64 else s
      match ((s0.strand t).queue.head?).filter fun d => !d.words.isEmpty with
      | some d => .got d s0
      | none =>
        match s0.fetchFor t b.addr with
        | .error e => .fault e
        | .ok (d, s1) =>
          .got d (if st.attached then s1.refetched t.ctxId st.issuedTeam d else s1.setStrand t { s1.strand t with queue := d :: r })
  | [] =>
    let team := st.attached && !(s.ctx t.ctxId).teamWait && (s.ctx t.ctxId).teamNext == st.pc
    if s.dry t then .wait
    else
      match (if team then (s.refetchAll t.ctxId 64).fetchNew t.ctxId else s.fetchPrivate t) with
      | .error e => .fault e
      | .ok s1 =>
        match (s1.strand t).queue with
        | b :: _ => .got b s1
        | [] => .wait

/-- A bundle has been issued and committed: it leaves its strand's queue. The first attached strand past the team's last bundle
says where the team goes on; one whose next bundle is another detaches (R137, R138). -/
def State.leaveQueue (s : State) (t : StrandId) : State :=
  let st := s.strand t
  let q := st.queue.drop 1
  let c := s.ctx t.ctxId
  if !st.attached then s.setStrand t { st with queue := if (q.head?.map (·.addr)).getD st.pc = st.pc then q else [] }
  else
    let st1 := { st with queue := q, issuedTeam := st.issuedTeam + 1 }
    match q.head? with
    | some b => s.setStrand t (if b.addr = st.pc then st1 else { st1 with attached := false, queue := [] })
    | none =>
      if c.teamWait then (s.setStrand t st1).setCtx t.ctxId { c with teamNext := st.pc, teamWait := false }
      else s.setStrand t (if c.teamNext = st.pc then st1 else { st1 with attached := false, queue := [] })

/-- A line arrives in a cluster's instruction buffer (R139). -/
def execIbufFill (l : ClusterId) (line : Nat) (s : State) : Out :=
  .next (s.setText l line)

/-! ## Joins (R143 to R145) -/

/-- The strands that wait in the group at an address. -/
def State.joinGroup (s : State) (c : CtxId) (a : W64) : List StrandId :=
  c.strands.filter fun t => match (s.strand t).hold with | some (.join x _) => x == a | _ => false

/-- Whether every strand of a list is in the group or, for the whole context, has exited. -/
def inGroup (g ts : List StrandId) : Bool := ts.all fun t => g.contains t

/-- A group completes (R143): its strands issue their join bundle; with an attached strand in it, or with none attached in the
context, all of them join the team. The strands it leaves out come late to it (R144). -/
def State.completeJoin (s : State) (c : CtxId) (a : W64) : State :=
  let g := s.joinGroup c a
  let team := s.attachedSet c
  let attach := (g.any fun t => (s.strand t).attached) || team.isEmpty
  let most := (g ++ team).foldl (fun m t => max m (s.strand t).issuedTeam) 0
  let s0 := c.strands.foldl (fun s t =>
    let st := s.strand t
    s.setStrand t { st with late := if g.contains t then st.late.filter (fun x => x != a) else
      if st.exited || st.late.contains a then st.late else st.late ++ [a] }) s
  let s1 := g.foldl (fun s t =>
    let st := s.strand t
    s.setStrand t { st with
      hold := none, waited := false, joinGo := true
      attached := if attach then true else st.attached
      issuedTeam := if attach then most else st.issuedTeam
      queue := [⟨a, [], []⟩] }) s0
  let x := s1.ctx c
  let joins := x.joins.filter fun j => j.addr != a
  s1.setCtx c (if attach then { x with joins := joins, teamNext := a, teamWait := true } else { x with joins := joins })

/-- Whether the form that waits at an address is the one with a budget. -/
def State.joinBudgeted (s : State) (g : List StrandId) : Bool :=
  g.any fun t => match (s.strand t).hold with | some (.join _ all) => !all | _ => false

/-- The group of an address among those of a context. -/
def Context.joinAt (x : Context) (a : W64) : Option Join := x.joins.find? fun j => j.addr == a

/-- Whether the timer of a group may run and end it (R143): every attached strand is in it; a latecomer's group, formed after the
group at its address completed without it, waits for no attached strand that has gone on (R144; DEDUCED, log 58). -/
def State.timerRuns (s : State) (c : CtxId) (g : List StrandId) (late : Bool) : Bool :=
  s.joinBudgeted g && (inGroup g (s.attachedSet c) || (late && g.all fun t => !(s.strand t).attached))

/-- The group at an address as it stands: complete when every strand is in it or has exited, or at once for a budget of 0; else
its timer starts (R143). -/
def State.checkJoin (s : State) (c : CtxId) (a : W64) : State :=
  let g := s.joinGroup c a
  let x := s.ctx c
  if g.isEmpty then s
  else if inGroup g (c.strands.filter fun t => !(s.strand t).exited) then s.completeJoin c a
  else
    match x.joinAt a with
    | none => s
    | some j =>
      if !s.timerRuns c g j.late then s
      else if j.budget = 0 then s.completeJoin c a
      else if j.start.isSome then s
      else s.setCtx c { x with joins := x.joins.map fun k => if k.addr = a then { k with start := some s.now } else k }

/-- Every group of a context checked. -/
def State.checkJoins (s : State) (c : CtxId) : State := (s.ctx c).joins.foldl (fun s j => s.checkJoin c j.addr) s

/-- A strand arrives at a join: the first arrival's %jbudget is the group's budget (R143). -/
def State.arriveJoin (s : State) (t : StrandId) (a : W64) (all : Bool) : State :=
  let st := s.strand t
  let x := s.ctx t.ctxId
  let joins := if (x.joinAt a).isSome then x.joins else x.joins ++ [⟨a, st.jbudget.toNat, none, st.late.contains a⟩]
  ((s.setStrand t { st with hold := some (.join a all), waitSince := s.seq, waitTime := s.now }).setCtx t.ctxId
    { x with joins := joins }).checkJoin t.ctxId a

/-! ## The end of a strand and the arrival of results (04 R88, 03 R58) -/

/-- A strand whose `exit` has committed ends once its interlocked operations have returned: joins count it as arrived, the last one of
a context begins its retirement (04 R88, 07 R143). -/
def State.endIfDone (s : State) (t : StrandId) : State :=
  let st := s.strand t
  if st.exiting && st.pend.isEmpty then
    let s2 := (s.setStrand t { st with exiting := false, exited := true }).checkJoins t.ctxId
    if t.ctxId.strands.all fun u => (s2.strand u).exited then s2.setCtx t.ctxId { s2.ctx t.ctxId with run := .retiring } else s2
  else s

/-- Whether the bundle of a step of a strand waits to be confirmed before it commits: what it reads ahead lands with it (22 R363). -/
def Strand.readsAhead (t : Strand) (issued : W64) : Bool := t.unconfirmed.any fun u => u.step == issued && u.waits

/-- A value that only a confirmed bundle's operation brought reaches the trailing copy (22 R362): in its registers, or with the bundle where it
has yet to commit it. -/
def State.deliver (s : State) (t : StrandId) (tg : Tgt) (d : Dat) (q : Bool) (issued : W64) : State :=
  let m := s.mateStrand t
  let st := s.strand m
  match st.confirmed with
  | some v =>
    if v.step = issued then
      s.setStrand m { st with confirmed := some { v with brought := v.brought ++ [⟨tg, d, issued, issued, q⟩] } }
    else (s.landOne m tg d q issued).landBefore m 0 tg d q issued
  | none => (s.landOne m tg d q issued).landBefore m 0 tg d q issued

/-- An interlocked result lands: it is pending no more, its register holds it, in both copies of a lockstep pair, a strand that waits to end
may end (R58, 04 R88, 22 R362). -/
def State.arrive (s : State) (t : StrandId) (p : Pend) (d : Dat) (q : Bool) : State :=
  let st := s.strand t
  let s1 := s.setStrand t { st with pend := st.pend.filter fun x => x.seq != p.seq }
  let s2 := (if st.readsAhead p.issued then s1 else s1.landOne t p.tgt d q p.issued).landBefore t p.seq p.tgt d q p.issued
  (if (s.bindOf t.ctxId).lock && st.unconfirmed.all (fun u => u.step != p.issued) then s2.deliver t p.tgt d q p.issued else s2).endIfDone t

/-- An interlocked result arrives (R58): of an operation already satisfied at once; a read of memory is satisfied now if it can be,
else it moves on towards that (14 R244). -/
def execInterlockedResultArrives (t : StrandId) (n : Nat) (s : State) : Out :=
  match pendAt (s.strand t).pend n with
  | none => .next s
  | some p =>
    match p.val with
    | some (d, q) =>
      let x := s.landing p d q
      .next (x.2.arrive t p x.1.1 x.1.2)
    | none =>
      let r := s.satisfy t p
      match r.2.1 with
      | some (d, q) => .next (r.2.2.arrive t p d q)
      | none =>
        let st := r.2.2.strand t
        .next (r.2.2.setStrand t { st with pend := pendSet st.pend n { p with op := r.1 } })

/-- The timer of a group reaches its budget while its condition holds; a group whose timer has not started is looked at again
(R143). -/
def execJoinBudgetExpiry (c : CtxId) (at_ : W64) (s : State) : Out :=
  match (s.ctx c).joinAt at_ with
  | none => .next s
  | some j =>
    match j.start with
    | none => .next (s.checkJoin c at_)
    | some start =>
      if j.budget ≤ s.cycles c.die (s.now - start) ∧ s.timerRuns c (s.joinGroup c at_) j.late then .next (s.completeJoin c at_)
      else .next s

/-! ## Contexts and the picker (18 R310 to R313) -/

/-- Whether an engine's queue has room for an operation of a strand (11 R211, 21 R342, R350). -/
def State.queueRoom (s : State) (t : StrandId) (q : EngineQueue) : Bool :=
  match q with
  | .copies n => decide (((s.core t.coreId).copyq[n]!).length < 16)
  | .rows => decide ((s.core t.coreId).msq.length < 8)
  | .link p send =>
    let x := (tget s.ports p).getD ⟨0, [], [], []⟩
    decide (((if send then x.sends else x.recvs).filter fun y => y.core == t.coreId.key).length < 8)

/-- Whether what holds a strand at issue is over, as far as it can be told before the bundle is presented again (R311). -/
def State.holdOver (s : State) (t : StrandId) : Bool :=
  let st := s.strand t
  match st.hold with
  | none => true
  | some (.tag w want) => s.tagOf w == want
  | some (.join _ _) => false
  | some (.cpWait q) => ((s.core t.coreId).copyq[q]!).isEmpty
  | some (.barrier j) =>
    (match (s.bar t.ctxId j).last[t.core.val] with | none => true | some l => decide (l < (s.bar t.ctxId j).phase))
  | some (.arrive j) =>
    (match (s.bar t.ctxId j).last[t.core.val] with | none => true | some l => decide (l ≤ (s.bar t.ctxId j).phase))
  | some .budget => false
  | some .acquire => st.pend.all fun p => !p.acq
  | some .fence => s.fencesAllow t true true
  | some .array => !(s.core t.coreId).arrayBusy
  | some .lockstep => st.unconfirmed.all fun u => !u.waits && u.stores.isEmpty
  | some (.release w own) =>
    let s1 := s.setIss { s.iss with mark := s.seq }
    (w.all fun x => s1.releaseReady t x) && own.all fun x => s1.ownDone t x.1 x.2
  | some (.queue q) => s.queueRoom t q
  | some (.bank xs) => xs.all fun x => !s.banksHeld x.1 x.2
  | some (.counter ctr) => !s.counterBusy st ctr && (s.withTundish ctr).isSome

/-- Whether a strand can be presented to issue: not ended, not stopped, not waiting in a join or at a waiting bundle, with no
range operation of its own running. -/
def State.presents (s : State) (t : StrandId) : Bool :=
  let st := s.strand t
  !st.exited && !st.exiting && !st.trapping && st.range.isNone && !st.waited &&
    (match st.hold with | some (.join _ _) => false | some .budget => false | _ => true)

/-- Whether a context may issue at all; the trailing copy of a lockstep pair does after its leading one (22 R362). -/
def State.runs (s : State) (c : CtxId) : Bool :=
  let x := s.ctx c
  (s.bindOf c).valid && !s.trails c && x.run == .running && !x.suspending && !x.trapped && !x.frozen && !x.parked && !x.yielded &&
    !s.halted && s.ready && s.power && !(s.cluster c.clusterId).stopped && !(s.die c.die).failed

/-- Whether a strand stalls on an interlocked result (03 R58): by its next bundle or, once that was discarded, by what was noted of it. -/
def State.stalled (s : State) (t : StrandId) : Bool :=
  let st := s.strand t
  match st.queue.head? with
  | some b => if b.words.isEmpty then st.pend.any fun p => st.stall.contains p.seq else st.stallsOn b
  | none => st.pend.any fun p => st.stall.contains p.seq

/-- Whether the bundle after an `ainit` still waits for the tundish's writes of the line (17 R297). -/
def State.ainitWaits (s : State) (t : StrandId) : Bool :=
  match (s.strand t).ainit with
  | none => false
  | some (ctr, mark) => s.writes.any fun w => w.strand == tundishKey && decide (w.seq < mark) &&
      (match w.at_.loc with | .phys pa => pa / 64 * 64 == ctr | .spad _ _ => false)

/-- Whether lockstep keeps a strand from issuing: too many bundles to be confirmed, or one that waits for it before it commits (22 R363). -/
def Strand.confirming (t : Strand) : Bool := decide (16 ≤ t.unconfirmed.length) || t.unconfirmed.any fun u => u.waits

/-- Whether nothing keeps a strand's next bundle from issuing: it is neither held nor stalled, and at hand or to be had. -/
def State.clearToIssue (s : State) (t : StrandId) : Bool :=
  s.holdOver t && !s.stalled t && !s.ainitWaits t && !(s.strand t).confirming && !s.dry t

/-- Whether a strand can go on. -/
def State.canGo (s : State) (t : StrandId) : Bool := s.presents t && s.clearToIssue t

/-- Whether a context is at a waiting bundle (R311): no strand of it can go on, and one has reached such a bundle. -/
def State.atWaiting (s : State) (c : CtxId) : Bool :=
  c.strands.all (fun t => !s.canGo t) && c.strands.any fun t => (s.strand t).waited || (s.strand t).hold == some .budget

/-- Whether a context can be selected. -/
def State.selectable (s : State) (c : CtxId) : Bool :=
  let x := s.ctx c
  (s.bindOf c).valid && !s.trails c && x.run == .ready && !x.suspending && !x.trapped && !x.frozen && !x.parked && !s.halted

/-- Order in which equals are tried: after the context last selected at that priority. -/
def rotation (last : Option (Fin 8)) : List (Fin 8) :=
  match last with
  | none => List.finRange 8
  | some n => (List.finRange 8).map fun i => Fin.ofNat 8 (n.val + 1 + i.val)

/-- The ready context of the highest effective priority, equals in turn (R312). -/
def State.pick (s : State) (l : ClusterId) : Option (Fin 8) :=
  let cand := fun (ep : Nat) => (rotation ((s.cluster l).lastAt.getD ep none)).find? fun n =>
    s.selectable (l.ctxId n) && (s.ctx (l.ctxId n)).ep == ep
  (([3, 2, 1, 0] : List Nat).findSome? cand)

/-- A strand whose context loses the front end: what was decoded for it is discarded (07 R146), what its next bundle stalls on is noted. -/
def Strand.switchedOut (t : Strand) : Strand :=
  { t with queue := t.emptied, stall := match t.queue.head? with | some b => if b.words.isEmpty then t.stall else t.stallAges b | none => t.stall }

/-- A context that loses the front end. -/
def State.switchOut (s : State) (c : CtxId) (x : Context) : State :=
  (c.strands.foldl (fun s t => s.setStrand t (s.strand t).switchedOut) s).setCtx c x

/-- A context gets the front end. -/
def State.select (s : State) (l : ClusterId) (n : Fin 8) : State :=
  let c := s.cluster l
  let x := s.ctx (l.ctxId n)
  let s1 := s.setCluster l { c with running := some n, lastAt := c.lastAt.set! x.ep (some n) }
  s1.setCtx (l.ctxId n) { x with run := .running, yielded := false }

/-- The picker acts when no context owns the front end, or its owner has yielded or is at a waiting bundle, and another is ready
(R311 to R313). A yield with no other context ready has no effect. -/
def execPickerSwitch (l : ClusterId) (s : State) : Out :=
  match (s.cluster l).running with
  | none => (match s.pick l with | some n => .next (s.select l n) | none => .next s)
  | some r =>
    let c := l.ctxId r
    let x := s.ctx c
    if x.run ≠ .running then
      match s.pick l with
      | some n => .next (s.select l n)
      | none => .next (s.setCluster l { s.cluster l with running := none })
    else if x.yielded then
      match s.pick l with
      | some n => .next ((s.switchOut c { x with run := .ready, yielded := false, ready := s.now }).select l n)
      | none => .next (s.setCtx c { x with yielded := false })
    else if s.atWaiting c then
      match s.pick l with
      | some n => .next ((s.switchOut c { x with run := .waiting }).select l n)
      | none => .next s
    else .next s

/-- A ready context passed over for 4,096 cycles gains a level, up to 3 (R312). -/
def execEpAging (c : CtxId) (s : State) : Out :=
  let x := s.ctx c
  if s.selectable c && decide (4096 ≤ s.cycles c.die (s.now - x.ready)) then
    .next (s.setCtx c { x with ep := min 3 (x.ep + 1), ready := s.now })
  else .next s

/-- Whether a strand that waited can be presented again: its condition has come about, or it is a sibling that nothing keeps from issuing any
more (R311; DEDUCED, log 87). -/
def State.freed (s : State) (c : CtxId) (t : StrandId) : Bool :=
  let st := s.strand t
  !st.exited && !st.exiting && !st.trapping && st.range.isNone && s.clearToIssue t && (st.waited || (s.ctx c).run == .waiting)

/-- Whether another context of the cluster waits, switched out, on the tag word of a strand and began earlier: it is made ready
first (R312, 15 R266). -/
def State.wakesLater (s : State) (t : StrandId) : Bool :=
  match (s.strand t).hold with
  | some (.tag w want) => s.strands.any fun x =>
      decide (x.1 / 32 = t.clusterId.key) && x.1 / 4 != t.ctxId.key && x.2.hold == some (.tag w want) &&
        decide (x.2.waitSince < (s.strand t).waitSince) && (s.ctx (strandOfKey x.1).ctxId).run == .waiting
  | _ => false

/-- A waiting context becomes ready when the condition of one of its strands changes (R311). The bundles whose condition holds
are presented again; a context that kept the front end goes on. -/
def execContextWake (c : CtxId) (s : State) : Out :=
  let x := s.ctx c
  let freed := c.strands.filter fun t => s.freed c t && !(x.run == .waiting && s.wakesLater t)
  if freed.isEmpty then .next s
  else
    let s1 := freed.foldl (fun s t => s.setStrand t { s.strand t with waited := false }) s
    if x.run = .waiting then .next (s1.setCtx c { s1.ctx c with run := .ready, ready := s.now }) else .next s1

/-! ## Idle steps (03 R55, R56, R62) -/

/-- An idle step of `nop` or of a wait for replay entries passes, while the strand's context runs. -/
def execIdleStep (t : StrandId) (s : State) : Out :=
  if (s.strand t).idle = 0 || !s.runs t.ctxId || !s.presents t then .next s else .next (s.idleOnce t)

/-! ## Budget meters (R314) -/

/-- Whether the issue of a bundle is admitted in this period, and the meter after it: each strand's bundle uses one issue cycle (R314; DESIGN
CHOICE, log 30). -/
def State.chargeIssue (s : State) (t : StrandId) : Bool × State :=
  let cls := (s.bindOf t.ctxId).bclass.toNat
  let k := issKey cls t.cluster.val
  s.charge t.die cls k ((tget (s.die t.die).biss k).getD 0).toNat 1 (7 + t.cluster.val) (bundleKey t.key (s.strand t).pc)

/-- A bundle is issued: its class is charged for it, its context's effective priority returns to PRIO (R312, R314). A bundle that rolls back
counts as issued too (06 R124; DEDUCED, log 96). -/
def State.issueOnce (s : State) (t : StrandId) : State :=
  let s1 := (s.chargeIssue t).2
  s1.setCtx t.ctxId { s1.ctx t.ctxId with ep := (s1.bindOf t.ctxId).prio.toNat }

/-- Whether an access of an age is still to be performed. -/
def State.accessWaits (s : State) (n : Nat) : Bool :=
  (s.strands.any fun x => x.2.pend.any fun p => p.seq == n) || (s.writes.any fun w => w.seq == n) ||
    (s.cores.any fun o => (o.2.copyq.any fun q => q.any fun x => x.seq == n) || o.2.msq.any fun x => x.seq == n) ||
    s.ports.any fun p => (p.2.sends ++ p.2.recvs).any fun x => x.seq == n

/-- Whether a deferred bundle is still the next of its strand. -/
def State.bundleWaits (s : State) (n : Nat) : Bool :=
  let st := s.strand (strandOfKey (n % 4096))
  bundleKey (n % 4096) st.pc == n && !st.trapping && !st.exited

/-- A die's meters start again: they admit deferred activities in the order in which these arrived, and an admitted bundle is presented
again (R314). -/
def State.resetMeters (s : State) (e : DieId) : State :=
  let d := s.die e
  let waits := fun (meter : Nat) (n : Nat) =>
    if meter < 4096 then s.bundleWaits n else if tagAccess ≤ n then s.bundleWaits (n - tagAccess) else s.accessWaits n
  let admits := fun (y : Nat × NatSet) (x : Nat × Strand) =>
    y.2.contains (bundleKey x.1 x.2.pc + if y.1 < 4096 then 0 else tagAccess)
  let d1 := (d.deferred.map (·.1)).foldl (fun (x : Die) m => x.renew (waits m) m) { d with used := [], period := s.now / 4000 }
  let s1 := s.setDie e d1
  { s1 with strands := s1.strands.map fun x =>
    if x.2.hold = some .budget ∧ d1.admitted.any (fun y => admits y x) then
      (x.1, { x.2 with hold := none, waited := false }) else x }

/-- A new period of 4,000 ns begins on a die (R314). -/
def execBudgetPeriod (e : DieId) (s : State) : Out := .next (({ s with now := (s.now / 4000 + 1) * 4000 } : State).resetMeters e)

/-! ## TLBs (12 R232) -/

/-- A miss walks the tables; the leaf enters the TLBs (R232). -/
def execPageWalk (l : ClusterId) (c : Fin 8) (va : W64) (s : State) : Out :=
  let b := s.bindOf (l.ctxId c)
  if !b.valid || !isGlobal va then .next s else .next (s.fillTlb l b.asid b.gen va.toNat)

end Sys2Proof.Machine
end

