-- ==== Sys2Proof/Machine/Gangs.lean ====
section
/-! DEFINITION. Gangs: node records and descriptors as the engines read them, the checks on bind records and what a context holds
at kernel entry (18 R300, R307 to R309, 23 R375, 03 R49 to R52). -/

namespace Sys2Proof.Machine

/-! ## Accesses of a die's engines (12 R232) -/

/-- A walk's end as the place of a global byte, or a fault. -/
def State.walked (s : State) (w : Walk) (va : W64) (n : Need) : Except AddrFault Place :=
  if !isGlobal va then .error (causeBounds, 0, va)
  else
    match leafOk w va n with
    | .error f => .error f
    | .ok e => s.placeOf e va

/-- Translation through the TLB and the walkers of a die: the place of a byte, or the fault. -/
def State.dieTranslate (s : State) (e : DieId) (asid : BitVec 11) (gen : BitVec 4) (va : W64) (n : Need) : Except AddrFault Place :=
  s.walked (s.dieLeaf e asid gen va.toNat) va n

/-- Translation by the command service (R232): a walk at the home of each line, no TLB. -/
def State.serviceTranslate (s : State) (asid : BitVec 11) (gen : BitVec 4) (va : W64) (n : Need) : Except AddrFault Place :=
  s.walked (s.walk asid gen va.toNat) va n

/-- The generation in force of an ASID (12 R233). -/
def State.genOf (s : State) (asid : BitVec 11) : BitVec 4 :=
  match tget s.asids asid.toNat with | some r => r.gen | none => 0

/-- A dword that a die's engine reads at device scope in an address space. -/
def State.dieDword (s : State) (e : DieId) (asid : BitVec 11) (gen : BitVec 4) (va : W64) : Except AddrFault W64 :=
  if va.toNat % 8 ≠ 0 then .error (causeAlign, 0, va)
  else
    match s.dieTranslate e asid gen va needR with
    | .error f => .error f
    | .ok p => (match p.loc with | .phys pa => .ok (s.frameWord pa) | .spad _ _ => .error (causeBounds, 0, va))

/-- n dwords from an address on. -/
def State.dieDwords (s : State) (e : DieId) (asid : BitVec 11) (gen : BitVec 4) (va : W64) (n : Nat) :
    Except AddrFault (List W64) :=
  match n with
  | 0 => .ok []
  | k + 1 =>
    match s.dieDword e asid gen va with
    | .error f => .error f
    | .ok w =>
      match s.dieDwords e asid gen (va + 8) k with
      | .error f => .error f
      | .ok ws => .ok (w :: ws)

/-! ## Node records (18 R300) -/

/-- A node record. -/
structure Node where
  words : List W64
  deriving DecidableEq, Repr

/-- Word n of a record. -/
def Node.word (x : Node) (n : Nat) : W64 := x.words.getD n 0
/-- Bits hi:lo of word n. -/
def Node.bits (x : Node) (n hi lo : Nat) : Nat := (x.word n).toNat / 2 ^ lo % 2 ^ (hi + 1 - lo)
/-- Fields of the record (R300). -/
def Node.kind (x : Node) : Nat := x.bits 0 3 0
def Node.prio (x : Node) : Nat := x.bits 0 5 4
def Node.bclass (x : Node) : Nat := x.bits 0 10 6
def Node.lock (x : Node) : Bool := x.bits 0 11 11 == 1
def Node.spec (x : Node) : Bool := x.bits 0 12 12 == 1
def Node.die (x : Node) : DieId := Fin.ofNat 4 (x.bits 0 14 13)
def Node.pred (x : Node) : Nat := x.bits 0 31 16
def Node.nsucc (x : Node) : Nat := x.bits 0 35 32
def Node.ctr (x : Node) : W64 := x.word 1
def Node.opnd (x : Node) : W64 := x.word 2
def Node.aux (x : Node) : W64 := x.word 3
def Node.count (x : Node) : Nat := x.bits 2 31 0
def Node.bfirst (x : Node) : Nat := x.bits 3 15 0
def Node.blast (x : Node) : Nat := x.bits 3 31 16
def Node.btail (x : Node) : Nat := x.bits 3 47 32
/-- Successor field k. -/
def Node.succ (x : Node) (k : Nat) : Nat := (x.word (4 + k / 4)).toNat / 2 ^ (16 * (k % 4)) % 2 ^ 16
/-- The successors in use. -/
def Node.succs (x : Node) : List Nat := (List.range (min x.nsucc 8)).map x.succ

/-- The record of a node of a graph. -/
def State.nodeAt (s : State) (e : DieId) (asid : BitVec 11) (gen : BitVec 4) (base : W64) (n : Nat) :
    Except AddrFault Node :=
  match s.dieDwords e asid gen (base + BitVec.ofNat 64 (64 * n)) 8 with
  | .error f => .error f
  | .ok ws => .ok ⟨ws⟩

/-! ## Descriptors (23 R375) -/

/-- A kernel descriptor with its local `.tagfull` list: first address and count of tag words. -/
structure Kernel where
  entry : BitVec 57
  gang : Nat
  lock : Bool
  matrix : Bool
  psize : Nat
  tcount : Nat
  tags : List (Nat × Nat)
  deriving DecidableEq, Repr

/-- The kernel at a descriptor address. -/
def State.kernelAt (s : State) (e : DieId) (asid : BitVec 11) (gen : BitVec 4) (va : W64) : Except AddrFault Kernel :=
  match s.dieDwords e asid gen va 8 with
  | .error f => .error f
  | .ok ws =>
    let w := fun n => (ws.getD n 0).toNat
    let n := w 3 % 2 ^ 16
    match (if w 2 = 0 ∨ 4096 < n then .ok [] else s.dieDwords e asid gen (ws.getD 2 0) n) with
    | .error f => .error f
    | .ok ts =>
      .ok { entry := BitVec.ofNat 57 (w 0), gang := w 1 % 64, lock := w 1 / 2 ^ 8 % 2 == 1, matrix := w 1 / 2 ^ 9 % 2 == 1
            psize := w 1 / 2 ^ 16 % 64, tcount := n
            tags := ts.map fun t => (t.toNat % 2 ^ 32, t.toNat / 2 ^ 32 % 2 ^ 17) }

/-- Whether the kernel alone makes the gang unplaceable (18 R309). -/
def Kernel.unplaceable (k : Kernel) (nodeLock : Bool) : Bool :=
  decide (k.gang = 0 ∨ 32 < k.gang) || decide (k.psize = 0 ∨ 32 < k.psize) || decide (4096 < k.tcount) ||
    (k.tags.any fun t => decide (k.psize * 16384 < t.1 + 4 * t.2)) || ((k.lock || nodeLock) && decide (16 < k.gang))

/-! ## The checks of Dispatch (R309) -/

/-- The contexts of a die in the order of its slot table. -/
def ctxsOf (e : DieId) : List CtxId := (List.finRange 32).flatMap fun k => (List.finRange 8).map fun x => ⟨e, k, x⟩

/-- Entry index of a context. -/
def entryOf (c : CtxId) : Nat := c.cluster.val * 8 + c.ctx.val

/-- Whether two partitions overlap. -/
def partsOverlap (a b : Bind) : Bool :=
  decide (a.pbase.toNat < b.pbase.toNat + b.psize.toNat) && decide (b.pbase.toNat < a.pbase.toNat + a.psize.toNat)

/-- The valid records of a cluster. -/
def State.validOn (s : State) (l : ClusterId) : List Bind :=
  ((List.finRange 8).map fun x => s.bindOf (l.ctxId x)).filter fun b => b.valid

/-- Whether one record of a gang of n passes the checks, among the gang's records. -/
def State.recordOk (s : State) (rs : List (CtxId × Bind)) (n : Nat) (r : CtxId × Bind) : Bool :=
  let (c, b) := r
  let leading := fun (x : CtxId × Bind) => !(x.2.lock && decide (x.1.cluster.val % 2 = 1))
  let cigOk := decide (b.cig.toNat < n) && ((rs.filter fun x => leading x && x.2.cig == b.cig).length == 1) &&
    (rs.filter leading).length == n
  let alone := (rs.filter fun x => x.1.cluster == c.cluster).length == 1
  let partOk := decide (1 ≤ b.psize.toNat ∧ b.psize.toNat ≤ 32) && decide (b.pbase.toNat + b.psize.toNat ≤ 32) &&
    (s.validOn c.clusterId).all fun x => !partsOverlap x b
  let matrixOk := !b.matrix || (((s.validOn c.clusterId).all fun x => !x.matrix) && !(s.die c.die).qmask.getLsbD c.cluster.val)
  let lockOk := !b.lock || rs.any fun x =>
    x.2.lock && x.2.cig == b.cig && decide (x.1.cluster.val / 2 = c.cluster.val / 2) && x.1.cluster != c.cluster
  cigOk && alone && partOk && matrixOk && lockOk

/-- The first record that fails, by its entry index (R309). -/
def State.failingRecord (s : State) (rs : List (CtxId × Bind)) (n : Nat) : Option Nat :=
  if rs.isEmpty then some 0 else (rs.find? fun r => !s.recordOk rs n r).map fun r => entryOf r.1

/-! ## Save areas (12 R226) and gangs -/

/-- Number of save areas of the model's reserved HBM. -/
def saveAreas : Nat := 1203

/-- Save area k. -/
def saveAt (k : Nat) : BitVec 48 := BitVec.ofNat 48 (Config.saveBase + k * 0xA00000)

/-- The save areas in use: of valid records and of evicted contexts. -/
def State.savesUsed (s : State) : List (BitVec 48) :=
  (s.dies.flatMap fun d => (d.2.slots.filter fun b => b.2.valid).map fun b => b.2.save) ++
    s.gangs.flatMap fun g => match g.2.saved with | some xs => xs.map fun i => i.bind.save | none => []

/-- n save areas that are not in use. -/
def State.freeSaves (s : State) (n : Nat) : List (BitVec 48) :=
  let used := s.savesUsed
  (((List.range saveAreas).map saveAt).filter fun a => !used.contains a).take n

/-! ## Kernel entry (03 R49 to R52, 11 R209, 15 R274) -/

/-- The scalar registers at entry (R49). -/
def entryRegs (args : W64) (index strands : Nat) : Vector W64 64 :=
  (((Vector.replicate 64 0#64).set 1 args).set 2 (BitVec.ofNat 64 index)).set 3 (BitVec.ofNat 64 strands)

/-- A strand at entry. -/
def entryStrand (b : Bind) (core size : Nat) : Strand :=
  { Strand.reset with g := entryRegs b.args (b.cig.toNat * 4 + core) (4 * size), pc := b.entry.setWidth 64 }

/-- The matrix unit at entry: latches, accumulators and stage rows undefined (R50, R11; DESIGN CHOICE, log 6), registers 0. -/
def Core.enterMatrix (o : Core) (key tick : Nat) : Core :=
  { o with
    latch := Vector.ofFn fun w => Vector.ofFn fun r => Config.latchRow tick (key * 4 + w.val) r.val
    latchPoison := Vector.replicate 4 []
    acc := Vector.ofFn fun w => Vector.ofFn fun r => Config.accRow tick (key * 2 + w.val) r.val
    accPoison := Vector.replicate 2 []
    stage := Vector.ofFn fun w => Vector.ofFn fun r => Config.stageRow tick (key * 2 + w.val) r.val
    stageRows := Vector.replicate 2 0, stagePoison := Vector.replicate 2 [], stageBanks := Vector.replicate 2 0
    geo := Geometry.reset, qfence := Vector.replicate 8 [], mlen := 0, mcw := ⟨false, 0⟩, lcw := Vector.replicate 16 ⟨false, 0⟩ }

/-- The partition of a context on a core at entry: data undefined, tags empty but those of the list (R51). -/
def Core.enterPart (o : Core) (b : Bind) (tick : Nat) (tags : List (Nat × Nat)) : Core :=
  let lo := b.partBase
  let hi := b.partBase + b.partBytes
  let kept := o.tags.filter fun t => !(decide (lo ≤ 4 * t) && decide (4 * t < hi))
  { o with
    spad := o.spad.filter fun x => !(decide (lo ≤ x.1) && decide (x.1 < hi))
    spadUndef := (lo, hi, tick) :: o.spadUndef.filter fun r => !(decide (lo ≤ r.1) && decide (r.2.1 ≤ hi))
    spadPoison := o.spadPoison.filter fun t => !(decide (lo ≤ 8 * t) && decide (8 * t < hi))
    tags := tags.foldl (fun ts r => (List.range r.2).foldl (fun ts i => nsInsert ts ((lo + r.1) / 4 + i)) ts) kept }

/-- The place that the control core gives the trailing partner of a lockstep context (DESIGN CHOICE, log 38). -/
def partnerOf (c : CtxId) : CtxId := ⟨c.die, Fin.ofNat 32 (c.cluster.val + 1), c.ctx⟩

/-- The instruction buffer of a context's cluster is invalidated; under delayed lockstep that of the partner's cluster too (07 R139). -/
def State.flushText (s : State) (c : CtxId) : State :=
  let s1 := s.setCluster c.clusterId { s.cluster c.clusterId with ibuf := [] }
  let p := (s.mateOf c).clusterId
  if (s.bindOf c).lock then s1.setCluster p { s1.cluster p with ibuf := [] } else s1

/-- The trailing copy of a context at entry: the registers, and the undefined values of the matrix unit, of the leading copy, for both compute
from the same inputs (22 R362; DESIGN CHOICE, log 38). -/
def State.enterCopy (s : State) (c : CtxId) (size : Nat) : State :=
  let m := s.mateOf c
  let b := s.bindOf m
  ((List.finRange 4).foldl (fun s n =>
    let o := (s.core (m.coreId n)).enterPart b s.tick []
    (s.setStrand (m.strand n) (entryStrand (s.bindOf c) n.val size)).setCore (m.coreId n)
      (if b.matrix then o.enterMatrix (c.coreId n).key s.tick else o)) s).clearTraps m

/-- A context becomes ready at ENTRY with the state of R49, under delayed lockstep with its trailing copy. -/
def State.enterCtx (s : State) (c : CtxId) (size : Nat) (tags : List (Nat × Nat)) : State :=
  let b := s.bindOf c
  let s1 := s.setCtx c { Context.reset with run := .ready, ep := b.prio.toNat, ready := s.now, teamNext := b.entry.setWidth 64 }
  let s2 := (List.finRange 4).foldl (fun s n =>
    let o := (s.core (c.coreId n)).enterPart b s.tick tags
    (s.setStrand (c.strand n) (entryStrand b n.val size)).setCore (c.coreId n)
      (if b.matrix then o.enterMatrix (c.coreId n).key s.tick else o)) s1
  let s3 := (s2.flushText c).clearTraps c
  let s4 := if b.lock then s3.enterCopy c size else s3
  { s4 with tick := s4.tick + 1 }

/-! ## Gang tables -/

/-- Gang identifiers in use on some die. -/
def State.gangIds (s : State) : List Nat :=
  (s.gangs.map fun g => g.1 % 65536) ++ s.dies.flatMap fun d => d.2.placing.map fun w => w.gang.toNat

/-- The lowest identifier from n on that is in use nowhere. -/
def freshGangFrom (used : List Nat) (n fuel : Nat) : Nat :=
  match fuel with
  | 0 => n
  | k + 1 => if used.contains n then freshGangFrom used (n + 1) k else n

/-- A fresh gang identifier. -/
def State.freshGang (s : State) : BitVec 16 := BitVec.ofNat 16 (freshGangFrom s.gangIds 1 65535)

/-- The key of a member's gang and its state written. -/
def State.setGang (s : State) (k : Nat) (g : Gang) : State := { s with gangs := tset s.gangs k g }

/-- The records of a gang on a die that are not yet valid, with their contexts. -/
def State.recordsOf (s : State) (e : DieId) (gang : BitVec 16) : List (CtxId × Bind) :=
  ((ctxsOf e).map fun c => (c, s.bindOf c)).filter fun r => !r.2.valid && r.2.gang == gang

/-- The members of a gang in the order of CIG, leading copies only. -/
def membersOf (rs : List (CtxId × Bind)) (n : Nat) : List CtxId :=
  (List.range n).filterMap fun i =>
    (rs.find? fun r => r.2.cig.toNat == i && !(r.2.lock && decide (r.1.cluster.val % 2 = 1))).map (·.1)

end Sys2Proof.Machine
end

