-- ==== Sys2Proof/Machine/Traps.lean ====
section
/-! DEFINITION. The stops of a strand after Machine/Ops (12 R219 to R227, R383): the end of suspension, freezing and its resume, the
eviction of a gang to its save areas and its restoration, and the policies of the control core (22 R356, R361). -/

namespace Sys2Proof.Machine

/-! ## Suspension and freezing (R219, R223, R224) -/

/-- No interlocked result of the context is pending any more: suspension completes (R219 steps 3 to 5). -/
def execSuspensionComplete (c : CtxId) (s : State) : Out :=
  if (s.ctx c).suspending && s.quiet c then .next (s.suspend c) else .next s

/-- The control core freezes a bound context (R224); a lockstep pair goes by its leading copy. -/
def execFreeze (c : CtxId) (s : State) : Out :=
  let x := s.leading c
  if (s.bindOf x).valid && !(s.ctx x).frozen then .next (s.freezeCtx x) else .next s

/-- The control core resumes a frozen context (R224), which from now on can be passed over by the picker (18 R312); a halted device runs no
context again (23 R379). -/
def execControlCoreResume (c : CtxId) (s : State) : Out :=
  let x := s.leading c
  if s.halted || !(s.ctx x).frozen then .next s else .next (s.setCtx x { s.ctx x with frozen := false, ready := s.now })

/-- A context trapped MACHINE with a region open is resumed at once by the firmware (22 R356). -/
def execRegionMachineResume (c : CtxId) (s : State) : Out :=
  let x := s.ctx c
  let hit := c.strands.any fun t => (s.strand t).trap.valid && (s.strand t).trap.cause == 13 && (s.strand t).trap.region.getLsbD 0
  if x.trapped && hit && !x.parked then
    let s1 := s.resumeCtx c false
    .next (s1.setCtx c { s1.ctx c with frozen := x.frozen })
  else .next s

/-! ## The image of a context in its save area (R226) -/

/-- One bit of a CRC-32C (reflected, polynomial 0x1EDC6F41). -/
def crcBit (c : W32) : W32 := if c.getLsbD 0 then (c >>> 1) ^^^ 0x82F63B78 else c >>> 1

/-- One byte of a CRC-32C. -/
def crcByte (c : W32) (b : Byte) : W32 :=
  crcBit (crcBit (crcBit (crcBit (crcBit (crcBit (crcBit (crcBit (c ^^^ b.setWidth 32))))))))

/-- The CRC-32C of bytes. -/
def crc32c (bs : List Byte) : W32 := ~~~(bs.foldl crcByte (0xFFFFFFFF : W32))

/-- Special registers 0 to 19 of a strand as a `gets` outside a region would read them (R226, 03 R52). -/
def State.sregWords (s : State) (t : StrandId) : List W64 :=
  (List.range 20).map fun n => if n = 11 then 0 else ({ s with turn := t } : State).sregValue n

/-- A loop frame as four words: active, first address, last address, count (DESIGN CHOICE, log 18). -/
def Frame.words (f : Frame) (n : W64) : List W64 := [if f.active then 1 else 0, f.start, f.stop, n]

/-- The target of a result as a word (DESIGN CHOICE, log 18). -/
def Tgt.code (t : Tgt) : W64 :=
  match t with
  | .g r => r.setWidth 64
  | .v r => 64 + r.setWidth 64
  | .k r => 128 + r.setWidth 64
  | .fmt => 192
  | .latch w => 256 + BitVec.ofNat 64 w.val
  | .stage n => 260 + BitVec.ofNat 64 n.val
  | .acc n => 262 + BitVec.ofNat 64 n.val

/-- The data of a replay register: those of a matrix result stand in the pending matrix results. -/
def Dat.small (d : Dat) : Nat :=
  match d with
  | .w x => x.toNat
  | .v x => x.toNat
  | .fmt x => x.toNat
  | _ => 0

/-- The rows of a matrix result as bytes. -/
def Dat.rowBytes (d : Dat) : List Byte :=
  match d with
  | .rows xs _ => xs.flatMap fun x => leBytes 256 x.1.toNat
  | .accRows xs => xs.flatMap fun x => leBytes 512 x.1.toNat
  | _ => []

/-- The replay registers: entries of 272 bytes, each target, remaining steps and data (R226; DESIGN CHOICE, log 18). -/
def Strand.replayBytes (t : Strand) : List Byte :=
  t.inflight.flatMap fun x => leBytes 8 x.tgt.code.toNat ++ leBytes 8 (x.due - t.step).toNat ++ leBytes 256 x.dat.small

/-- Strand control: attachment, exit state, next bundle, join group (R226; DESIGN CHOICE, log 18). -/
def Strand.controlWords (t : Strand) : List W64 :=
  [ (if t.attached then 1 else 0) + (if t.exited then 2 else 0), t.pc,
    (match t.hold with | some (.join a _) => a | _ => 0), BitVec.ofNat 64 t.idle ]

/-- The bytes of an array of rows. -/
def arrayBytes {w k : Nat} (n : Nat) (a : Vector (BitVec w) k) : List Byte := a.toList.flatMap fun r => leBytes n r.toNat

/-- Dwords as bytes. -/
def dwordBytes (ws : List W64) : List Byte := ws.flatMap fun w => leBytes 8 w.toNat

/-- The words of the completion register of the memory-side or link engine (21 R340, R348). -/
def CwReg.word (r : CwReg) : W64 := if r.valid then (1#64 <<< 63) ||| r.addr.setWidth 64 else r.addr.setWidth 64

/-- The geometry registers as 160 bytes, then MLEN, MCW, the link registers and the row counts (R226). -/
def Core.engineBytes (o : Core) : List Byte :=
  dwordBytes ([o.geo.csrc, o.geo.cdst] ++
    (List.finRange 6).flatMap fun n => [zx o.geo.ccount[n.val], o.geo.csstr[n.val], o.geo.cdstr[n.val]]) ++
  dwordBytes ([o.mlen, o.mcw.word] ++ (List.finRange 16).map fun p => o.lcw[p.val].word) ++
  [BitVec.ofNat 8 o.stageRows[0], BitVec.ofNat 8 o.stageRows[1]]

/-- First byte of the area of a strand of a context whose save area begins at `save` (R226). -/
def strandArea (save core : Nat) : Nat := save + 0x100000 + 0x200000 * core

/-- The sealed parts of a strand's area (R227): strand control, replay registers, pending matrix results. -/
def sealedRanges (area : Nat) : List (Nat × Nat) := [(area + 0x320, 224), (area + 0x4400, 17408), (area + 0x80000, 0x80000)]

/-- The check word of a strand: the CRC-32C of its sealed parts (R227). -/
def checkWord (m : Memory) (area : Nat) : W64 := zx (crc32c ((sealedRanges area).flatMap fun r => memBytes m r.1 r.2))

/-- The place of the check word of a strand in the context control part (R226; DESIGN CHOICE, log 18). -/
def checkWordAt (save core : Nat) : Nat := save + 0x108 + 8 * core

/-- The state of a context as the first word of its control part: free, ready, running, retiring, then trapped and parked
(DESIGN CHOICE, log 18). -/
def Context.stateWord (c : Context) : W64 :=
  BitVec.ofNat 64 ((match c.run with | .free => 0 | .ready => 1 | .running => 2 | .waiting => 3 | .retiring => 4) + 8 * c.trapped.toNat + 16 * c.parked.toNat)

/-- Bytes written by the control core to reserved HBM, in every copy of their lines too (14 R240); granules written whole are clean (22 R355). -/
def State.saveBytes (s : State) (pa : Nat) (bs : List Byte) : State :=
  ({ s.cleanWhole pa bs.length with mem := memWriteBytes s.mem pa bs } : State).patchRange pa bs.length

/-- The tags of a partition as bytes, one bit for each word of four bytes (R226; DESIGN CHOICE, log 18). -/
def tagBytes (tags : NatSet) (base len : Nat) : List Byte :=
  (List.range (len / 32)).map fun j =>
    BitVec.ofNat 8 ((List.range 8).foldl (fun n i => n + if tags.contains (base / 4 + 8 * j + i) then 2 ^ i else 0) 0)

/-- The sealed parts zeroed, before they are written. -/
def clearSealed (m : Memory) (area : Nat) : Memory :=
  m.filter fun x => !(sealedRanges area).any fun r => decide (r.1 ≤ x.1 ∧ x.1 < r.1 + r.2)

/-- The sealed parts of an area zeroed in memory and in every copy of their lines, and clean. -/
def State.clearArea (s : State) (area : Nat) : State :=
  (sealedRanges area).foldl (fun s r => (s.cleanWhole r.1 r.2).patchRange r.1 r.2) { s with mem := clearSealed s.mem area }

/-- The predicate registers as they read, k0 all ones (03 R48). -/
def Strand.predicateWords (t : Strand) : List W64 := (List.range 8).map t.rk

/-- The state of one strand, with the core's part for a matrix-using context, written to its area, its check word to the context control part
(R226, R227). -/
def State.saveStrand (s : State) (t : StrandId) : State :=
  let b := s.bindOf t.ctxId
  let st := s.strand t
  let o := s.core t.coreId
  let a := strandArea b.save.toNat t.core.val
  let part := (List.range b.partBytes).map fun i => o.spadByte t.coreId.key (b.partBase + i)
  let big := (st.inflight.filter fun x => !x.dat.rowBytes.isEmpty).take 8
  let parts : List (Nat × List Byte) :=
    [(0, arrayBytes 8 st.g), (0x200, dwordBytes st.predicateWords), (0x240, dwordBytes (s.sregWords t)),
     (0x2E0, dwordBytes (st.f0.words st.lc0 ++ st.f1.words st.lc1)), (0x320, dwordBytes st.controlWords), (0x400, arrayBytes 256 st.v),
     (0x4400, st.replayBytes), (0x100000, part), (0x100000 + b.partBytes, tagBytes o.tags b.partBase b.partBytes)] ++
    if b.matrix then
      [(0x10000, o.engineBytes), (0x20000, o.acc.toList.flatMap (arrayBytes 512)), (0x30000, o.stage.toList.flatMap (arrayBytes 256)),
       (0x40000, o.latch.toList.flatMap (arrayBytes 256))] ++
      ((List.range big.length).zip big).map fun x => (0x80000 + 0x10000 * x.1, x.2.dat.rowBytes)
    else []
  let s1 := parts.foldl (fun s x => s.saveBytes (a + x.1) x.2) (s.clearArea a)
  s1.saveBytes (checkWordAt b.save.toNat t.core.val) (leBytes 8 (checkWord s1.mem a).toNat)

/-- Bytes of memory as numbers of n bytes each. -/
def loadRows (w n k : Nat) (m : Memory) (a : Nat) : Vector (BitVec w) k :=
  Vector.ofFn fun i => BitVec.ofNat w (leNat (memBytes m (a + n * i.val) n))

/-- The poison marks of items of n bytes read back: those saved stay where the image still holds the saved value (DESIGN CHOICE, log 18), and
an item whose image is poisoned is poisoned (22 R355). -/
def loadMarks {w k : Nat} (ks : List Nat) (a n : Nat) (p : NatSet) (x y : Vector (BitVec w) k) : NatSet :=
  (List.range k).filter fun i => (p.contains i && x[i]? == y[i]?) || inSectors ks (a + n * i) n

/-- A loop frame read back. -/
def frameOf (m : Memory) (a : Nat) : Frame := ⟨(memWord m a).getLsbD 0, memWord m (a + 8), memWord m (a + 16)⟩

/-- The rows of a saved matrix result, those of poisoned bytes of its slot poisoned. -/
def Dat.reload (d : Dat) (ks : List Nat) (a : Nat) : Dat :=
  match d with
  | .rows xs banks => .rows (((List.range xs.length).zip xs).map fun x => (x.2.1, x.2.2 || inSectors ks (a + 256 * x.1) 256)) banks
  | .accRows xs => .accRows (((List.range xs.length).zip xs).map fun x => (x.2.1, x.2.2 || inSectors ks (a + 512 * x.1) 512))
  | _ => d

/-- The results in flight of a strand read back: each keeps its remaining steps; poison of its bytes in the area is its own (R227, 22 R355). -/
def reloadInflight (xs : List Exposed) (ks : List Nat) (a : Nat) (old new : W64) : List Exposed :=
  ((List.range xs.length).zip xs).map fun x =>
    let slot := ((xs.take x.1).filter fun y => !y.dat.rowBytes.isEmpty).length
    { x.2 with
      due := x.2.due - old + new
      dat := x.2.dat.reload ks (a + 0x80000 + 0x10000 * slot)
      poison := x.2.poison || inSectors ks (a + 0x4400 + 272 * x.1) 272 }

/-- The software-visible registers of a strand read back from its area, over what else was saved; a saved result keeps its remaining steps
(R226, R227). `ks` are the poisoned sectors of memory (22 R355). -/
def Strand.reload (t : Strand) (m : Memory) (ks : List Nat) (a : Nat) : Strand :=
  let g := loadRows 64 8 64 m a
  let k := loadRows 64 8 8 m (a + 0x200)
  let v := loadRows 2048 256 64 m (a + 0x400)
  let sr := fun n => memWord m (a + 0x240 + 8 * n)
  let fmt := fmtStored ((sr 15).setWidth 32)
  let t1 := { t with g := g, k := k, v := v
                     gp := (loadMarks ks a 8 t.gp t.g g).filter fun n => n != 0
                     kp := (loadMarks ks (a + 0x200) 8 t.kp t.k k).filter fun n => n != 0
                     vp := loadMarks ks (a + 0x400) 256 t.vp t.v v
                     step := sr 0, confirmed := none, inflight := reloadInflight t.inflight ks a t.step (sr 0)
                     rbcause := (sr 12).setWidth 4, rbaddr := sr 13
                     f0 := frameOf m (a + 0x2E0), f1 := frameOf m (a + 0x300)
                     fmt := fmt, fmtPoison := (t.fmtPoison && fmt == t.fmt) || inSectors ks (a + 0x240 + 8 * 15) 8
                     barovr := (sr 19).setWidth 8 }
  [8, 9, 10, 16, 17, 18].foldl (fun t n => t.applySet n (sr n)) t1

/-- A completion register read back. -/
def cwOf (w : W64) : CwReg := ⟨w.getLsbD 63, w.setWidth 57⟩

/-- The matrix and engine parts of a core read back from the area of its strand (R226); the banks of the stages' rows, which the area does not
hold, come back with the image (DESIGN CHOICE, log 18). -/
def Core.reload (o saved : Core) (m : Memory) (ks : List Nat) (a : Nat) : Core :=
  let e := a + 0x10000
  let acc := Vector.ofFn fun (i : Fin 2) => loadRows 4096 512 64 m (a + 0x20000 + 0x8000 * i.val)
  let stage := Vector.ofFn fun (i : Fin 2) => loadRows 2048 256 64 m (a + 0x30000 + 0x4000 * i.val)
  let latch := Vector.ofFn fun (i : Fin 4) => loadRows 2048 256 128 m (a + 0x40000 + 0x8000 * i.val)
  { o with
    acc := acc, stage := stage, latch := latch
    accPoison := Vector.ofFn fun (i : Fin 2) =>
      loadMarks ks (a + 0x20000 + 0x8000 * i.val) 512 saved.accPoison[i.val] saved.acc[i.val] acc[i.val]
    stagePoison := Vector.ofFn fun (i : Fin 2) =>
      loadMarks ks (a + 0x30000 + 0x4000 * i.val) 256 saved.stagePoison[i.val] saved.stage[i.val] stage[i.val]
    latchPoison := Vector.ofFn fun (i : Fin 4) =>
      loadMarks ks (a + 0x40000 + 0x8000 * i.val) 256 saved.latchPoison[i.val] saved.latch[i.val] latch[i.val]
    geo := { csrc := memWord m e, cdst := memWord m (e + 8)
             ccount := Vector.ofFn fun (i : Fin 6) => (memWord m (e + 16 + 24 * i.val)).setWidth 32
             csstr := Vector.ofFn fun (i : Fin 6) => memWord m (e + 24 + 24 * i.val)
             cdstr := Vector.ofFn fun (i : Fin 6) => memWord m (e + 32 + 24 * i.val) }
    mlen := memWord m (e + 0xA0), mcw := cwOf (memWord m (e + 0xA8))
    lcw := Vector.ofFn fun (i : Fin 16) => cwOf (memWord m (e + 0xB0 + 8 * i.val))
    stageRows := Vector.ofFn fun (i : Fin 2) => min 64 (memRead m (e + 0x130 + i.val)).toNat
    stageBanks := saved.stageBanks, qfence := Vector.replicate 8 [] }

/-- A core whose poisoned scratchpad granules have their bytes written out as they read. -/
def Core.pinned (o : Core) (key : Nat) : Core :=
  { o with spad := (o.spadPoison.flatMap fun g => (List.range 8).map fun i => 8 * g + i).foldl (fun m i => tset m i (o.spadByte key i)) o.spad }

/-- A partition read back: data and tags from the area, moved to the new place (R226, R227); a granule is poisoned where it was saved so and
its image still holds what was saved, and where its image is poisoned (22 R355). -/
def Core.reloadPart (o saved : Core) (old new : Bind) (m : Memory) (ks : List Nat) (a : Nat) : Core :=
  let lo := new.partBase
  let hi := new.partBase + new.partBytes
  let at_ := a + 0x100000
  let same := fun i => saved.spad.any fun c => c.1 == old.partBase + i && c.2 == memRead m (at_ + i)
  let kept := o.spad.filter fun x => !(decide (lo ≤ x.1) && decide (x.1 < hi))
  { o with
    spad := (List.range new.partBytes).foldl (fun sp i => tset sp (lo + i) (memRead m (at_ + i))) kept
    tags := ((List.range (new.partBytes / 4)).filter fun i =>
        (memRead m (at_ + old.partBytes + i / 8)).getLsbD (i % 8)).foldl (fun ts i => nsInsert ts (lo / 4 + i))
      (o.tags.filter fun t => !(decide (lo ≤ 4 * t) && decide (4 * t < hi)))
    spadPoison := ((List.range (new.partBytes / 8)).filter fun j =>
        (saved.spadPoison.contains (old.partBase / 8 + j) && (List.range 8).all fun i => same (8 * j + i)) ||
          inSectors ks (at_ + 8 * j) 8).foldl (fun ts j => nsInsert ts (lo / 8 + j))
      (o.spadPoison.filter fun t => !(decide (lo ≤ 8 * t) && decide (8 * t < hi))) }

/-! ## The gang record (R383) -/

/-- The words of a bind record (18 R307). -/
def Bind.words (b : Bind) : List W64 :=
  [ BitVec.ofNat 64 ((if b.valid then 1 else 0) + (if b.matrix then 2 else 0) + (if b.lock then 4 else 0) + (if b.spec then 8 else 0)
      + b.prio.toNat * 2 ^ 4 + b.bclass.toNat * 2 ^ 6 + b.asid.toNat * 2 ^ 11 + b.gen.toNat * 2 ^ 22 + b.cig.toNat * 2 ^ 26
      + b.gang.toNat * 2 ^ 32),
    b.entry.setWidth 64, BitVec.ofNat 64 (b.pbase.toNat + b.psize.toNat * 2 ^ 5), b.save.setWidth 64, b.args, b.node, 0, 0 ]

/-- Word 0 of a binding-table entry in a gang record: scratchpad words by cluster-in-gang, core and offset in the partition. -/
def State.objectWord (s : State) (g : Gang) (w : TagWord) : W64 :=
  match w with
  | .sync pa => BitVec.ofNat 64 pa
  | .spad o off =>
    let i := g.members.findIdx fun c => c.cluster == o.cluster
    let base := match g.members[i]? with | some c => (s.bindOf c).partBase | none => 0
    BitVec.ofNat 64 (2 ^ 63 + i * 2 ^ 58 + o.core.val * 2 ^ 56 + (off - base))

/-- A barrier slot as a word (R383). -/
def Barrier.word (b : Barrier) : W64 :=
  let l := fun (c : Fin 4) => match b.last[c.val] with | some p => if p < b.phase then 0 else p - b.phase + 1 | none => 0
  BitVec.ofNat 64 (b.count + b.tally0 * 2 ^ 3 + b.tally1 * 2 ^ 6 + b.phase % 2 ^ 32 * 2 ^ 9 +
    l 0 * 2 ^ 41 + l 1 * 2 ^ 43 + l 2 * 2 ^ 45 + l 3 * 2 ^ 47)

/-- The bytes of a gang record. -/
def State.gangBytes (s : State) (k : Nat) (g : Gang) : List Byte :=
  let b0 := match g.members with | c :: _ => s.bindOf c | [] => Bind.reset
  let pad := fun (n : Nat) (ws : List W64) => ws ++ List.replicate (n - ws.length) 0
  dwordBytes (
    pad 8 [BitVec.ofNat 64 (k % 65536 + g.size * 2 ^ 16 + g.die.val * 2 ^ 22), b0.node,
           BitVec.ofNat 64 (b0.asid.toNat + b0.gen.toNat * 2 ^ 16)] ++
    pad 256 (g.members.flatMap fun c => (s.bindOf c).words) ++
    pad 248 [] ++
    pad 256 (g.table.flatMap fun e => [s.objectWord g e.obj, BitVec.ofNat 64 e.base, BitVec.ofNat 64 e.len, 1]) ++
    pad 256 (g.members.flatMap fun c => (List.range 8).map fun j => (s.bar c j).word))

/-- The gang record of an identifier. -/
def gangRecordAt (k : Nat) : Nat := Config.gangBase + k % 65536 * 8192

/-! ## Eviction (R225) -/

/-- Every context of a gang frozen, as far as it is not yet (R224, R225). -/
def State.freezeGang (s : State) (g : Gang) : State :=
  g.members.foldl (fun s c => if (s.ctx c).frozen || (s.ctx c).freezing then s else s.freezeCtx c) s

/-- Whether the state of a gang can be saved: every context frozen and quiet, its queues idle and what its strands issued done. -/
def State.evictable (s : State) (g : Gang) : Bool :=
  g.members.all fun c =>
    let b := s.bindOf c
    (s.ctx c).frozen && !(s.ctx c).suspending && s.quiet c &&
      ((List.range 8).all fun j => (s.bar c j).coming.isEmpty) &&
      c.strands.all fun t =>
        let st := s.strand t
        st.range.isNone && st.unconfirmed.isEmpty && (s.writes.all fun w => w.strand % 65536 != t.key) &&
          (!b.matrix || (s.enginesIdle t.coreId && !(s.core t.coreId).arrayBusy && (s.core t.coreId).reservations.isEmpty)) &&
          (!b.lock || ((s.strand (s.mateStrand t)).unconfirmed.isEmpty && (s.strand (s.mateStrand t)).confirmed.isNone))

/-- The image of a context as it is saved. -/
def State.imageOf (s : State) (c : CtxId) : Image where
  bind := s.bindOf c
  ctx := s.ctx c
  strands := c.strands.map s.strand
  cores := (List.finRange 4).map fun n => (s.core (c.coreId n)).pinned (c.coreId n).key

/-- Two sets of marks together. -/
def bothMarks (a b : NatSet) : NatSet := b.foldl nsInsert a

/-- A strand with the poison marks of its other copy too, which stands at the same step. -/
def Strand.withMarks (t u : Strand) : Strand :=
  { t with
    gp := bothMarks t.gp u.gp, vp := bothMarks t.vp u.vp, kp := bothMarks t.kp u.kp, fmtPoison := t.fmtPoison || u.fmtPoison
    inflight := ((List.range t.inflight.length).zip t.inflight).map fun x =>
      { x.2 with poison := x.2.poison || (match u.inflight[x.1]? with | some y => y.poison | none => false) } }

/-- A core with the poison marks of the matrix unit of the other copy's too. -/
def Core.withMarks (o p : Core) : Core :=
  { o with
    latchPoison := Vector.ofFn fun (i : Fin 4) => bothMarks o.latchPoison[i.val] p.latchPoison[i.val]
    accPoison := Vector.ofFn fun (i : Fin 2) => bothMarks o.accPoison[i.val] p.accPoison[i.val]
    stagePoison := Vector.ofFn fun (i : Fin 2) => bothMarks o.stagePoison[i.val] p.stagePoison[i.val] }

/-- Of a lockstep pair, whose copies hold the same values once every bundle is confirmed, the leading copy's state is what is saved, with the
poison marks of both (22 R362; DESIGN CHOICE, log 38). -/
def State.joinCopies (s : State) (c : CtxId) : State :=
  if (s.bindOf c).lock then
    c.strands.foldl (fun s t =>
      let m := s.mateStrand t
      let s1 := s.alignTo m (s.strand t).step (s.strand m).inflight.length
      let s2 := s1.setStrand t ((s1.strand t).withMarks (s1.strand m))
      if (s.bindOf c).matrix then s2.setCore t.coreId ((s2.core t.coreId).withMarks (s2.core m.coreId)) else s2) s
  else s

/-- A context's record released, and its trailing copy's: VALID clears, the other fields stay (R225, 18 R310). -/
def State.release (s : State) (c : CtxId) : State :=
  let b := s.bindOf c
  let m := s.mateOf c
  let s1 := (s.setBind c { b with valid := false }).setCtx c Context.reset
  if b.lock then (s1.setBind m { s1.bindOf m with valid := false }).setCtx m Context.reset else s1

/-- The state of an evictable gang saved, its gang record written, its records released (R225, R383). -/
def State.saveGang (s0 : State) (k : Nat) (g : Gang) : State :=
  let s := g.members.foldl State.joinCopies s0
  let s1 := g.members.foldl (fun s c =>
    c.strands.foldl State.saveStrand (s.saveBytes ((s.bindOf c).save.toNat + 0x100) (leBytes 8 (s.ctx c).stateWord.toNat))) s
  let pa := gangRecordAt k
  let s2 := s1.saveBytes pa (s1.gangBytes k g)
  let images := g.members.map s2.imageOf
  let s3 := g.members.foldl State.release s2
  s3.setGang k { g with saved := some images, record := some pa }

/-! ## Restoration (R225, R227) -/

/-- The object of a binding moved with its context. -/
def moveObject (g : Gang) (new : List CtxId) (oldBinds newBinds : List Bind) (w : TagWord) : TagWord :=
  match w with
  | .sync pa => .sync pa
  | .spad o off =>
    let i := g.members.findIdx fun c => c.cluster == o.cluster
    match new[i]?, oldBinds[i]?, newBinds[i]? with
    | some c, some a, some b => .spad ⟨c.die, c.cluster, o.core⟩ (off - a.partBase + b.partBase)
    | _, _, _ => w

/-- A strand as its trailing copy has it: the registers and the results in flight; what waits, traps and is fetched is the leading copy's. -/
def Strand.copied (t : Strand) : Strand :=
  { t with pend := [], hold := none, waited := false, queue := [], trapping := false, trap := Strand.reset.trap, notice := 0, stall := [] }

/-- The trailing copy of a restored context: what its leading copy was given (22 R362; DESIGN CHOICE, log 38). -/
def State.restoreCopy (s : State) (c : CtxId) (m : Memory) (ks : List Nat) : State :=
  let b := s.bindOf c
  let p := s.mateOf c
  (List.finRange 4).foldl (fun s n =>
    let s1 := s.setStrand (p.strand n) (s.strand (c.strand n)).copied
    if b.matrix then
      s1.setCore (p.coreId n) ((s1.core (p.coreId n)).reload (s1.core (c.coreId n)) m ks (strandArea b.save.toNat n.val))
    else s1) s

/-- One context restored from its image at its new place (R227), which the control core reads as performed at device scope: altered images of
registers and arrays take effect, a broken
seal is noted for the strand's first bundle; join timers begin again. -/
def State.restoreCtx (s : State) (c : CtxId) (im : Image) (b : Bind) : State :=
  let area := fun (n : Fin 4) => strandArea b.save.toNat n.val
  let m := s.deviceImage
  let ks := s.poisonedSectors
  let broken := ((List.finRange 4).filter fun n => memWord m (checkWordAt b.save.toNat n.val) != checkWord m (area n)).map (·.val)
  let x := im.ctx
  let s1 := (s.setBind c b).setCtx c { x with
    run := if x.run = .retiring then .retiring else .ready
    ready := s.now, frozen := false, freezing := false, brokenSeal := broken
    joins := x.joins.map fun j => { j with start := j.start.map fun _ => s.now } }
  let s2 := (List.finRange 4).foldl (fun s n =>
    let st := im.strands.getD n.val Strand.reset
    let saved := im.cores.getD n.val Core.reset
    let o := (s.core (c.coreId n)).reloadPart saved im.bind b m ks (area n)
    (s.setStrand (c.strand n) (st.reload m ks (area n))).setCore (c.coreId n)
      (if b.matrix then o.reload saved m ks (area n) else o)) s1
  if b.lock then ((s2.setBind (partnerOf c) b).restoreCopy c m ks).flushText c else s2.flushText c

/-- The control core restores an evicted gang on free slots of one die, all contexts or none (R225). -/
def execRestoration (old : DieId) (gang : BitVec 16) (e : DieId) (slots : List Placement) (s : State) : Out :=
  let k := gangKey old gang
  let k' := gangKey e gang
  let g := s.gangAt k
  match g.saved with
  | none => .next s
  | some images =>
    let new : List CtxId := slots.map fun p => ⟨e, p.cluster, p.ctx⟩
    let binds := (slots.zip images).map fun x => { x.2.bind with pbase := x.1.pbase, valid := true }
    let lead := (new.zip binds).map fun x => (x.1, { x.2 with valid := false })
    let rs := lead ++ (lead.filter fun x => x.2.lock).map fun x => (partnerOf x.1, x.2)
    let free := rs.all fun x => !(s.bindOf x.1).valid
    if slots.length ≠ images.length ∨ s.halted ∨ !free ∨ (s.failingRecord rs g.size).isSome ∨
        (k ≠ k' ∧ (tget s.gangs k').isSome) then .next s
    else
      let s1 := ((new.zip images).zip binds).foldl (fun s x => s.restoreCtx x.1.1 x.1.2 x.2) s
      let table := g.table.map fun b => { b with obj := moveObject g new (images.map (·.bind)) binds b.obj }
      let s2 := { s1 with gangs := terase s1.gangs k }
      .next (s2.setGang k' { g with die := e, members := new, table := table, saved := none })

/-! ## Known-answer tiles (22 R361) -/

/-- The step that a trap record names. -/
def State.katLog (s : State) (t : StrandId) : State := s.log t.die logCore 7 (coreUnit t.coreId) 0 (s.strand t).trap.step.toNat 0

/-- Whether a strand stands at a KATFAIL. -/
def Strand.katfailed (t : Strand) : Bool := t.trap.valid && t.trap.cause == 8

/-- A cluster refused for matrix use (R361). -/
def State.quarantine (s : State) (t : StrandId) : State :=
  s.setDie t.die { s.die t.die with qmask := (s.die t.die).qmask ||| (1#32 <<< t.cluster.val) }

/-- The KATFAILs of a gang end as it is evicted: those not yet seen are logged and their clusters quarantined too (R361). -/
def State.endKatfails (s : State) (g : Gang) : State :=
  let ts := (g.members.flatMap CtxId.strands).filter fun t => (s.strand t).katfailed
  let s1 := (ts.filter fun t => (s.strand t).notice == 1).foldl (fun s t => (s.katLog t).quarantine t) s
  ts.foldl (fun s t => (s.setStrand t { s.strand t with notice := 0 }).resumeCtx t.ctxId false) s1

/-- The control core logs a KATFAIL and applies the policy of QCTL (R361): under policy 1 the gang is evicted, in two parts while
its work drains, its traps ended, and restored by RESTORATION; under the others the context stays trapped. -/
def execKatfailPolicy (t : StrandId) (s : State) : Out :=
  let st := s.strand t
  if !st.katfailed then .next s
  else if st.notice = 1 then
    let s1 := s.katLog t
    let d := s1.die t.die
    let policy := if d.qctl = 3 then 1 else d.qctl.toNat
    let s2 := if policy = 0 then s1 else s1.quarantine t
    let s3 := s2.setStrand t { s2.strand t with notice := if policy = 1 then 2 else 0 }
    .next (if policy = 1 then s3.freezeGang (s3.gangAt (s3.gangOf t)) else s3)
  else if st.notice = 2 then
    let k := s.gangOf t
    let g := s.gangAt k
    if s.evictable g then .next ((s.endKatfails g).saveGang k g) else .next s
  else .next s

end Sys2Proof.Machine
end

