-- ==== Sys2Proof/Machine/Graph.lean ====
section
/-! DEFINITION. Graphs: validation, launch, the evaluation and retirement of nodes, the ready queue with its overflow ring (18 R300 to
R306), placement and Dispatch (R309), and the journal's records (23 R373). -/

namespace Sys2Proof.Machine

/-! ## The journal (23 R373) -/

/-- The 32 words of the record of a sequence number. -/
def Journal.record (j : Journal) (n : Nat) : List W64 :=
  [ BitVec.ofNat 64 n,
    BitVec.ofNat 64 (j.op.toNat + j.state * 2 ^ 8 + j.status * 2 ^ 16 + j.mgmt.toNat * 2 ^ 24),
    BitVec.ofNat 64 j.accepted, BitVec.ofNat 64 j.completed, j.tag ] ++ (List.range 27).map fun i => j.words.getD i 0

/-- The record that 32 words hold. -/
def Journal.ofWords (ws : List W64) : Journal :=
  let w := (ws.getD 1 0).toNat
  { op := BitVec.ofNat 8 w, state := w / 2 ^ 8 % 256, status := w / 2 ^ 16 % 256, mgmt := w / 2 ^ 24 % 2 == 1
    accepted := (ws.getD 2 0).toNat, completed := (ws.getD 3 0).toNat, tag := ws.getD 4 0, words := ws.drop 5 }

/-- The place of a record in the ring. -/
def journalAt (n : Nat) : Nat := Config.journalBase + n % 65536 * 256

/-- A record performed: in the ring of reserved HBM, as long as its home stands, and in die 0's copy of the last 256. -/
def State.writeJournal (s : State) (n : Nat) (j : Journal) : State :=
  let s1 := { s with journal := (tset s.journal n j).filter fun x => decide (n < x.1 + 256) }
  if s.lostAt (journalAt n) then s1
  else { s1.cleanWhole (journalAt n) 256 with mem := memSetWords s.mem (journalAt n) (j.record n) }

/-- A record as it can be read: from die 0's copy, else from the ring, unless that has taken another record, is lost or is poisoned. -/
def State.journalRec (s : State) (n : Nat) : Option Journal :=
  match tget s.journal n with
  | some j => some j
  | none =>
    let ws := (List.range 32).map fun i => s.deviceWord (journalAt n + 8 * i)
    if n = 0 ∨ s.lostAt (journalAt n) ∨ ws.headD 0 ≠ BitVec.ofNat 64 n ∨ (List.range 4).any (fun i => s.devicePoison (journalAt n + 64 * i)) then none
    else some (Journal.ofWords ws)

/-- The state of a record changed. -/
def State.journalState (s : State) (n state status : Nat) : State :=
  match s.journalRec n with
  | some j => s.writeJournal n { j with state := state, status := status }
  | none => s

/-! ## What an access of an engine comes to -/

/-- Why a graph operation does not go on: an access fails on a die's engine, it has to wait, a ring is full (R302, R306). -/
inductive Stop where
  | fault (e : DieId) (va : W64)
  | wait
  | full
  deriving DecidableEq, Repr

/-- An access, its fault charged to the engine of a die. -/
def onEngine {α : Type} (e : DieId) (x : Except AddrFault α) : Except Stop α :=
  match x with
  | .ok a => .ok a
  | .error f => .error (.fault e f.2.2)

/-- A dword stored at its home, every cached copy of its line gone first. -/
def State.engineStore (s : State) (pa : Nat) (w : W64) : Except Stop State :=
  match s.purgeLines [lineOf pa] with
  | none => .error .wait
  | some s1 => .ok { s1 with mem := memSetWord s1.mem pa w }

/-- The engine of a die stops at an access, from which it resumes, and reports it to the control core (R306). -/
def State.engineFault (s : State) (e : DieId) (va : W64) (r : Option Resume) : State :=
  let d := s.die e
  let s1 := s.setDie e { d with engine := { d.engine with fault := true, grfaddr := va, resume := r } }
  if d.engine.fault then s1 else { s1 with reports := s1.reports ++ [⟨e, some va⟩] }

/-- The state after an attempt: what was done, the engine stopped, or nothing. -/
def State.after (s : State) (x : Option Resume) (r : Except Stop State) : State :=
  match r with
  | .ok s1 => s1
  | .error (.fault e va) => s.engineFault e va x
  | .error _ => s

/-! ## Nodes of a loaded graph -/

/-- The loaded graph of a launch: its handle and record. -/
def State.graphOf (s : State) (launch : Nat) : Option (Nat × Graph) :=
  s.graphs.find? fun g => match g.2.launch with | some l => l % 2 ^ 32 == launch % 2 ^ 32 | none => false

/-- The virtual address of a node record. -/
def Graph.nodeVa (g : Graph) (n : Nat) : W64 := g.base + BitVec.ofNat 64 (64 * n)

/-- The record of a node, read by the engine of a die. -/
def State.readNode (s : State) (e : DieId) (g : Graph) (n : Nat) : Except Stop Node :=
  onEngine e (s.nodeAt e g.asid g.gen g.base n)

/-- The place of a node record. -/
def State.nodePa (s : State) (e : DieId) (g : Graph) (n : Nat) (need : Need) : Except Stop Nat :=
  match s.dieTranslate e g.asid g.gen (g.nodeVa n) need with
  | .error f => .error (.fault e f.2.2)
  | .ok p => (match p.loc with | .phys pa => .ok pa | .spad _ _ => .error (.fault e (g.nodeVa n)))

/-- The run-state word of a node written (R300: the one field the engine writes). -/
def State.writeRun (s : State) (e : DieId) (g : Graph) (n : Nat) (w : W64) : Except Stop State :=
  match s.nodePa e g n needW with
  | .error x => .error x
  | .ok pa => s.engineStore (pa + 48) w

/-- The counter of a node: the checks of 17 R297 (R302). -/
def State.engineCounter (s : State) (e : DieId) (g : Graph) (va : W64) : Except Stop Nat :=
  if va.toNat % 64 ≠ 0 then .error (.fault e va)
  else
    match s.dieTranslate e g.asid g.gen va needRW with
    | .error f => .error (.fault e f.2.2)
    | .ok p =>
      match p.loc with
      | .spad _ _ => .error (.fault e va)
      | .phys pa => if p.cacheable then .ok pa else .error (.fault e va)

/-- The CONFIG word of a join counter (R302): THR = 65,535, GMAX = 0, LEASE = 0. -/
def joinConfig : W64 := 0xFFFF0000

/-- CONFIG is written and `ainit` run on a node's counter with a value (R302, 17 R297). -/
def State.initCounter (s : State) (e : DieId) (g : Graph) (x : Node) (v : Nat) : Except Stop State :=
  match s.engineCounter e g x.ctr with
  | .error y => .error y
  | .ok ctr =>
    match s.engineStore (ctr + 8) joinConfig with
    | .error y => .error y
    | .ok s1 =>
      match s1.withTundish ctr with
      | none => .error .wait
      | some s2 =>
        let c := ctrConfig joinConfig.toNat
        let s3 := (s2.pullAll ctr).2
        .ok ((s3.setTundish ctr { s3.tundish ctr with
          reserve := v, normal := decide (c.2.1 ≤ v), gmax := c.1, thr := c.2.1, lease := c.2.2
          holders := [], recalling := none, found := false, entering := false, atHome := (s3.tundish ctr).queue.length
          lost := 0, grants := 0, recalls := 0, exact := 0, fails := 0, used := s.seq }).ainitWords ctr v)

/-- A decrement of a join counter at home: whether it took the value to zero, and the state after (17 R288, R298). -/
def State.decrement (s : State) (e : DieId) (g : Graph) (x : Node) : Except Stop (Bool × State) :=
  match s.engineCounter e g x.ctr with
  | .error y => .error y
  | .ok ctr =>
    match s.withTundish ctr with
    | none => .error .wait
    | some s1 =>
      let t := s1.tundish ctr
      if t.reserve = 0 then .ok (false, (s1.setTundish ctr { t with fails := t.fails + 1 }).ctrWrite ctr 7 (t.fails + 1))
      else
        let s2 := s1.setTundish ctr { t with reserve := t.reserve - 1, used := s.seq }
        .ok (t.reserve == 1, if t.normal && decide (t.reserve - 1 < t.threshold) then s2.goExact ctr else s2)

/-! ## The ready queue and its ring (R305, R306) -/

/-- The number of entries of a ring. -/
def Engine.ringSize (x : Engine) : Nat := 2 ^ x.grsize
/-- Entries in the ring. -/
def Engine.ringUsed (x : Engine) : Nat := (x.grtail + 2 ^ 32 - x.grhead) % 2 ^ 32
/-- The address of ring entry i. -/
def Engine.ringVa (x : Engine) (i : Nat) : W64 := x.grbase + BitVec.ofNat 64 (16 * (i % x.ringSize))

/-- The place of a ring entry through the engine's own page table. -/
def State.ringPa (s : State) (e : DieId) (va : W64) (need : Need) : Except Stop Nat :=
  if !isGlobal va then .error (.fault e va)
  else
    match walkFrom s [] (s.die e).engine.grroot.toNat va.toNat [4, 3, 2, 1, 0] with
    | .fail _ _ => .error (.fault e va)
    | .leaf l => if (lacks l need).isSome || s.lostAt (leafPa l va.toNat) then .error (.fault e va) else .ok (leafPa l va.toNat)

/-- The nodes a die can still take in its queue and the ring behind it. -/
def Engine.places (x : Engine) : Nat := (if x.ringUsed = 0 then 256 - x.queue.length else 0) + (x.ringSize - x.ringUsed)

/-- A node made ready enters its die's queue, or the ring behind it (R305); an engine that has stopped takes none (R306). -/
def State.makeReady (s : State) (e : DieId) (g : Graph) (launch n : Nat) (live : Bool) : Except Stop State :=
  let d := s.die e
  let x := d.engine
  if x.fault then .error .wait
  else if x.queue.length < 256 ∧ x.ringUsed = 0 then
    .ok (s.setDie e { d with engine := { x with queue := x.queue ++ [⟨launch, n, live⟩] } })
  else if x.ringUsed < x.ringSize then
    match s.nodePa e g n needR with
    | .error y => .error y
    | .ok pa =>
      match s.ringPa e (x.ringVa x.grtail) needW with
      | .error y => .error y
      | .ok at_ =>
        match s.engineStore at_ (BitVec.ofNat 64 pa) with
        | .error y => .error y
        | .ok s1 =>
          match s1.engineStore (at_ + 8) (BitVec.ofNat 64 (launch % 2 ^ 32 + live.toNat * 2 ^ 32)) with
          | .error y => .error y
          | .ok s2 =>
            let d2 := s2.die e
            .ok (s2.setDie e { d2 with engine := { d2.engine with grtail := (x.grtail + 1) % 2 ^ 32 } })
  else .error .full

/-- The node whose record stands at a physical address. -/
def State.nodeOfPa (s : State) (e : DieId) (g : Graph) (pa : Nat) : Option Nat :=
  (List.range g.count).find? fun n => match s.nodePa e g n needR with | .ok p => p == pa | .error _ => false

/-- The queue refills from the head of the ring while it has room (R305): one entry. -/
def State.refill (s : State) (e : DieId) : Except Stop State :=
  let d := s.die e
  let x := d.engine
  if x.ringUsed = 0 ∨ 256 ≤ x.queue.length then .ok s
  else
    match s.ringPa e (x.ringVa x.grhead) needR with
    | .error y => .error y
    | .ok at_ =>
      let w := (s.frameWord (at_ + 8)).toNat
      match s.graphOf (w % 2 ^ 32) with
      | none => .error (.fault e (x.ringVa x.grhead))
      | some (_, g) =>
        match s.nodeOfPa e g (s.frameWord at_).toNat, g.launch with
        | some n, some l =>
          .ok (s.setDie e { d with engine := { x with
            queue := x.queue ++ [⟨l, n, decide (w / 2 ^ 32 % 2 = 1)⟩], grhead := (x.grhead + 1) % 2 ^ 32 } })
        | _, _ => .error (.fault e (x.ringVa x.grhead))

/-- The head of a die's queue taken away. -/
def State.dropReady (s : State) (e : DieId) : State :=
  let d := s.die e
  s.setDie e { d with engine := { d.engine with
    queue := d.engine.queue.drop 1, resume := if d.engine.resume = some .head then none else d.engine.resume } }

/-- The queue of an engine that runs refills (R305). -/
def State.refillOnce (s : State) (e : DieId) : State :=
  if (s.die e).engine.fault then s else s.after (some .refill) (s.refill e)

/-- The head of a die's queue taken away, and the queue refilled unless the engine has stopped (R306). -/
def State.popReady (s : State) (e : DieId) : State := (s.dropReady e).refillOnce e

/-! ## Retirement (R302, R304, R306) -/

/-- The nodes of a loop's body. -/
def Node.body (x : Node) : List Nat := (List.range (x.blast + 1 - x.bfirst)).map fun i => x.bfirst + i

/-- One edge of a retirement: LIVE is set for a successor taken by a node that ran, then its counter is decremented; the decrement
that takes it to zero makes it ready. -/
def State.retireEdge (s : State) (e : DieId) (g : Graph) (launch : Nat) (edge : Nat × Bool) : Except Stop State :=
  match s.readNode e g edge.1 with
  | .error y => .error y
  | .ok x =>
    match (if edge.2 then s.writeRun e g edge.1 (x.word 6 ||| (1#64 <<< 32)) else .ok s) with
    | .error y => .error y
    | .ok s1 =>
      match s1.decrement e g x with
      | .error y => .error y
      | .ok (zero, s2) =>
        if zero then s2.makeReady x.die g launch edge.1 (edge.2 || x.bits 6 32 32 == 1) else .ok s2

/-- The edges of a retirement one after the other: the state, the edges that remain, why it stopped. -/
def State.retireEdges (s : State) (e : DieId) (g : Graph) (launch : Nat) (edges : List (Nat × Bool)) :
    State × List (Nat × Bool) × Option Stop :=
  match edges with
  | [] => (s, [], none)
  | x :: r =>
    match s.retireEdge e g launch x with
    | .ok s1 => s1.retireEdges e g launch r
    | .error y => (s, x :: r, some y)

/-- The dies of the nodes that a retirement would make ready: those whose counters its edges would take to zero. -/
def State.readied (s : State) (e : DieId) (g : Graph) (edges : List (Nat × Bool)) : List DieId :=
  (edges.foldl (fun ns x => nsInsert ns x.1) []).filterMap fun n =>
    match s.readNode e g n with
    | .error _ => none
    | .ok y =>
      match s.engineCounter e g y.ctr with
      | .error _ => none
      | .ok ctr => if (s.tundish ctr).reserve = (edges.filter fun z => z.1 == n).length then some y.die else none

/-- Whether a retirement would make more nodes ready on a die than it has places for (R306). -/
def State.wouldOverflow (s : State) (e : DieId) (g : Graph) (edges : List (Nat × Bool)) : Bool :=
  let ds := s.readied e g edges
  ds.any fun d => decide ((s.die d).engine.places < (ds.filter fun x => x == d).length)

/-- BP is set and the control core notified once (R306). -/
def State.backPressure (s : State) (e : DieId) : State :=
  let d := s.die e
  let s1 := s.setDie e { d with engine := { d.engine with bp := true } }
  if d.engine.bp then s1 else { s1 with reports := s1.reports ++ [⟨e, none⟩] }

/-- A node has retired; with the last one the launch's record turns FINISHED, or FAILED after a refused kernel (23 R370). -/
def State.markRetired (s : State) (launch : Nat) (ns : List Nat) : State :=
  match s.graphOf launch with
  | none => s
  | some (h, g) =>
    let g1 := { g with retired := ns.foldl nsInsert g.retired }
    if g1.running ∧ g1.retired.length = g1.count then
      let s1 := { s with graphs := tset s.graphs h { g1 with running := false } }
      s1.journalState launch (if g1.refused then 5 else 4) (if g1.refused then 1 else 0)
    else { s with graphs := tset s.graphs h g1 }

/-- The contexts of a gang retire: their records are released, the lines retained for it are free again (R310, 05 R103). -/
def State.retireGang (s : State) (k : Nat) : State :=
  let g := s.gangAt k
  let s1 := if g.saved.isSome then s else g.members.foldl State.release s
  let s2 := allDies.foldl (fun s d =>
    let x := s.die d
    s.setDie d { x with
      l2 := x.l2.map fun l => if l.2.retained = some (k % 65536) then (l.1, { l.2 with retained := none }) else l
      mshr := x.mshr.map fun o => if o.2.retain = some (k % 65536) then (o.1, { o.2 with retain := none }) else o }) s1
  { s2 with gangs := terase s2.gangs k }

/-- The end of a retirement: the node counts as retired, its gang is released. -/
def State.finishRetire (s : State) (launch n : Nat) (gang : Option (BitVec 16)) : State :=
  let s1 := s.markRetired launch [n]
  match gang with
  | none => s1
  | some x => (match s1.gangs.find? fun g => g.1 % 65536 == x.toNat with | some g => s1.retireGang g.1 | none => s1)

/-- A retirement begins (R306): held with nothing decremented when a ring is full, held with its remaining edges, before all others, when an
access fails. The first result says whether it is over or held; otherwise it has to be tried again. -/
def State.retire (s : State) (e : DieId) (launch n : Nat) (gang : Option (BitVec 16)) (edges : List (Nat × Bool)) : Bool × State :=
  match s.graphOf launch with
  | none => (true, s.finishRetire launch n gang)
  | some (_, g) =>
    let hold := fun (s : State) (rest : List (Nat × Bool)) =>
      let d := s.die e
      s.setDie e { d with engine := { d.engine with held := d.engine.held ++ [⟨launch, n, gang, rest⟩] } }
    let first := fun (s : State) (rest : List (Nat × Bool)) =>
      let d := s.die e
      s.setDie e { d with engine := { d.engine with held := ⟨launch, n, gang, rest⟩ :: d.engine.held } }
    if s.wouldOverflow e g edges then (true, (hold s edges).backPressure e)
    else
      match s.retireEdges e g launch edges with
      | (s1, _, none) => (true, s1.finishRetire launch n gang)
      | (s1, rest, some (.fault f va)) => (true, (first s1 rest).engineFault f va (some (.held e)))
      | (s1, rest, some _) => if rest.length = edges.length then (false, s) else (true, hold s1 rest)

/-- The head of a die's held retirements goes on. -/
def State.retireHeld (s : State) (e : DieId) : State :=
  let d := s.die e
  match d.engine.held with
  | [] => s
  | h :: r =>
    match s.graphOf h.launch with
    | none => s.setDie e { d with engine := { d.engine with held := r } }
    | some (_, g) =>
      if s.wouldOverflow e g h.edges then s
      else
        let put := fun (s : State) (hs : List HeldRetire) => s.setDie e { s.die e with engine := { (s.die e).engine with held := hs } }
        match s.retireEdges e g h.launch h.edges with
        | (s1, _, none) => (put s1 r).finishRetire h.launch h.node h.gang
        | (s1, rest, some (.fault f va)) => (put s1 ({ h with edges := rest } :: r)).engineFault f va (some (.held e))
        | (s1, rest, some _) => put s1 ({ h with edges := rest } :: r)

/-- A root that found no place at its launch is made ready as the queue drains (R302, R306). -/
def State.readyRoot (s : State) (e : DieId) : State :=
  let due := s.graphs.findSome? fun g =>
    match g.2.launch with
    | none => none
    | some l => (g.2.roots.find? fun n => match s.readNode e g.2 n with | .ok x => x.die == e | .error _ => false).map fun n => (g.1, l, n, g.2)
  match due with
  | none => s
  | some (h, l, n, g) =>
    match s.makeReady e g l n true with
    | .ok s1 => { s1 with graphs := tset s1.graphs h { g with roots := g.roots.erase n } }
    | .error y => s.after (some .root) (.error y)

/-- A held retirement proceeds as the queue drains, a root still to be made ready after it (R306); not before the access of an evaluation at which
the engine stopped. -/
def execHeldRetirementProceeds (e : DieId) (s : State) : Out :=
  if (s.die e).engine.fault || (s.die e).engine.resume == some .head then .next s
  else if (s.die e).engine.held.isEmpty then .next (s.readyRoot e)
  else .next (s.retireHeld e)

/-! ## Evaluation (R302, R303) -/

/-- The node at the head of a die's queue, when its engine runs: the ready entry, the graph and the record. -/
def State.headNode (s : State) (e : DieId) : Except Stop (ReadyNode × Nat × Graph × Node) :=
  let x := (s.die e).engine
  match x.queue with
  | [] => .error .wait
  | r :: _ =>
    if x.fault then .error .wait
    else
      match s.graphOf r.launch with
      | none => .error .wait
      | some (h, g) =>
        match s.readNode e g r.node with
        | .error y => .error y
        | .ok n => .ok (r, h, g, n)

/-- An evaluation of the head node when it is of one of the kinds. -/
def State.evalHead (s : State) (e : DieId) (kind : Nat) (f : ReadyNode → Nat → Graph → Node → State) : Out :=
  match s.headNode e with
  | .error y => .next (s.after (some .head) (.error y))
  | .ok (r, h, g, n) => if n.kind = kind then .next (f r h g n) else .next s

/-- The head node retires with its edges and leaves the queue. -/
def State.retireHead (s : State) (e : DieId) (r : ReadyNode) (edges : List (Nat × Bool)) : State :=
  let t := s.retire e r.launch r.node none edges
  if t.1 then t.2.popReady e else s

/-- Every successor skipped. -/
def Node.skips (n : Node) : List (Nat × Bool) := n.succs.map fun x => (x, false)
/-- Every successor taken. -/
def Node.takes (n : Node) : List (Nat × Bool) := n.succs.map fun x => (x, true)

/-- A ready kernel node goes to the control core for placement, or retires at once when it is not LIVE (R302). -/
def execKernelNodeEval (e : DieId) (s : State) : Out :=
  s.evalHead e 0 fun r _ _ n =>
    if !r.live then s.retireHead e r n.skips
    else
      let d := s.die e
      (s.setDie e { d with placing := d.placing ++ [⟨r.launch, r.node, s.freshGang⟩] }).popReady e

/-- A cond or switch: the operand is read at device scope, one successor is taken and the others are skipped (R302, R304). -/
def State.choose (s : State) (e : DieId) (r : ReadyNode) (g : Graph) (n : Node) (pick : W64 → Nat) : State :=
  if !r.live then s.retireHead e r n.skips
  else
    match onEngine e (s.dieDword e g.asid g.gen n.opnd) with
    | .error y => s.after (some .head) (.error y)
    | .ok w =>
      let i := pick w
      s.retireHead e r ((List.range n.succs.length).map fun k => (n.succ k, k == i))

/-- A cond takes S0 for a nonzero dword, S1 for zero (R302). -/
def execCondNodeEval (e : DieId) (s : State) : Out :=
  s.evalHead e 1 fun r _ g n => s.choose e r g n fun w => if w = 0 then 1 else 0

/-- A switch takes S[min(i, NSUCC − 1)] (R302). -/
def execSwitchNodeEval (e : DieId) (s : State) : Out :=
  s.evalHead e 3 fun r _ g n => s.choose e r g n fun w => min w.toNat (n.succs.length - 1)

/-- A join retires at once (R302). -/
def execJoinNodeEval (e : DieId) (s : State) : Out :=
  s.evalHead e 4 fun r _ _ n => s.retireHead e r (if r.live then n.takes else n.skips)

/-- The counters of a list of body nodes set up with their own PRED and their LIVE bits cleared (R303). -/
def State.initBody (s : State) (e : DieId) (g : Graph) (ns : List Nat) : Except Stop State :=
  match ns with
  | [] => .ok s
  | n :: r =>
    match s.readNode e g n with
    | .error y => .error y
    | .ok x =>
      match s.initCounter e g x x.pred with
      | .error y => .error y
      | .ok s1 =>
        match s1.writeRun e g n (x.word 6 &&& ~~~(1#64 <<< 32)) with
        | .error y => .error y
        | .ok s2 => s2.initBody e g r

/-- One iteration of a loop begins: REMAIN is written, the counters of the body and the loop's own are set up, BFIRST is made
ready with LIVE = 1 (R303), in its ready entry (DESIGN CHOICE, log 20). -/
def State.iterate (s : State) (e : DieId) (r : ReadyNode) (h : Nat) (g : Graph) (n : Node) (remain : Nat) : Except Stop State :=
  match s.initBody e g n.body with
  | .error y => .error y
  | .ok s1 =>
    match s1.initCounter e g n n.btail with
    | .error y => .error y
    | .ok s2 =>
      match s2.writeRun e g r.node (BitVec.ofNat 64 (remain % 2 ^ 32 + 2 ^ 32)) with
      | .error y => .error y
      | .ok s3 =>
        match s3.readNode e g n.bfirst with
        | .error y => .error y
        | .ok b =>
          match s3.makeReady b.die g r.launch n.bfirst true with
          | .error y => .error y
          | .ok s4 =>
            .ok { s4 with graphs := tset s4.graphs h { g with
              loops := nsInsert g.loops r.node, retired := n.body.foldl nsErase g.retired } }

/-- A loop node runs another iteration or retires (R303). One that never ran its body counts the body's nodes as retired. -/
def execLoopNodeEval (e : DieId) (s : State) : Out :=
  s.evalHead e 2 fun r h g n =>
    let begun := g.loops.contains r.node
    if !begun && !r.live then
      let t := s.retire e r.launch r.node none n.skips
      if t.1 then (t.2.popReady e).markRetired r.launch n.body else s
    else
      let remain := if begun then n.bits 6 31 0 else n.count
      if remain = 0 then
        let s0 := { s with graphs := tset s.graphs h { g with loops := nsErase g.loops r.node } }
        let t := s0.retire e r.launch r.node none n.takes
        if !t.1 then s
        else if begun then t.2.popReady e
        else (t.2.popReady e).markRetired r.launch n.body
      else
        match (s.dropReady e).refill e with
        | .error y => s.after (some .head) (.error y)
        | .ok s0 => s.after (some .head) (s0.iterate e r h g n (remain - 1))

/-! ## Gangs retire (R304, R306, R310) -/

/-- Whether every write of a gang's strands and engines is performed at device scope and its queues are idle (R304, 04 R88). -/
def State.gangDone (s : State) (g : Gang) : Bool :=
  g.members.all fun c =>
    (s.ctx c).run == .retiring && !(s.ctx c).frozen && !(s.ctx c).suspending &&
      c.strands.all fun t =>
        (s.strand t).pend.isEmpty && (s.strand t).range.isNone &&
          (s.writes.all fun w => w.strand % 65536 != t.key || s.performedAt w 3) &&
          (!(s.bindOf c).matrix || s.enginesIdle t.coreId)

/-- The die whose engine evaluates a node: that of its record, else that of the gang. -/
def State.nodeDie (s : State) (g : Gang) : DieId :=
  match s.graphOf g.launch with
  | none => g.die
  | some (_, x) => (match s.readNode g.die x g.node with | .ok n => n.die | .error _ => g.die)

/-- A retiring gang's node retires: its decrements release the gang's writes at device scope (R304); a full ring holds the gang in
its retiring state (R306). -/
def State.gangRetires (s : State) (k : Nat) : State :=
  let g := s.gangAt k
  if g.members.isEmpty ∨ g.retiring ∨ g.saved.isSome ∨ !s.gangDone g then s
  else
    let f := s.nodeDie g
    if (s.die f).engine.fault then s
    else
      match s.graphOf g.launch with
      | none => s.retireGang k
      | some (_, x) =>
        match s.readNode f x g.node with
        | .error y => s.after (some (.gang k)) (.error y)
        | .ok n =>
          let t := (s.setGang k { g with retiring := true }).retire f g.launch g.node none n.takes
          if t.1 then
            let held := (t.2.die f).engine.held.any fun h => h.launch == g.launch && h.node == g.node
            if held then
              let d := t.2.die f
              t.2.setDie f { d with engine := { d.engine with
                held := d.engine.held.map fun h =>
                  if h.launch = g.launch ∧ h.node = g.node then { h with gang := some (BitVec.ofNat 16 k) } else h } }
            else t.2.retireGang k
          else s

/-- The retirement of a gang by its identifier (R304, R306). -/
def execGangRetirement (e : DieId) (gang : BitVec 16) (s : State) : Out := .next (s.gangRetires (gangKey e gang))

/-! ## Placement and Dispatch (R309) -/

/-- A node that its kernel alone makes unplaceable is logged, with UNIT 0 (DESIGN CHOICE, log 95), and retires as skipped, and its launch will
turn FAILED (R309). -/
def State.refuseKernel (s : State) (e : DieId) (w : Waiting) (n : Node) (va : W64) (index : Nat) : State :=
  let s0 := match s.graphOf w.launch with
    | some (h, x) => { s with graphs := tset s.graphs h { x with refused := true } }
    | none => s
  let t := s0.retire e w.launch w.node none n.skips
  if (s.die e).engine.fault || !t.1 then s
  else
    let s1 := t.2.log e logEngine 9 0 0 va.toNat index
    s1.setDie e { s1.die e with placing := (s1.die e).placing.filter fun x => x != w }

/-- The bind record of one context of a gang (R307, 23 R375). -/
def bindFor (k : Kernel) (n : Node) (g : Graph) (gen : BitVec 4) (gang : BitVec 16) (cig : Nat) (pbase : BitVec 5) (save : BitVec 48)
    (node : W64) : Bind where
  valid := false
  matrix := k.matrix
  lock := k.lock || n.lock
  spec := n.spec
  prio := BitVec.ofNat 2 n.prio
  bclass := BitVec.ofNat 5 n.bclass
  asid := g.asid
  gen := gen
  cig := BitVec.ofNat 5 cig
  gang := gang
  entry := k.entry
  pbase := pbase
  psize := BitVec.ofNat 6 k.psize
  save := save
  args := n.aux
  node := node

/-- Stale records of a gang identifier on a die rewritten as cleared. -/
def State.clearRecords (s : State) (e : DieId) (gang : BitVec 16) : State :=
  (s.recordsOf e gang).foldl (fun s r => s.setBind r.1 Bind.reset) s

/-- Dispatch checks a gang's records together: all become valid and their contexts ready at ENTRY, or GCOMMIT reads back the failing
entry (R309). Nothing is committed on a halted device (23 R379). -/
def State.dispatch (s : State) (e : DieId) (gang : BitVec 16) (launch node : Nat) (k : Kernel) (rs : List (CtxId × Bind)) : State :=
  let d := s.die e
  match s.failingRecord rs k.gang with
  | some i => s.setDie e { d with gcommit := BitVec.ofNat 16 (i + 2 ^ 15) }
  | none =>
    if s.halted then s
    else
      let s1 := s.setDie e { d with gcommit := gang }
      let s2 := rs.foldl (fun s r => s.setBind r.1 { r.2 with valid := true }) s1
      let members := membersOf rs k.gang
      let s3 := members.foldl (fun s c => s.enterCtx c k.gang k.tags) s2
      s3.setGang (gangKey e gang) { Gang.reset with die := e, size := k.gang, launch := launch, node := node, members := members }

/-- The kernel and the node that a gang's records name. -/
def State.kernelOf (s : State) (e : DieId) (b : Bind) : Option (Node × Kernel) :=
  match s.nodeAt e b.asid b.gen b.node 0 with
  | .error _ => none
  | .ok n => (match s.kernelAt e b.asid b.gen n.opnd with | .error _ => none | .ok k => some (n, k))

/-- A gang committed with its node and kernel (R309): refused for good, refused for now or dispatched. -/
def State.commitGang (s : State) (e : DieId) (gang : BitVec 16) (n : Node) (k : Kernel) (rs : List (CtxId × Bind)) (index : Nat)
    (va : W64) : State :=
  let w := (s.die e).placing.find? fun w => w.gang == gang
  let reads := s.setDie e { s.die e with gcommit := BitVec.ofNat 16 (index + 2 ^ 15) }
  if s.halted then s
  else if k.unplaceable n.lock then (match w with | some w => reads.refuseKernel e w n va index | none => reads)
  else
    match w with
    | none => s.dispatch e gang 0 65535 k rs
    | some w =>
      let s1 := s.dispatch e gang w.launch w.node k rs
      if (tget s1.gangs (gangKey e gang)).isSome then
        s1.setDie e { s1.die e with placing := (s1.die e).placing.filter fun x => x != w }
      else s1

/-- A gang identifier is written to GCOMMIT: Dispatch checks the records that carry it (R309). Without a readable descriptor
nothing is committed, and GCOMMIT names the first record (DESIGN CHOICE, log 95); without a record GCOMMIT reads 0x8000 (DESIGN CHOICE, log 84). -/
def execGcommit (e : DieId) (gang : BitVec 16) (s : State) : Out :=
  let rs := s.recordsOf e gang
  match rs with
  | [] => .next (s.setDie e { s.die e with gcommit := 0x8000 })
  | r :: _ =>
    if (tget s.gangs (gangKey e gang)).isSome then .next s
    else
      match s.kernelOf e r.2 with
      | none => .next (s.setDie e { s.die e with gcommit := BitVec.ofNat 16 (entryOf r.1 + 2 ^ 15) })
      | some (n, k) => .next (s.commitGang e gang n k rs (entryOf r.1) r.2.node)

/-- The records of a gang at the places the control core chose, trailing partners included. -/
def State.chosenRecords (s : State) (e : DieId) (w : Waiting) (g : Graph) (n : Node) (k : Kernel) (slots : List Placement) :
    List (CtxId × Bind) :=
  let saves := s.freeSaves slots.length
  let lead := (List.range slots.length).filterMap fun i =>
    match slots[i]?, saves[i]? with
    | some p, some a =>
      some ((⟨e, p.cluster, p.ctx⟩ : CtxId), bindFor k n g (s.genOf g.asid) w.gang i p.pbase a (g.nodeVa w.node))
    | _, _ => none
  lead ++ (lead.filter fun x => x.2.lock).map fun x => (partnerOf x.1, x.2)

/-- The control core writes the records of a waiting kernel node at places of its choice and commits them (R309): the first time, or
again once residents have retired or QMASK has changed. A record that it cannot read leaves the node waiting (DESIGN CHOICE, log 95). -/
def execPlacementRetry (e : DieId) (gang : BitVec 16) (slots : List Placement) (s : State) : Out :=
  match (s.die e).placing.find? fun w => w.gang == gang with
  | none => .next s
  | some w =>
    match s.graphOf w.launch with
    | none => .next s
    | some (_, g) =>
      match s.nodeAt e g.asid g.gen g.base w.node with
      | .error _ => .next s
      | .ok n =>
        match s.kernelAt e g.asid g.gen n.opnd with
        | .error _ => .next s
        | .ok k =>
          let rs := s.chosenRecords e w g n k slots
          let i := match slots with | p :: _ => p.cluster.val * 8 + p.ctx.val | [] => 0
          if k.unplaceable n.lock then .next (s.commitGang e gang n k [] i (g.nodeVa w.node))
          else if slots.length ≠ k.gang ∨ rs.length < slots.length ∨ rs.any (fun r => (s.bindOf r.1).valid) then .next s
          else
            let s1 := rs.foldl (fun s r => s.setBind r.1 r.2) (s.clearRecords e gang)
            .next (s1.commitGang e gang n k rs i (g.nodeVa w.node))

/-! ## Validation and launch (R301, R302) -/

/-- The graph's records as they can be read: none for one that cannot. -/
def readRecords (f : Nat → Except AddrFault Node) (count : Nat) : List (Option Node) :=
  (List.range count).map fun n => match f n with | .ok x => some x | .error _ => none

/-- Whether unused and reserved fields of a node are 0 and its NSUCC fits (R301 check 1). -/
def Node.fieldsOk (x : Node) : Bool :=
  decide (x.kind ≤ 4) && x.bits 0 15 15 == 0 && x.bits 0 63 36 == 0 && decide (x.nsucc ≤ 8) && x.word 7 == 0 && x.bits 6 63 33 == 0 &&
    (match x.kind with
     | 0 => x.bits 6 31 0 == 0
     | 2 => x.bits 0 12 4 == 0 && x.bits 2 63 32 == 0 && x.bits 3 63 48 == 0
     | 4 => x.bits 0 12 4 == 0 && x.opnd == 0 && x.aux == 0 && x.bits 6 31 0 == 0
     | _ => x.bits 0 12 4 == 0 && x.aux == 0 && x.bits 6 31 0 == 0)

/-- Whether the successor fields are indices of the array or unused (R301 check 2). -/
def Node.succsOk (x : Node) (count : Nat) : Bool :=
  (List.range 8).all fun k => if k < x.nsucc then decide (x.succ k < count) else x.succ k == 0xFFFF

/-- The edges of a graph from the successor fields that pass check 2. -/
def edgesOf (xs : List (Option Node)) : List (Nat × Nat) :=
  (List.range xs.length).flatMap fun i =>
    match xs.getD i none with
    | none => []
    | some x => (x.succs.filter fun j => decide (j < xs.length)).map fun j => (i, j)

/-- Whether a node lies in the body of a loop. -/
def inBody (xs : List (Option Node)) (n : Nat) : Bool :=
  xs.any fun x => match x with | some l => l.kind == 2 && decide (l.bfirst ≤ n ∧ n ≤ l.blast) | none => false

/-- Whether PRED and BTAIL count the edges (R301 check 3). -/
def Node.predOk (x : Node) (es : List (Nat × Nat)) (n : Nat) : Bool :=
  x.pred == (es.filter fun e => e.2 == n).length &&
    (x.kind != 2 || x.btail == (es.filter fun e => e.2 == n && decide (x.bfirst ≤ e.1 ∧ e.1 ≤ x.blast)).length)

/-- The nodes reached from a set of nodes by edges, repeatedly. -/
def reach (es : List (Nat × Nat)) (ns : NatSet) (fuel : Nat) : NatSet :=
  match fuel with
  | 0 => ns
  | k + 1 =>
    let more := (es.filter fun e => ns.contains e.1 && !ns.contains e.2).foldl (fun ns e => nsInsert ns e.2) ns
    if more.length = ns.length then ns else reach es more k

/-- Whether a node lies on a cycle that passes through no body of a loop (R301 check 4): one among the nodes outside every body. -/
def onBadCycle (xs : List (Option Node)) (es : List (Nat × Nat)) (n : Nat) : Bool :=
  let out := es.filter fun e => !inBody xs e.1 && !inBody xs e.2
  !inBody xs n && (reach out ((out.filter fun e => e.1 == n).foldl (fun ns e => nsInsert ns e.2) []) xs.length).contains n

/-- Whether the address of a counter is valid (R301 check 6, 17 R297). -/
def State.counterOk (s : State) (asid : BitVec 11) (gen : BitVec 4) (va : W64) : Bool :=
  va.toNat % 64 == 0 &&
    (match s.serviceTranslate asid gen va needRW with | .ok p => p.cacheable | .error _ => false)

/-- The lowest-numbered check of R301 that a node fails. -/
def failedCheck (xs : List (Option Node)) (es : List (Nat × Nat)) (counterOk : W64 → Bool) (n : Nat) : Option Nat :=
  match xs.getD n none with
  | none => if onBadCycle xs es n then some 4 else some 7
  | some x =>
    if !x.fieldsOk then some 1
    else if !x.succsOk xs.length then some 2
    else if !x.predOk es n then some 3
    else if onBadCycle xs es n then some 4
    else if (x.kind == 1 && x.nsucc != 2) || (x.kind == 3 && x.nsucc == 0) then some 5
    else if !counterOk x.ctr then some 6
    else none

/-- The lowest node that fails a check, with its lowest-numbered check (R301). -/
def validateGraph (xs : List (Option Node)) (counterOk : W64 → Bool) : Option (Nat × Nat) :=
  let es := edgesOf xs
  (List.range xs.length).findSome? fun n => (failedCheck xs es counterOk n).map fun c => (n, c)

/-- The counter of a node set up, its run-state word cleared (R302; DESIGN CHOICE, log 20); an engine that has stopped does nothing (R306). -/
def State.launchNode (s : State) (g : Graph) (n : Nat) : Except Stop State :=
  match s.readNode 0 g n with
  | .error y => .error y
  | .ok x =>
    if (s.die x.die).engine.fault then .error .wait
    else
      match s.readNode x.die g n with
      | .error y => .error y
      | .ok _ =>
        match s.initCounter x.die g x (if x.kind = 2 then x.pred - x.btail else x.pred) with
        | .error y => .error y
        | .ok s1 => s1.writeRun x.die g n 0

/-- The nodes of a list set up one after the other: the state, the nodes that remain, why it stopped. -/
def State.launchNodes (s : State) (g : Graph) (ns : List Nat) : State × List Nat × Option Stop :=
  match ns with
  | [] => (s, [], none)
  | n :: r =>
    match s.launchNode g n with
    | .ok s1 => s1.launchNodes g r
    | .error y => (s, n :: r, some y)

/-- The roots of a graph: nodes outside every body whose counter starts at 0 (R302). -/
def rootsOf (xs : List (Option Node)) : List Nat :=
  (List.range xs.length).filter fun n =>
    match xs.getD n none with
    | none => false
    | some x => !inBody xs n && (if x.kind = 2 then x.pred - x.btail else x.pred) == 0

/-- The roots made ready with LIVE = 1, which their ready entries carry (R302; DESIGN CHOICE, log 20): the state, the roots that remain, where
and why one stopped. One that finds its ring full is left (R306). -/
def State.launchRoots (s : State) (g : Graph) (launch : Nat) (ns : List Nat) : State × List Nat × Option Stop :=
  match ns with
  | [] => (s, [], none)
  | n :: r =>
    match s.readNode 0 g n with
    | .error y => (s, n :: r, some y)
    | .ok x =>
      match s.makeReady x.die g launch n true with
      | .error (.fault e va) => (s, n :: r, some (.fault e va))
      | .error y =>
        let t := (match y with | .full => s.backPressure x.die | _ => s).launchRoots g launch r
        (t.1, n :: t.2.1, t.2.2)
      | .ok s1 => s1.launchRoots g launch r

/-- The launch of a graph goes on from where it stands: counters first, then the roots (R302); an access that fails stops its engine, and the
launch goes on from it (R306). -/
def State.launchOn (s : State) (h : Nat) : State :=
  match tget s.graphs h with
  | none => s
  | some g =>
    let (s1, rest, stop) := s.launchNodes g g.todo
    let roots := if rest.isEmpty then rootsOf (readRecords (s1.nodeAt 0 g.asid g.gen g.base) g.count) else []
    let s2 := { s1 with graphs := tset s1.graphs h { g with todo := rest, roots := roots } }
    match stop with
    | some y => s2.after (some (.launch h)) (.error y)
    | none =>
      let t := s2.launchRoots { g with todo := [], roots := roots } (g.launch.getD 0) roots
      let s3 := { t.1 with graphs := tset t.1.graphs h { g with todo := [], roots := t.2.1 } }
      match t.2.2 with
      | some y => s3.after (some .root) (.error y)
      | none => s3

/-- LAUNCH of a loaded graph under a sequence number begins (R302). -/
def State.launchGraph (s : State) (h launch : Nat) (g : Graph) : State :=
  ({ s with graphs := tset s.graphs h { g with
      launch := some launch, running := true, retired := [], loops := [], refused := false
      roots := [], todo := List.range g.count } } : State).launchOn h

/-! ## FAULT (R306) -/

/-- Clearing FAULT resumes the engine from the access that failed (R306): at once, but the evaluation at the head of the queue with its event,
before any held retirement goes on. Then the queue refills as far as it has room. -/
def execGrstatFaultClear (e : DieId) (s : State) : Out :=
  let d := s.die e
  if !d.engine.fault then .next s
  else
    let go := fun (r : Option Resume) => s.setDie e { d with engine := { d.engine with fault := false, resume := r } }
    match d.engine.resume with
    | some .head => .next (go (some .head))
    | some .refill => .next ((go none).refillOnce e)
    | some (.held f) => .next ((if ((go none).die f).engine.fault then go none else (go none).retireHeld f).refillOnce e)
    | some .root => .next (((go none).readyRoot e).refillOnce e)
    | some (.launch h) => .next (((go none).launchOn h).refillOnce e)
    | some (.gang k) => .next (((go none).gangRetires k).refillOnce e)
    | none => .next (go none)

end Sys2Proof.Machine
end

