-- ==== Sys2Proof/Machine/Coherence.lean ====
section
/-! DEFINITION. Leases, the time base, the homes of lines with their directories and snoop filters, the messages between dies, and
the loss of a die (20 R319 to R338, 17 R293). Each message event takes the oldest message of its kind for a line at a die. -/

namespace Sys2Proof.Machine

/-! ## Messages (R329) -/

/-- The first message of a list that passes a test, and the list without it. -/
def takeFirst (f : Msg → Bool) (ms : List Msg) : Option (Msg × List Msg) :=
  match ms with
  | [] => none
  | m :: r => if f m then some (m, r) else (takeFirst f r).map fun x => (x.1, m :: x.2)

/-- Whether Data or a home's Ack for a line is still on its way to a die. -/
def State.dataComing (s : State) (e : DieId) (line : Nat) : Bool :=
  s.msgs.any fun m => m.dst == e && m.line == line && !m.toHome && (m.kind == .data || m.kind == .ack)

/-- Whether a dirty line is still on its way to its home: requests for it wait. -/
def State.dirtyComing (s : State) (line : Nat) : Bool := s.msgs.any fun m => m.line == line && m.kind == .wbDirty

/-! ## Holders (R330) -/

/-- A die's slice has no copy of a line any more. -/
def State.dropLine (s : State) (e : DieId) (line : Nat) : State :=
  s.setDie e { s.die e with l2 := terase (s.die e).l2 line }

/-- A holder's answer to its line's home that waits for the leases its slice issued. -/
def State.owe (s : State) (e : DieId) (line : Nat) (x : L2Line) (wb : Option (List Byte × BitVec 4)) : State :=
  let s1 := s.dropLine e line
  s1.setDie e { s1.die e with owed := (s1.die e).owed ++ [⟨line, wb, x.lend, x.holders⟩] }

/-- An Ack to the line's home. -/
def State.ackHome (s : State) (e : DieId) (line : Nat) (req : DieId) (k : Kept) : State :=
  s.send ⟨.ack, homeDie (line * 128), e, line, req, none, true, k⟩

/-- Data to a requester. -/
def State.sendData (s : State) (e : DieId) (line : Nat) (req : DieId) (x : List Byte × BitVec 4) (k : Kept) : State :=
  s.send ⟨.data, req, e, line, req, some x, false, k⟩

/-- The copy of a line that a die holds in its slice, valid. -/
def State.held (s : State) (e : DieId) (line : Nat) : Option L2Line :=
  match tget (s.die e).l2 line with
  | some x => if x.st = .I then none else some x
  | none => none

/-- Whether a die has all that it asked for of a line and only waits for room to take it. -/
def Die.taking (d : Die) (line : Nat) : Bool :=
  match tget d.mshr line with
  | some o => o.data.isSome && (o.kind == .shared || o.ack)
  | none => false

/-- A message of a home to a holder is taken after the Data and the Acks that were sent to it before. -/
def State.toHolder (s : State) (k : MsgKind) (e : DieId) (line : Nat) (f : State → Msg → State) : Out :=
  let first := s.msgs.find? fun m =>
    m.dst == e && m.line == line && !m.toHome && (m.kind == .data || m.kind == .ack || m.kind == k)
  if (s.die e).taking line || !(first.any fun m => m.kind == k) then .next s
  else
    match takeFirst (fun m => m.kind == k && m.dst == e && m.line == line) s.msgs with
    | none => .next s
    | some (m, r) => .next (f { s with msgs := r } m)

/-- FwdShared at an owner (R330): Data to the requester, the owner keeps O or S; from the write-back buffer when the line is
there; without a copy, Ack and no Data. -/
def execFwdshared (e : DieId) (line : Nat) (s : State) : Out :=
  s.toHolder .fwdShared e line fun s m =>
    match s.held e line with
    | some x =>
      let dirty := x.st == .M || x.st == .O
      let s1 := s.setLine e line { x with st := if dirty then .O else .S }
      (s1.sendData e line m.req (x.data, x.poison) .shared).ackHome e line m.req (if dirty then .owned else .shared)
    | none =>
      match tget (s.die e).wbuf line with
      | some x => (s.sendData e line m.req x .shared).ackHome e line m.req .owned
      | none => s.ackHome e line m.req .noData

/-- FwdOwn at an owner (R330): Data to the requester, the copy is given up, Ack after leases. For a requester that has failed nothing is
given up (R338). -/
def execFwdown (e : DieId) (line : Nat) (s : State) : Out :=
  s.toHolder .fwdOwn e line fun s m =>
    let kept := (s.held e line).isSome || (tget (s.die e).wbuf line).isSome
    if (s.die m.req).failed && kept then s.ackHome e line m.req .owned
    else
      match s.held e line with
      | some x => (s.sendData e line m.req (x.data, x.poison) .nothing).owe e line x none
      | none =>
        match tget (s.die e).wbuf line with
        | some x => (s.sendData e line m.req x .nothing).ackHome e line m.req .nothing
        | none => s.ackHome e line m.req .noData

/-- Inv at a sharer (R330): the copy is given up, Ack after leases. -/
def execInv (e : DieId) (line : Nat) (s : State) : Out :=
  s.toHolder .inv e line fun s m =>
    match s.held e line with
    | some x => s.owe e line x none
    | none => s.ackHome e line m.req .nothing

/-- BackInv at a holder (R330): the copy is given up, a dirty one with WbDirty, after leases. -/
def execBackinv (e : DieId) (line : Nat) (s : State) : Out :=
  s.toHolder .backInv e line fun s m =>
    match s.held e line with
    | some x => s.owe e line x (if x.st = .M ∨ x.st = .O then some (x.data, x.poison) else none)
    | none => s.ackHome e line m.req .nothing

/-- The first owed answer for a line, and the rest. -/
def takeOwed (line : Nat) (os : List Owed) : Option (Owed × List Owed) :=
  match os with
  | [] => none
  | o :: r => if o.line = line then some (o, r) else (takeOwed line r).map fun x => (x.1, o :: x.2)

/-- A holder answers Ack or WbDirty once its leases have ended plus GUARD or been returned (R330); what it owes a home that has failed waits
for the salvage (R336). -/
def execDeferredAck (e : DieId) (line : Nat) (s : State) : Out :=
  match takeOwed line (s.die e).owed with
  | none => .next s
  | some (o, r) =>
    if s.lostAt (128 * line) then .next s
    else if o.holders.isEmpty || (!(s.die e).dieOff && decide (o.lend + (s.die e).guard ≤ s.now)) then
      let s1 := s.setDie e { s.die e with owed := r }
      match o.wb with
      | some x =>
        let s2 := if x.2 = 0 then s1 else s1.log e logL2 4 (line % 16) 10 (line * 128) 0
        .next (s2.send ⟨.wbDirty, homeDie (line * 128), e, line, e, some x, true, .nothing⟩)
      | none => .next (s1.ackHome e line e .nothing)
    else .next s

/-! ## The home: beginning a transaction (R328, R331, R332) -/

/-- Whether a home is at work on a line, or is evicting its filter entry. -/
def Die.homeBusy (d : Die) (line : Nat) : Bool :=
  (tget d.txns line).isSome || d.txns.any fun x => x.2.victim == some line

/-- The bit of a die in a mask. -/
def dieBit (e : DieId) : BitVec 4 := 1#4 <<< e.val

/-- The dies of a mask. -/
def diesOf (m : BitVec 4) : List DieId := allDies.filter fun e => m.getLsbD e.val

/-- Write a transaction. -/
def State.setTxn (s : State) (h : DieId) (line : Nat) (x : Txn) : State :=
  s.setDie h { s.die h with txns := tset (s.die h).txns line x }

/-- Write a filter entry. -/
def State.setDir (s : State) (h : DieId) (line : Nat) (x : DirEntry) : State :=
  s.setDie h { s.die h with dir := tset (s.die h).dir line x }

/-- A home sends a message about a line to a holder. -/
def State.toDie (s : State) (k : MsgKind) (h e : DieId) (line : Nat) (req : DieId) : State :=
  s.send ⟨k, e, h, line, req, none, false, .nothing⟩

/-- The entries in the filter set of a line (R328: 16,384 sets in each of 16 slices, 12 ways). -/
def filterSet (d : Die) (line : Nat) : Table DirEntry := d.dir.filter fun x => x.1 % 262144 == line % 262144

/-- Entries of the set of a line at home h that are there, or that transactions under way will take: one that waits for its victim takes the
victim's. -/
def filterUse (d : Die) (h : DieId) (line : Nat) : Nat :=
  (filterSet d line).length +
    (d.txns.filter fun x => x.2.req != h && x.1 % 262144 == line % 262144 && (tget d.dir x.1).isNone &&
      (x.2.started || x.2.victim.all fun v => (tget d.dir v).isNone)).length

/-- The least recently used entry of a full set; none while a transaction is at work on it. -/
def filterVictim (d : Die) (line : Nat) : Option (Nat × DirEntry) :=
  ((filterSet d line).foldl (fun (acc : Option (Nat × DirEntry)) x =>
    match acc with
    | none => some x
    | some y => if x.2.used < y.2.used then some x else some y) none).filter fun x => !d.homeBusy x.1

/-- The home gives its own copy up before it grants a remote die ownership (R332): dirty data is written to HBM, its leases are
waited out as a holder's are. The second result says whether it has to be waited for. -/
def State.homeGivesUp (s : State) (h : DieId) (line : Nat) : State × Bool :=
  match s.held h line with
  | none => (s, false)
  | some x =>
    let s1 := if x.st = .M ∨ x.st = .O then s.lineToHbm line x.data x.poison else s
    (s1.owe h line x none, true)

/-- The messages of a transaction whose filter entry is there or not needed (R330 to R332). Where no die answers, the Data of a request
for ownership grants it (19 R316, R317; DEDUCED, log 85). -/
def State.startTxn (s : State) (h : DieId) (line : Nat) (r : DieId) (k : ReqKind) (age : Nat) : State :=
  let dir := tget (s.die h).dir line
  let owner : Option DieId := dir.bind fun e => if e.st = .S ∨ e.owner = r then none else some e.owner
  let sharers := match dir with | some e => e.sharers | none => 0
  let isHolder := if r = h then (s.held h line).isSome else sharers.getLsbD r.val
  match k with
  | .shared =>
    (match owner with
     | some o =>
       (s.setTxn h line ⟨r, k, dieBit o, true, .nothing, none, age⟩).toDie .fwdShared h o line r
     | none =>
       let others := sharers &&& ~~~(dieBit r)
       let alone := others == 0 && (s.held h line).isNone
       let data := s.homeLine line
       let s1 := match s.held h line with
         | some x => s.setLine h line { x with st := if x.st = Moesi.M ∨ x.st = Moesi.O then Moesi.O else Moesi.S }
         | none => s
       (s1.setTxn h line ⟨r, k, 0, true, if alone then .nothing else .shared, none, age⟩).sendData h line r data
         (if alone && r != h then .nothing else .shared))
  | _ =>
    let data := s.homeLine line
    let (s1, wait) := if r = h then (s, false) else s.homeGivesUp h line
    let targets := (diesOf sharers).filter fun e => e != r && some e != owner
    let mask := targets.foldl (fun m e => m ||| dieBit e) (if wait then dieBit h else 0)
    let mask1 := match owner with | some o => mask ||| dieBit o | none => mask
    let quiet := (k == .upgrade && isHolder) || owner.isSome
    let grant : Kept := if mask1 = 0 && !quiet then .owned else .nothing
    let s2 := s1.setTxn h line ⟨r, k, mask1, true, grant, none, age⟩
    let s3 := targets.foldl (fun s e => s.toDie .inv h e line r) s2
    let s4 := match owner with | some o => s3.toDie .fwdOwn h o line r | none => s3
    if quiet then s4 else s4.sendData h line r data grant

/-- Whether a request of a die can begin as far as the filter goes: it needs no new entry, one is free or can be freed. -/
def Die.canBegin (d : Die) (h : DieId) (line : Nat) (r : DieId) : Bool :=
  r == h || (tget d.dir line).isSome || decide (filterUse d h line < 12) || (filterVictim d line).isSome

/-- A transaction begins: a remote requester of a line without an entry needs one, for which the least recently used entry of a
full set is evicted by BackInv first (R328). -/
def State.beginTxn (s : State) (h : DieId) (line : Nat) (r : DieId) (k : ReqKind) (age : Nat) : State :=
  let d := s.die h
  if r = h || (tget d.dir line).isSome || decide (filterUse d h line < 12) then
    (match tget d.dir line with | some e => s.setDir h line { e with used := max e.used age } | none => s).startTxn h line r k age
  else
    match filterVictim d line with
    | none => s
    | some (v, e) =>
      (diesOf e.sharers).foldl (fun s x => s.toDie .backInv h x v r)
        (s.setTxn h line ⟨r, k, e.sharers, false, .nothing, some v, age⟩)

/-! ## The home: ending a transaction -/

/-- The directory after a transaction (R328): a requester of ownership is the one holder; a reader joins the sharers, or holds
the line alone in E. An entry that records no remote holder is freed; a new one is as old as its request. -/
def dirAfter (old : Option DirEntry) (h r : DieId) (k : ReqKind) (kept : Kept) (alone : Bool) (age : Nat) : Option DirEntry :=
  let used := match old with | some e => e.used | none => age
  match k with
  | .shared =>
    let e : DirEntry := old.getD ⟨.S, h, 0, used⟩
    let gone := kept == .noData && e.st != .S
    let sharers := (if gone then e.sharers &&& ~~~(dieBit e.owner) else e.sharers) ||| (if r = h then 0 else dieBit r)
    let own := !gone && e.st != .S && e.owner != r
    if sharers = 0 then none
    else if own then some { e with st := if kept = .shared then .S else .O, sharers := sharers }
    else if alone && r != h then some ⟨.X, r, sharers, used⟩
    else some { e with st := .S, sharers := sharers }
  | _ => if r = h then none else some ⟨.X, r, dieBit r, used⟩

/-- An entry without a die: none when it records no other, or when that die was its owner. -/
def DirEntry.without (e : DirEntry) (d : DieId) : Option DirEntry :=
  let rest := e.sharers &&& ~~~(dieBit d)
  if rest = 0 ∨ (e.st ≠ .S ∧ e.owner = d) then none else some { e with sharers := rest }

/-- A home enters a line in its filter, or frees its entry. -/
def State.putDir (s : State) (h : DieId) (line : Nat) (e : Option DirEntry) : State :=
  s.setDie h { s.die h with dir := match e with | some y => tset (s.die h).dir line y | none => terase (s.die h).dir line }

/-- A home writes a lost line to HBM with the poison marker and logs it (R335). -/
def State.loseLine (s : State) (h : DieId) (line : Nat) : State :=
  (s.lineToHbm line (memBytes s.mem (line * 128) 128) 0xF).log h logL2 5 (line % 16) 0 (line * 128) 0

/-- A transaction whose requester has failed ends (R335, R338): a line that its owner gave up to that die is lost; else the entry records
what the surviving dies hold. -/
def State.endFailed (s : State) (h : DieId) (line : Nat) (x : Txn) : State :=
  let s1 := s.setDie h { s.die h with txns := terase (s.die h).txns line }
  match tget (s.die h).dir line with
  | none => s1
  | some e =>
    let owned := e.st != .S && e.owner != x.req
    if x.kind = .shared then s1.putDir h line ((dirAfter (some e) h x.req x.kind x.kept false x.age).bind fun y => y.without x.req)
    else if owned && x.kept == .owned then s1.putDir h line (some { e with sharers := dieBit e.owner })
    else if owned && x.kept == .nothing then (s1.loseLine h line).putDir h line none
    else s1.putDir h line none

/-- A transaction whose answers have all come ends: Data from the home when the owner had none, the directory, the Ack that gives
ownership where Data has not (R330 to R332). -/
def State.endTxn (s : State) (h : DieId) (line : Nat) (x : Txn) : State :=
  let d := s.die h
  let old := tget d.dir line
  let others : BitVec 4 := match old with
    | some e => (if x.kept = .noData then e.sharers &&& ~~~(dieBit e.owner) else e.sharers) &&& ~~~(dieBit x.req)
    | none => 0
  let alone := others == 0 && (s.held h line).isNone && (x.kept == .noData || x.kept == .nothing)
  let s1 := if x.kept ≠ .noData then s
    else s.sendData h line x.req (s.homeLine line) (if x.kind = .shared && (!alone || x.req == h) then .shared else .nothing)
  let s2 := (s1.setDie h { s1.die h with txns := terase (s1.die h).txns line }).putDir h line
    (dirAfter old h x.req x.kind x.kept alone x.age)
  if x.kind = .shared ∨ x.kept = .owned then s2 else s2.send ⟨.ack, x.req, h, line, x.req, none, false, .nothing⟩

/-- A transaction that awaits no answer any more ends, or begins now that its filter entry is freed. -/
def State.tryEnd (s : State) (h : DieId) (line : Nat) : State :=
  match tget (s.die h).txns line with
  | none => s
  | some x =>
    if x.waiting ≠ 0 then s
    else if x.started then (if (s.die x.req).failed then s.endFailed h line x else s.endTxn h line x)
    else
      match x.victim with
      | none => s
      | some v =>
        let s1 := s.setDie h { s.die h with dir := terase (s.die h).dir v, txns := terase (s.die h).txns line }
        if (s.die x.req).failed then s1 else s1.startTxn h line x.req x.kind x.age

/-- The first request of a list that can begin and that no earlier request for its line precedes (R331). -/
def pickRequest (ok : Nat → DieId → Bool) (seen : NatSet) (ws : List (Nat × DieId × ReqKind × Nat)) : Option (Nat × DieId × ReqKind × Nat) :=
  match ws with
  | [] => none
  | x :: r => if !seen.contains x.1 && ok x.1 x.2.1 then some x else pickRequest ok (x.1 :: seen) r

/-- Transactions that await no answer end, and waiting requests that the home can begin begin (R331), as far as `fuel` goes. -/
def State.settle (s : State) (h : DieId) (fuel : Nat) : State :=
  match fuel with
  | 0 => s
  | k + 1 =>
    match (s.die h).txns.find? fun x => x.2.waiting == 0 with
    | some x => (s.tryEnd h x.1).settle h k
    | none =>
      let ok := fun line r =>
        !(s.die h).homeBusy line && !s.dirtyComing line && !s.dataComing h line && (s.die h).canBegin h line r
      match pickRequest ok [] (s.die h).waiting with
      | none => s
      | some x =>
        let s1 := s.setDie h { s.die h with waiting := (s.die h).waiting.erase x }
        (s1.beginTxn h x.1 x.2.1 x.2.2.1 x.2.2.2).settle h k

/-- A request reaches its home, at an age that marks its entry used (R328): it waits while the home is at work on the line (R331). -/
def State.atHome (s : State) (kind : MsgKind) (k : ReqKind) (e : DieId) (line : Nat) : Out :=
  match takeFirst (fun m => m.kind == kind && m.dst == e && m.line == line && m.toHome) s.msgs with
  | none => .next s
  | some (m, r) =>
    let (age, s1) := ({ s with msgs := r } : State).fresh
    let s2 := match tget (s1.die e).dir line with | some y => s1.setDir e line { y with used := age } | none => s1
    .next ((s2.setDie e { s2.die e with waiting := (s2.die e).waiting ++ [(line, m.req, k, age)] }).settle e 16)

def execReadshared (e : DieId) (line : Nat) (s : State) : Out := s.atHome .readShared .shared e line
def execReadown (e : DieId) (line : Nat) (s : State) : Out := s.atHome .readOwn .own e line
def execUpgrade (e : DieId) (line : Nat) (s : State) : Out := s.atHome .upgrade .upgrade e line

/-- The line of the transaction that an answer of die e about a line belongs to. -/
def Die.answered (d : Die) (line : Nat) : Option (Nat × Txn) :=
  match tget d.txns line with
  | some x => if x.started then some (line, x) else none
  | none => d.txns.find? fun x => x.2.victim == some line

/-- An answer of die e about a line takes effect at the home. -/
def State.answer (s : State) (h e : DieId) (line : Nat) (k : Kept) : State :=
  match (s.die h).answered line with
  | none => s
  | some (l, x) =>
    let x1 := { x with waiting := x.waiting &&& ~~~(dieBit e), kept := if k = .nothing then x.kept else k }
    (s.setTxn h l x1).settle h 16

/-- A home receives a dirty line: HBM is written and the sender holds it no longer; an answer to BackInv is that answer, an eviction is
acknowledged, and its BackInv is answered by an Ack (R330, R331; 22 R357). -/
def execWbdirty (e : DieId) (line : Nat) (s : State) : Out :=
  match takeFirst (fun m => m.kind == .wbDirty && m.dst == e && m.line == line) s.msgs with
  | none => .next s
  | some (m, r) =>
    let (data, poison) := m.data.getD ([], 0)
    let s1 := ({ s with msgs := r } : State).lineToHbm line data poison
    let s2 := match tget (s1.die e).dir line with
      | some y =>
        let sharers := y.sharers &&& ~~~(dieBit m.src)
        let y1 : DirEntry := { y with sharers := sharers, st := if y.owner = m.src then .S else y.st }
        if y.owner ≠ m.src then s1
        else if sharers = 0 then s1.setDie e { s1.die e with dir := terase (s1.die e).dir line }
        else s1.setDir e line y1
      | none => s1
    if m.kept = .nothing then .next (s2.answer e m.src line .nothing)
    else .next ((s2.send ⟨.ack, m.src, e, line, m.src, none, false, .noData⟩).settle e 16)

/-! ## The requester (R330) -/

/-- A die takes a line in a state, as soon as its set has room, with what hints want of it. A copy it still holds keeps its leases. -/
def State.install (s : State) (d : DieId) (line : Nat) (st : Moesi) (x : List Byte × BitVec 4) (o : Outstanding) : Option State :=
  (s.makeRoom d line).map fun s1 =>
    let y : L2Line := match tget (s1.die d).l2 line with
      | some y => { y with st := st, data := x.1, poison := x.2 }
      | none => ⟨st, x.1, x.2, [], 0, none⟩
    let y1 := match o.retain with | some g => s1.retained d g line y | none => y
    o.fills.foldl (fun s f => s.fillWhole ⟨d, f.1⟩ line f.2) (s1.setLine d line y1)

/-- A die's outstanding request ends when what it needs has come and there is room: for a read the Data; for a write the Data and the
grant of ownership, or the grant alone for an Upgrade of a copy still held (R330). -/
def State.tryTake (s : State) (e : DieId) (line : Nat) : State :=
  match tget (s.die e).mshr line with
  | none => s
  | some o =>
    let done := s.setDie e { s.die e with mshr := terase (s.die e).mshr line }
    match o.kind with
    | .shared =>
      (match o.data with
       | some x => (done.install e line (if o.shared then .S else .E) x o).getD s
       | none => s)
    | _ =>
      if !o.ack then s
      else
        match s.held e line, o.data with
        | some y, _ => (done.install e line .M (y.data, y.poison) o).getD s
        | none, some x => (done.install e line .M x o).getD s
        | none, none => s

/-- Data reaches a requester, or what reached it is taken now that there is room. -/
def execData (e : DieId) (line : Nat) (s : State) : Out :=
  match takeFirst (fun m => m.kind == .data && m.dst == e && m.line == line) s.msgs with
  | none => .next (s.tryTake e line)
  | some (m, r) =>
    let s1 := { s with msgs := r }
    match tget (s1.die e).mshr line with
    | none => .next (s1.settle e 16)
    | some o =>
      let o1 := { o with data := m.data, shared := m.kept == .shared, ack := o.ack || m.kept == .owned }
      .next (((s1.setDie e { s1.die e with mshr := tset (s1.die e).mshr line o1 }).tryTake e line).settle e 16)

/-- An Ack: at a home, a holder's answer; at a requester, ownership; at a die that evicted a dirty line, the end of its stay in
the write-back buffer. A holder's dirty line sent before its Ack is taken first. -/
def execAck (e : DieId) (line : Nat) (s : State) : Out :=
  match takeFirst (fun m => m.kind == .ack && m.dst == e && m.line == line) s.msgs with
  | none => .next s
  | some (m, r) =>
    let s1 := { s with msgs := r }
    if m.toHome then
      if s.msgs.any fun x => x.kind == .wbDirty && x.src == m.src && x.line == line && m.kept == .nothing then .next s
      else .next (s1.answer e m.src line m.kept)
    else if m.kept = .noData then .next (s1.setDie e { s1.die e with wbuf := terase (s1.die e).wbuf line })
    else
      match tget (s1.die e).mshr line with
      | none => .next s1
      | some o =>
        .next (((s1.setDie e { s1.die e with mshr := tset (s1.die e).mshr line { o with ack := true } }).tryTake e line).settle e 16)

/-! ## Cluster caches and leases (R319 to R322) -/

/-- A slice fills a cluster's cache for an access of one of its contexts (R319). -/
def execClusterFill (l : ClusterId) (c : Fin 8) (va : W64) (s : State) : Out :=
  let b := s.bindOf (l.ctxId c)
  if !b.valid || !isGlobal va then .next s
  else
    match s.translate l b.asid b.gen va needR with
    | .error _ => .next s
    | .ok p =>
      match p.loc with
      | .phys pa => if p.cacheable && p.cp == 0 then .next (s.fillLine l pa p.ro) else .next s
      | .spad _ _ => .next s

/-- A cluster drops its copy of a line and returns the lease (R322); one whose time counting has stopped does nothing (R326). -/
def execLeaseReturn (l : ClusterId) (line : Nat) (s : State) : Out :=
  .next (if (s.cluster l).stopped then s else s.dropCopy l line)

/-- A cluster drops every line and returns every lease (R325, R326). -/
def State.dropAll (s : State) (l : ClusterId) : State :=
  (s.cluster l).cache.foldl (fun s x => s.dropCopy l x.1) s

/-! ## The time base (R324 to R327) -/

/-- The 32 clusters of a die. -/
def clustersOf (d : DieId) : List ClusterId := (List.finRange 32).map fun c => ⟨d, c⟩

/-- A live ladle returns all its allowances (R325, 17 R291). -/
def State.returnAll (s : State) (l : ClusterId) : State :=
  if s.ladleDead l.key then s else (s.cluster l).ladle.foldl (fun s x => s.returnLadle l.key x.1) s

/-- A cluster becomes lease-blind (R325): it drops its lines, its ladle returns its allowances, and the entry is counted and logged. -/
def State.goBlind (s : State) (l : ClusterId) : State :=
  let s1 := (s.dropAll l).returnAll l
  let d := s1.die l.die
  let s2 := (s1.setDie l.die { d with blindEvents := min (d.blindEvents + 1) 0xFFFF }).log l.die logL2 6 l.cluster.val 0 0 0
  s2.setCluster l { s2.cluster l with blind := true, goodBeacons := 0 }

/-- The error of a cluster at a beacon: as the environment has it, else as it was. -/
def errorOf (errs : List (ClusterId × Int)) (l : ClusterId) (old : Int) : Int :=
  match errs with
  | [] => old
  | (k, e) :: r => if k = l then e else errorOf r l old

/-- A cluster compares its counter with a beacon (R324 to R326), as far as the error that its surroundings give it is no step backwards
under leases. -/
def State.beaconAt (s : State) (errs : List (ClusterId × Int)) (l : ClusterId) : State :=
  let c := s.cluster l
  let guard := (s.die l.die).guard
  let e0 := errorOf errs l c.error
  let e := if e0 < c.error ∧ !c.cache.isEmpty ∧ e0.natAbs ≤ guard then c.error else e0
  if c.stopped || (s.die l.die).failed then s
  else if c.restarted then s.setCluster l { c with restarted := false, error := 0 }
  else if guard < e.natAbs then
    let s1 := if c.blind then s.setCluster l { c with goodBeacons := 0 } else s.goBlind l
    s1.setCluster l { s1.cluster l with error := 0 }
  else if c.blind then
    if 2 ≤ c.goodBeacons ∧ !(s.die l.die).dieOff then s.setCluster l { c with blind := false, goodBeacons := 0, error := e }
    else s.setCluster l { c with goodBeacons := c.goodBeacons + 1, error := e }
  else if c.error = e then s
  else s.setCluster l { c with error := e }

/-- The error of a die's time unit at a beacon. -/
def dieErrorOf (errs : List (DieId × Int)) (d : DieId) (old : Int) : Int :=
  match errs with
  | [] => old
  | (k, e) :: r => if k = d then e else dieErrorOf r d old

/-- A die's time unit compares itself with a beacon (R327). -/
def State.dieBeacon (s : State) (errs : List (DieId × Int)) (d : DieId) : State :=
  let x := s.die d
  let e := dieErrorOf errs d x.dieError
  if x.failed then s
  else if x.guard < e.natAbs then
    let s1 := s.setDie d { x with dieOff := true, dieGood := 0, dieError := 0 }
    if x.dieOff then s1
    else (clustersOf d).foldl (fun s l => if (s.cluster l).blind then s else s.goBlind l) s1
  else if x.dieOff then
    s.setDie d { x with dieOff := decide (x.dieGood < 2), dieGood := if x.dieGood < 2 then x.dieGood + 1 else 0, dieError := e }
  else if x.dieError = e then s
  else s.setDie d { x with dieError := e }

/-- Die 0's time unit sends a beacon (R324): each die's unit and each cluster compares, but for those of dies that miss it. -/
def State.beacon (s : State) (errs : List (ClusterId × Int)) (dieErrs : List (DieId × Int)) (missed : List DieId) : State :=
  let ds := allDies.filter fun d => !missed.contains d
  let s0 := ds.foldl (fun s d => if (s.die d).missed = 0 then s else s.setDie d { s.die d with missed := 0 }) s
  let s1 := ds.foldl (fun s d => s.dieBeacon dieErrs d) s0
  ds.foldl (fun s d => (clustersOf d).foldl (fun s l => s.beaconAt errs l) s) s1

/-- An error moved towards 0 by at most n. -/
def towardZero (e : Int) (n : Nat) : Int := if e.natAbs ≤ n then 0 else if 0 ≤ e then e - n else e + n

/-- Counters follow the beacons while device time goes from one instant to another: by 1 part in 16, the most the manual allows (R324;
DESIGN CHOICE, log 66). One that is stopped falls behind, and stays so once it counts again until the next beacon (R326). -/
def State.follow (s : State) (from_ later : Nat) : State :=
  let n := later / 16 - from_ / 16
  { s with
    clusters := s.clusters.map fun (x : Nat × Cluster) =>
      if x.2.stopped then (x.1, { x.2 with error := x.2.error - (later - from_ : Nat) })
      else if x.2.restarted then x
      else (x.1, { x.2 with error := towardZero x.2.error n })
    dies := s.dies.map fun (x : Nat × Die) => (x.1, { x.2 with dieError := towardZero x.2.dieError n }) }

/-- A cluster's counter stops (R326). -/
def execClusterCounterStop (l : ClusterId) (s : State) : Out := .next (s.setCluster l { s.cluster l with stopped := true })

/-- Counting resumes (R326): the cache is invalidated and the cluster is lease-blind until R325 releases it. An allowance whose lease has ended
meanwhile has been reclaimed (17 R292). -/
def execClusterCounterResume (l : ClusterId) (s : State) : Out :=
  if !(s.cluster l).stopped then .next s
  else
    let s0 := allDies.foldl (fun s d => (s.die d).tundish.foldl (fun s x => s.lapse l.key x.1) s) s
    let s1 := s0.setCluster l { s0.cluster l with stopped := false, restarted := true }
    .next (if (s1.cluster l).blind then (s1.setCluster l { s1.cluster l with goodBeacons := 0 }).returnAll l else s1.goBlind l)

/-- A write of COHCTL (R323): GUARD from 16 to 256, no length below twice GUARD. -/
def State.setCohctl (s : State) (d : DieId) (x : W64) : State :=
  let g := max 16 (min 256 (x.extractLsb' 0 9).toNat)
  s.setDie d { s.die d with
    guard := g, lord := max (2 * g) (x.extractLsb' 16 16).toNat, lhot := max (2 * g) (x.extractLsb' 32 16).toNat
    lro := max (2 * g) (x.extractLsb' 48 16).toNat }

/-! ## Die loss (R334 to R338, 17 R293) -/

/-- The chief control core declares a die failed (R334): nothing on it acts or answers any more; Data that it has sent reaches its
requester poisoned (R335). Without die 0 the device halts. -/
def State.declareFailed (s : State) (e : DieId) : State :=
  let d := s.die e
  let s1 := s.setDie e { d with failed := true, l2 := [], wbuf := [], owed := [], mshr := [], txns := [], waiting := [] }
  { s1 with
    dielost := s1.dielost ||| dieBit e
    halted := s1.halted || decide (e = 0)
    msgs := (s1.msgs.filter fun m => m.dst != e && (m.src != e || m.kind == .data)).map fun m =>
      if m.src = e then { m with data := m.data.map fun x => (x.1, 0xF) } else m
    writes := s1.writes.filter fun w => (clusterOfKey w.cluster).die != e
    amsgs := s1.amsgs.filter fun m => match m with | .request _ q => (clusterOfKey q.cluster).die != e | _ => true }

/-- A beacon whose errors and misses the agenda gives, none for a die that the beacon does not reach: a die whose unit misses the third in a
row is declared failed (R324, R334). -/
def execTimeBeacon (errs : List (ClusterId × Int)) (dieErrs : List (DieId × Option Int)) (s : State) : Out :=
  let missed := (dieErrs.filter fun x => x.2.isNone).map (·.1)
  let found := dieErrs.filterMap fun x => x.2.map fun e => (x.1, e)
  let miss := fun (s : State) d =>
    let x := s.die d
    if x.failed then s
    else if 2 ≤ x.missed then (s.setDie d { x with missed := 3 }).declareFailed d
    else s.setDie d { x with missed := x.missed + 1 }
  .next (missed.foldl miss (s.beacon errs found missed))

/-- The declaration of a die's failure (R334). -/
def execDieFailureDeclaration (e : DieId) (s : State) : Out := .next (s.declareFailed e)

/-- A line with a filter entry that records a failed die (R335): what that die owned is poisoned in HBM and logged as lost, and its entry goes
once every surviving copy has been given up; a transaction at work on the line waits for that too. -/
def State.homeLoses (s : State) (h e : DieId) (line : Nat) (x : DirEntry) : State :=
  let rest := x.sharers &&& ~~~(dieBit e)
  if !x.sharers.getLsbD e.val then s
  else if x.st ≠ .S ∧ x.owner = e then
    let s1 := s.loseLine h line
    let (s2, mine) := match s1.held h line with | some y => (s1.owe h line y none, dieBit h) | none => (s1, 0)
    match tget (s2.die h).txns line with
    | some t =>
      let s3 := (diesOf (rest &&& ~~~t.waiting)).foldl (fun s d => s.toDie .inv h d line h) s2
      (s3.setTxn h line { t with waiting := t.waiting ||| rest ||| mine }).setDir h line { x with st := .S, sharers := 0 }
    | none =>
      if (s2.die h).homeBusy line then s2.setDir h line { x with st := .S, sharers := rest }
      else if rest ||| mine = 0 then s2.putDir h line none
      else
        (diesOf rest).foldl (fun s d => s.toDie .inv h d line h)
          ((s2.setTxn h line ⟨h, .own, rest ||| mine, true, .owned, none, x.used⟩).setDir h line { x with st := .S, sharers := rest })
  else s.putDir h line (if rest = 0 then none else some { x with sharers := rest })

/-- The declaration reaches a surviving home (R335): it poisons and drops what the failed die owned, and transactions that waited
for its answer go on without Data from it. Contexts that wait on a tag word there are presented again (R337). -/
def execDeclarationAtHome (home e : DieId) (s : State) : Out :=
  if home = e ∨ !(s.die e).failed then .next s
  else
    let s0 := s.setDie home { s.die home with losthome := (s.die home).losthome ||| dieBit e }
    let s1 := s0.setDie home { s0.die home with
      waiting := (s0.die home).waiting.filter fun x => x.2.1 != e }
    let s2 := (s1.die home).dir.foldl (fun s x => s.homeLoses home e x.1 x.2) s1
    let s3 := (s2.die home).txns.foldl (fun s x =>
      if x.2.waiting.getLsbD e.val then
        let owned := match tget (s1.die home).dir x.1 with | some y => y.st != .S && y.owner == e | none => false
        s.setTxn home x.1 { x.2 with
          waiting := x.2.waiting &&& ~~~(dieBit e), kept := if x.2.started && owned then .noData else x.2.kept }
      else s) s2
    let s4 := s3.settle home 16
    .next { s4 with
      strands := s4.strands.map fun x =>
        match x.2.hold with
        | some (.tag (.sync pa) _) => if s.lostAt pa then (x.1, { x.2 with hold := none, waited := false }) else x
        | _ => x }

/-- The bytes of a salvage record (R336). -/
def salvageRecord (line : Nat) (x : L2Line) : List Byte :=
  leBytes 8 (line * 128 + (if x.st = .M then 1 else 0)) ++ leBytes 8 x.poison.toNat ++ (List.range 128).map fun i => x.data.getD i 0

/-- A dirty line put in the salvage area, or logged as lost when the area is full or there is none (R336). -/
def State.salvageData (s : State) (h : DieId) (line : Nat) (x : L2Line) : State :=
  let d := s.die h
  if d.salvbase ≠ 0 ∧ d.salvnext < d.salvsize then
    let at_ := d.salvbase.toNat + 144 * d.salvnext
    let s1 := (s.setDie h { d with salvnext := d.salvnext + 1 }).cleanWhole at_ 144
    { s1 with mem := memWriteBytes s1.mem at_ (salvageRecord line x) }
  else s.log h logL2 5 (line % 16) 0 (line * 128) 0

/-- One line of a failed home at a surviving slice (R336): a dirty one is salvaged; every copy is dropped with its leases. -/
def State.salvageLine (s : State) (h : DieId) (line : Nat) (x : L2Line) : State :=
  let s1 := if x.st = .M ∨ x.st = .O then s.salvageData h line x else s
  let s2 := (clustersOf h).foldl (fun s l => s.dropCopy l line) s1
  s2.dropLine h line

/-- A surviving die salvages the dirty lines of a failed home and drops every copy of its lines (R336); requests to it end. A dirty line that it
had given up and that was still on its way home is salvaged like one held in O (DESIGN CHOICE, log 76). -/
def execSalvage (home e : DieId) (s : State) : Out :=
  if home = e ∨ !(s.die e).failed then .next s
  else
    let lost := fun (line : Nat) => decide (homeDie (line * 128) = e)
    let leaving := fun (s : State) (line : Nat) (x : List Byte × BitVec 4) =>
      if lost line then s.salvageData home line ⟨.O, x.1, x.2, [], 0, none⟩ else s
    let s0 := (s.die home).l2.foldl (fun s x => if lost x.1 then s.salvageLine home x.1 x.2 else s) s
    let s1 := (s.die home).owed.foldl (fun s o => match o.wb with | some x => leaving s o.line x | none => s)
      ((s.die home).wbuf.foldl (fun s x => leaving s x.1 x.2) s0)
    .next (s1.setDie home { s1.die home with
      mshr := (s1.die home).mshr.filter fun x => !lost x.1
      wbuf := (s1.die home).wbuf.filter fun x => !lost x.1
      owed := (s1.die home).owed.filter fun o => !lost o.line })

/-- The declaration reaches a surviving die's tundishes and ladles (17 R293): holders on the failed die are reclaimed at once,
allowances of its counters are discarded; so are the requests of its clusters that wait (DESIGN CHOICE, log 92). -/
def execDeclarationAtTundish (home e : DieId) (s : State) : Out :=
  if home = e ∨ !(s.die e).failed then .next s
  else
    let s1 := (s.die home).tundish.foldl (fun s x =>
      x.2.holders.foldl (fun s h => if (clusterOfKey h.cluster).die = e then s.reclaim h.cluster x.1 else s) s) s
    let stays := fun (q : AReq) => (clusterOfKey q.cluster).die != e
    let s2 := (s1.die home).tundish.foldl (fun s x =>
      let y := s.tundish x.1
      s.setTundish x.1 { y with queue := y.queue.filter stays, atHome := ((y.queue.take y.atHome).filter stays).length }) s1
    let s3 := (clustersOf home).foldl (fun s l =>
      let c := s.cluster l
      if c.ladle.any fun x => ctrHome x.1 == e then s.setCluster l { c with ladle := c.ladle.filter fun x => ctrHome x.1 != e } else s) s2
    .next (s3.setDie home { s3.die home with heard := (s3.die home).heard ||| dieBit e })

/-- Whether the declaration of a die has completed: every surviving agent has acknowledged it (R334). -/
def State.declared (s : State) (e : DieId) : Bool :=
  allDies.all fun h => h == e || (s.die h).failed || ((s.die h).losthome.getLsbD e.val && (s.die h).heard.getLsbD e.val)

end Sys2Proof.Machine
end

