-- ==== Sys2Proof/Machine/Reliability.lean ====
section
/-! DEFINITION. Reliability: detections and re-issue (03 R61), soft errors and poison (22 R354 to R358), patrol scrub (R359), and
delayed lockstep (R362 to R364, 06 R129). -/

namespace Sys2Proof.Machine

/-! ## Detections (03 R61) -/

/-- A trap whose MASK the manual does not state (DESIGN CHOICE, log 17). -/
def State.trapOpen (s : State) (t : StrandId) (cause : BitVec 8) (sub : BitVec 4) (faddr : W64) : State :=
  ({ s with tick := s.tick + 1 } : State).takeTrap t cause (Config.openMask s.tick) sub faddr

/-- A detection for the bundle at issue: cancelled and re-issued at most twice; the third raises MACHINE (R61). -/
def State.detect (s : State) (t : StrandId) (struct addr : Nat) : State :=
  let st := s.strand t
  if st.reissue < 2 then
    (s.setStrand t { st with reissue := st.reissue + 1 }).log t.die logCore 2 (coreUnit t.coreId) struct addr 0
  else s.trapOpen t 13 0 0

/-- An event of a core's structure in its die's core log. -/
def State.coreLog (s : State) (o : CoreId) (kind struct addr : Nat) : State := s.log o.die logCore kind (coreUnit o) struct addr 0

/-! ## Delayed lockstep (R362 to R364) -/

/-- Whether every value that a bundle writes has come. -/
def Unconfirmed.complete (u : Unconfirmed) : Bool := u.parts.all fun p => match p with | .known _ => true | .awaited _ => false

/-- The signature of a bundle (R363): the values that its syllables write, in increasing position, then its stores and operands. -/
def Unconfirmed.sig (u : Unconfirmed) : W32 :=
  crc32c ((u.parts.flatMap fun p => match p with | .known bs => bs | .awaited _ => []) ++ u.rest)

/-- Whether a step lies in a span of re-issued ones. -/
def Mismatch.covers (m : Mismatch) (step : W64) : Bool :=
  match m with
  | .steps a b => !stepBefore step a && !stepBefore b step
  | .region _ => false

/-- Whether a strand re-issues a bundle of a step for a mismatch. -/
def Strand.reissues (t : Strand) (step : W64) : Bool := t.mismatched.any fun m => m.covers step

/-- What is left of the record of re-issued bundles once the bundle of a step is confirmed. -/
def Strand.confirmedPast (t : Strand) (step : W64) : Option Mismatch :=
  match t.mismatched with
  | some (.steps a b) => if stepBefore step b then some (.steps a b) else none
  | x => x

/-- The strand with the registers before its oldest unconfirmed bundle restored and that bundle its next (R364): what was issued
at or after it is discarded, older results land again at their steps. -/
def Strand.unwind (t : Strand) (u : Unconfirmed) : Strand :=
  let again := t.unconfirmed.filter fun x => !x.waits
  { t with
    g := u.before.g, v := u.before.v, k := u.before.k, gp := u.before.gp, vp := u.before.vp, kp := u.before.kp
    f0 := u.before.f0, f1 := u.before.f1, lc0 := u.before.lc0, lc1 := u.before.lc1
    rmode := u.before.rmode, lfsr := u.before.lfsr, jbudget := u.before.jbudget
    fmt := u.fmt, fmtPoison := u.fmtPoison, hintdrop := u.hintdrop, barovr := u.barovr, inflight := u.inflight
    pend := t.pend.filter fun x => stepBefore x.issued u.step
    step := u.step - 1, pc := u.addr, idle := 0, hold := none, waited := false, joinGo := false, confirmed := none
    region := none, unconfirmed := [], reissue := 0
    queue := if t.attached then again.map (fun x => ⟨x.addr, [], []⟩) ++ t.queue else []
    issuedTeam := if t.attached then t.issuedTeam - again.length else t.issuedTeam }

/-- Both copies of a pair go back to the leading copy's oldest unconfirmed bundle (R364); the trailing one may not have issued it yet. -/
def State.unwound (s : State) (t : StrandId) (u : Unconfirmed) (m : Option Mismatch) : State :=
  let x := s.mateStrand t
  let s1 := s.setStrand t { (s.strand t).unwind u with mismatched := m }
  match (s.strand x).unconfirmed with
  | v :: _ => s1.setStrand x ((s.strand x).unwind v)
  | [] => s1

/-- A pair traps at the leading copy's oldest unconfirmed bundle, which has been re-issued n times for detections: with the region rolled back
when it lies in one (06 R127), else with both copies back at the bundle. A bundle that has committed has counted its step already (01 R19). -/
def State.trapBack (s : State) (t : StrandId) (u : Unconfirmed) (cause mask : BitVec 8) (faddr : W64) (n : Nat) : State :=
  let st := s.strand t
  let at_ := fun (s : State) (region : W32) (restart : W64) =>
    (s.setStrand t { s.strand t with reissue := n }).trapRecord t cause mask 0 faddr u.addr u.step region restart
  match st.region with
  | some r =>
    if stepBefore u.step r.step then at_ (s.unwound t u none) 0 u.addr
    else at_ (s.rollbackAt t 7 u.addr u.waits) (st.regionWord u.step) r.bundle
  | none => at_ (s.unwound t u none) 0 u.addr

/-! ## The trailing copy (R362) -/

/-- Whether the trailing copy in a context may issue: its pair is bound, its cluster runs, the device is neither halted nor down. -/
def State.copyRuns (s : State) (c : CtxId) : Bool :=
  s.trails c && (s.bindOf c).valid && (s.bindOf (s.mateOf c)).valid && !s.halted && s.ready && s.power &&
    !(s.cluster c.clusterId).stopped && !(s.die c.die).failed

/-- Whether the leading copy is two steps past a bundle, or can issue nothing before it is confirmed (R362; DESIGN CHOICE, log 38). -/
def State.lagged (s : State) (l : StrandId) (step : W64) : Bool :=
  !stepBefore (s.strand l).step (step + 2) || !(s.runs l.ctxId && s.canGo l)

/-- The bundle that a trailing copy issues next: one that is confirmed and that its leading copy has carried out, or given up; else the
leading copy's oldest unconfirmed one, once every value that it brings is there. -/
def State.copyTask (s : State) (t : StrandId) : Option (Unconfirmed × Bool) :=
  let l := s.mateStrand t
  let st := s.strand t
  match st.confirmed with
  | some v => if (s.strand l).confirmed.any fun u => u.step == v.step then none else some (v, true)
  | none =>
    match (s.strand l).unconfirmed with
    | u :: _ => if st.unconfirmed.isEmpty && u.complete && s.lagged l u.step then some (u, false) else none
    | [] => none

/-- Whether a trailing copy can issue. -/
def State.copyReady (s : State) (t : StrandId) : Bool := s.copyRuns t.ctxId && (s.copyTask t).isSome

/-- The trailing copy's bundle traps: the pair does, in the leading copy's trap block (R364; DEDUCED, log 88). A context that is already stopped
raises no cause until it is resumed (12 R219). -/
def State.copyTrap (s : State) (t : StrandId) (u : Unconfirmed) (cause mask : BitVec 8) (faddr : W64) : State :=
  let l := s.mateStrand t
  let st := s.strand t
  if s.runs l.ctxId then (s.setStrand t { st with reissue := 0 }).trapBack l u cause mask faddr st.reissue else s

/-- A detection for the trailing copy's bundle: it is re-issued at most twice, the third raises MACHINE (R61). -/
def State.detectCopy (s : State) (t : StrandId) (u : Unconfirmed) (struct : Nat) : State :=
  let st := s.strand t
  if st.reissue < 2 then (s.setStrand t { st with reissue := st.reissue + 1 }).coreLog t.coreId 2 struct 0
  else ({ s with tick := s.tick + 1 } : State).copyTrap t u 13 (Config.openMask s.tick) 0

/-- A detection for the bundle that a strand is issuing, of either copy. -/
def State.detectAt (s : State) (t : StrandId) (struct : Nat) : State :=
  if s.trails t.ctxId then
    match s.copyTask t with
    | some (u, _) => s.detectCopy t u struct
    | none => s
  else s.detect t struct 0

/-- Whether a strand is issuing a bundle. -/
def State.issuing (s : State) (t : StrandId) : Bool :=
  s.copyReady t || (s.runs t.ctxId && s.presents t && (s.strand t).idle == 0)

/-! ## Errors of pipelines and queues (R61) -/

/-- Whether a strand's next bundle puts an operation in an engine's queue (R354: the descriptor is checked at enqueue). -/
def State.enqueues (s : State) (t : StrandId) : Bool :=
  (s.strand t).queue.head?.any fun b => b.syllables.any fun x =>
    match x.2 with
    | .cpGo _ _ => true
    | .msZero _ => true
    | .msCopy _ _ => true
    | .lkSend _ _ _ => true
    | .lkRecv _ _ _ => true
    | .lkRaddF32 _ _ _ => true
    | .lkRaddBf16 _ _ _ => true
    | .lkRaddI32 _ _ _ => true
    | _ => false

/-- An error in a pipeline stage or queue cancels the bundle at issue (R61). A bundle that enqueues an engine operation may have met it at the
check of the descriptor, and its record then names the engine queues (R354); else the decoded-bundle queues, for a pipeline stage is no row
of the table (DESIGN CHOICE, log 67). -/
def execPipelineError (t : StrandId) (s : State) : Out :=
  if s.issuing t then .next (s.detectAt t (if s.enqueues t && Config.either s.tick 12 then 12 else 3)) else .next s

/-! ## Soft errors (22 R354) -/

/-- Entry n of a list changed. -/
def modifyAt {α : Type} (xs : List α) (n : Nat) (f : α → α) : List α :=
  match xs, n with
  | [], _ => []
  | x :: r, 0 => f x :: r
  | x :: r, k + 1 => x :: modifyAt r k f

/-- A register file error: corrected, or the register is marked poisoned (R354). g0 and k0 are no registers that hold anything. -/
def State.regError (s : State) (t : StrandId) (correctable : Bool) (n : Nat) (f : Strand → Strand) : State :=
  if correctable then s.coreLog t.coreId 1 1 n else (s.setStrand t (f (s.strand t))).coreLog t.coreId 3 1 n

/-- A row of the matrix unit: corrected, or marked poisoned (R354). -/
def State.rowError (s : State) (o : CoreId) (correctable : Bool) (struct addr : Nat) (f : Core → Core) : State :=
  if correctable then s.coreLog o 1 struct addr else (s.setCore o (f (s.core o))).coreLog o 3 struct addr

/-- The descriptor of the first operation of a queue that has not begun is corrupt (R358). -/
def corruptCopy (xs : List CopyOp) : List CopyOp :=
  match xs with
  | [] => []
  | x :: r => if !x.begun && x.status.isNone && !x.corrupt then { x with corrupt := true } :: r else x :: corruptCopy r

/-- The same for the memory-side queue. -/
def corruptRow (xs : List MsOp) : List MsOp :=
  match xs with
  | [] => []
  | x :: r => if !x.begun && x.status.isNone && !x.corrupt then { x with corrupt := true } :: r else x :: corruptRow r

/-- The first link operation that has moved nothing is corrupt. -/
def corruptLink (xs : List LinkOp) : List LinkOp :=
  match xs with
  | [] => []
  | x :: r => if x.moved = 0 ∧ !x.corrupt then { x with corrupt := true } :: r else x :: corruptLink r

/-- What a detected error does (R354): corrected and logged, or the consequence of its row. An uncorrectable clean L2 sector is refetched:
its line is dropped, or, while leases on it run, filled anew with the same bytes. A link error that a retry mends is replayed, on an
interposer link as UNIT 0 (DESIGN CHOICE, log 67). -/
def State.applyError (s : State) (g : Granule) (correctable : Bool) : State :=
  match g with
  | .regG t n =>
    if n = 0 then s else s.regError t correctable n.toNat fun st => { st with gp := nsInsert st.gp n.toNat }
  | .regV t n => s.regError t correctable n.toNat fun st => { st with vp := nsInsert st.vp n.toNat }
  | .regK t n =>
    if n.toNat % 8 = 0 then s else s.regError t correctable (n.toNat % 8) fun st => { st with kp := nsInsert st.kp (n.toNat % 8) }
  | .replay t n =>
    let st := s.strand t
    if n < st.inflight.length then
      (s.setStrand t { st with inflight := modifyAt st.inflight n fun x => { x with poison := true } }).coreLog t.coreId 3 2 n
    else s
  | .queue t =>
    let st := s.strand t
    if s.trails t.ctxId then (if s.copyReady t then s.detectAt t 3 else s)
    else (match st.queue with
     | [] => s
     | b :: r =>
       let s1 := s.setStrand t { st with queue := ⟨b.addr, [], []⟩ :: r }
       if s.issuing t then s1.detect t 3 0 else s1.coreLog t.coreId 2 3 0)
  | .gsb t n =>
    let st := s.strand t
    s.setStrand t { st with region := st.region.map fun r => { r with held := modifyAt r.held n fun h => { h with bad := true } } }
  | .latch o w row => s.rowError o correctable 5 (w.val * 128 + row) fun c =>
      { c with latchPoison := c.latchPoison.set w.val (nsInsert c.latchPoison[w.val] row) }
  | .stage o n row => s.rowError o correctable 6 (n.val * 64 + row) fun c =>
      { c with stagePoison := c.stagePoison.set n.val (nsInsert c.stagePoison[n.val] row) }
  | .acc o n row => s.rowError o correctable 6 (128 + n.val * 64 + row) fun c =>
      { c with accPoison := c.accPoison.set n.val (nsInsert c.accPoison[n.val] row) }
  | .spad o off => s.rowError o correctable 7 off fun c =>
      { c with spadPoison := nsInsert c.spadPoison (off / 8), tags := nsErase (nsErase c.tags (off / 8 * 2)) (off / 8 * 2 + 1) }
  | .ccData l line =>
    if correctable then s.log l.die logCluster 1 l.cluster.val 8 (line * 128) 0
    else (s.dropCopy l line).log l.die logCluster 2 l.cluster.val 8 (line * 128) 0
  | .ccTag l line => (s.dropCopy l line).log l.die logCluster 2 l.cluster.val 9 (line * 128) 0
  | .l2 e line sector =>
    let addr := line * 128 + 32 * sector.val
    (match tget (s.die e).l2 line with
     | none => s
     | some x =>
       if correctable then s.log e logL2 1 (line % 16) 10 addr 0
       else if x.st = .M ∨ x.st = .O then
         (s.setLine e line { x with poison := x.poison ||| (1#4 <<< sector.val) }).log e logL2 3 (line % 16) 10 addr 0
       else
         (if x.holders.isEmpty && !s.lineBusy line then s.dropLine e line else s).log e logL2 2 (line % 16) 10 addr 0)
  | .tags e slice both => if both then s.declareFailed e else s.log e logL2 1 slice.val 11 0 0
  | .copyQueue o n => s.setCore o { s.core o with copyq := (s.core o).copyq.set n.val (corruptCopy ((s.core o).copyq[n.val])) }
  | .msQueue o => s.setCore o { s.core o with msq := corruptRow (s.core o).msq }
  | .linkQueue p send =>
    let x := s.port p.val
    s.setPort p.val (if send then { x with sends := corruptLink x.sends } else { x with recvs := corruptLink x.recvs })
  | .hbm pa =>
    let at_ := s.channelOf pa
    if correctable then s.logStack at_.1 1 at_.2 13 pa 0
    else ({ s with hbmPoison := nsInsert s.hbmPoison (pa / 64) } : State).logStack at_.1 3 at_.2 13 pa 0
  | .interposer e => if correctable then s.log e logLink 2 0 14 0 0 else s.declareFailed e
  | .link p => if correctable then s.log (Fin.ofNat 4 (p.val / 4)) logLink 2 p.val 14 0 0 else s.linkdown p

/-- Whether a scrubber reads the granule (R359). -/
def scrubbed (g : Granule) : Bool :=
  match g with
  | .spad _ _ => true
  | .ccData _ _ => true
  | .ccTag _ _ => true
  | .l2 _ _ _ => true
  | .hbm _ => true
  | _ => false

/-- A soft error (R354): in a granule that a scrubber reads it lies there until it is read; elsewhere it is found at once, every
read being checked (DESIGN CHOICE, log 19). -/
def execSoftError (g : Granule) (correctable : Bool) (s : State) : Out :=
  if scrubbed g then .next { s with latent := s.latent ++ [(g, correctable)] } else .next (s.applyError g correctable)

/-- Every error that lies in a granule is found: something reads it (DESIGN CHOICE, log 19). -/
def State.findErrors (s : State) : State :=
  s.latent.foldl (fun s x => s.applyError x.1 x.2) { s with latent := [] }

/-! ## Patrol scrub (R359) -/

/-- Rate of a stack's scrubber. -/
def State.hbmRate (s : State) (k : Nat) : Nat := (tget s.scrhbm k).getD 8

/-- The rate of the scrubber that reads a granule. -/
def State.scrubRate (s : State) (g : Granule) : Nat :=
  match g with
  | .spad o _ => (s.die o.die).scrsp
  | .ccData l _ => (s.die l.die).scrcc
  | .ccTag l _ => (s.die l.die).scrcc
  | .l2 e _ _ => (s.die e).scrl2
  | .hbm pa => s.hbmRate (s.channelOf pa).1
  | _ => 0

/-- A scrubber reads a granule: the error it finds there is corrected, or has the effect of its row (R359). It changes no value
that a read can return. -/
def execPatrolScrub (g : Granule) (s : State) : Out :=
  if s.scrubRate g = 0 then .next s
  else
    match s.latent.find? fun x => x.1 == g with
    | none => .next s
    | some x => .next (({ s with latent := s.latent.erase x } : State).applyError x.1 x.2)

/-- A scrubber's rate written, clamped to its register's range (R359): level 0 HBM, 1 L2, 2 scratchpad, 3 cluster cache. -/
def State.setScrub (s : State) (level unit rate : Nat) : State :=
  match level with
  | 0 => { s with scrhbm := tset s.scrhbm unit (min rate 64) }
  | 1 => s.setDie (Fin.ofNat 4 unit) { s.die (Fin.ofNat 4 unit) with scrl2 := min rate 32 }
  | 2 => s.setDie (Fin.ofNat 4 unit) { s.die (Fin.ofNat 4 unit) with scrsp := min rate 32 }
  | _ => s.setDie (Fin.ofNat 4 unit) { s.die (Fin.ofNat 4 unit) with scrcc := min rate 32 }

/-! ## Confirmation (R363, R364) -/

/-- Signatures differ (R364, R129): a re-issue of every unconfirmed bundle, or of the region; for one that has been re-issued so, LOCKSTEP. -/
def State.mismatch (s : State) (t : StrandId) (u : Unconfirmed) : State :=
  let s0 := s.coreLog t.coreId 8 0 u.step.toNat
  let st := s0.strand t
  let trap := ({ s0 with tick := s0.tick + 1 } : State).trapBack t u 9 (Config.openMask s0.tick) u.step 0
  let again := s0.unwound t u (some (.steps u.step ((st.unconfirmed.getLast?.map (·.step)).getD u.step)))
  match st.region with
  | some r =>
    if stepBefore u.step r.step then (if st.reissues u.step then trap else again)
    else if st.mismatched = some (.region r.bundle) then trap
    else (s0.setStrand t { st with mismatched := some (.region r.bundle) }).rollbackAt t 9 u.addr u.waits
  | none => if st.reissues u.step then trap else again

/-- Whether a mismatch on a bundle would be the second, which raises a trap (R364, R129). -/
def Strand.mismatchedAgain (t : Strand) (u : Unconfirmed) : Bool :=
  t.reissues u.step || (match t.region with | some r => t.mismatched == some (.region r.bundle) | none => false)

/-- The leading copy of a pair once its oldest unconfirmed bundle is confirmed. -/
def Strand.confirm (t : Strand) (u : Unconfirmed) : Strand :=
  { t with
    unconfirmed := t.unconfirmed.tail
    confirmed := if u.waits then some u else t.confirmed
    hold := if u.waits then none else t.hold
    waited := if u.waits then false else t.waited
    mismatched := t.confirmedPast u.step }

/-- The signatures of the leading copy's oldest unconfirmed bundle are compared, once both copies have formed theirs (R363): when they agree,
the bundle is confirmed and the work it held is released. `flipped` is what an error that no code detects changed in the trailing copy's (log
38). A strand that is already stopped raises no cause until it is resumed (12 R219). -/
def execLockstepConfirm (t : StrandId) (flipped : W32) (s : State) : Out :=
  let st := s.strand t
  let m := s.mateStrand t
  match s.trails t.ctxId, st.unconfirmed, (s.strand m).unconfirmed with
  | false, u :: _, v :: r =>
    if !u.complete || u.step != v.step then .next s
    else if u.sig = v.sig ^^^ flipped then
      let s1 := s.setStrand m { s.strand m with unconfirmed := r, confirmed := if v.waits then some v else (s.strand m).confirmed }
      .next ((s1.setStrand t (st.confirm u)).issueStores t (u.stores.map Held.store))
    else if st.mismatchedAgain u && !s.runs t.ctxId then .next s
    else .next (s.mismatch t u)
  | _, _, _ => .next s

end Sys2Proof.Machine
end

