-- ==== Sys2Proof/Machine/Host.lean ====
section
/-! DEFINITION. The host's side: the command window and the acceptance of commands, the fourteen commands with their completion,
and the registers without a row of their own (23 R366 to R373, R378, R380, R384; 00 R10). -/

namespace Sys2Proof.Machine

/-! ## The command window (23 R366 to R369) -/

/-- DEVSTAT (R367). -/
def State.devstat (s : State) : W64 :=
  BitVec.ofNat 64 (s.ready.toNat + s.phase * 2 + s.failStep.toNat * 2 ^ 4 + s.tamper * 2 ^ 12 + s.halted.toNat * 2 ^ 14 +
    s.dielost.toNat * 2 ^ 15 + s.key.toNat * 2 ^ 19)

/-- Offset of a word of a slot. -/
def slotAt (i w : Nat) : Nat := 0x100 + 0x100 * i + 8 * w

/-- A word of the window as the host reads it (R366). -/
def State.windowRead (s : State) (off : Nat) : W64 :=
  if off = 0 then s.devstat
  else if off = 8 then BitVec.ofNat 64 s.cmdacc
  else if off = 16 then BitVec.ofNat 64 s.cmddone
  else if off < 0x100 then 0
  else (tget s.window off).getD 0

/-- What a host's read of the window gets: no answer without power or without die 0 (R382). -/
def State.hostRead (s : State) (off : Nat) : Option W64 := if s.power && !s.dielost.getLsbD 0 then some (s.windowRead off) else none

/-- A word of the window written by the device or taken from the host. -/
def State.windowSet (s : State) (off : Nat) (x : W64) : State := { s with window := tset s.window off x }

/-- Whether the device holds a slot: a command of it is accepted and not yet completed (R368). -/
def State.slotHeld (s : State) (i : Nat) : Bool := s.cmds.any fun c => c.slot == some i

/-- A command record accepted (R369): the ACCEPTED record, then SEQ, then CMDACC. Words 1 to 28 are kept. -/
def State.accept (s : State) (op : BitVec 8) (words : List W64) (tag : W64) (slot : Option Nat) : State :=
  let n := s.cmdacc + 1
  let s1 := s.writeJournal n ⟨op, 1, 0, slot.isNone, s.now, 0, tag, words⟩
  let s2 := match slot with | some i => s1.windowSet (slotAt i 29) (BitVec.ofNat 64 n) | none => s1
  { s2 with cmdacc := n, cmds := s2.cmds ++ [⟨n, op, words, tag, slot, none⟩] }

/-- Whether the window answers: bring-up is complete and die 0 is not lost (R368, R382). -/
def State.windowOpen (s : State) : Bool := s.ready && s.power && !s.dielost.getLsbD 0

/-- A host write of a word of the window (R366, R368). Word 0 with VALID = 1 and DONE = 0 hands the slot over. -/
def State.windowWrite (s : State) (off : Nat) (x : W64) : State :=
  let i := (off - 0x100) / 0x100
  if !s.windowOpen || decide (off < 0x100 ∨ 0x1000 ≤ off ∨ off % 8 ≠ 0) || s.slotHeld i then s
  else
    let s1 := s.windowSet off x
    if off % 0x100 = 0 ∧ x.getLsbD 63 = true ∧ x.getLsbD 62 = false then
      s1.accept (x.setWidth 8) ((List.range 28).map fun k => s1.windowRead (slotAt i (k + 1))) (s1.windowRead (slotAt i 31)) (some i)
    else s1

/-- A command record submitted over the management port (R380): words 0 to 31. -/
def State.submit (s : State) (ws : List W64) : State :=
  if !s.windowOpen then s
  else s.accept ((ws.getD 0 0).setWidth 8) ((List.range 28).map fun k => ws.getD (k + 1) 0) (ws.getD 31 0) none

/-- The command at the head completes (R369, R371): its record, which keeps the end of a launch that is over already, its slot or the answer to its
session, then CMDDONE. -/
def State.complete (s : State) (c : Cmd) (status : Nat) (results : List W64) : State :=
  let res := (List.range 4).map fun k => results.getD k 0
  let words := c.words.take 23 ++ res
  let old := s.journalRec c.seq
  let ended := old.any fun j => decide (4 ≤ j.state)
  let s1 := s.writeJournal c.seq ⟨c.op, if ended then (old.map (·.state)).getD 0 else if status = 0 then 3 else 5,
    if ended then (old.map (·.status)).getD 0 else status, c.slot.isNone, (old.map (·.accepted)).getD 0, s.now, c.tag, words⟩
  let s2 := match c.slot with
    | some i =>
      let s2 := (List.range 4).foldl (fun (s : State) k => s.windowSet (slotAt i (24 + k)) (res.getD k 0)) s1
      (s2.windowSet (slotAt i 30) (BitVec.ofNat 64 status)).windowSet (slotAt i 0)
        ((s2.windowRead (slotAt i 0) ||| (1#64 <<< 62)) &&& ~~~(1#64 <<< 63))
    | none =>
      { s1 with returned := s1.returned ++
          [[c.op.setWidth 64 ||| (1#64 <<< 62)] ++ words ++ [c.words.getD 27 0, BitVec.ofNat 64 c.seq, BitVec.ofNat 64 status, c.tag]] }
  { s2 with cmds := s2.cmds.filter fun x => x.seq != c.seq, cmddone := c.seq }

/-! ## What a command comes to -/

/-- The end of an attempt to carry out a command: completed with a status and results, or begun and waiting. -/
inductive Done where
  | finish (status : Nat) (results : List W64) (s : State)
  | wait (s : State)
  deriving DecidableEq, Repr

/-- A word of a command, counted from 1. -/
def Cmd.word (c : Cmd) (k : Nat) : W64 := c.words.getD (k - 1) 0

/-- The bits of a word from 1 to 23 that a command uses (R370, R371). -/
def operandBits (op t k : Nat) : W64 :=
  let all : W64 := ~~~0
  match op, k with
  | 1, 1 => 0x7FF
  | 1, 2 => all
  | 1, 3 => 0xFFFF
  | 2, 1 => all
  | 3, 1 => 0x7FF
  | 3, 5 => 0xF
  | 3, _ => if k ≤ 5 + 2 * t then all else 0
  | 4, 1 => 0x7FF
  | 4, 2 => all
  | 4, 3 => all
  | 4, 4 => 3
  | 5, 1 => all
  | 6, 1 => 0x7FF
  | 7, 1 => 0x7FF
  | 7, 2 => all
  | 7, 3 => all
  | 8, 1 => 0x3FF
  | 8, 2 => 1
  | 9, 1 => 3
  | 9, 2 => 0xFFFF
  | 10, _ => if k ≤ 4 then all else 0
  | 11, 1 => all
  | 11, 2 => all
  | 11, 3 => 0xFF
  | 12, _ => if k ≤ 10 then all else 0
  | 13, 1 => 0x87FF
  | 13, _ => if k ≤ 4 then all else 0
  | 14, 1 => 0x87FF
  | 14, _ => if k ≤ 4 then all else 0
  | _, _ => 0

/-- Whether the reserved words and fields of a command are 0 (R370). -/
def Cmd.reservedOk (c : Cmd) : Bool :=
  c.word 28 == 0 &&
    (List.range 23).all fun k => c.word (k + 1) &&& ~~~(operandBits c.op.toNat (c.word 5).toNat (k + 1)) == 0

/-- The command service takes the oldest command, if it is of this kind or of none (R369): refused with HALTED under tamper
level 2 or 3 (R379), refused if a reserved field is not 0 (R370), else carried out. -/
def State.command (s : State) (op : Nat) (f : Cmd → State → Done) : Out :=
  match s.cmds with
  | [] => .next s
  | c :: _ =>
    if !s.windowOpen then .next s
    else if c.op.toNat ≠ op ∧ 1 ≤ c.op.toNat ∧ c.op.toNat ≤ 14 then .next s
    else if s.halted ∧ c.op ≠ 10 then .next (s.complete c 2 [])
    else if c.op.toNat ≠ op ∨ c.reservedOk = false then .next (s.complete c 1 [])
    else
      match f c s with
      | .finish status results s1 => .next (s1.complete c status results)
      | .wait s1 =>
        .next (if (s1.journalRec c.seq).any fun j => j.state == 1 then s1.journalState c.seq 2 0 else s1)

/-- The command at the head has begun (R234). -/
def State.markHead (s : State) (n : Nat) : State :=
  match s.cmds with
  | c :: r => { s with cmds := { c with mark := c.mark.orElse fun _ => some n } :: r }
  | [] => s

/-- Refused, with nothing changed. -/
def Done.refused (s : State) : Done := .finish 1 [] s

/-! ## Address spaces (12 R233) -/

/-- The live record of an ASID. -/
def State.liveAsid (s : State) (a : BitVec 11) : Option AsidRec :=
  match tget s.asids a.toNat with
  | some r => if r.live then some r else none
  | none => none

/-- The ASID that bits 10:0 of a word name. -/
def asidOf (w : W64) : BitVec 11 := w.setWidth 11

/-- The tables of the pool that are in use. -/
def State.poolUsed (s : State) : List Nat := s.asids.flatMap fun a => a.2.tables

/-- The lowest table of the pool from n on that is in use for no ASID. -/
def poolFreeFrom (used : List Nat) (n fuel : Nat) : Option Nat :=
  match fuel with
  | 0 => none
  | k + 1 => if used.contains n then poolFreeFrom used (n + 1) k else some n

/-- Number of tables of the pool. -/
def poolTables : Nat := 524288

/-- Address of table k of the pool. -/
def poolAt (k : Nat) : Nat := Config.poolBase + 4096 * k

/-- Table k of the pool taken for an ASID, cleared: its address and the state after. -/
def State.takePool (s : State) (a : BitVec 11) (k : Nat) : Nat × State :=
  let r := (tget s.asids a.toNat).getD ⟨0, 0, true, []⟩
  (poolAt k, { s.cleanWhole (poolAt k) 4096 with
    mem := memWriteBytes s.mem (poolAt k) (List.replicate 4096 0)
    asids := tset s.asids a.toNat { r with tables := nsInsert r.tables k } })

/-- A table of the pool for a MAP; the first 2,048 are the roots of the ASIDs, so that an ASID never lacks one. -/
def State.takeTable (s : State) (a : BitVec 11) : Option (Nat × State) :=
  (poolFreeFrom s.poolUsed 2048 (min (poolTables - 2048) (s.poolUsed.length + 1))).map fun k => s.takePool a k

/-- The lowest free ASID from n on. -/
def State.freeAsidFrom (s : State) (n fuel : Nat) : Option Nat :=
  match fuel with
  | 0 => none
  | k + 1 => if (s.liveAsid (BitVec.ofNat 11 n)).isSome then s.freeAsidFrom (n + 1) k else some n

/-- ASID_ALLOC (R233): the lowest free ASID, with the given root table or one of the pool; bits of a root that are no part of an aligned
physical address are ignored (DESIGN CHOICE, log 22). -/
def execAsidAlloc (s : State) : Out :=
  s.command 5 fun c s =>
    let root := (c.word 1).toNat
    match s.freeAsidFrom 0 2048 with
    | none => .refused s
    | some n =>
      let old := (tget s.asids n).getD ⟨0, 0, false, []⟩
      let done := fun (r : Nat) (s1 : State) =>
        let x := (tget s1.asids n).getD old
        Done.finish 0 [BitVec.ofNat 64 (n + old.gen.toNat * 2 ^ 16)]
          { s1 with asids := tset s1.asids n { x with root := r, live := true } }
      if root = 0 then done (s.takePool (BitVec.ofNat 11 n) n).1 (s.takePool (BitVec.ofNat 11 n) n).2
      else done (root % 2 ^ 48 / 4096 * 4096) s

/-- TLB entries dropped on every die, and every walk cache flushed. -/
def State.flushTlbs (s : State) (f : TlbEntry → Bool) : State :=
  { s with
    clusters := s.clusters.map fun (x : Nat × Cluster) => (x.1, { x.2 with tlb := x.2.tlb.filter fun e => !f e })
    dies := s.dies.map fun (x : Nat × Die) => (x.1, { x.2 with tlb := x.2.tlb.filter fun e => !f e, walks := [] }) }

/-- ASID_RETIRE (R233): the generation advances, with an invalidate at the wrap; the ASID and its pool tables are free. -/
def execAsidRetire (s : State) : Out :=
  s.command 6 fun c s =>
    let a := asidOf (c.word 1)
    match s.liveAsid a with
    | none => .refused s
    | some r =>
      let s1 := if r.gen + 1 = 0 then s.flushTlbs fun e => e.asid == a else s
      .finish 0 [(r.gen + 1).setWidth 64] { s1 with
        asids := tset s1.asids a.toNat { r with gen := r.gen + 1, live := false, tables := [] }
        graphs := s1.graphs.filter fun g => g.2.asid != a || g.2.running }

/-! ## PTSYNC (12 R234) -/

/-- Whether a byte range and a range of a command meet. -/
def rangesMeet (a n b m : Nat) : Bool := decide (a < b + m ∧ b < a + n)

/-- The ASID a strand translates with. -/
def State.asidOfStrand (s : State) (k : Nat) : BitVec 11 := (s.bindOf (strandOfKey (k % 65536)).ctxId).asid

/-- Whether a completion word translated in a range of an ASID is still to be filled. -/
def CWord.meets (w : Option CWord) (a : BitVec 11) (va len : Nat) : Bool :=
  match w with
  | some (.sync _ v b) => b == a && rangesMeet v 8 va len
  | _ => false

/-- Whether an operation of an engine, begun before an age, has a completion word in the range. -/
def State.wordsPending (s : State) (a : BitVec 11) (va len mark : Nat) : Bool :=
  (s.cores.any fun o =>
    (o.2.copyq.toList.any fun q => q.any fun x => decide (x.seq < mark) && CWord.meets x.cw a va len) ||
      o.2.msq.any fun x => decide (x.seq < mark) && CWord.meets x.cw a va len) ||
    s.ports.any fun p => (p.2.sends ++ p.2.recvs).any fun x => decide (x.seq < mark) && CWord.meets x.cw a va len

/-- Whether an access translated in the range is still to be performed: a write, the bytes of a load or an atomic, a store held in a region or
withheld by lockstep, a cache range operation, a completion word. -/
def State.translatedPending (s : State) (a : BitVec 11) (va len mark : Nat) : Bool :=
  (s.writes.any fun w => w.strand != tundishKey && decide (w.seq < mark) && s.asidOfStrand w.strand == a &&
      rangesMeet w.va (max 1 (w.bytes.foldl (fun n b => max n (b.1 + 1)) 0)) va len) ||
    s.strands.any fun t => s.asidOfStrand t.1 == a &&
      ((t.2.pend.any fun p => p.unread && decide (p.seq < mark)) ||
        (match t.2.range with | some (_, _, n) => decide (n < mark) | none => false) ||
        ((match t.2.region with | some r => r.held | none => []) ++ t.2.unconfirmed.flatMap (·.stores)).any fun h =>
          rangesMeet h.va.toNat 16 va len) || s.wordsPending a va len mark

/-- PTSYNC over a range, begun at most once: TLB entries invalidated on every die, then earlier accesses waited for (R234). -/
def State.ptsyncRange (s : State) (c : Cmd) (a : BitVec 11) (va len : Nat) : Done :=
  match c.mark with
  | some m => if s.translatedPending a va len m then .wait s else .finish 0 [] s
  | none =>
    let s1 := s.flushTlbs fun e => e.asid == a && rangesMeet (e.vpn * 2 ^ pageBits e.size) (2 ^ pageBits e.size) va len
    if s1.translatedPending a va len s1.seq then .wait (s1.markHead s1.seq) else .finish 0 [] s1

/-- PTSYNC: a length of 0 covers the whole address space (R371). -/
def execPtsync (s : State) : Out :=
  s.command 7 fun c s =>
    let a := asidOf (c.word 1)
    match s.liveAsid a with
    | none => .refused s
    | some _ =>
      let len := (c.word 3).toNat
      if len = 0 then s.ptsyncRange c a 0 (2 ^ 64) else s.ptsyncRange c a (c.word 2).toNat len

/-! ## MAP and UNMAP (23 R371, R384) -/

/-- The reserved ranges of HBM: base and length (R372 item 6). -/
def State.reservedRanges (s : State) : List (Nat × Nat) :=
  (Config.reservedBase, Config.reservedEnd - Config.reservedBase) ::
    (allDies.filter fun d => (s.die d).salvbase != 0).map fun d => ((s.die d).salvbase.toNat, 144 * (s.die d).salvsize)

/-- Whether a range of physical addresses meets a reserved range. -/
def State.meetsReserved (s : State) (pa n : Nat) : Bool := s.reservedRanges.any fun r => rangesMeet pa n r.1 r.2

/-- Whether some entry of a table, or of a table under it, is a valid leaf. -/
def State.holdsLeaf (s : State) (table : Nat) (levels : List Nat) : Bool :=
  match levels with
  | [] => false
  | l :: r =>
    (List.range (if l = 0 then 32 else 512)).any fun i =>
      let e := s.deviceWord (table + 8 * i)
      pteV e && !pteMalformed l e && (pteSz e != 3 || s.holdsLeaf (pteAddr e) r)

/-- What stands where the leaf of a page of level `target` goes. -/
inductive PageSlot where
  | noTable
  | larger
  | malformed
  | entry (pa : Nat) (e : W64)
  deriving DecidableEq, Repr

/-- The entry of a page at the level of its size (R229). -/
def State.pageSlot (s : State) (table va target : Nat) (levels : List Nat) : PageSlot :=
  match levels with
  | [] => .noTable
  | l :: r =>
    let pa := table + 8 * vaIndex va l
    let e := s.deviceWord pa
    if l = target then .entry pa e
    else if !pteV e then .noTable
    else if pteMalformed l e then .malformed
    else if pteSz e != 3 then .larger
    else s.pageSlot (pteAddr e) va target r

/-- The levels of a walk, from the root (R229). -/
def walkLevels : List Nat := [4, 3, 2, 1, 0]

/-- The levels below one. -/
def levelsBelow (l : Nat) : List Nat := walkLevels.filter fun k => decide (k < l)

/-- Whether a valid entry at a page's level is a pointer to a table that holds a valid leaf. -/
def State.smallerLeaf (s : State) (target : Nat) (e : W64) : Bool :=
  pteV e && !pteMalformed target e && pteSz e == 3 && s.holdsLeaf (pteAddr e) (levelsBelow target)

/-- Whether a page may be mapped (R384). A malformed entry above the leaf's level cannot be replaced (DESIGN CHOICE, log 22). -/
def State.mappable (s : State) (root va target : Nat) : Bool :=
  match s.pageSlot root va target walkLevels with
  | .noTable => true
  | .larger => false
  | .malformed => false
  | .entry _ e => !s.smallerLeaf target e

/-- What an attempt to write an entry comes to. -/
inductive Attempt where
  | ok (s : State)
  | full
  | wait
  deriving DecidableEq, Repr

/-- One entry written at its home. -/
def State.writeEntry (s : State) (pa : Nat) (e : W64) : Attempt :=
  match s.engineStore pa e with
  | .ok s1 => .ok s1
  | .error _ => .wait

/-- A leaf written, with the tables missing on its path (R371). -/
def State.mapPage (s : State) (a : BitVec 11) (table va target : Nat) (leaf : W64) (levels : List Nat) : Attempt :=
  match levels with
  | [] => .ok s
  | l :: r =>
    let pa := table + 8 * vaIndex va l
    if l = target then s.writeEntry pa leaf
    else
      let e := s.deviceWord pa
      if pteV e then s.mapPage a (pteAddr e) va target leaf r
      else
        match s.takeTable a with
        | none => .full
        | some (t, s1) =>
          match s1.writeEntry pa (BitVec.ofNat 64 (t + 0x301)) with
          | .ok s2 => s2.mapPage a t va target leaf r
          | x => x

/-- Consecutive pages mapped to consecutive frames. -/
def State.mapPages (s : State) (a : BitVec 11) (root va : Nat) (leaf : W64) (n : Nat) : Attempt :=
  match n with
  | 0 => .ok s
  | k + 1 =>
    let size := 2 ^ pageBits (pteSz leaf)
    match s.mapPage a root va (pteSz leaf) leaf walkLevels with
    | .ok s1 => s1.mapPages a root (va + size) (leaf + BitVec.ofNat 64 size) k
    | x => x

/-- The template with its frames is one that R230 and R371 allow for n pages. -/
def State.templateOk (s : State) (leaf : W64) (n : Nat) : Bool :=
  let pa := pteAddr leaf
  let len := n * 2 ^ pageBits (pteSz leaf)
  pteV leaf && pteSz leaf != 3 && !pteMalformed (pteSz leaf) leaf && decide (pa + len ≤ 2 ^ 48) &&
    !rangesMeet pa len hbmEnd (hostBase - hbmEnd) && (pteCp leaf == 2 || !rangesMeet pa len hostBase hostBase) &&
    !s.meetsReserved pa len

/-- The `.tagfull` ranges of a MAP: address and count of sync words. -/
def Cmd.tagRanges (c : Cmd) : List (Nat × Nat) :=
  (List.range (c.word 5).toNat).map fun k => ((c.word (6 + 2 * k)).toNat, (c.word (7 + 2 * k)).toNat)

/-- A range of addresses of n pages lies in the global window, aligned to its page size. -/
def pagesOk (va n z : Nat) : Bool :=
  decide (1 ≤ n ∧ n ≤ 2 ^ 20 ∧ va % 2 ^ pageBits z = 0 ∧ 0x100000000 ≤ va ∧ va + n * 2 ^ pageBits z ≤ 2 ^ 57)

/-- MAP (R371, R384): every check first, then every entry, then the named tags set full; the other tags stay as they are (16 R279; DESIGN
CHOICE, log 91). -/
def execMap (s : State) : Out :=
  s.command 3 fun c s =>
    let a := asidOf (c.word 1)
    let va := (c.word 2).toNat
    let n := (c.word 3).toNat
    let leaf := c.word 4
    let z := pteSz leaf
    let len := n * 2 ^ pageBits z
    let rs := c.tagRanges
    match s.liveAsid a with
    | none => .refused s
    | some r =>
      if !pagesOk va n z || !s.templateOk leaf n then .refused s
      else if decide (9 < rs.length) || (!rs.isEmpty && !pteMs leaf) ||
          (rs.any fun x => decide (x.1 % 8 ≠ 0 ∨ x.1 < va ∨ va + len < x.1 + 8 * x.2)) then .refused s
      else if (List.range n).any fun i => !s.mappable r.root (va + i * 2 ^ pageBits z) z then .refused s
      else
        match s.mapPages a r.root va leaf n with
        | .full => .refused s
        | .wait => .wait s
        | .ok s0 =>
          .finish 0 [] (rs.foldl (fun s x => (List.range x.2).foldl
            (fun s i => s.setTag (.sync (pteAddr leaf + (x.1 - va) + 8 * i)) true) s) s0)

/-- Whether UNMAP may run over a page: it is unmapped or mapped at the size named (R384). -/
def State.unmappable (s : State) (root va target : Nat) : Bool :=
  match s.pageSlot root va target walkLevels with
  | .larger => false
  | .entry _ e => !s.smallerLeaf target e
  | _ => true

/-- The leaves of n pages cleared, unmapped pages skipped. -/
def State.unmapPages (s : State) (root va z n : Nat) : Attempt :=
  match n with
  | 0 => .ok s
  | k + 1 =>
    let next := va + 2 ^ pageBits z
    match s.pageSlot root va z walkLevels with
    | .entry pa e =>
      if pteV e && !pteMalformed z e && pteSz e == z then
        (match s.writeEntry pa 0 with
         | .ok s1 => s1.unmapPages root next z k
         | x => x)
      else s.unmapPages root next z k
    | _ => s.unmapPages root next z k

/-- UNMAP (R234, R384): the entries cleared, then a PTSYNC over the range. -/
def execUnmap (s : State) : Out :=
  s.command 4 fun c s =>
    let a := asidOf (c.word 1)
    let va := (c.word 2).toNat
    let n := (c.word 3).toNat
    let z := (c.word 4).toNat
    let len := n * 2 ^ pageBits z
    if c.mark.isSome then s.ptsyncRange c a va len
    else
      match s.liveAsid a with
      | none => .refused s
      | some r =>
        if z = 3 ∨ pagesOk va n z = false then .refused s
        else if (List.range n).any fun i => !s.unmappable r.root (va + i * 2 ^ pageBits z) z then .refused s
        else
          match s.unmapPages r.root va z n with
          | .ok s1 => s1.ptsyncRange c a va len
          | _ => .wait s

/-! ## Graphs (18 R301, R302) -/

/-- A node record read by the command service (R232, R301). -/
def State.serviceNode (s : State) (a : BitVec 11) (gen : BitVec 4) (base : W64) (n : Nat) : Except AddrFault Node :=
  match s.serviceTranslate a gen (base + BitVec.ofNat 64 (64 * n)) needR with
  | .error f => .error f
  | .ok p =>
    match p.loc with
    | .phys pa => .ok ⟨(List.range 8).map fun k => s.frameWord (pa + 8 * k)⟩
    | .spad _ _ => .error (causeBounds, 0, base)

/-- LOAD_GRAPH (R301, R371): validated, with the command's sequence number as handle. -/
def execLoadGraph (s : State) : Out :=
  s.command 1 fun c s =>
    let a := asidOf (c.word 1)
    let base := c.word 2
    let n := (c.word 3).toNat
    match s.liveAsid a with
    | none => .refused s
    | some r =>
      if base.toNat % 64 ≠ 0 ∨ n = 0 then .refused s
      else
        match validateGraph (readRecords (s.serviceNode a r.gen base) n) (s.counterOk a r.gen) with
        | some (i, k) => .finish 1 [0, BitVec.ofNat 64 (i + k * 2 ^ 16)] s
        | none =>
          .finish 0 [BitVec.ofNat 64 c.seq, 0]
            { s with graphs := tset s.graphs c.seq ⟨a, r.gen, base, n, none, false, [], [], false, [], []⟩ }

/-- The dies whose engines evaluate nodes of a graph. -/
def State.graphDies (s : State) (g : Graph) : List DieId :=
  let xs := readRecords (s.serviceNode g.asid g.gen g.base) g.count
  allDies.filter fun d => xs.any fun x => match x with | some n => n.die == d | none => false

/-- Whether another graph that runs has the same node array, by its address or by where its first record lies: two launches of one array never run at
once (R384; that the second is refused and does not wait is a DESIGN CHOICE, log 78). -/
def State.arrayRuns (s : State) (h : Nat) (g : Graph) : Bool :=
  let at_ := fun (x : Graph) => match s.serviceTranslate x.asid x.gen x.base needR with | .ok p => some p.loc | .error _ => none
  s.graphs.any fun y => y.1 != h && y.2.running &&
    ((y.2.asid == g.asid && y.2.gen == g.gen && y.2.base == g.base) || ((at_ g).isSome && at_ y.2 == at_ g))

/-- LAUNCH (R302, R384): complete once every root has been made ready (R370). An access that fails stops its engine, and the launch goes on once
FAULT is cleared (R306). -/
def execLaunch (s : State) : Out :=
  s.command 2 fun c s =>
    let h := (c.word 1).toNat
    match tget s.graphs h with
    | none => .refused s
    | some g =>
      let go := fun (s : State) =>
        if (tget s.graphs h).all fun x => x.todo.isEmpty && x.roots.isEmpty then .finish 0 [] s else .wait s
      let stopped := (s.graphDies g).any fun d => (s.die d).engine.fault
      if g.launch = some c.seq then go (if g.todo.isEmpty || stopped then s else s.launchOn h)
      else if g.running || s.arrayRuns h g || (match s.liveAsid g.asid with | some r => r.gen != g.gen | none => true) then .refused s
      else if stopped then .wait s
      else go (s.launchGraph h c.seq g)

/-! ## Contexts and gangs -/

/-- The context that a selector word names (R371). -/
def selected (w : W64) : CtxId :=
  ⟨Fin.ofNat 4 w.toNat, Fin.ofNat 32 (w.toNat / 4), Fin.ofNat 8 (w.toNat / 128)⟩

/-- RESUME (R384). -/
def execResume (s : State) : Out :=
  s.command 8 fun c s =>
    let x := s.leading (selected (c.word 1))
    let parked := (c.word 2).getLsbD 0
    let y := s.ctx x
    if !(s.bindOf x).valid || (y.parked && !parked) then .refused s
    else if y.trapped || y.frozen || y.parked then .finish 0 [] (s.resumeCtx x parked)
    else .finish 0 [] s

/-- EVICT (12 R225): the gang freezes, its work drains, its state is saved. -/
def execEvict (s : State) : Out :=
  s.command 9 fun c s =>
    let k := (c.word 1).toNat * 65536 + (c.word 2).toNat
    match tget s.gangs k with
    | none => .refused s
    | some g =>
      if g.saved.isSome then .refused s
      else
        let s1 := s.freezeGang g
        if s1.evictable g then .finish 0 [BitVec.ofNat 64 (gangRecordAt k)] (s1.saveGang k g) else .wait s1

/-! ## QUERY (23 R372) -/

/-- The state word of a context (R372 item 1). -/
def State.stateWord (s : State) (c : CtxId) : W64 :=
  if !(s.bindOf c).valid then 0
  else
    let x := s.ctx (s.leading c)
    let run := match x.run with | .free => 0 | .ready => 1 | .running => 2 | .waiting => 3 | .retiring => 4
    BitVec.ofNat 64 (run + x.trapped.toNat * 8 + x.frozen.toNat * 16 + x.parked.toNat * 32)

/-- The words of a log record (22 R360). -/
def LogRec.words (r : LogRec) : List W64 :=
  [BitVec.ofNat 64 r.time, BitVec.ofNat 64 (r.kind + r.unit * 2 ^ 4 + r.struct * 2 ^ 16 + r.count * 2 ^ 32),
   BitVec.ofNat 64 r.addr, BitVec.ofNat 64 r.detail]

/-- A log as QUERY item 3 gives it: the ring by index, then ELGHEAD and ELGLOST. -/
def ELog.words (l : ELog) : List W64 :=
  ((List.range 64).flatMap fun i =>
    let age := (l.head + 63 - i) % 64
    if age < l.recs.length then (match l.recs[l.recs.length - 1 - age]? with | some r => r.words | none => [0, 0, 0, 0]) else [0, 0, 0, 0]) ++
    [BitVec.ofNat 64 l.head, BitVec.ofNat 64 l.lost]

/-- The sensors: kind, die, index (R365, R372 item 4). -/
def sensors : List (Nat × Nat × Nat) :=
  ((List.range 4).flatMap fun d => (List.range 16).map fun i => (0, d, i)) ++ [(1, 0, 0), (2, 0, 0)] ++
    ((List.range Config.rails).map fun i => (3, 0, i)) ++ [(4, 0, 0)]

/-- The records of the sensors. -/
def State.sensorWords (s : State) : List W64 :=
  ((List.range sensors.length).zip sensors).flatMap fun x =>
    [BitVec.ofNat 64 (x.2.1 + x.2.2.1 * 2 ^ 8 + x.2.2.2 * 2 ^ 16), Config.sensor s.tick x.1]

/-- TUSTAT of a die (20 R327). -/
def State.tustat (s : State) (d : DieId) : W64 :=
  BitVec.ofNat 64 (((List.finRange 32).foldl (fun n c => n + (s.cluster ⟨d, c⟩).blind.toNat * 2 ^ c.val) 0) +
    (s.die d).blindEvents * 2 ^ 32 + (s.die d).dieOff.toNat * 2 ^ 48)

/-- GRSTAT of a die (18 R305). -/
def State.grstat (s : State) (d : DieId) : W64 :=
  BitVec.ofNat 64 ((s.die d).engine.bp.toNat + (s.die d).engine.fault.toNat * 2)

/-- The journal's records from a sequence number on. -/
def State.journalFrom (s : State) (n fuel : Nat) : List W64 :=
  match fuel with
  | 0 => []
  | k + 1 => match s.journalRec n with | some j => j.record n ++ s.journalFrom (n + 1) k | none => []

/-- The words of an item, if item and selector name one (R372); `room` records fit for item 5. -/
def State.item (s : State) (item sel : Nat) (room : Nat) : Option (List W64) :=
  let c := selected (BitVec.ofNat 64 sel)
  match item with
  | 1 => if sel < 1024 then some ((s.bindOf c).words ++ [s.stateWord c]) else none
  | 2 =>
    if sel < 1024 ∧ (s.bindOf c).valid then some ((List.range 32).map fun i => s.deviceWord ((s.bindOf c).save.toNat + 8 * i)) else none
  | 3 =>
    let log := sel % 16
    let u := sel / 16
    if log = 5 ∧ u < 12 then some ((tget s.hbmLogs u).getD ELog.reset).words
    else if log < 5 ∧ u < 4 then some ((s.die (Fin.ofNat 4 u)).logs[log % 5]'(Nat.mod_lt _ (by decide))).words
    else none
  | 4 => if sel = 0 then some s.sensorWords else none
  | 5 => some (s.journalFrom sel (min room 65536))
  | 6 => if sel = 0 then some (s.reservedRanges.flatMap fun r => [BitVec.ofNat 64 r.1, BitVec.ofNat 64 r.2]) else none
  | 7 => if sel = 0 then some ((List.range 16).map fun p => (s.port p).peer.setWidth 64) else none
  | 8 =>
    if sel = 0 then
      some (s.devstat :: allDies.flatMap fun d => [s.tustat d, (s.die d).losthome.setWidth 64, (s.die d).qmask.setWidth 64, s.grstat d])
    else none
  | _ => none

/-- A host buffer lies below 2^47 (R371). -/
def hostOk (a n : Nat) : Bool := decide (a + n ≤ 2 ^ 47)

/-- QUERY (R372): a buffer shorter than the item is refused. -/
def execQuery (s : State) : Out :=
  s.command 10 fun c s =>
    let a := (c.word 3).toNat
    let len := (c.word 4).toNat
    match s.item (c.word 1).toNat (c.word 2).toNat (len / 256) with
    | none => .refused s
    | some ws =>
      if len < 8 * ws.length ∨ hostOk a (8 * ws.length) = false then .refused s
      else .finish 0 [BitVec.ofNat 64 (8 * ws.length)] { s with mem := memWriteBytes s.mem (hostBase + a) (dwordBytes ws) }

/-! ## SCRUB_SET, ATTEST -/

/-- SCRUB_SET (22 R359, R371). -/
def execScrubSet (s : State) : Out :=
  s.command 11 fun c s =>
    let level := (c.word 1).toNat
    let unit := (c.word 2).toNat
    let units := if level = 0 then 12 else 4
    if 3 < level ∨ (unit ≠ 0xFF ∧ units ≤ unit) then .refused s
    else
      let us := if unit = 0xFF then List.range units else [unit]
      .finish 0 [] (us.foldl (fun s u => s.setScrub level u (c.word 3).toNat) s)

/-- The report of ATTEST without its signature (R378): nonce, MEAS, serial number, hash of the public key, device time. -/
def State.report (s : State) (nonce : List W64) : List Byte :=
  dwordBytes nonce ++ leBytes 64 s.meas.toNat ++ leBytes 16 Config.serialNumber.toNat ++ leBytes 64 Config.publicKeyHash.toNat ++
    leBytes 8 s.now

/-- ATTEST (R378): the signed report, or NOKEY. -/
def execAttest (s : State) : Out :=
  s.command 12 fun c s =>
    let a := (c.word 9).toNat
    if !s.key then .finish 3 [] s
    else if (c.word 10).toNat < 4843 ∨ hostOk a 4843 = false then .refused s
    else
      let r := s.report ((List.range 8).map fun k => c.word (k + 1))
      let sig := (List.range 4627).map (Config.signatureByte r)
      .finish 0 [4843] { s with mem := memWriteBytes s.mem (hostBase + a) (r ++ sig) }

/-! ## WRITE_MEM, READ_MEM (R371) -/

/-- A byte range cut at multiples of 64 KiB, the least page size. -/
def cutRange (va n fuel : Nat) : List (Nat × Nat) :=
  match fuel with
  | 0 => []
  | k + 1 =>
    if n = 0 then []
    else
      let m := min n (65536 - va % 65536)
      (va, m) :: cutRange (va + m) (n - m) k

/-- The place of a piece that lies in one page: physical, or translated without regard to permissions. -/
def State.piecePa (s : State) (phys : Bool) (a : BitVec 11) (gen : BitVec 4) (va : Nat) : Option Nat :=
  if phys then (if s.lostAt va then none else some va)
  else if 2 ^ 64 ≤ va then none
  else
    match s.serviceTranslate a gen (BitVec.ofNat 64 va) ⟨false, false, false⟩ with
    | .ok p => (match p.loc with | .phys pa => some pa | .spad _ _ => none)
    | .error _ => none

/-- The physical pieces of a device range; none where a byte cannot be reached or is reserved. -/
def State.devicePieces (s : State) (phys : Bool) (a : BitVec 11) (gen : BitVec 4) (xs : List (Nat × Nat)) : Option (List (Nat × Nat)) :=
  match xs with
  | [] => some []
  | (va, n) :: r =>
    match s.piecePa phys a gen va with
    | none => none
    | some pa =>
      if s.meetsReserved pa n || rangesMeet pa n hbmEnd (hostBase - hbmEnd) || decide (2 ^ 48 < pa + n) then none
      else (s.devicePieces phys a gen r).map fun ps => (pa, n) :: ps

/-- The lines of HBM that a piece touches. -/
def linesOf (pa n : Nat) : List Nat :=
  if hbmEnd ≤ pa then [] else (List.range ((pa + n - 1) / 128 - pa / 128 + 1)).map fun i => pa / 128 + i

/-- Bytes written by the command service at their home, every cached copy gone first; granules written whole are clean. -/
def State.writePieces (s : State) (ps : List (Nat × Nat)) (bs : List Byte) : Option State :=
  match ps with
  | [] => some s
  | (pa, n) :: r =>
    match s.purgeLines (linesOf pa n) with
    | none => none
    | some s1 =>
      ({ s1.cleanWhole pa n with mem := memWriteBytes s1.mem pa (bs.take n) } : State).writePieces r (bs.drop n)

/-- The operands of WRITE_MEM and READ_MEM checked: the physical pieces of the device range. -/
def State.transfer14 (s : State) (c : Cmd) : Option (List (Nat × Nat)) :=
  let phys := (c.word 1).getLsbD 15
  let a := asidOf (c.word 1)
  let va := (c.word 2).toNat
  let n := (c.word 4).toNat
  if n = 0 ∨ 2 ^ 30 < n ∨ hostOk (c.word 3).toNat n = false ∨ (phys = false ∧ (s.liveAsid a).isNone) then none
  else s.devicePieces phys a (s.genOf a) (cutRange va n (n / 65536 + 2))

/-- WRITE_MEM: every byte performed at device scope. -/
def execWriteMem (s : State) : Out :=
  s.command 13 fun c s =>
    match s.transfer14 c with
    | none => .refused s
    | some ps =>
      match s.writePieces ps (memBytes s.mem (hostBase + (c.word 3).toNat) (c.word 4).toNat) with
      | none => .wait s
      | some s1 => .finish 0 [] s1

/-- READ_MEM: every byte written to host memory. -/
def execReadMem (s : State) : Out :=
  s.command 14 fun c s =>
    match s.transfer14 c with
    | none => .refused s
    | some ps =>
      let bs := ps.flatMap fun p => (List.range p.2).map fun i => s.frameByte (p.1 + i)
      .finish 0 [] { s with mem := memWriteBytes s.mem (hostBase + (c.word 3).toNat) bs }

/-! ## Registers without a row of their own (00 R10) -/

/-- A bind record with one of its words written (18 R307); reserved bits hold nothing. -/
def Bind.setWord (b : Bind) (n : Nat) (x : W64) : Bind :=
  match n with
  | 0 => { b with
      valid := x.getLsbD 0, matrix := x.getLsbD 1, lock := x.getLsbD 2, spec := x.getLsbD 3
      prio := x.extractLsb' 4 2, bclass := x.extractLsb' 6 5, asid := x.extractLsb' 11 11, gen := x.extractLsb' 22 4
      cig := x.extractLsb' 26 5, gang := x.extractLsb' 32 16 }
  | 1 => { b with entry := x.setWidth 57 }
  | 2 => { b with pbase := x.extractLsb' 0 5, psize := x.extractLsb' 5 6 }
  | 3 => { b with save := x.setWidth 48 }
  | 4 => { b with args := x }
  | 5 => { b with node := x }
  | _ => b

/-- The engine registers of a die changed. -/
def State.onEngineRegs (s : State) (e : DieId) (f : Engine → Engine) : State :=
  s.setDie e { s.die e with engine := f (s.die e).engine }

/-- RESTART of a strand's trap record (12 R220), in the trap block and in the record. -/
def State.setRestart (s : State) (t : StrandId) (x : W64) : State :=
  let st := s.strand t
  let s1 := s.setStrand t { st with trap := { st.trap with restart := x } }
  if (s.bindOf t.ctxId).valid then
    { s1 with mem := memSetWord s1.mem ((s1.bindOf t.ctxId).save.toNat + 64 * t.core.val + 40) x }
  else s1

/-- GRSTAT is W1C: BP clears; clearing FAULT resumes the engine (18 R305, R306). -/
def State.clearGrstat (s : State) (e : DieId) (x : W64) : Out :=
  let s1 := if x.getLsbD 0 then s.onEngineRegs e fun g => { g with bp := false } else s
  if x.getLsbD 1 then execGrstatFaultClear e s1 else .next s1

/-- A write of a register without a row of its own, by host, control core or firmware (R10). A write of ELGLOST clears of LOST the bits written 1
(DESIGN CHOICE, log 69). -/
def execRegisterWrite (r : RegSel) (x : W64) (s : State) : Out :=
  match r with
  | .cohctl e => .next (s.setCohctl e x)
  | .salvbase e => .next (s.setDie e { s.die e with salvbase := x.setWidth 48 })
  | .salvsize e => .next (s.setDie e { s.die e with salvsize := x.toNat % 2 ^ 24 })
  | .grbase e => .next (s.onEngineRegs e fun g => { g with grbase := x })
  | .grsize e =>
    .next (s.onEngineRegs e fun g => { g with grsize := if 12 ≤ x.toNat % 32 ∧ x.toNat % 32 ≤ 24 then x.toNat % 32 else 12 })
  | .grroot e => .next (s.onEngineRegs e fun g => { g with grroot := x })
  | .grstat e => s.clearGrstat e x
  | .bmem e c k => .next (s.setDie e { s.die e with bmem := tset (s.die e).bmem (c.val * 3 + k.val) (x.setWidth 16) })
  | .blnk e c p => .next (s.setDie e { s.die e with blnk := tset (s.die e).blnk (c.val * 4 + p.val) (x.setWidth 16) })
  | .biss e c k => .next (s.setDie e { s.die e with biss := tset (s.die e).biss (issKey c.val k.val) (x.setWidth 16) })
  | .bused e c =>
    .next (s.setDie e { s.die e with overs := tset (s.die e).overs c.val (((tget (s.die e).overs c.val).getD 0) &&& ~~~(x.setWidth 39)) })
  | .elglost e n =>
    let d := s.die e
    let l := d.logs[n.val]
    let lost := (BitVec.ofNat 32 l.lost &&& ~~~(x.setWidth 32)).toNat
    .next (s.setDie e { d with logs := d.logs.set n.val { l with lost := lost } })
  | .hbmlost k =>
    let l := (tget s.hbmLogs k.val).getD ELog.reset
    let lost := (BitVec.ofNat 32 l.lost &&& ~~~(x.setWidth 32)).toNat
    .next { s with hbmLogs := tset s.hbmLogs k.val { l with lost := lost } }
  | .qctl e => .next (s.setDie e { s.die e with qctl := x.setWidth 2 })
  | .qmask e => .next (s.setDie e { s.die e with qmask := x.setWidth 32 })
  | .scrub level unit => .next (if level = 0 ∨ unit.val < 4 then s.setScrub level.val unit.val (x.toNat % 256) else s)
  | .bind e k n => .next (s.setBind ⟨e, Fin.ofNat 32 (k.val / 8), Fin.ofNat 8 k.val⟩
      ((s.bindOf ⟨e, Fin.ofNat 32 (k.val / 8), Fin.ofNat 8 k.val⟩).setWord n.val x))
  | .restart t => .next (s.setRestart t x)
  | .window off => .next (s.windowWrite off x)
  | .management ws => .next (s.submit ws)
  | .host a => .next (if hostOk a 8 then { s with mem := memSetWord s.mem (hostBase + a) x } else s)

end Sys2Proof.Machine
end

