-- ==== Sys2Proof/Machine/Bringup.lean ====
section
/-! DEFINITION. Supplies, bring-up, tamper and temperature alarms, the power limit (00 R3, 23 R365, R377 to R382). -/

namespace Sys2Proof.Machine

/-- MEAS extended by the digest of a stage (R378). -/
def extendMeas (m digest : BitVec 512) : BitVec 512 := Config.sha3 (leBytes 64 m.toNat ++ leBytes 64 digest.toNat)

end Sys2Proof.Machine

namespace Sys2Proof

/-- The stages of firmware that run: those before the first whose signature fails its check (R378). -/
def BringUp.ran (b : BringUp) : List Stage := b.stages.takeWhile fun x => x.signed

/-- The step that fails, if one does: a stage that fails its check fails step 4, as what happens before comes first (R377, R378; DEDUCED, log 86). -/
def BringUp.failed (b : BringUp) : Option (BitVec 8) :=
  match b.failAt with
  | some n => if n.toNat < 4 ∨ b.ran.length = b.stages.length then some n else some 4
  | none => if b.ran.length = b.stages.length then none else some 4

/-- MEAS after bring-up (R378): extended by the digest of every stage that ran, before the step that failed. -/
def BringUp.measured (b : BringUp) : BitVec 512 :=
  if b.failed.any fun n => decide (n.toNat < 4) then 0 else (b.ran.map fun x => x.digest).foldl Machine.extendMeas 0

end Sys2Proof

namespace Sys2Proof.Machine

/-- The link ports with the peers that bring-up found (R381). -/
def portsOf (peers : List (BitVec 38)) : Table Port :=
  ((List.range 16).zip peers).map fun x => (x.1, ⟨x.2, [], [], []⟩)

/-- What is left of a state when the device holds none (R3): host memory, whether it has booted before and an identity key is sealed, and the
model's own tick and agenda. -/
def State.emptied (s : State) : State :=
  { State.reset with
    mem := s.mem.filter (fun (c : Host.Cell) => decide (hostBase ≤ c.1))
    key := s.key, booted := s.booted, tick := s.tick, agenda := s.agenda }

/-- The steps of bring-up (R377, R378, R381): READY, or PHASE 5 with the step that failed. The first boot to succeed generates the identity key and
seals it (DEDUCED, log 86). -/
def State.bringUp (s : State) (b : BringUp) : State :=
  let s1 := { s.emptied with meas := b.measured }
  match b.failed with
  | some n => { s1 with ready := false, phase := 5, failStep := n }
  | none => { s1 with key := s.key || !s.booted, booted := true, ports := portsOf b.peers }

/-- Power-good: bring-up runs (R377). -/
def execPowerGood (b : BringUp) (s : State) : Out := if s.power then .next s else .next (s.bringUp b)

/-- The main supplies go off (R3). -/
def execPowerOff (s : State) : Out := .next { s.emptied with power := false, ready := false, phase := 0 }

/-- The device is reset and brings itself up anew (R373, R382). A tamper level is held until power-off, and so is the halt that
goes with it (R379, R365). -/
def execDeviceReset (b : BringUp) (s : State) : Out :=
  if !s.power then .next s
  else .next { s.bringUp b with tamper := s.tamper, halted := decide (2 ≤ s.tamper) || (s.halted && !s.dielost.getLsbD 0) }

/-- Every bound context frozen, and no more work placed (R365, R379). -/
def State.haltAll (s : State) : State :=
  let cs := allDies.flatMap fun e => (ctxsOf e).filter fun c => (s.bindOf c).valid && !s.trails c
  let s1 := cs.foldl (fun s c => if (s.ctx c).frozen || (s.ctx c).freezing then s else s.freezeCtx c) s
  { s1 with halted := true }

/-- A tamper sensor raises a level (R379). -/
def execTamperAlarm (level : Fin 4) (sensor : BitVec 12) (s : State) : Out :=
  if !s.power || level = 0 then .next s
  else
    let s1 := { s with tamper := max s.tamper level.val }
    let s2 := if level = 1 then s1.log 0 logCore 10 sensor.toNat 0 0 0 else s1.haltAll
    .next (if level = 3 then { s2 with key := false } else s2)

/-- The arithmetic clock of a die a step of 100 MHz lower, not below 800 MHz (R365). -/
def Die.slower (d : Die) : Die := { d with clock := max 800 (d.clock - 100) }

/-- A junction sensor of a die reads a temperature in thousandths of a degree (R365). -/
def execJunctionTemperature (e : DieId) (milli : Nat) (s : State) : Out :=
  if !s.power || decide (milli < 100000) then .next s
  else
    let s1 := s.setDie e (s.die e).slower
    .next (if 105000 ≤ milli then s1.haltAll else s1)

/-- The chief control core holds the package at or below 2.9 kW (R365). -/
def execPackagePowerLimit (s : State) : Out :=
  if !s.power then .next s else .next (allDies.foldl (fun s d => s.setDie d (s.die d).slower) s)

end Sys2Proof.Machine
end

