-- ==== Sys2Proof/Machine/Bundle.lean ====
section
/-! DEFINITION. The issue of a bundle: what comes before its syllables run (framing, limits, stalls, holds) and what follows (the one
cause that takes effect, or the commit) (00 R14, 02 R27 to R34, 03 R55 to R62, 05 R96, 06 R119 to R127, 12 R219, R222). -/

namespace Sys2Proof.Machine

/-! ## Before the syllables (02 R31, 03 R58, R62) -/

/-- What comes of presenting a strand to issue: the step is over, nothing can be issued, or the syllables run: the state before the
bundle, the state they start from, the syllables in the order in which they run. -/
inductive Opened where
  | done (s : State)
  | blocked (s : State)
  | run (before start : State) (is : List (Nat × Instr))

/-- Whether a word is a syllable of this context by its encoding and by matrix use (R33, 03 R50). -/
def State.encodingOk (s : State) (t : StrandId) (w : W32) : Bool :=
  (match Sys2Proof.decodeWord w with | .ok _ => true | .error _ => false) &&
    (s.matrix t || (classOf w != .X && classOf w != .E))

/-- The order in which syllables run: `ckpt` opens its region first, the Y class comes last; otherwise by position. All of them
read the registers as before the bundle (R32). -/
def Decoded.order (b : Decoded) : List (Nat × Instr) :=
  let xs := b.positions
  let first := xs.filter fun x => majorOf x.2 == 0x70
  let last := xs.filter fun x => classOf x.2 == .Y
  let rest := xs.filter fun x => majorOf x.2 != 0x70 && classOf x.2 != .Y
  (first ++ rest ++ last).map fun x => (x.1, instrOf x.2)

/-- Whether a register is poisoned. -/
def Strand.isPoisoned (t : Strand) (r : RegName) : Bool :=
  match r with
  | .g n => t.gp.contains n
  | .v n => t.vp.contains n
  | .k n => t.kp.contains (n % 8)
  | .s _ => false

/-- Whether a syllable reads %fmt (09 R162, 11 R202 to R206, 10 R187): it is poisoned when its replay register was (22 R354). -/
def readsFmt (i : Instr) : Bool :=
  match i with
  | .gets _ n => n == 15
  | .vcvtF4xF32 _ _ _ => true
  | .vcvtQF32 _ _ _ => true
  | .vcvtF32Q _ _ _ => true
  | .mlatch _ _ => true
  | .mgather _ _ _ _ => true
  | .mma _ _ _ _ => true
  | .mmas _ _ _ _ => true
  | .mst _ _ _ => true
  | _ => false

/-- FADDR of a poisoned register (12 R222). -/
def RegName.faddr (r : RegName) : W64 :=
  match r with
  | .g n => BitVec.ofNat 64 n
  | .v n => BitVec.ofNat 64 (64 + n)
  | .k n => BitVec.ofNat 64 (128 + n % 8)
  | .s _ => 0

/-- Whether a syllable reads nothing where it has no effect: `guard` and `assert` outside a region raise only ILLEGAL and BUNDLE (06
R117). -/
def State.inert (s : State) (t : StrandId) (i : Instr) : Bool :=
  match i with
  | .guard _ _ => (s.strand t).region.isNone
  | .assert _ => (s.strand t).region.isNone
  | _ => false

/-- The syllables that read a poisoned register, each with the FADDR of one such register: which of several, and what stands there for
%fmt, the manual leaves open (DESIGN CHOICE, log 21, 74). A hint that reads one counts among them (DESIGN CHOICE, log 59: 03 R61 against 05 R102). -/
def State.poisonedReads (s : State) (t : StrandId) (is : List (Nat × Instr)) : List (Nat × W64) :=
  is.filterMap fun x =>
    match (if s.inert t x.2 then [] else readsOf x.2).filter (s.strand t).isPoisoned with
    | [] => if readsFmt x.2 && (s.strand t).fmtPoison then some (x.1, Config.openFaddr s.tick) else none
    | r :: rs => some (x.1, (if Config.either s.tick 0 then rs.getLast?.getD r else r).faddr)

/-- The confirmed bundle that a strand is to commit next, if its next bundle is one (22 R363). -/
def Strand.confirmedNow (t : Strand) (addr : W64) : Option Unconfirmed := t.confirmed.filter fun u => u.step == t.step + 1 && u.addr == addr

/-- Whether a syllable is a load. -/
def isLoad (w : W32) : Bool := classOf w == .M && !(writesOf (instrOf w)).isEmpty

/-- The syllables of a bundle that a strand runs: of one that is confirmed, the loads have been performed (22 R363). -/
def Strand.toRun (t : Strand) (b : Decoded) : List (Nat × Instr) :=
  match t.confirmedNow b.addr with
  | some _ => b.order.filter fun x => !b.positions.any fun y => y.1 == x.1 && isLoad y.2
  | none => b.order

/-- The record of a bundle that begins to issue. -/
def State.beginIssue (s : State) (b : Decoded) (is : List (Nat × Instr)) : State :=
  let t := s.turn
  let st := s.strand t
  let s1 := s.setStrand t { st with step := st.step + 1, ainit := none }
  s1.setIss { Issue.reset with
    addr := b.addr, following := b.following, lits := b.lits, lfsr := st.lfsr, mark := s.seq
    regionWas := st.regionWord (st.step + 1), poisoned := s.poisonedReads t is
    busy := (s.core t.coreId).heldBanks ||| s.chunkBanks t.coreId.key }

/-- A strand's bundle is held at issue: a hold that begins takes a fresh age, which orders the waiters of a word (15 R266). -/
def State.holdAtIssue (s : State) (t : StrandId) (h : Hold) : State :=
  let st := s.strand t
  if st.hold = some h then s
  else
    let (n, s1) := s.fresh
    s1.setStrand t { st with hold := some h, waitSince := n, waitTime := s.now }

/-- Whether a strand's region has run its 65,535 steps (06 R119). -/
def Strand.lengthOut (t : Strand) : Bool :=
  match t.region with
  | none => false
  | some r => decide (65536 ≤ (t.step + 1 - r.step).toNat)

/-- Whether a bundle holds a `loop` that raises ILLEGAL, which ranks before LENGTH (06 R126). -/
def Strand.loopFails (t : Strand) (b : Decoded) : Bool :=
  b.syllables.any fun x => match x.2 with | .loop _ i => t.loopIllegal i (b.following - b.addr) | _ => false

/-- A trap found as a bundle is presented; in a region its rollback counts the bundle as issued (06 R124; DEDUCED, log 96). -/
def State.trapAtIssue (s : State) (t : StrandId) (cause mask : BitVec 8) : State :=
  (if (s.strand t).region.isSome then s.issueOnce t else s).takeTrap t cause mask 0 0

/-- A decoded bundle is presented to issue: framing, encodings, limits and conflicts, region length, then what holds it. A `ckpt` bundle
that fails one of these opens no region, so its trap rolls nothing back (DESIGN CHOICE, log 60). BUNDLE comes before the ILLEGAL of a loop
(R81, R83), which its syllable finds (DESIGN CHOICE, log 80). -/
def State.startBundle (s : State) (b : Decoded) : Opened :=
  let t := s.turn
  let st := s.strand t
  let xs := b.positions
  let is := b.syllables
  let kats := (xs.filter fun x => decide (x.1 + 1 < xs.length) && majorOf x.2 == 0x66).map (·.1)
  if !stopBit (b.words.getLastD 0) then .done (s.trapAtIssue t 2 0xFF)
  else if !kats.isEmpty then .done (s.trapAtIssue t 2 (maskOf kats))
  else if xs.any fun x => !s.encodingOk t x.2 then .run s (s.beginIssue b is) is
  else
    let mask := classMask xs ||| portMask is ||| conflictMask is
    let (admitted, s1) := s.chargeIssue t
    if mask ≠ 0 then .done (s.trapAtIssue t 2 mask)
    else if st.lengthOut && !st.loopFails b then
      if admitted then .done ((s.issueOnce t).rollback t 6 b.addr) else .blocked (s1.holdAtIssue t .budget)
    else if st.stallsOn b then .blocked s
    else if b.heldByOrder && st.pend.any (fun p => p.acq) then .blocked (s.holdAtIssue t .acquire)
    else if b.heldByOrder && !s.fencesAllow t true true then .blocked (s.holdAtIssue t .fence)
    else if !admitted then .blocked (s1.holdAtIssue t .budget)
    else .run s (s.beginIssue b is) (st.toRun b)

/-- The strand whose turn it is is presented to issue, or takes the next of its idle steps: a stop that comes during those of a `nop` comes
between two of them (12 R224, 04 R75; DESIGN CHOICE, log 89). -/
def State.openBundle (s : State) : Opened :=
  let t := s.turn
  let st := s.strand t
  let x := s.ctx t.ctxId
  if !s.runs t.ctxId || !s.presents t then .blocked s
  else if 0 < st.idle then .done (s.idleOnce t)
  else if x.brokenSeal.contains t.core.val then
    .done ((s.setCtx t.ctxId { x with brokenSeal := nsErase x.brokenSeal t.core.val }).trapOpen t 13 0 0)
  else if s.ainitWaits t || st.confirming then .blocked s
  else
    match s.nextBundle t with
    | .fault (cause, sub, faddr) => .done (s.trapOpen t cause sub faddr)
    | .wait => .blocked s
    | .got b s0 => s0.startBundle b

/-! ## The cause that takes effect (05 R96, 06 R126) -/

/-- The fault found at the lowest position. -/
def lowest (fs : List FaultAt) : Option FaultAt :=
  fs.foldl (fun acc f => match acc with | none => some f | some g => if f.pos < g.pos then some f else some g) none

/-- Outside a region NONUNIFORM arises only in a bundle that no other address fault stops (12 R222). -/
def Issue.orderedFaults (b : Issue) (region : Bool) : Issue :=
  if region || b.faults.all fun f => f.cause == 3 then b else { b with faults := b.faults.filter fun f => f.cause != 3 }

/-- The state before a bundle with the region open that its own `ckpt` opened (06 R110). -/
def State.withRegionOf (before after_ : State) (t : StrandId) : State :=
  let st := before.strand t
  match st.region, (after_.strand t).region with
  | none, some r => before.setStrand t { st with region := some r }
  | _, _ => before

/-- A trap of the bundle that was issuing: after the rollback when a region is open (06 R127, 12 R219). -/
def State.bundleTrap (s : State) (t : StrandId) (b : Issue) (cause mask : BitVec 8) (sub : BitVec 4) (faddr : W64) : State :=
  let st := s.strand t
  match st.region with
  | none => s.trapRecord t cause mask sub faddr b.addr (st.step + 1) 0 b.addr
  | some r => (s.rollback t 7 b.addr).trapRecord t cause mask sub faddr b.addr (st.step + 1) b.regionWas r.bundle

/-- The rollback cause that comes first, if any: EXCLUDED, ABORT, ASSUME, ALIAS, OVERFLOW (06 R126). -/
def rollbackCause (t : Strand) (b : Issue) : Option Nat :=
  let asked := b.rollbacks.map (·.2)
  match t.region with
  | none => none
  | some r =>
    if asked.contains 4 then some 4
    else if asked.contains 3 then some 3
    else if asked.contains 2 then some 2
    else if b.stores.any (guarded r.guards) then some 1
    else if asked.contains 5 ∨ 128 < r.held.length + b.stores.length then some 5
    else none

/-- Entries that the results in flight and those of a bundle's `sets` and `loop` claim, of replay registers and of pending matrix
results (03 R57, R62, 12 R227). -/
def overfull (xs : List Exposed) (b : Issue) : Bool :=
  decide (64 < xs.length + b.sets.length + b.loop_.toList.length) ||
    decide (8 < (xs.filter fun x => x.tgt.inMatrix).length)

/-! ## The commit -/

/-- The registers and the control part of a strand whose bundle commits (03 R54, 04 R84, 06 R114). -/
def Strand.committed (t : Strand) (b : Issue) : Strand :=
  let t1 : Strand := b.sets.foldl (fun t x => t.applySet x.1 x.2)
    { t with lfsr := b.lfsr, hintdrop := BitVec.ofNat 32 (min 0xFFFFFFFF (t.hintdrop.toNat + b.drops)) }
  let t2 : Strand := { t1 with
    region := t1.region.map fun (r : Region) => { r with guards := r.guards ++ b.guards, held := r.held ++ b.stores.map StoreAt.held }
    fences := t1.fences ++ b.fence.toList
    idle := b.idle, hold := none, waited := false, joinGo := false, confirmed := none
    lastFault := none, repeats := 0, reissue := 0 }
  t2.advance b

/-- Fences whose conditions all hold order nothing any more. -/
def State.dropFences (s : State) (t : StrandId) : State :=
  let st := s.strand t
  if st.fences.isEmpty then s else s.setStrand t { st with fences := st.fences.filter fun f => !s.fenceDone t f }

/-- The stores of a committed bundle: held in a region, withheld by lockstep until the bundle is confirmed, else issued; `commit`
issues the held entries, its bundle's own with them, and closes the region (02 R32, 06 R121, 22 R363). -/
def State.commitStores (s : State) (t : StrandId) (b : Issue) (withhold : Bool) : State :=
  let st := s.strand t
  if b.commits then (s.setStrand t { st with region := none, mismatched := none }).issueStores t (st.heldStores.flatMap Held.stores)
  else if st.region.isSome ∨ withhold then s
  else s.issueStores t b.stores

/-- A strand's `exit` has committed: results that have not landed are discarded, and it is held until it ends (04 R88). -/
def State.endStrand (s : State) (t : StrandId) : State :=
  (s.setStrand t { s.strand t with exiting := true, inflight := [], queue := [], idle := 0 }).endIfDone t

/-- What follows a commit: BREAK, the end of the strand, the offer to the picker. -/
def State.afterCommit (s : State) (t : StrandId) (b : Issue) : State :=
  match b.transfer with
  | .break_ c =>
    let st := s.strand t
    s.trapRecord t 12 0 0 (zx c) b.addr st.step 0 st.pc
  | .exit => s.endStrand t
  | .yield => s.setCtx t.ctxId { s.ctx t.ctxId with yielded := true }
  | _ => s

/-- A bundle commits: it counts as issued, its effects take place together, the TLBs hold what it translated (12 R232), results due at its step
land at the end of it, the strand leaves it behind (00 R14, 03 R57, 07 R137). -/
def State.commitBundle (s : State) (t : StrandId) (b : Issue) (withhold : Bool) : State :=
  let k := s.bindOf t.ctxId
  let s0 := b.touched.foldl (fun s va => s.fillTlb t.clusterId k.asid k.gen va.toNat) (s.issueOnce t)
  let s1 := s0.setStrand t ((s0.strand t).committed b)
  let s2 := (s1.commitStores t b withhold).dropFences t
  (((s2.landDue t).leaveQueue t).checkJoins t.ctxId).afterCommit t b

/-! ## Lockstep at the commit (22 R363) -/

/-- Whether a syllable acts only once its bundle is confirmed (R363): the classes Y and E. What it brings is in no signature, for it is to be
confirmed before it acts (DEDUCED, log 88). -/
def actsLater (w : W32) : Bool := classOf w == .Y || classOf w == .E

/-- Whether a bundle waits to be confirmed before it commits: it acts on others, on the engines or on the matrix unit, or ends or
stops the strand (R363; DEDUCED, log 88). -/
def Decoded.confirmFirst (d : Decoded) (b : Issue) : Bool :=
  b.commits || (d.words.any fun w => actsLater w || classOf w == .X || classOf w == .Z || majorOf w == 0x5E)

/-- The operands of the engine, synchronisation and allowance syllables of a bundle. -/
def State.operandsOf (s : State) (t : StrandId) (d : Decoded) : List W64 :=
  (d.positions.filter fun x => actsLater x.2).flatMap fun x =>
    (Instr.sources (instrOf x.2)).filterMap fun r =>
      match r with | .g n => some ((s.strand t).rg (BitVec.ofNat 6 n)) | _ => none

/-- The address and the data of the store that a syllable makes, of its active lanes or of the rows of its accumulator, from the registers. -/
def Strand.storeSigned (t : Strand) (o : Core) (i : Instr) : List Byte :=
  let scalar := fun (d a : Reg) (j : BitVec 9) (n : Nat) => leBytes 8 (ea (t.rg a) j n).toNat ++ leBytes n (t.rg d).toNat
  let lanes := fun (d : Reg) (xs : List (Nat × W64)) => xs.flatMap fun x => leBytes 8 x.2.toNat ++ leBytes 4 (lane (t.rv d) x.1).toNat
  match i with
  | .stb d a j => scalar d a j 1
  | .sth d a j => scalar d a j 2
  | .stw d a j => scalar d a j 4
  | .std d a j => scalar d a j 8
  | .vst d a j q => lanes d (activeLanes (t.rk q.toNat) fun n => ea (t.rg a) j 32 + BitVec.ofNat 64 (4 * n))
  | .vsts d a b q => lanes d (activeLanes (t.rk q.toNat) (laneAddr (t.rg a) (t.rv b)))
  | .mst a f c => leBytes 8 (t.rg a).toNat ++ (o.acc[c.toNat]!).toList.flatMap (storeRow t.fmt f.toNat)
  | _ => []

/-- The register that a name of a written register names as a target. -/
def RegName.target (r : RegName) : Option Tgt :=
  match r with
  | .g n => some (Tgt.g (BitVec.ofNat 6 n))
  | .v n => some (Tgt.v (BitVec.ofNat 6 n))
  | .k n => some (Tgt.k (BitVec.ofNat 6 n))
  | .s n => if n = 15 then some Tgt.fmt else none

/-- The values that a syllable of a bundle writes, for its signature (R363): its exposed results, the interlocked ones that are still to
come, what its `sets` and `loop` put at the commit, and what it puts in the matrix unit. -/
def signed (i : Instr) (results : List Exposed) (pend : List Pend) (b : Issue) : List SigPart :=
  ((writesOf i).flatMap fun r =>
    ((results.filter fun x => some x.tgt == r.target).map fun x => SigPart.known x.dat.bytes) ++
      ((pend.filter fun x => some x.tgt == r.target).map fun x => SigPart.awaited x.seq) ++
      match r with | .s n => (b.sets.filter fun x => x.1 == n).map fun x => SigPart.known (leBytes 8 x.2.toNat) | _ => []) ++
  match i with
  | .loop _ _ => b.loop_.toList.map fun x => SigPart.known (leBytes 8 x.2.1.toNat)
  | .mlatch _ _ => (results.filter fun x => x.tgt.inMatrix).map fun x => SigPart.known x.dat.bytes
  | .mgather _ _ _ _ => (results.filter fun x => x.tgt.inMatrix).map fun x => SigPart.known x.dat.bytes
  | .mma _ _ _ _ => (results.filter fun x => x.tgt.inMatrix).map fun x => SigPart.known x.dat.bytes
  | .mmas _ _ _ _ => (results.filter fun x => x.tgt.inMatrix).map fun x => SigPart.known x.dat.bytes
  | _ => []

/-- Whether a result is one of a syllable that acts only once its bundle is confirmed. -/
def Decoded.later (d : Decoded) (x : Exposed) : Bool :=
  d.positions.any fun y => actsLater y.2 && (writesOf (instrOf y.2)).any fun r => r.target == some x.tgt

/-- What a copy's signature of a bundle covers (R363), from its registers before the bundle, the results and what is still awaited. -/
def State.sigOf (s : State) (t : StrandId) (d : Decoded) (results : List Exposed) (pend : List Pend) (b : Issue) : List SigPart × List Byte :=
  ((d.positions.filter fun x => !actsLater x.2).flatMap fun x => signed (instrOf x.2) results pend b,
    (d.syllables.flatMap fun x => (s.strand t).storeSigned (s.core t.coreId) x.2) ++ (s.operandsOf t d).flatMap fun w => leBytes 8 w.toNat)

/-- The interlocked operations that a bundle has begun: of one that waits before it commits, the loads, which are performed ahead (R363). -/
def State.begun (before after_ : State) (t : StrandId) (waits : Bool) : List Pend :=
  (after_.strand t).pend.filter fun p =>
    decide (before.seq ≤ p.seq) && (!waits || match p.op with | .load _ _ => true | _ => false)

/-- The record of a bundle that waits to be confirmed, from the state before it. -/
def State.unconfirmedOf (before after_ : State) (t : StrandId) (d : Decoded) (b : Issue) (waits : Bool) : Unconfirmed :=
  let st := before.strand t
  let results := ((after_.strand t).inflight.drop st.inflight.length).filter fun x => !d.later x
  let sig := before.sigOf t d results (before.begun after_ t waits) b
  { step := st.step + 1, addr := b.addr, before := st.snapshot, fmt := st.fmt, fmtPoison := st.fmtPoison, hintdrop := st.hintdrop
    barovr := st.barovr, inflight := st.inflight, parts := sig.1, rest := sig.2
    stores := if (after_.strand t).region.isSome ∨ waits then [] else b.stores.map StoreAt.held
    waits := waits, bundle := d, results := results, brought := [], kept := b.stores.map StoreAt.held }

/-- The state in which a confirmed bundle commits: its values are those that its signature covered, read ahead and landed now; those of
the syllables that act now are new, and go to the trailing copy too (R362, R363). -/
def State.withConfirmed (before after_ : State) (t : StrandId) (u : Unconfirmed) : State :=
  let st := before.strand t
  let x := after_.strand t
  let new := (x.inflight.drop st.inflight.length).filter u.bundle.later
  let s1 := (after_.setStrand t { x with inflight := st.inflight ++ u.results ++ new }).landAll t u.brought
  let m := s1.mateStrand t
  s1.setStrand m { s1.strand m with confirmed := (s1.strand m).confirmed.map fun (v : Unconfirmed) => { v with results := v.results ++ new } }

/-- The commit of a bundle, under lockstep through its confirmation. -/
def State.finishBundle (before after_ : State) (t : StrandId) (b : Issue) : State :=
  if !(before.bindOf t.ctxId).lock then after_.commitBundle t b false
  else
    let st := before.strand t
    let d := (st.queue.head?).getD ⟨b.addr, [], []⟩
    if d.confirmFirst b then
      match st.confirmedNow b.addr with
      | some u => (before.withConfirmed after_ t u).commitBundle t b false
      | none =>
        let s1 := ({ before with seq := after_.seq, tick := after_.tick } : State).setStrand t { st with
          pend := st.pend ++ before.begun after_ t true
          unconfirmed := st.unconfirmed ++ [before.unconfirmedOf after_ t d b true] }
        s1.holdAtIssue t .lockstep
    else
      let s1 := after_.commitBundle t b true
      let x := s1.strand t
      s1.setStrand t { x with unconfirmed := x.unconfirmed ++ [before.unconfirmedOf after_ t d b false] }

/-- The deferrals of the meters of the dies as they stand after a bundle's syllables (18 R314). -/
def State.withDeferrals (s after_ : State) : State :=
  allDies.foldl (fun s d =>
    if (after_.die d).deferred = (s.die d).deferred then s
    else s.setDie d { s.die d with deferred := (after_.die d).deferred, overs := (after_.die d).overs }) s

/-- The end of a bundle's issue, from the state before it and the state its syllables left: one cause takes effect (R96, R126),
something holds it, it takes an idle step for want of replay entries (R62), waits in a join, or it commits. One that commits, rolls back or is
cancelled behind its issue has been issued (18 R312, R314); one that a fault stops outside a region has not. The result of a
syllable that faults asks for no entry (DESIGN CHOICE, log 79). -/
def State.closeBundle (before after_ : State) : State :=
  let t := before.turn
  let st0 := before.strand t
  let b := after_.iss.orderedFaults st0.region.isSome
  let s := before.withRegionOf after_ t
  let x := after_.strand t
  let s1 := s.issueOnce t
  let stopped := if st0.region.isSome then s1 else s
  let illegal := b.faults.filter fun f => f.cause == 1
  if b.illegal ≠ 0 then before.trapAtIssue t 1 b.illegal
  else if overfull x.inflight b then (before.setStrand t { st0 with idle := 1 }).idleOnce t
  else if !illegal.isEmpty then stopped.bundleTrap t b 1 (maskOf (illegal.map (·.pos))) 0 0
  else
    match lowest b.faults with
    | some f => stopped.bundleTrap t b f.cause (maskOf (b.faults.map (·.pos))) f.sub f.faddr
    | none =>
      match b.hold with
      | some h => (before.withDeferrals after_).holdAtIssue t h
      | none =>
        if b.bad || (b.commits && st0.heldStores.any (fun h => h.bad)) then (before.issueOnce t).detect t 4 0
        else
          match b.poisoned with
          | p :: r =>
            let f := lowest ((p :: r).map fun x => ⟨x.1, 7, 0, x.2⟩)
            s1.bundleTrap t b 7 (maskOf ((p :: r).map (·.1))) 0 (match f with | some f => f.faddr | none => 0)
          | [] =>
            match rollbackCause x b with
            | some cause => s1.rollback t cause b.addr
            | none =>
              match b.katfail with
              | some (pos, faddr) => s1.bundleTrap t b 8 (1#8 <<< pos) 0 faddr
              | none =>
                match b.transfer with
                | .join all =>
                  if st0.joinGo then before.finishBundle after_ t b else before.arriveJoin t b.addr all
                | _ => before.finishBundle after_ t b

end Sys2Proof.Machine
end

