-- ==== Sys2Proof/Machine/Lockstep.lean ====
section
/-! DEFINITION. The trailing copy of a lockstep pair (22 R362 to R364): it issues each bundle of the leading copy again on its own registers,
matrix unit and stores, takes over what the leading copy read, and forms a signature of its own. -/

namespace Sys2Proof.Machine

/-- Whether the trailing copy carries a syllable out itself: what computes on registers or on the matrix unit. What reads memory, a tag, an engine,
the device or a special register is performed once, by the leading copy, which delivers the value to both (R362). -/
def ownWord (w : W32) : Bool :=
  match classOf w with
  | .S => (match instrOf w with | .gets _ _ => false | _ => true)
  | .V => true
  | .C => true
  | .K => true
  | .X => (match instrOf w with | .mma _ _ _ _ => true | .mmas _ _ _ _ => true | _ => false)
  | _ => false

/-- The syllables of a bundle that the trailing copy carries out, in their order. -/
def Decoded.ownOrder (b : Decoded) : List (Nat × Instr) :=
  b.order.filter fun x => b.positions.any fun y => y.1 == x.1 && ownWord y.2

/-- Whether the leading copy has committed a confirmed bundle; a trap or a rollback gives it up. -/
def Strand.carriedOut (t : Strand) (v : Unconfirmed) : Bool :=
  !stepBefore t.step v.step && t.unconfirmed.all fun u => u.step != v.step

/-- The trailing strand whose turn it is comes to issue: its step counter comes to the bundle's. -/
def State.openCopy (s : State) : Opened :=
  let t := s.turn
  if !s.copyReady t then .blocked s
  else
    match s.copyTask t with
    | none => .blocked s
    | some (u, commits) =>
      if commits && !(s.strand (s.mateStrand t)).carriedOut u then .done (s.setStrand t { s.strand t with confirmed := none })
      else
        let s1 := s.alignTo t (u.step - 1) (s.strand t).inflight.length
        .run s1 (s1.beginIssue u.bundle u.bundle.syllables) u.bundle.ownOrder

/-- The poisoned rows that an `mst` of a bundle reads in a copy's own accumulator (11 R199, 12 R222). -/
def State.poisonedStores (s : State) (t : StrandId) (d : Decoded) : List (Nat × W64) :=
  d.syllables.filterMap fun x =>
    match x.2 with
    | .mst _ _ c => if ((s.core t.coreId).accPoison[c.toNat]!).isEmpty then none else some (x.1, BitVec.ofNat 64 (3 * 64 + 6 + c.toNat))
    | _ => none

/-- The results of a bundle in the trailing copy: its own, and the leading copy's of the syllables that it does not carry out. -/
def Unconfirmed.shared (u : Unconfirmed) (own : List Exposed) : List Exposed :=
  own ++ u.results.filter fun x => own.all fun y => y.tgt != x.tgt

/-- The trailing copy's record of a bundle. -/
def State.copyOf (before : State) (t : StrandId) (u : Unconfirmed) (own : List Exposed) (b : Issue) : Unconfirmed :=
  let st := before.strand t
  let results := u.shared own
  let sig := before.sigOf t u.bundle (results ++ u.brought) [] b
  { step := u.step, addr := u.addr, before := st.snapshot, fmt := st.fmt, fmtPoison := st.fmtPoison, hintdrop := st.hintdrop
    barovr := st.barovr, inflight := st.inflight, parts := sig.1, rest := sig.2, stores := [], waits := u.waits, bundle := u.bundle
    results := results, brought := u.brought, kept := u.kept }

/-- The trailing copy commits a bundle: registers and control part, the entries of its gated store buffer, the values brought. -/
def State.commitCopy (before after_ : State) (t : StrandId) (u : Unconfirmed) (results : List Exposed) : State :=
  let b := after_.iss
  let s1 := after_.setStrand t { after_.strand t with inflight := (before.strand t).inflight ++ results }
  let st := (s1.strand t).committed b
  let region := if b.commits then none else st.region.map fun (r : Region) => { r with held := r.held ++ u.kept }
  ((s1.setStrand t { st with region := region, idle := 0 }).landDue t).landAll t u.brought

/-- The end of a bundle's issue in the trailing copy, from the state before it and the state that its syllables left. It finds no fault and no
rollback of its own: the leading copy has issued the bundle with the same values. -/
def State.closeCopy (before after_ : State) : State :=
  let t := before.turn
  let b := after_.iss
  let st := before.strand t
  match b.hold, before.copyTask t with
  | none, some (u, true) => before.commitCopy after_ t u u.results
  | none, some (u, false) =>
    let own := (after_.strand t).inflight.drop st.inflight.length
    if b.commits && st.heldStores.any (fun h => h.bad) then before.detectCopy t u 4
    else
      match b.poisoned ++ before.poisonedStores t u.bundle with
      | p :: r =>
        let f := lowest ((p :: r).map fun x => ⟨x.1, 7, 0, x.2⟩)
        before.copyTrap t u 7 (maskOf ((p :: r).map (·.1))) (match f with | some f => f.faddr | none => 0)
      | [] =>
        let v := before.copyOf t u own b
        let s1 := if u.waits then before else before.commitCopy after_ t u (u.shared own)
        s1.setStrand t { s1.strand t with unconfirmed := [v] }
  | _, _ => before

/-- The strand whose turn it is comes to issue, in either copy of a lockstep pair, unless an event comes before it. -/
def State.openTurn (s : State) : Opened :=
  if s.pass then .blocked s else if s.trails s.turn.ctxId then s.openCopy else s.openBundle

/-- The end of the issue of the bundle whose turn it is. -/
def State.closeTurn (before after_ : State) : State :=
  if before.trails before.turn.ctxId then before.closeCopy after_ else before.closeBundle after_

end Sys2Proof.Machine
end

