-- ==== Sys2Proof/Machine/Vector.lean ====
section
/-! DEFINITION. The V class: lane-wise integer and FP32 arithmetic, compares, functions, conversions, reductions, permutes and
predicates (10 R176 to R193), with the stochastic generator (09 R167). -/

namespace Sys2Proof.Machine

/-! ## Predicated lanes (R176) -/

/-- A vector whose active lanes are given and whose inactive lanes are 0. -/
def maskLanes (q : W64) (f : Nat → W32) : VReg := ofLanes fun i => if q.getLsbD i then f i else 0

/-- A vector of 16-bit elements: bit ⌊j/2⌋ governs element j. -/
def maskElems (q : W64) (f : Nat → BitVec 16) : VReg := ofElems fun j => if q.getLsbD (j / 2) then f j else 0

/-- The governing predicate of a syllable. -/
def State.pred (s : State) (q : PReg) : W64 := s.cur.rk q.toNat

/-- A lane-wise integer result of two vectors (R180). -/
def State.lanes2 (s : State) (d a b : Reg) (q : PReg) (f : W32 → W32 → W32) : State :=
  s.resultV d (maskLanes (s.pred q) fun i => f (lane (s.cur.rv a) i) (lane (s.cur.rv b) i)) 2

/-- An element-wise 16-bit result (R180). -/
def State.elems2 (s : State) (d a b : Reg) (q : PReg) (f : BitVec 16 → BitVec 16 → BitVec 16) : State :=
  s.resultV d (maskElems (s.pred q) fun j => f (elem16 (s.cur.rv a) j) (elem16 (s.cur.rv b) j)) 2

/-- An integer compare into a predicate (R181). -/
def State.cmpI (s : State) (d a b : Reg) (q : PReg) (f : W32 → W32 → Bool) : State :=
  s.resultK d (laneTest (s.pred q) (s.cur.rv a) (s.cur.rv b) f) 2

/-- An integer clamped to 16 bits signed. -/
def clamp16 (x : Int) : BitVec 16 := BitVec.ofInt 16 (max (-32768) (min 32767 x))

def execVaddI32 (d a b : Reg) (q : PReg) (s : State) : Out := .next (s.lanes2 d a b q (· + ·))
def execVsubI32 (d a b : Reg) (q : PReg) (s : State) : Out := .next (s.lanes2 d a b q (· - ·))
def execVmulI32 (d a b : Reg) (q : PReg) (s : State) : Out := .next (s.lanes2 d a b q (· * ·))
def execVmulhI32 (d a b : Reg) (q : PReg) (s : State) : Out :=
  .next (s.lanes2 d a b q fun x y => BitVec.ofInt 32 (Int.fdiv (x.toInt * y.toInt) (2 ^ 32)))
def execVmulhN32 (d a b : Reg) (q : PReg) (s : State) : Out :=
  .next (s.lanes2 d a b q fun x y => BitVec.ofNat 32 (x.toNat * y.toNat / 2 ^ 32))
def execVand (d a b : Reg) (q : PReg) (s : State) : Out := .next (s.lanes2 d a b q (· &&& ·))
def execVor (d a b : Reg) (q : PReg) (s : State) : Out := .next (s.lanes2 d a b q (· ||| ·))
def execVxor (d a b : Reg) (q : PReg) (s : State) : Out := .next (s.lanes2 d a b q (· ^^^ ·))
def execVshlI32 (d a b : Reg) (q : PReg) (s : State) : Out := .next (s.lanes2 d a b q fun x y => x <<< (y.toNat % 32))
def execVshrI32 (d a b : Reg) (q : PReg) (s : State) : Out := .next (s.lanes2 d a b q fun x y => x >>> (y.toNat % 32))
def execVsraI32 (d a b : Reg) (q : PReg) (s : State) : Out := .next (s.lanes2 d a b q fun x y => x.sshiftRight (y.toNat % 32))
def execVminI32 (d a b : Reg) (q : PReg) (s : State) : Out := .next (s.lanes2 d a b q fun x y => if y.slt x then y else x)
def execVmaxI32 (d a b : Reg) (q : PReg) (s : State) : Out := .next (s.lanes2 d a b q fun x y => if x.slt y then y else x)
def execVminN32 (d a b : Reg) (q : PReg) (s : State) : Out := .next (s.lanes2 d a b q fun x y => if y.ult x then y else x)
def execVmaxN32 (d a b : Reg) (q : PReg) (s : State) : Out := .next (s.lanes2 d a b q fun x y => if x.ult y then y else x)
def execVaddI16 (d a b : Reg) (q : PReg) (s : State) : Out := .next (s.elems2 d a b q (· + ·))
def execVsubI16 (d a b : Reg) (q : PReg) (s : State) : Out := .next (s.elems2 d a b q (· - ·))
def execVaddsI16 (d a b : Reg) (q : PReg) (s : State) : Out := .next (s.elems2 d a b q fun x y => clamp16 (x.toInt + y.toInt))
def execVsubsI16 (d a b : Reg) (q : PReg) (s : State) : Out := .next (s.elems2 d a b q fun x y => clamp16 (x.toInt - y.toInt))
def execVcmpEqI32 (d a b : Reg) (q : PReg) (s : State) : Out := .next (s.cmpI d a b q (· == ·))
def execVcmpLtI32 (d a b : Reg) (q : PReg) (s : State) : Out := .next (s.cmpI d a b q fun x y => x.slt y)
def execVcmpLeI32 (d a b : Reg) (q : PReg) (s : State) : Out := .next (s.cmpI d a b q fun x y => x.sle y)
def execVcmpLtN32 (d a b : Reg) (q : PReg) (s : State) : Out := .next (s.cmpI d a b q fun x y => x.ult y)
def execVcmpLeN32 (d a b : Reg) (q : PReg) (s : State) : Out := .next (s.cmpI d a b q fun x y => x.ule y)

/-! ## FP32 (R178, R182 to R186) -/

/-- MODE of the strand. -/
def Strand.mode (t : Strand) : Nat := (t.rmode.extractLsb' 0 3).toNat
/-- SAT of the strand. -/
def Strand.sat (t : Strand) : Bool := t.rmode.getLsbD 3

/-- The rounding of element i of an instruction that takes n steps of the generator (09 R167). -/
def State.rnds (s : State) (n : Nat) : Nat → Rnd :=
  let xs := if s.cur.mode = 4 then lfsrStates s.iss.lfsr n else []
  fun i => ⟨s.cur.mode, ((xs.getD i 0).toNat)⟩

/-- The generator after n steps, taken only in mode 4 (09 R167). -/
def State.draw (s : State) (n : Nat) : State :=
  if s.cur.mode = 4 then s.setIss { s.iss with lfsr := (lfsrStates s.iss.lfsr n).getLastD s.iss.lfsr } else s

/-- A lane-wise FP result: lane i is rounded with step i of the generator. -/
def State.fp (s : State) (d : Reg) (q : PReg) (lat : Nat) (f : Rnd → Nat → W32) : State :=
  let rs := s.rnds 64
  (s.resultV d (maskLanes (s.pred q) fun i => f (rs i) i) lat).draw 64

/-- A lane-wise FP result of two vectors, the exact value rounded once. -/
def State.fp2 (s : State) (d a b : Reg) (q : PReg) (f : Nat → Fp → Fp → Fp) : State :=
  s.fp d q 4 fun rd i => toF32 rd (f rd.mode (f32 (lane (s.cur.rv a) i)) (f32 (lane (s.cur.rv b) i)))

def execVaddF32 (d a b : Reg) (q : PReg) (s : State) : Out := .next (s.fp2 d a b q fun m x y => x.add y m)
def execVsubF32 (d a b : Reg) (q : PReg) (s : State) : Out := .next (s.fp2 d a b q fun m x y => x.add y.neg m)
def execVmulF32 (d a b : Reg) (q : PReg) (s : State) : Out := .next (s.fp2 d a b q fun _ x y => x.mul y)
def execVminF32 (d a b : Reg) (q : PReg) (s : State) : Out := .next (s.fp2 d a b q fun _ x y => x.min y)
def execVmaxF32 (d a b : Reg) (q : PReg) (s : State) : Out := .next (s.fp2 d a b q fun _ x y => x.max y)
/-- vfma.f32 reads the old lane of vd and rounds once (R182). -/
def execVfmaF32 (d a b : Reg) (q : PReg) (s : State) : Out :=
  .next (s.fp d q 4 fun rd i =>
    toF32 rd (((f32 (lane (s.cur.rv a) i)).mul (f32 (lane (s.cur.rv b) i))).add (f32 (lane (s.cur.rv d) i)) rd.mode))
/-- vfms.f32: d − a × b (R182). -/
def execVfmsF32 (d a b : Reg) (q : PReg) (s : State) : Out :=
  .next (s.fp d q 4 fun rd i =>
    toF32 rd ((f32 (lane (s.cur.rv d) i)).add ((f32 (lane (s.cur.rv a) i)).mul (f32 (lane (s.cur.rv b) i))).neg rd.mode))

/-- An FP compare into a predicate: values, not codes (R184). -/
def State.cmpF (s : State) (d a b : Reg) (q : PReg) (f : Fp → Fp → Bool) : State :=
  s.resultK d (laneTest (s.pred q) (s.cur.rv a) (s.cur.rv b) fun x y => f (f32 x) (f32 y)) 4

def execVcmpEqF32 (d a b : Reg) (q : PReg) (s : State) : Out := .next (s.cmpF d a b q Fp.eq)
def execVcmpLtF32 (d a b : Reg) (q : PReg) (s : State) : Out := .next (s.cmpF d a b q Fp.lt)
def execVcmpLeF32 (d a b : Reg) (q : PReg) (s : State) : Out := .next (s.cmpF d a b q fun x y => x.lt y || x.eq y)

/-- A lane-wise function of one vector, latency 8 (R185). -/
def State.fun1 (s : State) (d a : Reg) (q : PReg) (f : Rnd → Fp → W32) : State :=
  s.fp d q 8 fun rd i => f rd (f32 (lane (s.cur.rv a) i))

def execVrcpF32 (d a : Reg) (q : PReg) (s : State) : Out := .next (s.fun1 d a q rcpF32)
def execVrsqF32 (d a : Reg) (q : PReg) (s : State) : Out := .next (s.fun1 d a q rsqF32)
def execVexp2F32 (d a : Reg) (q : PReg) (s : State) : Out := .next (s.fun1 d a q exp2F32)
def execVlog2F32 (d a : Reg) (q : PReg) (s : State) : Out := .next (s.fun1 d a q log2F32)
def execVsqrtF32 (d a : Reg) (q : PReg) (s : State) : Out := .next (s.fun1 d a q sqrtF32)

/-! ## Conversions (R187 to R189) -/

/-- A vector from 64 narrow elements of w bits each, bits beyond them 0 (R187). -/
def packNarrow (w : Nat) (f : Nat → Nat) : VReg :=
  BitVec.ofNat 2048 ((List.range 64).foldr (fun i acc => f i % 2 ^ w + 2 ^ w * acc) 0)

/-- Narrow element j of w bits (R187). -/
def narrowElem (w : Nat) (x : VReg) (j : Nat) : Nat := (x.extractLsb' (w * j) w).toNat

/-- A narrowing conversion: predicate bit j governs element j (R188). -/
def State.narrow (s : State) (d a : Reg) (q : PReg) (w : Nat) (f : Rnd → Fp → Nat) : State :=
  let rs := s.rnds 64
  (s.resultV d (packNarrow w fun j => if (s.pred q).getLsbD j then f (rs j) (f32 (lane (s.cur.rv a) j)) else 0) 4).draw 64

/-- A widening conversion to FP32: bit j governs lane j; it does not round (R188). -/
def State.widen (s : State) (d a : Reg) (q : PReg) (f : VReg → Nat → Fp) : State :=
  s.resultV d (maskLanes (s.pred q) fun j => toF32 rne (f (s.cur.rv a) j)) 4

def execVcvtBf16F32 (d a : Reg) (q : PReg) (s : State) : Out := .next (s.narrow d a q 16 fun rd v => bf16.encode rd false v)
def execVcvtF32Bf16 (d a : Reg) (q : PReg) (s : State) : Out := .next (s.widen d a q fun x j => bf16.decode (narrowElem 16 x j))
def execVcvtF16F32 (d a : Reg) (q : PReg) (s : State) : Out := .next (s.narrow d a q 16 fun rd v => fp16.encode rd false v)
def execVcvtF32F16 (d a : Reg) (q : PReg) (s : State) : Out := .next (s.widen d a q fun x j => fp16.decode (narrowElem 16 x j))
def execVcvtE4m3F32 (d a : Reg) (q : PReg) (s : State) : Out := .next (s.narrow d a q 8 fun rd v => e4m3.encode rd true v)
def execVcvtE5m2F32 (d a : Reg) (q : PReg) (s : State) : Out := .next (s.narrow d a q 8 fun rd v => e5m2.encode rd s.cur.sat v)
def execVcvtF32E4m3 (d a : Reg) (q : PReg) (s : State) : Out := .next (s.widen d a q fun x j => e4m3.decode (narrowElem 8 x j))
def execVcvtF32E5m2 (d a : Reg) (q : PReg) (s : State) : Out := .next (s.widen d a q fun x j => e5m2.decode (narrowElem 8 x j))

/-- Two blocks of 32 lanes as packed F4X with their headers in lane 8 (R169, R189). -/
def f4xPack (q : W64) (fq : Nat) (x : VReg) : VReg :=
  let v := fun j => if q.getLsbD j then f32 (lane x j) else .fin false 0 0
  let b0 := f4xBlock ((List.range 32).map v) fq
  let b1 := f4xBlock ((List.range 32).map fun j => v (32 + j)) fq
  let codes := b0.1 ++ b1.1
  packNarrow 4 (fun j => if q.getLsbD j then codes.getD j 0 else 0) |||
    BitVec.ofNat 2048 ((b0.2 + 2 ^ 8 * fq + 2 ^ 16 * b1.2 + 2 ^ 24 * fq) * 2 ^ 256)

def execVcvtF4xF32 (d a : Reg) (q : PReg) (s : State) : Out :=
  .next (s.resultV d (f4xPack (s.pred q) (fmtFQ s.cur.fmt) (s.cur.rv a)) 4)

/-- The header of the block of element j in lane 8 (R187). -/
def f4xHeader (x : VReg) (j : Nat) : Nat × Nat :=
  let h := (lane x 8).toNat
  if j < 32 then (h % 256, h / 256 % 256) else (h / 2 ^ 16 % 256, h / 2 ^ 24)

def execVcvtF32F4x (d a : Reg) (q : PReg) (s : State) : Out :=
  .next (s.widen d a q fun x j => decF4x (narrowElem 4 x j) (f4xHeader x j).1 (f4xHeader x j).2)

def execVcvtI32F32 (d a : Reg) (q : PReg) (s : State) : Out :=
  .next (s.fp d q 4 fun rd i => BitVec.ofInt 32 (toIntSat rd (-2147483648) 2147483647 (f32 (lane (s.cur.rv a) i))))
def execVcvtF32I32 (d a : Reg) (q : PReg) (s : State) : Out :=
  .next (s.fp d q 4 fun rd i => toF32 rd (fpOfInt (lane (s.cur.rv a) i).toInt 0))
def execVcvtQF32 (d a : Reg) (q : PReg) (s : State) : Out :=
  .next (s.narrow d a q (narrowBits s.cur.fmt) fun rd v => narrowCode s.cur.fmt rd v)
def execVcvtF32Q (d a : Reg) (q : PReg) (s : State) : Out :=
  .next (s.widen d a q fun x j => fpOfInt (narrowValue s.cur.fmt (narrowElem (narrowBits s.cur.fmt) x j)) 0)

/-! ## Reductions (R190, R191) -/

/-- One level of the tree: t[i] with t[i + h], combination i taking step i. -/
def redLevel (t : List (Option W32)) (h : Nat) (f : Nat → W32 → W32 → W32) : List (Option W32) :=
  (List.range h).map fun i =>
    match (t.getD i none), (t.getD (i + h) none) with
    | none, y => y
    | x, none => x
    | some x, some y => some (f i x y)

/-- The levels of a list in order; `n` counts the combinations made before. -/
def redLevels (t : List (Option W32)) (hs : List Nat) (n : Nat) (f : Nat → W32 → W32 → W32) : Option W32 :=
  match hs with
  | [] => t.getD 0 none
  | h :: r => redLevels (redLevel t h fun i => f (n + i)) r (n + h) f

/-- The tree of R190 over the active lanes. -/
def reduce (q : W64) (x : VReg) (f : Nat → W32 → W32 → W32) : Option W32 :=
  redLevels ((List.range 64).map fun i => if q.getLsbD i then some (lane x i) else none) [32, 16, 8, 4, 2, 1] 0 f

def execVredaddI32 (d a : Reg) (q : PReg) (s : State) : Out :=
  .next (s.resultG d (((reduce (s.pred q) (s.cur.rv a) fun _ x y => x + y).getD 0).signExtend 64) 6)
/-- Whether an active lane holds a NaN. -/
def anyNan (q : W64) (x : VReg) : Bool :=
  (List.range 64).any fun i => q.getLsbD i && (match f32 (lane x i) with | .nan => true | _ => false)

/-- The result of a floating-point reduction: a NaN among the active lanes gives the canonical NaN (R191). -/
def reduceF (q : W64) (x : VReg) (id_ : W32) (f : Nat → W32 → W32 → W32) : W32 :=
  if anyNan q x then 0x7FC00000#32 else (reduce q x f).getD id_

def execVredaddF32 (d a : Reg) (q : PReg) (s : State) : Out :=
  let rs := s.rnds 63
  .next ((s.resultG d
    ((reduceF (s.pred q) (s.cur.rv a) 0 fun i x y => toF32 (rs i) ((f32 x).add (f32 y) s.cur.mode)).setWidth 64) 6).draw 63)
def execVredmaxF32 (d a : Reg) (q : PReg) (s : State) : Out :=
  .next ((s.resultG d
    ((reduceF (s.pred q) (s.cur.rv a) 0xFF800000#32 fun _ x y => toF32 rne ((f32 x).max (f32 y))).setWidth 64) 6).draw 63)
def execVredmaxI32 (d a : Reg) (q : PReg) (s : State) : Out :=
  .next (s.resultG d (((reduce (s.pred q) (s.cur.rv a) fun _ x y => if x.slt y then y else x).getD 0x80000000#32).signExtend 64) 6)

/-! ## Permutes, insertion, selection, constants (R192) -/

def execVperm (d a b : Reg) (q : PReg) (s : State) : Out :=
  .next (s.resultV d (maskLanes (s.pred q) fun i => lane (s.cur.rv a) ((lane (s.cur.rv b) i).toNat % 64)) 3)
def execVrot (d a b : Reg) (q : PReg) (s : State) : Out :=
  .next (s.resultV d (maskLanes (s.pred q) fun i => lane (s.cur.rv a) ((i + (s.cur.rg b).toNat % 64) % 64)) 3)
def execVbcast (d a : Reg) (q : PReg) (s : State) : Out :=
  .next (s.resultV d (maskLanes (s.pred q) fun _ => (s.cur.rg a).setWidth 32) 3)
def execVext (d a b : Reg) (s : State) : Out :=
  .next (s.resultG d ((lane (s.cur.rv a) ((s.cur.rg b).toNat % 64)).setWidth 64) 3)
def execVins (d a b : Reg) (s : State) : Out :=
  .next (s.resultV d (ofLanes fun i =>
    if i = (s.cur.rg b).toNat % 64 then (s.cur.rg a).setWidth 32 else lane (s.cur.rv d) i) 3)
def execVsel (d a b : Reg) (k : PReg) (s : State) : Out :=
  .next (s.resultV d (ofLanes fun i => if (s.pred k).getLsbD i then lane (s.cur.rv a) i else lane (s.cur.rv b) i) 3)
def execVli (d : Reg) (i : BitVec 18) (s : State) : Out :=
  .next (s.resultV d (ofLanes fun _ => i.signExtend 32) 2)

/-! ## Predicates (R193) -/

/-- A predicate result of two predicates. -/
def State.binK (s : State) (d a b : Reg) (f : W64 → W64 → W64) : State :=
  s.resultK d (f (s.cur.rk a.toNat) (s.cur.rk b.toNat)) 1

def execPand (d a b : Reg) (s : State) : Out := .next (s.binK d a b (· &&& ·))
def execPor (d a b : Reg) (s : State) : Out := .next (s.binK d a b (· ||| ·))
def execPxor (d a b : Reg) (s : State) : Out := .next (s.binK d a b (· ^^^ ·))
def execPnot (d a : Reg) (s : State) : Out := .next (s.resultK d (~~~(s.cur.rk a.toNat)) 1)
def execPset (d a : Reg) (s : State) : Out := .next (s.resultK d (s.cur.rg a) 1)
def execPany (d a : Reg) (s : State) : Out := .next (s.resultG d (truth (s.cur.rk a.toNat != 0)) 2)
def execPall (d a : Reg) (s : State) : Out := .next (s.resultG d (truth (allSet (s.cur.rk a.toNat))) 2)
def execPpop (d a : Reg) (s : State) : Out := .next (s.resultG d (popcW (s.cur.rk a.toNat)) 2)

end Sys2Proof.Machine
end

