-- ==== Sys2Proof/Machine/Schedule.lean ====
section
/-! DEFINITION. What happens of itself (log 1, 4, 5): the events of the device that can take place in a state, which of them comes
next, which strand issues next, and the passing of device time. The manual orders agents only by its rules; every choice among
them is a free value. -/

namespace Sys2Proof.Machine

/-- An event: its meaning on a state. -/
abbrev Event := State → Out

/-! ## The events of each agent -/

/-- A tag word that has come to what a bundle waits for wakes it (15 R266). -/
def tagWake (w : TagWord) (want : Bool) (s : State) : Out := if s.tagOf w = want then execTagChangeWake w s else .next s

/-- Events of a strand: results arrive, waits run out, arrivals are counted, range operations end, signatures are compared, the control
core sees a KATFAIL. -/
def strandEvents (k : Nat) (st : Strand) : List Event :=
  let t := strandOfKey k
  (st.pend.map fun p => execInterlockedResultArrives t p.seq) ++
    (if st.hold.isSome then [execTagWaitTimeout t, execWaitHoldTimeout t] else []) ++
    (if st.range.isSome then [execCacheRangeOperationComplete t] else []) ++
    ((List.finRange 8).map fun j => execBarrierArrivalCounted t j) ++
    (match st.hold with | some (.tag w want) => [tagWake w want] | _ => []) ++
    (if st.unconfirmed.isEmpty then [] else [execLockstepConfirm t 0]) ++
    (if st.trap.valid then [execKatfailPolicy t] else [])

/-- Events of a context. -/
def ctxEvents (k : Nat) (x : Context) : List Event :=
  let c := ctxOfKey k
  [execSuspensionComplete c, execContextWake c, execEpAging c, execRegionMachineResume c] ++
    x.joins.map fun j => execJoinBudgetExpiry c j.addr

/-- Events of a core: reservations end, the array finishes, queued operations begin, go on and complete. -/
def coreEvents (k : Nat) (o : Core) : List Event :=
  let c := coreOfKey k
  ((List.range o.reservations.length).map fun n => execBankReservationEnd c n) ++
    (if o.arrayBusy then [execArrayWorkComplete c] else []) ++
    ((List.finRange 8).flatMap fun n =>
      if (o.copyq[n.val]).isEmpty then [] else [execCopyOperationStart c n 64, execCopyOperationComplete c n]) ++
    (if o.msq.isEmpty then [] else [execMsOperationStart c 64, execMsOperationComplete c])

/-- A cluster cache may evict a line; when, the manual leaves open (DESIGN CHOICE, log 13). -/
def evict (l : ClusterId) (line : Nat) (s : State) : Out := if Config.either s.tick line then execLeaseReturn l line s else .next s

/-- Events of a port: an operation whose descriptor is corrupt ends (22 R358). -/
def portEvents (k : Nat) (x : Port) : List Event :=
  let p : Fin 16 := Fin.ofNat 16 k
  (match x.sends with | o :: _ => if o.corrupt then [execLinkSendComplete p 0] else [] | [] => []) ++
    match x.recvs with | o :: _ => if o.corrupt then [execLinkReceiveComplete p 0] else [] | [] => []

/-- Events of a cluster: the picker, its ladle's leases, evictions of its cache. -/
def clusterEvents (k : Nat) (x : Cluster) : List Event :=
  execPickerSwitch (clusterOfKey k) :: ((x.ladle.map fun e => execAllowanceLeaseEnd (clusterOfKey k) e.1) ++
    x.cache.map fun e => evict (clusterOfKey k) e.1)

/-- The arrival of a message between dies. -/
def msgEvent (m : Msg) : Event :=
  match m.kind with
  | .readShared => execReadshared m.dst m.line
  | .readOwn => execReadown m.dst m.line
  | .upgrade => execUpgrade m.dst m.line
  | .fwdShared => execFwdshared m.dst m.line
  | .fwdOwn => execFwdown m.dst m.line
  | .inv => execInv m.dst m.line
  | .backInv => execBackinv m.dst m.line
  | .wbDirty => execWbdirty m.dst m.line
  | .ack => execAck m.dst m.line
  | .data => execData m.dst m.line

/-- The arrival of a message between ladle and tundish. -/
def amsgEvent (m : AMsg) : Event :=
  match m with
  | .request ctr q => execAllowanceRequest (clusterOfKey q.cluster) ctr
  | .grant k ctr _ _ _ _ => execGrant (clusterOfKey k) ctr
  | .recall k ctr _ => execRecall (clusterOfKey k) ctr
  | .answer k ctr _ _ => execRecallAnswer (clusterOfKey k) ctr
  | .zero k ctr _ => execHoldingZeroReport (clusterOfKey k) ctr

/-- Whether a cluster has room for a record with the partition and needs of b at a place. -/
def State.fits (s : State) (c : CtxId) (b : Bind) : Bool :=
  !(s.bindOf c).valid && (s.validOn c.clusterId).all (fun x => !partsOverlap x b) &&
    (!b.matrix || (((s.validOn c.clusterId).all fun x => !x.matrix) && !(s.die c.die).qmask.getLsbD c.cluster.val))

/-- The first place on a cluster for a record, and on its partner under delayed lockstep. -/
def State.placeOn (s : State) (e : DieId) (k : Fin 32) (b : Bind) : Option Placement :=
  if b.lock ∧ k.val % 2 = 1 then none
  else
    (List.finRange 8).findSome? fun x =>
      ((List.range (33 - b.psize.toNat)).find? fun p =>
        let b1 := { b with pbase := BitVec.ofNat 5 p }
        s.fits ⟨e, k, x⟩ b1 && (!b.lock || s.fits (partnerOf ⟨e, k, x⟩) b1)).map fun p => ⟨k, x, BitVec.ofNat 5 p⟩

/-- Places that the control core may choose for a waiting kernel node (R309): clusters in an order the manual leaves open (DESIGN CHOICE, log 5). -/
def State.slotsFor (s : State) (e : DieId) (w : Waiting) : List Placement :=
  match s.graphOf w.launch with
  | none => []
  | some (_, g) =>
    match s.nodeAt e g.asid g.gen g.base w.node with
    | .error _ => []
    | .ok n =>
      match s.kernelAt e g.asid g.gen n.opnd with
      | .error _ => []
      | .ok k =>
        let b := bindFor k n g 0 w.gang 0 0 0 0
        (((List.finRange 32).rotateLeft (Config.choice s.tick)).filterMap fun c => s.placeOn e c b).take k.gang

/-- The chief control core may restore an evicted gang wherever it fits; when and where, the manual leaves open (12 R225, DESIGN CHOICE, log 5). -/
def restore (key : Nat) (images : List Image) (s : State) : Out :=
  let e : DieId := Fin.ofNat 4 (Config.choice s.tick)
  match images with
  | [] => .next s
  | i :: _ =>
    if Config.either s.tick key then
      execRestoration (Fin.ofNat 4 (key / 65536)) (BitVec.ofNat 16 key) e
        ((((List.finRange 32).rotateLeft (Config.choice s.tick)).filterMap fun c => s.placeOn e c i.bind).take images.length) s
    else .next s

/-- Events of a die: answers owed, requests served, reclaims, transactions of its lines, node evaluation, retirement, placement. -/
def dieEvents (s : State) (e : DieId) (d : Die) : List Event :=
  (d.owed.map fun o => execDeferredAck e o.line) ++
    (d.mshr.filterMap fun x => if d.taking x.1 then some (execData e x.1) else none) ++
    (d.tundish.flatMap fun x =>
      (if x.2.queue.isEmpty then [] else [execServe x.1]) ++
        x.2.holders.map fun h => execReclamation (clusterOfKey h.cluster) x.1) ++
    (if d.engine.queue.isEmpty then [] else
      [execKernelNodeEval e, execCondNodeEval e, execSwitchNodeEval e, execLoopNodeEval e, execJoinNodeEval e]) ++
    (if d.txns.isEmpty && d.waiting.isEmpty then [] else [fun s => .next (s.settle e 16)]) ++
    (if d.engine.held.isEmpty && s.graphs.all fun g => g.2.roots.isEmpty then [] else [execHeldRetirementProceeds e]) ++
    d.placing.map fun w => execPlacementRetry e w.gang (s.slotsFor e w)

/-- What the surviving dies still have to do after a declaration (20 R335, R336, 17 R293). -/
def lossEvents (s : State) : List Event :=
  (diesOf s.dielost).flatMap fun e => (allDies.filter fun h => h != e && !(s.die h).failed).flatMap fun h =>
    execSalvage h e :: ((if (s.die h).losthome.getLsbD e.val then [] else [execDeclarationAtHome h e]) ++
      (if (s.die h).heard.getLsbD e.val then [] else [execDeclarationAtTundish h e]))

/-- The command service takes the command at the head (23 R369). -/
def commandEvent (c : Cmd) : Event :=
  match c.op.toNat with
  | 1 => execLoadGraph
  | 2 => execLaunch
  | 3 => execMap
  | 4 => execUnmap
  | 5 => execAsidAlloc
  | 6 => execAsidRetire
  | 7 => execPtsync
  | 8 => execResume
  | 9 => execEvict
  | 11 => execScrubSet
  | 12 => execAttest
  | 13 => execWriteMem
  | 14 => execReadMem
  | _ => execQuery

/-- Whether a die acts: not declared failed (20 R334). -/
def State.acts (s : State) (d : DieId) : Bool := !(s.die d).failed

/-- Whether a cluster acts: its die does, and it is not stopped (20 R326). -/
def State.clocked (s : State) (l : ClusterId) : Bool := s.acts l.die && !(s.cluster l).stopped

/-- The events that may take place in a state. -/
def State.events (s : State) : List Event :=
  ((s.strands.filter fun x => s.clocked (strandOfKey x.1).clusterId).flatMap fun x => strandEvents x.1 x.2) ++
    ((s.ctxs.filter fun x => s.clocked (ctxOfKey x.1).clusterId).flatMap fun x => ctxEvents x.1 x.2) ++
    ((s.cores.filter fun x => s.clocked (coreOfKey x.1).clusterId).flatMap fun x => coreEvents x.1 x.2) ++
    ((allDies.filter s.acts).flatMap fun d => ((clustersOf d).filter s.clocked).flatMap fun l => clusterEvents l.key (s.cluster l)) ++
    (s.ports.flatMap fun x => portEvents x.1 x.2) ++
    (s.writes.flatMap fun w => [execWritePerformed w.seq, execSliceWritePerformed w.seq]) ++
    (s.msgs.map msgEvent) ++ (s.amsgs.map amsgEvent) ++
    ((allDies.filter s.acts).flatMap fun d => dieEvents s d (s.die d)) ++
    (s.gangs.flatMap fun x => match x.2.saved with | some images => [restore x.1 images] | none => []) ++
    (s.gangs.map fun x => execGangRetirement (Fin.ofNat 4 (x.1 / 65536)) (BitVec.ofNat 16 x.1)) ++
    lossEvents s ++
    (match s.cmds with | c :: _ => [commandEvent c] | [] => [])

/-- The first event that changes the state. -/
def State.firstChange (s : State) (fs : List Event) : Option State :=
  match fs with
  | [] => none
  | f :: r =>
    match f s with
    | .next s1 => if s1 = s then s.firstChange r else some s1
    | _ => s.firstChange r

/-- One event takes place, or nothing but time passes: the state and the time that passes with it. -/
def State.runEvent (s : State) : State × Nat :=
  let fs := s.events
  match s.firstChange (fs.rotateLeft (s.tick + Config.choice s.tick)) with
  | some s1 => (s1, 0)
  | none => (s, 1)

/-! ## Turns and time -/

/-- The strands that can be presented to issue. -/
def State.ready_ (s : State) : List StrandId :=
  (s.strands.map fun x => strandOfKey x.1).filter fun t => (s.runs t.ctxId && s.presents t) || s.copyReady t

/-- Whose turn it is next: one of the strands that can issue. -/
def State.nextTurn (s : State) : StrandId :=
  let ts := s.ready_
  match ts[(s.tick + Config.choice s.tick) % ts.length]? with
  | some t => t
  | none => s.turn

/-- The beacons of n microseconds, whose errors are within the clusters' step with them unless the agenda says otherwise (20 R324). They reach the
dies that the agenda's latest beacon has reached, and only the agenda counts misses (R334; DESIGN CHOICE, log 75). -/
def State.beacons (s : State) (n : Nat) : State :=
  match n with
  | 0 => s
  | k + 1 => (s.beacon [] [] (allDies.filter fun d => (s.die d).missed != 0)).beacons k

/-- The meters of the dies whose period is over (18 R314). -/
def State.newPeriods (s : State) : State :=
  allDies.foldl (fun s d => if (s.die d).period < s.now / 4000 then s.resetMeters d else s) s

/-- The end of a step: the write paths accept what they can (20 R321), allowances whose time comes are returned or reclaimed (17 R292), device time passes and counters follow it, a period of the budget meters may begin (18 R314), the beacons of the
microseconds that have begun since the last step's end are sent (20 R324), the next turn is chosen, and whether an event comes
before it. -/
def State.tickOver (s0 : State) (extra : Nat) : State :=
  let s4 := s0.acceptWrites
  let later := s4.now + extra + Config.elapse s4.tick
  let s := s4.leasesPass later
  let s1 := ({ s with now := later, ticked := later, tick := s.tick + 1 } : State).follow s.ticked later
  let s2 := s1.newPeriods
  let s3 := if s.ready ∧ s.acts 0 then s2.beacons (later / 1000 - s.ticked / 1000) else s2
  { s3 with turn := s3.nextTurn, pass := (s.tick + Config.choice s.tick) % 2 == 1 }

/-- Whether an event of the agenda can take place while the supplies are off (00 R3): power-good, and what the host does in its
own memory. -/
def worksOff (i : Instr) : Bool :=
  match i with
  | .powerGood _ => true
  | .registerWrite (.host _) _ => true
  | _ => false

/-- The bundle's record at a position. -/
def State.atPosition (s : State) (p : Nat) : State := s.setIss { s.iss with pos := p }

/-- The state in which an event of the agenda takes place: the errors that a step meets are found first, but a scrubber's read
finds its own (22 R356, R359). -/
def State.beforeEvent (s : State) (i : Instr) : State := match i with | .patrolScrub _ => s | _ => s.findErrors

end Sys2Proof.Machine
end

