-- ==== Sys2Proof/Machine/Dispatch.lean ====
section
/-! DEFINITION. One arm per instruction and event: a direct call of its meaning. -/

namespace Sys2Proof.Machine

/-- The meaning of an instruction or event in a state. -/
def exec (i : Instr) (s : State) : Host.Outcome State Fault Refusal :=
  match i with
  | .nop imm => Sys2Proof.Machine.execNop imm s
  | .add d a b => Sys2Proof.Machine.execAdd d a b s
  | .sub d a b => Sys2Proof.Machine.execSub d a b s
  | .and d a b => Sys2Proof.Machine.execAnd d a b s
  | .or d a b => Sys2Proof.Machine.execOr d a b s
  | .xor d a b => Sys2Proof.Machine.execXor d a b s
  | .andn d a b => Sys2Proof.Machine.execAndn d a b s
  | .shl d a b => Sys2Proof.Machine.execShl d a b s
  | .shr d a b => Sys2Proof.Machine.execShr d a b s
  | .sra d a b => Sys2Proof.Machine.execSra d a b s
  | .ror d a b => Sys2Proof.Machine.execRor d a b s
  | .mul d a b => Sys2Proof.Machine.execMul d a b s
  | .mulhI d a b => Sys2Proof.Machine.execMulhI d a b s
  | .mulhN d a b => Sys2Proof.Machine.execMulhN d a b s
  | .divI d a b => Sys2Proof.Machine.execDivI d a b s
  | .divN d a b => Sys2Proof.Machine.execDivN d a b s
  | .remI d a b => Sys2Proof.Machine.execRemI d a b s
  | .remN d a b => Sys2Proof.Machine.execRemN d a b s
  | .minI d a b => Sys2Proof.Machine.execMinI d a b s
  | .maxI d a b => Sys2Proof.Machine.execMaxI d a b s
  | .minN d a b => Sys2Proof.Machine.execMinN d a b s
  | .maxN d a b => Sys2Proof.Machine.execMaxN d a b s
  | .clz d a => Sys2Proof.Machine.execClz d a s
  | .popc d a => Sys2Proof.Machine.execPopc d a s
  | .sext d a w => Sys2Proof.Machine.execSext d a w s
  | .zext d a w => Sys2Proof.Machine.execZext d a w s
  | .cmpEq d a b => Sys2Proof.Machine.execCmpEq d a b s
  | .cmpLtI d a b => Sys2Proof.Machine.execCmpLtI d a b s
  | .cmpLeI d a b => Sys2Proof.Machine.execCmpLeI d a b s
  | .cmpLtN d a b => Sys2Proof.Machine.execCmpLtN d a b s
  | .cmpLeN d a b => Sys2Proof.Machine.execCmpLeN d a b s
  | .sel d a b => Sys2Proof.Machine.execSel d a b s
  | .addi d a imm => Sys2Proof.Machine.execAddi d a imm s
  | .andi d a imm => Sys2Proof.Machine.execAndi d a imm s
  | .ori d a imm => Sys2Proof.Machine.execOri d a imm s
  | .xori d a imm => Sys2Proof.Machine.execXori d a imm s
  | .shli d a h => Sys2Proof.Machine.execShli d a h s
  | .shri d a h => Sys2Proof.Machine.execShri d a h s
  | .srai d a h => Sys2Proof.Machine.execSrai d a h s
  | .cmpiEq d a imm => Sys2Proof.Machine.execCmpiEq d a imm s
  | .cmpiLtI d a imm => Sys2Proof.Machine.execCmpiLtI d a imm s
  | .cmpiLtN d a imm => Sys2Proof.Machine.execCmpiLtN d a imm s
  | .li d imm => Sys2Proof.Machine.execLi d imm s
  | .lih1 d imm => Sys2Proof.Machine.execLih1 d imm s
  | .lih2 d imm => Sys2Proof.Machine.execLih2 d imm s
  | .lih3 d imm => Sys2Proof.Machine.execLih3 d imm s
  | .addpc d imm => Sys2Proof.Machine.execAddpc d imm s
  | .gets d imm => Sys2Proof.Machine.execGets d imm s
  | .sets a imm => Sys2Proof.Machine.execSets a imm s
  | .vaddI32 d a b q => Sys2Proof.Machine.execVaddI32 d a b q s
  | .vsubI32 d a b q => Sys2Proof.Machine.execVsubI32 d a b q s
  | .vmulI32 d a b q => Sys2Proof.Machine.execVmulI32 d a b q s
  | .vmulhI32 d a b q => Sys2Proof.Machine.execVmulhI32 d a b q s
  | .vmulhN32 d a b q => Sys2Proof.Machine.execVmulhN32 d a b q s
  | .vand d a b q => Sys2Proof.Machine.execVand d a b q s
  | .vor d a b q => Sys2Proof.Machine.execVor d a b q s
  | .vxor d a b q => Sys2Proof.Machine.execVxor d a b q s
  | .vshlI32 d a b q => Sys2Proof.Machine.execVshlI32 d a b q s
  | .vshrI32 d a b q => Sys2Proof.Machine.execVshrI32 d a b q s
  | .vsraI32 d a b q => Sys2Proof.Machine.execVsraI32 d a b q s
  | .vminI32 d a b q => Sys2Proof.Machine.execVminI32 d a b q s
  | .vmaxI32 d a b q => Sys2Proof.Machine.execVmaxI32 d a b q s
  | .vminN32 d a b q => Sys2Proof.Machine.execVminN32 d a b q s
  | .vmaxN32 d a b q => Sys2Proof.Machine.execVmaxN32 d a b q s
  | .vaddI16 d a b q => Sys2Proof.Machine.execVaddI16 d a b q s
  | .vsubI16 d a b q => Sys2Proof.Machine.execVsubI16 d a b q s
  | .vaddsI16 d a b q => Sys2Proof.Machine.execVaddsI16 d a b q s
  | .vsubsI16 d a b q => Sys2Proof.Machine.execVsubsI16 d a b q s
  | .vcmpEqI32 d a b q => Sys2Proof.Machine.execVcmpEqI32 d a b q s
  | .vcmpLtI32 d a b q => Sys2Proof.Machine.execVcmpLtI32 d a b q s
  | .vcmpLeI32 d a b q => Sys2Proof.Machine.execVcmpLeI32 d a b q s
  | .vcmpLtN32 d a b q => Sys2Proof.Machine.execVcmpLtN32 d a b q s
  | .vcmpLeN32 d a b q => Sys2Proof.Machine.execVcmpLeN32 d a b q s
  | .vaddF32 d a b q => Sys2Proof.Machine.execVaddF32 d a b q s
  | .vsubF32 d a b q => Sys2Proof.Machine.execVsubF32 d a b q s
  | .vmulF32 d a b q => Sys2Proof.Machine.execVmulF32 d a b q s
  | .vminF32 d a b q => Sys2Proof.Machine.execVminF32 d a b q s
  | .vmaxF32 d a b q => Sys2Proof.Machine.execVmaxF32 d a b q s
  | .vfmaF32 d a b q => Sys2Proof.Machine.execVfmaF32 d a b q s
  | .vfmsF32 d a b q => Sys2Proof.Machine.execVfmsF32 d a b q s
  | .vcmpEqF32 d a b q => Sys2Proof.Machine.execVcmpEqF32 d a b q s
  | .vcmpLtF32 d a b q => Sys2Proof.Machine.execVcmpLtF32 d a b q s
  | .vcmpLeF32 d a b q => Sys2Proof.Machine.execVcmpLeF32 d a b q s
  | .vrcpF32 d a q => Sys2Proof.Machine.execVrcpF32 d a q s
  | .vrsqF32 d a q => Sys2Proof.Machine.execVrsqF32 d a q s
  | .vexp2F32 d a q => Sys2Proof.Machine.execVexp2F32 d a q s
  | .vlog2F32 d a q => Sys2Proof.Machine.execVlog2F32 d a q s
  | .vsqrtF32 d a q => Sys2Proof.Machine.execVsqrtF32 d a q s
  | .vcvtBf16F32 d a q => Sys2Proof.Machine.execVcvtBf16F32 d a q s
  | .vcvtF32Bf16 d a q => Sys2Proof.Machine.execVcvtF32Bf16 d a q s
  | .vcvtF16F32 d a q => Sys2Proof.Machine.execVcvtF16F32 d a q s
  | .vcvtF32F16 d a q => Sys2Proof.Machine.execVcvtF32F16 d a q s
  | .vcvtE4m3F32 d a q => Sys2Proof.Machine.execVcvtE4m3F32 d a q s
  | .vcvtE5m2F32 d a q => Sys2Proof.Machine.execVcvtE5m2F32 d a q s
  | .vcvtF32E4m3 d a q => Sys2Proof.Machine.execVcvtF32E4m3 d a q s
  | .vcvtF32E5m2 d a q => Sys2Proof.Machine.execVcvtF32E5m2 d a q s
  | .vcvtF4xF32 d a q => Sys2Proof.Machine.execVcvtF4xF32 d a q s
  | .vcvtF32F4x d a q => Sys2Proof.Machine.execVcvtF32F4x d a q s
  | .vcvtI32F32 d a q => Sys2Proof.Machine.execVcvtI32F32 d a q s
  | .vcvtF32I32 d a q => Sys2Proof.Machine.execVcvtF32I32 d a q s
  | .vcvtQF32 d a q => Sys2Proof.Machine.execVcvtQF32 d a q s
  | .vcvtF32Q d a q => Sys2Proof.Machine.execVcvtF32Q d a q s
  | .vredaddI32 d a q => Sys2Proof.Machine.execVredaddI32 d a q s
  | .vredaddF32 d a q => Sys2Proof.Machine.execVredaddF32 d a q s
  | .vredmaxF32 d a q => Sys2Proof.Machine.execVredmaxF32 d a q s
  | .vredmaxI32 d a q => Sys2Proof.Machine.execVredmaxI32 d a q s
  | .vperm d a b q => Sys2Proof.Machine.execVperm d a b q s
  | .vrot d a b q => Sys2Proof.Machine.execVrot d a b q s
  | .vbcast d a q => Sys2Proof.Machine.execVbcast d a q s
  | .vext d a b => Sys2Proof.Machine.execVext d a b s
  | .vins d a b => Sys2Proof.Machine.execVins d a b s
  | .vsel d a b k => Sys2Proof.Machine.execVsel d a b k s
  | .vli d imm => Sys2Proof.Machine.execVli d imm s
  | .pand d a b => Sys2Proof.Machine.execPand d a b s
  | .por d a b => Sys2Proof.Machine.execPor d a b s
  | .pxor d a b => Sys2Proof.Machine.execPxor d a b s
  | .pnot d a => Sys2Proof.Machine.execPnot d a s
  | .pset d a => Sys2Proof.Machine.execPset d a s
  | .pany d a => Sys2Proof.Machine.execPany d a s
  | .pall d a => Sys2Proof.Machine.execPall d a s
  | .ppop d a => Sys2Proof.Machine.execPpop d a s
  | .ldbI d a imm => Sys2Proof.Machine.execLdbI d a imm s
  | .ldbN d a imm => Sys2Proof.Machine.execLdbN d a imm s
  | .ldhI d a imm => Sys2Proof.Machine.execLdhI d a imm s
  | .ldhN d a imm => Sys2Proof.Machine.execLdhN d a imm s
  | .ldwI d a imm => Sys2Proof.Machine.execLdwI d a imm s
  | .ldwN d a imm => Sys2Proof.Machine.execLdwN d a imm s
  | .ldd d a imm => Sys2Proof.Machine.execLdd d a imm s
  | .stb d a imm => Sys2Proof.Machine.execStb d a imm s
  | .sth d a imm => Sys2Proof.Machine.execSth d a imm s
  | .stw d a imm => Sys2Proof.Machine.execStw d a imm s
  | .std d a imm => Sys2Proof.Machine.execStd d a imm s
  | .vld d a imm q => Sys2Proof.Machine.execVld d a imm q s
  | .vst d a imm q => Sys2Proof.Machine.execVst d a imm q s
  | .vldg d a b q => Sys2Proof.Machine.execVldg d a b q s
  | .vsts d a b q => Sys2Proof.Machine.execVsts d a b q s
  | .pref a => Sys2Proof.Machine.execPref a s
  | .res a b => Sys2Proof.Machine.execRes a b s
  | .ldt d a => Sys2Proof.Machine.execLdt d a s
  | .ldtp d a => Sys2Proof.Machine.execLdtp d a s
  | .stt a b => Sys2Proof.Machine.execStt a b s
  | .sttn d a b => Sys2Proof.Machine.execSttn d a b s
  | .tagr d a => Sys2Proof.Machine.execTagr d a s
  | .tagw a b => Sys2Proof.Machine.execTagw a b s
  | .bind d a b => Sys2Proof.Machine.execBind d a b s
  | .drain a => Sys2Proof.Machine.execDrain a s
  | .fenceAcq b => Sys2Proof.Machine.execFenceAcq b s
  | .fenceRel b => Sys2Proof.Machine.execFenceRel b s
  | .fenceFull b => Sys2Proof.Machine.execFenceFull b s
  | .barInit j a => Sys2Proof.Machine.execBarInit j a s
  | .barArrive j => Sys2Proof.Machine.execBarArrive j s
  | .barWait j => Sys2Proof.Machine.execBarWait j s
  | .amoAdd d a b => Sys2Proof.Machine.execAmoAdd d a b s
  | .amoMinI d a b => Sys2Proof.Machine.execAmoMinI d a b s
  | .amoMaxI d a b => Sys2Proof.Machine.execAmoMaxI d a b s
  | .amoAnd d a b => Sys2Proof.Machine.execAmoAnd d a b s
  | .amoOr d a b => Sys2Proof.Machine.execAmoOr d a b s
  | .amoSwap d a b => Sys2Proof.Machine.execAmoSwap d a b s
  | .amoCas d a b => Sys2Proof.Machine.execAmoCas d a b s
  | .ainit a b => Sys2Proof.Machine.execAinit a b s
  | .adec d a b => Sys2Proof.Machine.execAdec d a b s
  | .ainc a b => Sys2Proof.Machine.execAinc a b s
  | .aread d a => Sys2Proof.Machine.execAread d a s
  | .axread d a => Sys2Proof.Machine.execAxread d a s
  | .afree a => Sys2Proof.Machine.execAfree a s
  | .brNz c imm => Sys2Proof.Machine.execBrNz c imm s
  | .brZ c imm => Sys2Proof.Machine.execBrZ c imm s
  | .brq c imm => Sys2Proof.Machine.execBrq c imm s
  | .jal d imm => Sys2Proof.Machine.execJal d imm s
  | .jr a => Sys2Proof.Machine.execJr a s
  | .loop c imm => Sys2Proof.Machine.execLoop c imm s
  | .join => Sys2Proof.Machine.execJoin s
  | .joinAll => Sys2Proof.Machine.execJoinAll s
  | .yield => Sys2Proof.Machine.execYield s
  | .exit => Sys2Proof.Machine.execExit s
  | .trap c => Sys2Proof.Machine.execTrap c s
  | .fmt a => Sys2Proof.Machine.execFmt a s
  | .mlatch a w => Sys2Proof.Machine.execMlatch a w s
  | .mgather c a q t => Sys2Proof.Machine.execMgather c a q t s
  | .mma w z c t => Sys2Proof.Machine.execMma w z c t s
  | .mmas w z c t => Sys2Proof.Machine.execMmas w z c t s
  | .mst a f c => Sys2Proof.Machine.execMst a f c s
  | .mkat a n => Sys2Proof.Machine.execMkat a n s
  | .cpSrc a => Sys2Proof.Machine.execCpSrc a s
  | .cpDst a => Sys2Proof.Machine.execCpDst a s
  | .cpDims a b n => Sys2Proof.Machine.execCpDims a b n s
  | .cpDimd b n => Sys2Proof.Machine.execCpDimd b n s
  | .cpGo a n => Sys2Proof.Machine.execCpGo a n s
  | .cpQfence m => Sys2Proof.Machine.execCpQfence m s
  | .cpStatus d => Sys2Proof.Machine.execCpStatus d s
  | .cpWait n => Sys2Proof.Machine.execCpWait n s
  | .msLen a => Sys2Proof.Machine.execMsLen a s
  | .msCw a => Sys2Proof.Machine.execMsCw a s
  | .msZero a => Sys2Proof.Machine.execMsZero a s
  | .msCopy a b => Sys2Proof.Machine.execMsCopy a b s
  | .lkCw a p => Sys2Proof.Machine.execLkCw a p s
  | .lkSend a b p => Sys2Proof.Machine.execLkSend a b p s
  | .lkRecv a b p => Sys2Proof.Machine.execLkRecv a b p s
  | .lkRaddF32 a b p => Sys2Proof.Machine.execLkRaddF32 a b p s
  | .lkRaddBf16 a b p => Sys2Proof.Machine.execLkRaddBf16 a b p s
  | .lkRaddI32 a b p => Sys2Proof.Machine.execLkRaddI32 a b p s
  | .ckpt imm => Sys2Proof.Machine.execCkpt imm s
  | .commit => Sys2Proof.Machine.execCommit s
  | .guard a b => Sys2Proof.Machine.execGuard a b s
  | .assert a => Sys2Proof.Machine.execAssert a s
  | .abort => Sys2Proof.Machine.execAbort s
  | .copWb a b => Sys2Proof.Machine.execCopWb a b s
  | .copInv a b => Sys2Proof.Machine.execCopInv a b s
  | .illegalSyllable w => Sys2Proof.Machine.execIllegalSyllable w s
  | .suspensionComplete c => Sys2Proof.Machine.execSuspensionComplete c s
  | .exposedResultLands t => Sys2Proof.Machine.execExposedResultLands t s
  | .interlockedResultArrives t n => Sys2Proof.Machine.execInterlockedResultArrives t n s
  | .idleStep t => Sys2Proof.Machine.execIdleStep t s
  | .pipelineError t => Sys2Proof.Machine.execPipelineError t s
  | .bankReservationEnd o n => Sys2Proof.Machine.execBankReservationEnd o n s
  | .arrayWorkComplete o => Sys2Proof.Machine.execArrayWorkComplete o s
  | .fetchDecode c priv => Sys2Proof.Machine.execFetchDecode c priv s
  | .ibufFill l line => Sys2Proof.Machine.execIbufFill l line s
  | .joinBudgetExpiry c at_ => Sys2Proof.Machine.execJoinBudgetExpiry c at_ s
  | .tagWaitTimeout t => Sys2Proof.Machine.execTagWaitTimeout t s
  | .waitHoldTimeout t => Sys2Proof.Machine.execWaitHoldTimeout t s
  | .tagChangeWake w => Sys2Proof.Machine.execTagChangeWake w s
  | .barrierArrivalCounted t j => Sys2Proof.Machine.execBarrierArrivalCounted t j s
  | .pickerSwitch l => Sys2Proof.Machine.execPickerSwitch l s
  | .epAging c => Sys2Proof.Machine.execEpAging c s
  | .contextWake c => Sys2Proof.Machine.execContextWake c s
  | .budgetPeriod e => Sys2Proof.Machine.execBudgetPeriod e s
  | .pageWalk l c va => Sys2Proof.Machine.execPageWalk l c va s
  | .copyOperationStart o n count => Sys2Proof.Machine.execCopyOperationStart o n count s
  | .copyOperationComplete o n => Sys2Proof.Machine.execCopyOperationComplete o n s
  | .msOperationStart o count => Sys2Proof.Machine.execMsOperationStart o count s
  | .msOperationComplete o => Sys2Proof.Machine.execMsOperationComplete o s
  | .linkFlitArrival p flit poison => Sys2Proof.Machine.execLinkFlitArrival p flit poison s
  | .linkSendComplete p peerLen => Sys2Proof.Machine.execLinkSendComplete p peerLen s
  | .linkReceiveComplete p sendLen => Sys2Proof.Machine.execLinkReceiveComplete p sendLen s
  | .linkdown p => Sys2Proof.Machine.execLinkdown p s
  | .linkCancel p => Sys2Proof.Machine.execLinkCancel p s
  | .linkUp p peer => Sys2Proof.Machine.execLinkUp p peer s
  | .timeBeacon errs dieErrs => Sys2Proof.Machine.execTimeBeacon errs dieErrs s
  | .clusterCounterStop l => Sys2Proof.Machine.execClusterCounterStop l s
  | .clusterCounterResume l => Sys2Proof.Machine.execClusterCounterResume l s
  | .clusterFill l c va => Sys2Proof.Machine.execClusterFill l c va s
  | .leaseReturn l line => Sys2Proof.Machine.execLeaseReturn l line s
  | .sliceWritePerformed n => Sys2Proof.Machine.execSliceWritePerformed n s
  | .deferredAck e line => Sys2Proof.Machine.execDeferredAck e line s
  | .readshared e line => Sys2Proof.Machine.execReadshared e line s
  | .readown e line => Sys2Proof.Machine.execReadown e line s
  | .upgrade e line => Sys2Proof.Machine.execUpgrade e line s
  | .fwdshared e line => Sys2Proof.Machine.execFwdshared e line s
  | .fwdown e line => Sys2Proof.Machine.execFwdown e line s
  | .inv e line => Sys2Proof.Machine.execInv e line s
  | .backinv e line => Sys2Proof.Machine.execBackinv e line s
  | .wbdirty e line => Sys2Proof.Machine.execWbdirty e line s
  | .ack e line => Sys2Proof.Machine.execAck e line s
  | .data e line => Sys2Proof.Machine.execData e line s
  | .allowanceRequest l ctr => Sys2Proof.Machine.execAllowanceRequest l ctr s
  | .serve ctr => Sys2Proof.Machine.execServe ctr s
  | .grant l ctr => Sys2Proof.Machine.execGrant l ctr s
  | .recall l ctr => Sys2Proof.Machine.execRecall l ctr s
  | .recallAnswer l ctr => Sys2Proof.Machine.execRecallAnswer l ctr s
  | .holdingZeroReport l ctr => Sys2Proof.Machine.execHoldingZeroReport l ctr s
  | .allowanceLeaseEnd l ctr => Sys2Proof.Machine.execAllowanceLeaseEnd l ctr s
  | .reclamation l ctr => Sys2Proof.Machine.execReclamation l ctr s
  | .kernelNodeEval e => Sys2Proof.Machine.execKernelNodeEval e s
  | .condNodeEval e => Sys2Proof.Machine.execCondNodeEval e s
  | .switchNodeEval e => Sys2Proof.Machine.execSwitchNodeEval e s
  | .loopNodeEval e => Sys2Proof.Machine.execLoopNodeEval e s
  | .joinNodeEval e => Sys2Proof.Machine.execJoinNodeEval e s
  | .gangRetirement e gang => Sys2Proof.Machine.execGangRetirement e gang s
  | .heldRetirementProceeds e => Sys2Proof.Machine.execHeldRetirementProceeds e s
  | .gcommit e gang => Sys2Proof.Machine.execGcommit e gang s
  | .placementRetry e gang slots => Sys2Proof.Machine.execPlacementRetry e gang slots s
  | .grstatFaultClear e => Sys2Proof.Machine.execGrstatFaultClear e s
  | .registerWrite r x => Sys2Proof.Machine.execRegisterWrite r x s
  | .freeze c => Sys2Proof.Machine.execFreeze c s
  | .controlCoreResume c => Sys2Proof.Machine.execControlCoreResume c s
  | .restoration old gang e slots => Sys2Proof.Machine.execRestoration old gang e slots s
  | .katfailPolicy t => Sys2Proof.Machine.execKatfailPolicy t s
  | .regionMachineResume c => Sys2Proof.Machine.execRegionMachineResume c s
  | .lockstepConfirm t sig => Sys2Proof.Machine.execLockstepConfirm t sig s
  | .patrolScrub g => Sys2Proof.Machine.execPatrolScrub g s
  | .dieFailureDeclaration e => Sys2Proof.Machine.execDieFailureDeclaration e s
  | .declarationAtHome home e => Sys2Proof.Machine.execDeclarationAtHome home e s
  | .salvage home e => Sys2Proof.Machine.execSalvage home e s
  | .declarationAtTundish home e => Sys2Proof.Machine.execDeclarationAtTundish home e s
  | .powerGood b => Sys2Proof.Machine.execPowerGood b s
  | .powerOff => Sys2Proof.Machine.execPowerOff s
  | .deviceReset b => Sys2Proof.Machine.execDeviceReset b s
  | .tamperAlarm level sensor => Sys2Proof.Machine.execTamperAlarm level sensor s
  | .junctionTemperature e milli => Sys2Proof.Machine.execJunctionTemperature e milli s
  | .packagePowerLimit => Sys2Proof.Machine.execPackagePowerLimit s
  | .loadGraph => Sys2Proof.Machine.execLoadGraph s
  | .launch => Sys2Proof.Machine.execLaunch s
  | .map => Sys2Proof.Machine.execMap s
  | .unmap => Sys2Proof.Machine.execUnmap s
  | .asidAlloc => Sys2Proof.Machine.execAsidAlloc s
  | .asidRetire => Sys2Proof.Machine.execAsidRetire s
  | .ptsync => Sys2Proof.Machine.execPtsync s
  | .resume => Sys2Proof.Machine.execResume s
  | .evict => Sys2Proof.Machine.execEvict s
  | .query => Sys2Proof.Machine.execQuery s
  | .scrubSet => Sys2Proof.Machine.execScrubSet s
  | .attest => Sys2Proof.Machine.execAttest s
  | .writeMem => Sys2Proof.Machine.execWriteMem s
  | .readMem => Sys2Proof.Machine.execReadMem s
  | .softError g correctable => Sys2Proof.Machine.execSoftError g correctable s
  | .writePerformed n => Sys2Proof.Machine.execWritePerformed n s
  | .cacheRangeOperationComplete t => Sys2Proof.Machine.execCacheRangeOperationComplete t s

end Sys2Proof.Machine
end

