-- ==== Sys2Proof/Machine/Program.lean ====
section
/-! DEFINITION. How an instruction comes to be the next one fetched (DESIGN CHOICE, log 23): a context of cluster 0 of die 0 bound and running, as
Dispatch leaves it (18 R309), with ASID 0 mapped to a page that holds the instruction. It stands for what a host does with
ASID_ALLOC, MAP, WRITE_MEM, LOAD_GRAPH and LAUNCH. -/

namespace Sys2Proof.Machine

/-- Virtual address of the placed text: the start of the global window. -/
def textVa : W64 := 0x100000000
/-- Physical address of its page. -/
def textPa : Nat := 0x20000
/-- Physical address of the root table; the tables of the lower levels follow it. -/
def tablePa : Nat := 0x10000

/-- The placed words: the instruction, then a bundle's end where its stop bit is clear (02 R27, R28); an `mkat`, which must be the
last syllable, gets its stop bit, and its literals are 0. -/
def placedWords (w : W32) : List W32 :=
  if majorOf w = 0x66 then (w ||| 0x80000000) :: List.replicate (literalCount w) 0
  else if stopBit w then [w]
  else [w, 0x80000000]

/-- The path of page tables to the page (12 R228, R229): pointers, then a leaf with V, R, W and X. -/
def placedTables (m : Memory) : Memory :=
  let m1 := memSetWord m tablePa (BitVec.ofNat 64 (tablePa + 0x1301))
  let m2 := memSetWord m1 (tablePa + 0x1000) (BitVec.ofNat 64 (tablePa + 0x2301))
  let m3 := memSetWord m2 (tablePa + 0x2000 + 8 * 4) (BitVec.ofNat 64 (tablePa + 0x3301))
  let m4 := memSetWord m3 (tablePa + 0x3000) (BitVec.ofNat 64 (tablePa + 0x4301))
  memSetWord m4 (tablePa + 0x4000) (BitVec.ofNat 64 (textPa + 0xF))

/-- The bind record of the placed context: matrix, regions enabled, the whole of each scratchpad. -/
def placedBind : Bind :=
  { Bind.reset with valid := true, matrix := true, spec := true, entry := textVa.setWidth 57, psize := 32, save := saveAt 0 }

/-- Lines from which the text and its tables are read. -/
def placedLine (line : Nat) : Bool := decide (lineOf tablePa ≤ line ∧ line < lineOf (textPa + 0x10000))

/-- A die without copies of those lines. -/
def Die.forget (d : Die) : Die :=
  { d with
    tlb := [], l2 := d.l2.filter (fun x => !placedLine x.1), owed := d.owed.filter (fun o => !placedLine o.line)
    mshr := d.mshr.filter (fun x => !placedLine x.1) }

/-- The state with an instruction's word where the next step fetches. -/
def State.placed (s : State) (nbits w : Nat) : State :=
  let c : CtxId := ⟨0, 0, 0⟩
  let word : W32 := BitVec.ofNat 32 (w % 2 ^ nbits)
  let s1 := { s with
    mem := memWriteBytes (placedTables s.mem) textPa ((placedWords word).flatMap fun x => Sys2Proof.wordBytes x)
    dies := s.dies.map fun (x : Nat × Die) => (x.1, x.2.forget)
    msgs := s.msgs.filter fun (m : Msg) => !placedLine m.line
    asids := tset s.asids 0 ⟨tablePa, 0, true, []⟩
    ready := true, power := true, halted := false, dielost := s.dielost &&& 0xE, latent := [], agenda := [], pass := false
    turn := ⟨0, 0, 0, 0⟩ }
  let s2 := s1.setDie 0 { s1.die 0 with failed := false }
  let s3 := s2.setBind c placedBind
  let s4 := s3.setCtx c { Context.reset with run := .running, teamNext := textVa }
  let s5 := s4.setCluster c.clusterId { s4.cluster c.clusterId with tlb := [], ibuf := [], stopped := false, running := some 0 }
  (List.finRange 4).foldl (fun s n => s.setStrand (c.strand n) (entryStrand placedBind n.val 1)) s5

end Sys2Proof.Machine
end

