-- ==== Sys2Proof/Machine/Step.lean ====
section
/-! DEFINITION. One step of the device: the event at the head of the agenda; else the bundle of the strand whose turn it is, its
syllables one after the other on the bundle's record and then its commit; else an event of the device's own (DESIGN CHOICE, log 1). -/

namespace Sys2Proof.Machine

/-- The syllables of a bundle in turn, each at its position. -/
def runSyllables (is : List (Nat × Instr)) (s : State) : Host.Outcome State Fault Refusal :=
  match is with
  | [] => .next s
  | (p, i) :: r =>
    match exec i (s.atPosition p) with
    | .next s1 => runSyllables r s1
    | .fault f => .fault f
    | .refused f => .refused f

/-- One step. -/
def step (s : State) : Host.Outcome State Fault Refusal :=
  match s.agenda with
  | i :: r =>
    if s.power || worksOff i then
      match exec i (({ s with agenda := r } : State).beforeEvent i) with
      | .next s1 => .next (s1.tickOver 0)
      | .fault f => .fault f
      | .refused f => .refused f
    else .next (({ s with agenda := r } : State).tickOver 0)
  | [] =>
    if !s.power then .fault .supplyOff
    else
      match s.findErrors.openTurn with
      | .done s1 => .next (s1.tickOver 0)
      | .blocked s1 => .next (s1.runEvent.1.tickOver s1.runEvent.2)
      | .run before start is =>
        match runSyllables is start with
        | .next after_ => .next ((before.closeTurn after_).tickOver 0)
        | .fault f => .fault f
        | .refused f => .refused f

/-- The machine with a given instruction placed where the next step fetches (DESIGN CHOICE, log 23): see Program.lean. -/
def State.withFetchWord (s : State) (nbits w : Nat) : State := s.placed nbits w

end Sys2Proof.Machine
end

