-- ==== Sys2Proof/Safety.lean ====
section
/-! DEFINITION. The terms in which claims about the machine are stated: what an instruction puts in flight, what it gathers for the
commit of its bundle, what stays unchanged. -/

namespace Sys2Proof.Machine

/-! ## Results in flight (03 R57) -/

/-- The state with one more exposed result of the strand that issues: issued at its step n, due at the end of step n + L − 1.
Nothing else differs. -/
def State.inFlightP (s : State) (tg : Tgt) (x : Dat) (lat : Nat) (poison : Bool) : State :=
  let r : Exposed := { tgt := tg, dat := x, due := s.cur.step + BitVec.ofNat 64 (lat - 1), issued := s.cur.step, poison := poison }
  { s with strands := tset s.strands s.turn.key { s.cur with inflight := s.cur.inflight ++ [r] } }

/-- The same for a result that is not poisoned. -/
def State.inFlight (s : State) (tg : Tgt) (x : Dat) (lat : Nat) : State := s.inFlightP tg x lat false

/-- The instruction puts one scalar result in flight, and changes nothing else. -/
def LandsG (i : Instr) (s : State) (d : Reg) (lat : Nat) (x : W64) : Prop := exec i s = .next (s.inFlight (.g d) (.w x) lat)

/-- The instruction puts one vector result in flight, and changes nothing else. -/
def LandsV (i : Instr) (s : State) (d : Reg) (lat : Nat) (x : VReg) : Prop := exec i s = .next (s.inFlight (.v d) (.v x) lat)

/-- The instruction puts one predicate result in flight, and changes nothing else. -/
def LandsK (i : Instr) (s : State) (d : Reg) (lat : Nat) (x : W64) : Prop := exec i s = .next (s.inFlight (.k d) (.w x) lat)

/-- The generator after n steps (09 R167). -/
def lfsrAfter (x : W32) (n : Nat) : W32 :=
  match n with
  | 0 => x
  | k + 1 => lfsrStep (lfsrAfter x k)

/-- The state with the generator of the bundle advanced n steps where the strand rounds stochastically (09 R167, 10 R178). -/
def State.drawn (s : State) (n : Nat) : State :=
  if s.cur.mode = 4 then { s with iss := { s.iss with lfsr := lfsrAfter s.iss.lfsr n } } else s

/-- How element j of an instruction is rounded: in the mode of %rmode, with the state after its own step of the generator. -/
def State.rounding (s : State) (j : Nat) : Rnd :=
  ⟨s.cur.mode, if s.cur.mode = 4 then (lfsrAfter s.iss.lfsr (j + 1)).toNat else 0⟩

/-- Lane j of a vector is x j where bit j of the predicate is set, else 0 (10 R176). -/
def Lanes (q : W64) (v : VReg) (x : Nat → W32) : Prop :=
  ∀ j < 64, lane v j = if q.getLsbD j then x j else 0

/-- Narrow element j of w bits is x j where bit j of the predicate is set, else 0, and the bits above the elements are 0 (10 R187,
R188). -/
def Narrow (q : W64) (w : Nat) (v : VReg) (x : Nat → Nat) : Prop :=
  (∀ j < 64, narrowElem w v j = if q.getLsbD j then x j % 2 ^ w else 0) ∧ v.toNat < 2 ^ (64 * w)

/-! ## What a bundle gathers -/

/-- The state with another record of the bundle that issues. -/
def State.gathering (s : State) (b : Issue) : State := { s with iss := b }

/-- The syllable finds a fault: cause, SUB and FADDR at its position, and nothing else (05 R96). -/
def Finds (i : Instr) (s : State) (cause : Nat) (sub : Nat) (faddr : W64) : Prop :=
  exec i s = .next (s.gathering { s.iss with
    faults := s.iss.faults ++ [{ pos := s.iss.pos, cause := BitVec.ofNat 8 cause, sub := BitVec.ofNat 4 sub, faddr := faddr }] })

/-- The syllable is ILLEGAL by its encoding or by matrix use: its position is marked (02 R33, 03 R50). -/
def IllegalHere (i : Instr) (s : State) : Prop :=
  exec i s = .next (s.gathering { s.iss with illegal := s.iss.illegal ||| (1#8 <<< s.iss.pos) })

/-- The syllable asks for a rollback with a cause (06 R125). -/
def RollsBack (i : Instr) (s : State) (cause : Nat) : Prop :=
  exec i s = .next (s.gathering { s.iss with rollbacks := s.iss.rollbacks ++ [(s.iss.pos, cause)] })

/-- The syllable is excluded in a region: it asks for EXCLUDED and adds nothing else to its bundle but what its own checks find, ILLEGAL,
faults and poisoned operands, which rank first (06 R118, R126). -/
def Excluded (i : Instr) (s : State) : Prop :=
  ∃ b : Issue, exec i s = .next (s.gathering b) ∧
    b = { s.iss with illegal := b.illegal, faults := b.faults, poisoned := b.poisoned, rollbacks := s.iss.rollbacks ++ [(s.iss.pos, 4)] }

/-- The syllable holds its bundle at issue, over the state s1 that it leaves otherwise. -/
def Holds (i : Instr) (s s1 : State) (h : Hold) : Prop := exec i s = .next (s1.gathering { s1.iss with hold := some h })

/-- The syllable adds one store to its bundle: virtual address, which its TLBs then hold, place of the first byte, bytes. -/
def Stores (i : Instr) (s : State) (va : W64) (p : Place) (bs : List Byte) : Prop :=
  exec i s = .next (s.gathering { s.iss with
    touched := s.iss.touched ++ [va].filter isGlobal
    stores := s.iss.stores ++ [{ va := va, at_ := p, bytes := (List.range bs.length).zip bs, clears := 0,
                                     pos := s.iss.pos }] })

/-- The state with one more interlocked operation of the strand that issues, of the next age (03 R58). -/
def State.awaiting (s : State) (tg : Tgt) (op : POp) (v : Option (Dat × Bool)) (acq : Bool) : State :=
  let r : Pend := { seq := s.seq, tgt := tg, issued := s.cur.step, op := op, val := v, acq := acq }
  { s with seq := s.seq + 1, strands := tset s.strands s.turn.key { s.cur with pend := s.cur.pend ++ [r] } }

/-! ## Conditions that several statements name -/

/-- The tree of R190 over the lanes of a vector: one level combines t j with t (j + h) for each j below h, an absent value leaving
the other as it is; `n` combinations were made before. -/
def treeLevel (f : Nat → W32 → W32 → W32) (t : Nat → Option W32) (h n : Nat) : Nat → Option W32 := fun j =>
  match t j, t (j + h) with
  | none, y => y
  | x, none => x
  | some x, some y => some (f (n + j) x y)

/-- The result of the tree of R190: levels 32, 16, 8, 4, 2 and 1. -/
def treeOf (f : Nat → W32 → W32 → W32) (t : Nat → Option W32) : Option W32 :=
  treeLevel f (treeLevel f (treeLevel f (treeLevel f (treeLevel f (treeLevel f t 32 0) 16 32) 8 48) 4 56) 2 60) 1 62 0

/-- A syllable of a matrix-using context outside a region, whose range of n bytes from the address in ga lies in the strand's partition at
scratchpad offset `off`, aligned, its banks free (11 R196, R198). -/
def RangeReady (s : State) (a : Reg) (n align off : Nat) : Prop :=
  s.matrix s.turn = true ∧ s.cur.region = none ∧ (s.cur.rg a).toNat % align = 0 ∧ (s.cur.rg a).toNat + n ≤ (s.bindOf s.turn.ctxId).partBytes ∧
    (s.bindOf s.turn.ctxId).partBytes ≤ 0x80000 ∧ 0 < n ∧ off = ((s.bindOf s.turn.ctxId).partBase + (s.cur.rg a).toNat) % 0x80000 ∧
    s.bankBusy s.turn.coreId.key (bankBits off n) = false

/-- The tag operation of the strand that issues resolves, outside a region, to a tag word of n bytes at a place whose bank is free (15 R265). -/
def TagFound (s : State) (a : Reg) (need : Need) (w : TagWord) (n : Nat) (p : Place) : Prop :=
  s.cur.region = none ∧ s.tagWord s.turn (s.cur.rg a) need = .ok (w, n, p) ∧ s.needBanks [p] = s

/-- Besides, the strand's own accesses to it are done, so that it may act at once (15 R265, R266). -/
def TagReady (s : State) (a : Reg) (need : Need) (w : TagWord) (n : Nat) (p : Place) : Prop :=
  TagFound s a need w n p ∧ s.ownDone s.turn p n = true

/-- The state in which a tag operation acts, if its class's budget admits the 8 bytes of a sync word (18 R314); a scratchpad word needs none. -/
def State.admitsTag (s : State) (w : TagWord) : Option State :=
  match w with
  | .spad _ _ => some s
  | .sync pa =>
    let r := s.chargeMem (s.bindOf s.turn.ctxId).bclass.toNat pa 8 (tagAccess + bundleKey s.turn.key s.cur.pc)
    if r.1 then some r.2 else none

/-- The syllable holds its bundle at issue for a reason, whatever else it leaves. -/
def HeldFor (i : Instr) (s : State) (h : Hold) : Prop := ∃ s', exec i s = .next s' ∧ s'.iss.hold = some h

/-- The counter at the address in ga: outside a region, its address passes the checks of R297, and no earlier operation of the strand on
it is under way. -/
def CounterReady (s : State) (a : Reg) (ctr : Nat) : Prop :=
  s.cur.region = none ∧ s.counterAt (s.cur.rg a) = .ok ctr ∧ s.counterBusy s.cur ctr = false

/-- The oldest command is c, of operation `op`, on a device whose window is open and that is not halted, its reserved fields 0 (23 R369,
R370). -/
def Commanded (s : State) (c : Cmd) (op : Nat) : Prop :=
  (∃ r, s.cmds = c :: r) ∧ s.windowOpen = true ∧ c.op.toNat = op ∧ s.halted = false ∧ c.reservedOk = true

/-- MEAS after the stages of a list have run, each extending it by its digest (23 R378). -/
def stagesMeasured (l : List Stage) : BitVec 512 := l.foldl (fun m x => Config.sha3 (leBytes 64 m.toNat ++ leBytes 64 x.digest.toNat)) 0

/-! ## Memory -/

/-- The address reads as before. -/
def SameByte (s t : State) (a : Nat) : Prop := memRead t.mem a = memRead s.mem a

end Sys2Proof.Machine
end

