-- ==== Sys2Proof/Certificates/Slice0/Obligations.lean ====
section
/-! DEFINITION. The statements for the provers. -/

section

open Sys2Proof Sys2Proof.Machine

/-! ## Scalar instructions -/

/-- 04 R67: the register forms of majors 0x01, 0x02, 0x04 and 0x06, each with latency 1, on every state and all operands; the unassigned
selectors are no instruction. -/
def Obligations.ScalarRegisterForms : Prop :=
  (∀ (s : State) (d a b : Reg), let x := s.cur.rg a; let y := s.cur.rg b; let sh := y.toNat % 64
    LandsG (.add d a b) s d 1 (BitVec.ofNat 64 (x.toNat + y.toNat)) ∧
    LandsG (.sub d a b) s d 1 (BitVec.ofInt 64 ((x.toNat : Int) - y.toNat)) ∧
    (∃ v, LandsG (.and d a b) s d 1 v ∧ ∀ k < 64, v.getLsbD k = (x.getLsbD k && y.getLsbD k)) ∧
    (∃ v, LandsG (.or d a b) s d 1 v ∧ ∀ k < 64, v.getLsbD k = (x.getLsbD k || y.getLsbD k)) ∧
    (∃ v, LandsG (.xor d a b) s d 1 v ∧ ∀ k < 64, v.getLsbD k = (x.getLsbD k != y.getLsbD k)) ∧
    (∃ v, LandsG (.andn d a b) s d 1 v ∧ ∀ k < 64, v.getLsbD k = (x.getLsbD k && !y.getLsbD k)) ∧
    LandsG (.shl d a b) s d 1 (BitVec.ofNat 64 (x.toNat * 2 ^ sh)) ∧
    LandsG (.shr d a b) s d 1 (BitVec.ofNat 64 (x.toNat / 2 ^ sh)) ∧
    LandsG (.sra d a b) s d 1 (BitVec.ofInt 64 (x.toInt / 2 ^ sh)) ∧
    LandsG (.ror d a b) s d 1 (BitVec.ofNat 64 (x.toNat / 2 ^ sh + x.toNat % 2 ^ sh * 2 ^ (64 - sh))) ∧
    LandsG (.minI d a b) s d 1 (BitVec.ofInt 64 (min x.toInt y.toInt)) ∧
    LandsG (.maxI d a b) s d 1 (BitVec.ofInt 64 (max x.toInt y.toInt)) ∧
    LandsG (.minN d a b) s d 1 (BitVec.ofNat 64 (min x.toNat y.toNat)) ∧
    LandsG (.maxN d a b) s d 1 (BitVec.ofNat 64 (max x.toNat y.toNat)) ∧
    LandsG (.cmpEq d a b) s d 1 (if x.toNat = y.toNat then 1 else 0) ∧
    LandsG (.cmpLtI d a b) s d 1 (if x.toInt < y.toInt then 1 else 0) ∧
    LandsG (.cmpLeI d a b) s d 1 (if x.toInt ≤ y.toInt then 1 else 0) ∧
    LandsG (.cmpLtN d a b) s d 1 (if x.toNat < y.toNat then 1 else 0) ∧
    LandsG (.cmpLeN d a b) s d 1 (if x.toNat ≤ y.toNat then 1 else 0)) ∧
  (∀ (d a b : Reg) (stop : Bool),
    ∀ x ∈ [(Instr.add d a b, 1, 0), (.sub d a b, 1, 1), (.and d a b, 1, 2), (.or d a b, 1, 3), (.xor d a b, 1, 4), (.andn d a b, 1, 5),
           (.shl d a b, 2, 0), (.shr d a b, 2, 1), (.sra d a b, 2, 2), (.ror d a b, 2, 3), (.minI d a b, 4, 0), (.maxI d a b, 4, 1),
           (.minN d a b, 4, 2), (.maxN d a b, 4, 3), (.cmpEq d a b, 6, 0), (.cmpLtI d a b, 6, 1), (.cmpLeI d a b, 6, 2),
           (.cmpLtN d a b, 6, 3), (.cmpLeN d a b, 6, 4)],
      ∃ w, encode stop x.1 = some w ∧ majorOf w = x.2.1 ∧ (w.extractLsb' 0 3).toNat = x.2.2) ∧
  ∀ w : W32, let fn := (w.extractLsb' 0 3).toNat
    (majorOf w = 1 ∧ 6 ≤ fn ∨ majorOf w = 2 ∧ 4 ≤ fn ∨ majorOf w = 4 ∧ 4 ≤ fn ∨ majorOf w = 6 ∧ 5 ≤ fn) →
      decodeWord w = .error .selectorUnassigned

/-- 04 R68: multiplies with latency 3, divisions and remainders with latency 16; they never trap. 04 R69, R70: counts, extensions and the
selection on the old gd. -/
def Obligations.ScalarMultiplyDivideCount : Prop :=
  ((∀ (s : State) (d a b : Reg), let x := s.cur.rg a; let y := s.cur.rg b
     LandsG (.mul d a b) s d 3 (BitVec.ofInt 64 (x.toInt * y.toInt)) ∧
     LandsG (.mulhI d a b) s d 3 (BitVec.ofInt 64 (x.toInt * y.toInt / 2 ^ 64)) ∧
     LandsG (.mulhN d a b) s d 3 (BitVec.ofNat 64 (x.toNat * y.toNat / 2 ^ 64)) ∧
     LandsG (.divI d a b) s d 16 (if y = 0 then 0xFFFFFFFFFFFFFFFF#64
       else if x.toInt = -2 ^ 63 ∧ y.toInt = -1 then x else BitVec.ofInt 64 (x.toInt.tdiv y.toInt)) ∧
     LandsG (.divN d a b) s d 16 (if y = 0 then 0xFFFFFFFFFFFFFFFF#64 else BitVec.ofNat 64 (x.toNat / y.toNat)) ∧
     LandsG (.remI d a b) s d 16 (if y = 0 then x
       else if x.toInt = -2 ^ 63 ∧ y.toInt = -1 then 0 else BitVec.ofInt 64 (x.toInt - y.toInt * x.toInt.tdiv y.toInt)) ∧
     LandsG (.remN d a b) s d 16 (if y = 0 then x else BitVec.ofNat 64 (x.toNat % y.toNat))) ∧
   ∀ w : W32, majorOf w = 3 → (w.extractLsb' 0 3).toNat = 7 → decodeWord w = .error .selectorUnassigned) ∧
  ((∀ (s : State) (d a b : Reg), let x := s.cur.rg a
     (∃ n ≤ 64, LandsG (.clz d a) s d 1 (BitVec.ofNat 64 n) ∧ (∀ k < n, x.getLsbD (63 - k) = false) ∧
       (n < 64 → x.getLsbD (63 - n) = true)) ∧
     LandsG (.popc d a) s d 1 (BitVec.ofNat 64 ((List.range 64).countP fun k => x.getLsbD k)) ∧
     LandsG (.sel d a b) s d 1 (if s.cur.rg d ≠ 0 then x else s.cur.rg b)) ∧
   (∀ (s : State) (d a : Reg) (w : BitVec 6), w.toNat ≤ 2 → let x := s.cur.rg a; let n := 8 * 2 ^ w.toNat
     (∃ v, LandsG (.sext d a w) s d 1 v ∧ ∀ k < 64, v.getLsbD k = x.getLsbD (min k (n - 1))) ∧
     LandsG (.zext d a w) s d 1 (BitVec.ofNat 64 (x.toNat % 2 ^ n))) ∧
   ∀ w : W32, majorOf w = 5 → 4 ≤ (w.extractLsb' 0 3).toNat ∨ 2 ≤ (w.extractLsb' 0 3).toNat ∧ 3 ≤ (w.extractLsb' 6 6).toNat ∨
     (w.extractLsb' 0 3).toNat ≤ 1 ∧ (w.extractLsb' 6 6).toNat ≠ 0 → ∃ e, decodeWord w = .error e)

/-- 04 R71: the immediate forms, signed immediates extended from their sign bit, unsigned ones with zeros. 04 R72, R73: constants built in
fields of gd, and the address of the bundle plus a signed count of words. -/
def Obligations.ScalarImmediatesAndConstants : Prop :=
  ((∀ (s : State) (d a : Reg) (i : BitVec 12), let x := s.cur.rg a
     LandsG (.addi d a i) s d 1 (BitVec.ofInt 64 (x.toNat + i.toInt)) ∧
     (∃ v, LandsG (.andi d a i) s d 1 v ∧ ∀ k < 64, v.getLsbD k = (x.getLsbD k && i.getLsbD k)) ∧
     (∃ v, LandsG (.ori d a i) s d 1 v ∧ ∀ k < 64, v.getLsbD k = (x.getLsbD k || i.getLsbD k)) ∧
     (∃ v, LandsG (.xori d a i) s d 1 v ∧ ∀ k < 64, v.getLsbD k = (x.getLsbD k != i.getLsbD k))) ∧
   (∀ (s : State) (d a h : Reg), let x := s.cur.rg a
     LandsG (.shli d a h) s d 1 (BitVec.ofNat 64 (x.toNat * 2 ^ h.toNat)) ∧
     LandsG (.shri d a h) s d 1 (BitVec.ofNat 64 (x.toNat / 2 ^ h.toNat)) ∧
     LandsG (.srai d a h) s d 1 (BitVec.ofInt 64 (x.toInt / 2 ^ h.toNat))) ∧
   ∀ (s : State) (d a : Reg) (i : BitVec 10), let x := s.cur.rg a
     LandsG (.cmpiEq d a i) s d 1 (if x.toInt = i.toInt then 1 else 0) ∧
     LandsG (.cmpiLtI d a i) s d 1 (if x.toInt < i.toInt then 1 else 0) ∧
     LandsG (.cmpiLtN d a i) s d 1 (if x.toNat < (BitVec.ofInt 64 i.toInt).toNat then 1 else 0)) ∧
  ((∀ (s : State) (d : Reg) (i : BitVec 18), let x := s.cur.rg d
     LandsG (.li d i) s d 1 (BitVec.ofInt 64 i.toInt) ∧
     (∃ v, LandsG (.lih1 d i) s d 1 v ∧ ∀ k < 64, v.getLsbD k = if 18 ≤ k ∧ k ≤ 35 then i.getLsbD (k - 18) else x.getLsbD k) ∧
     (∃ v, LandsG (.lih2 d i) s d 1 v ∧ ∀ k < 64, v.getLsbD k = if 36 ≤ k ∧ k ≤ 53 then i.getLsbD (k - 36) else x.getLsbD k) ∧
     LandsG (.addpc d i) s d 1 (BitVec.ofInt 64 (s.iss.addr.toNat + 4 * i.toInt))) ∧
   ∀ (s : State) (d : Reg) (i : BitVec 10),
     ∃ v, LandsG (.lih3 d i) s d 1 v ∧ ∀ k < 64, v.getLsbD k = if 54 ≤ k then i.getLsbD (k - 54) else (s.cur.rg d).getLsbD k)

/-- 03 R52, 04 R74: what `gets` lands for each special register, on every state. -/
def Obligations.SpecialRegisterReads : Prop :=
  ∀ (s : State) (d : Reg), let st := s.cur; let t := s.turn
    LandsG (.gets d 0) s d 1 st.step ∧ LandsG (.gets d 1) s d 1 (BitVec.ofNat 64 (s.timeAt t.clusterId)) ∧
    LandsG (.gets d 2) s d 1 (BitVec.ofNat 64 t.core.val) ∧ LandsG (.gets d 3) s d 1 (BitVec.ofNat 64 t.cluster.val) ∧
    LandsG (.gets d 4) s d 1 (BitVec.ofNat 64 t.die.val) ∧ LandsG (.gets d 5) s d 1 (BitVec.ofNat 64 t.ctx.val) ∧
    (∃ m, LandsG (.gets d 6) s d 1 m ∧ ∀ k < 64, m.getLsbD k =
      decide (∃ h : k < 4, (s.strand (t.ctxId.strand ⟨k, h⟩)).attached ∧ ¬(s.strand (t.ctxId.strand ⟨k, h⟩)).exited)) ∧
    LandsG (.gets d 7) s d 1 (BitVec.ofNat 64 (s.drift t)) ∧
    LandsG (.gets d 8) s d 1 (BitVec.ofNat 64 st.jbudget.toNat) ∧ LandsG (.gets d 9) s d 1 st.lc0 ∧ LandsG (.gets d 10) s d 1 st.lc1 ∧
    LandsG (.gets d 11) s d 1 (BitVec.ofNat 64 s.iss.regionWas.toNat) ∧ LandsG (.gets d 12) s d 1 (BitVec.ofNat 64 st.rbcause.toNat) ∧
    LandsG (.gets d 13) s d 1 st.rbaddr ∧ LandsG (.gets d 14) s d 1 (BitVec.ofNat 64 st.heldStores.length) ∧
    LandsG (.gets d 15) s d 1 (BitVec.ofNat 64 st.fmt.toNat) ∧ LandsG (.gets d 16) s d 1 (BitVec.ofNat 64 st.rmode.toNat) ∧
    LandsG (.gets d 17) s d 1 (BitVec.ofNat 64 st.lfsr.toNat) ∧ LandsG (.gets d 18) s d 1 (BitVec.ofNat 64 st.hintdrop.toNat) ∧
    LandsG (.gets d 19) s d 1 (BitVec.ofNat 64 st.barovr.toNat)

/-- 03 R53, R54, 06 R118: `sets` of a writable register other than %fmt waits in the bundle's record for the commit, and what the commit
then writes; %fmt is an exposed result of latency 2; in a region the registers that R118 does not allow roll back. -/
def Obligations.SpecialRegisterWrites : Prop :=
  (∀ (s : State) (a : Reg) (i : BitVec 12), i.toNat ∈ [8, 9, 10, 16, 17, 18, 19] →
    (s.cur.region = none ∨ i.toNat ∈ [8, 9, 10, 16, 17]) →
      exec (.sets a i) s = .next (s.gathering { s.iss with sets := s.iss.sets ++ [(i.toNat, s.cur.rg a)] })) ∧
  (∀ (s : State) (a : Reg), s.cur.region = none →
    exec (.sets a 15) s = .next (s.inFlight .fmt (.fmt (fmtStored ((s.cur.rg a).setWidth 32))) 2)) ∧
  (∀ (s : State) (a : Reg) (i : BitVec 12), i.toNat ∈ [15, 18, 19] → s.cur.region ≠ none → RollsBack (.sets a i) s 4) ∧
  (∀ (t : Strand) (x : W64),
    t.applySet 8 x = { t with jbudget := BitVec.ofNat 16 x.toNat } ∧ t.applySet 9 x = { t with lc0 := x } ∧
    t.applySet 10 x = { t with lc1 := x } ∧
    t.applySet 16 x = { t with rmode := BitVec.ofNat 4 (if 5 ≤ x.toNat % 8 then x.toNat / 8 % 2 * 8 else x.toNat % 16) } ∧
    t.applySet 17 x = { t with lfsr := if x.toNat % 2 ^ 32 = 0 then 1 else BitVec.ofNat 32 x.toNat } ∧
    t.applySet 18 x = { t with hintdrop := BitVec.ofNat 32 x.toNat } ∧
    (∃ v, t.applySet 19 x = { t with barovr := v } ∧ ∀ k < 8, v.getLsbD k = (t.barovr.getLsbD k && !x.getLsbD k))) ∧
  ∀ w : W32, majorOf w = 0x14 → (w.extractLsb' 0 12).toNat ∉ [8, 9, 10, 15, 16, 17, 18, 19] → ∃ e, decodeWord w = .error e

/-! ## Vector and predicate instructions -/

/-- 10 R180: the lane-wise integer forms, with latency 2; an inactive lane receives 0 (R176). 10 R180: the 16-bit forms on 128 elements,
two to a predicate bit, wrapping and saturating. -/
def Obligations.VectorIntegers : Prop :=
  ((∀ (s : State) (d a b : Reg) (q : PReg),
      let k := s.cur.rk q.toNat
      let x := fun j => lane (s.cur.rv a) j
      let y := fun j => lane (s.cur.rv b) j
      (∃ v, LandsV (.vaddI32 d a b q) s d 2 v ∧ Lanes k v fun j => BitVec.ofNat 32 ((x j).toNat + (y j).toNat)) ∧
      (∃ v, LandsV (.vsubI32 d a b q) s d 2 v ∧ Lanes k v fun j => BitVec.ofInt 32 (((x j).toNat : Int) - (y j).toNat)) ∧
      (∃ v, LandsV (.vmulI32 d a b q) s d 2 v ∧ Lanes k v fun j => BitVec.ofInt 32 ((x j).toInt * (y j).toInt)) ∧
      (∃ v, LandsV (.vmulhI32 d a b q) s d 2 v ∧ Lanes k v fun j => BitVec.ofInt 32 ((x j).toInt * (y j).toInt / 2 ^ 32)) ∧
      (∃ v, LandsV (.vmulhN32 d a b q) s d 2 v ∧ Lanes k v fun j => BitVec.ofNat 32 ((x j).toNat * (y j).toNat / 2 ^ 32)) ∧
      (∃ v, LandsV (.vand d a b q) s d 2 v ∧ Lanes k v fun j => x j &&& y j) ∧
      (∃ v, LandsV (.vor d a b q) s d 2 v ∧ Lanes k v fun j => x j ||| y j) ∧
      (∃ v, LandsV (.vxor d a b q) s d 2 v ∧ Lanes k v fun j => x j ^^^ y j) ∧
      (∃ v, LandsV (.vshlI32 d a b q) s d 2 v ∧ Lanes k v fun j => BitVec.ofNat 32 ((x j).toNat * 2 ^ ((y j).toNat % 32))) ∧
      (∃ v, LandsV (.vshrI32 d a b q) s d 2 v ∧ Lanes k v fun j => BitVec.ofNat 32 ((x j).toNat / 2 ^ ((y j).toNat % 32))) ∧
      (∃ v, LandsV (.vsraI32 d a b q) s d 2 v ∧ Lanes k v fun j => BitVec.ofInt 32 ((x j).toInt / 2 ^ ((y j).toNat % 32))) ∧
      (∃ v, LandsV (.vminI32 d a b q) s d 2 v ∧ Lanes k v fun j => BitVec.ofInt 32 (min (x j).toInt (y j).toInt)) ∧
      (∃ v, LandsV (.vmaxI32 d a b q) s d 2 v ∧ Lanes k v fun j => BitVec.ofInt 32 (max (x j).toInt (y j).toInt)) ∧
      (∃ v, LandsV (.vminN32 d a b q) s d 2 v ∧ Lanes k v fun j => BitVec.ofNat 32 (min (x j).toNat (y j).toNat)) ∧
      (∃ v, LandsV (.vmaxN32 d a b q) s d 2 v ∧ Lanes k v fun j => BitVec.ofNat 32 (max (x j).toNat (y j).toNat))) ∧
   ∀ (d a b : Reg) (q : PReg) (stop : Bool),
     ∀ x ∈ [(Instr.vaddI32 d a b q, 32, 0), (.vsubI32 d a b q, 32, 1), (.vmulI32 d a b q, 32, 2), (.vmulhI32 d a b q, 32, 3),
            (.vmulhN32 d a b q, 32, 4), (.vand d a b q, 32, 5), (.vor d a b q, 32, 6), (.vxor d a b q, 32, 7),
            (.vshlI32 d a b q, 33, 0), (.vshrI32 d a b q, 33, 1), (.vsraI32 d a b q, 33, 2), (.vminI32 d a b q, 33, 3),
            (.vmaxI32 d a b q, 33, 4), (.vminN32 d a b q, 33, 5), (.vmaxN32 d a b q, 33, 6)],
       ∃ w, encode stop x.1 = some w ∧ majorOf w = x.2.1 ∧ (w.extractLsb' 0 3).toNat = x.2.2) ∧
  ((∀ (s : State) (d a b : Reg) (q : PReg),
      let active := fun j => (s.cur.rk q.toNat).getLsbD (j / 2)
      let x := fun j => (elem16 (s.cur.rv a) j).toInt
      let y := fun j => (elem16 (s.cur.rv b) j).toInt
      let elems := fun (v : VReg) (f : Nat → Int) => ∀ j < 128, elem16 v j = if active j then BitVec.ofInt 16 (f j) else 0
      (∃ v, LandsV (.vaddI16 d a b q) s d 2 v ∧ elems v fun j => x j + y j) ∧
      (∃ v, LandsV (.vsubI16 d a b q) s d 2 v ∧ elems v fun j => x j - y j) ∧
      (∃ v, LandsV (.vaddsI16 d a b q) s d 2 v ∧ elems v fun j => max (-32768) (min 32767 (x j + y j))) ∧
      (∃ v, LandsV (.vsubsI16 d a b q) s d 2 v ∧ elems v fun j => max (-32768) (min 32767 (x j - y j)))) ∧
   ∀ (d a b : Reg) (q : PReg) (stop : Bool),
     ∀ x ∈ [(Instr.vaddI16 d a b q, 34, 0), (.vsubI16 d a b q, 34, 1), (.vaddsI16 d a b q, 34, 2), (.vsubsI16 d a b q, 34, 3)],
       ∃ w, encode stop x.1 = some w ∧ majorOf w = x.2.1 ∧ (w.extractLsb' 0 3).toNat = x.2.2)

/-- 10 R181, R184: a compare writes the bit of each active lane and 0 for the others; integer compares with latency 2, FP compares of
values with latency 4. -/
def Obligations.VectorCompares : Prop :=
  (∀ (t : Strand) (x : W64) (poison : Bool), t.wk 0 x poison = t) ∧
  (∀ (s : State) (d a b : Reg) (q : PReg),
     let x := fun j => lane (s.cur.rv a) j
     let y := fun j => lane (s.cur.rv b) j
     let bits := fun (v : W64) (p : Nat → Bool) => ∀ j < 64, v.getLsbD j = ((s.cur.rk q.toNat).getLsbD j && p j)
     (∃ v, LandsK (.vcmpEqI32 d a b q) s d 2 v ∧ bits v fun j => decide ((x j).toNat = (y j).toNat)) ∧
     (∃ v, LandsK (.vcmpLtI32 d a b q) s d 2 v ∧ bits v fun j => decide ((x j).toInt < (y j).toInt)) ∧
     (∃ v, LandsK (.vcmpLeI32 d a b q) s d 2 v ∧ bits v fun j => decide ((x j).toInt ≤ (y j).toInt)) ∧
     (∃ v, LandsK (.vcmpLtN32 d a b q) s d 2 v ∧ bits v fun j => decide ((x j).toNat < (y j).toNat)) ∧
     (∃ v, LandsK (.vcmpLeN32 d a b q) s d 2 v ∧ bits v fun j => decide ((x j).toNat ≤ (y j).toNat)) ∧
     (∃ v, LandsK (.vcmpEqF32 d a b q) s d 4 v ∧ bits v fun j => (f32 (x j)).eq (f32 (y j))) ∧
     (∃ v, LandsK (.vcmpLtF32 d a b q) s d 4 v ∧ bits v fun j => (f32 (x j)).lt (f32 (y j))) ∧
     (∃ v, LandsK (.vcmpLeF32 d a b q) s d 4 v ∧ bits v fun j => (f32 (x j)).lt (f32 (y j)) || (f32 (x j)).eq (f32 (y j)))) ∧
  ∀ (d a b : Reg) (q : PReg) (stop : Bool),
    ∀ x ∈ [(Instr.vcmpEqI32 d a b q, 35, 0), (.vcmpLtI32 d a b q, 35, 1), (.vcmpLeI32 d a b q, 35, 2), (.vcmpLtN32 d a b q, 35, 3),
           (.vcmpLeN32 d a b q, 35, 4), (.vcmpEqF32 d a b q, 38, 0), (.vcmpLtF32 d a b q, 38, 1), (.vcmpLeF32 d a b q, 38, 2)],
      ∃ w, encode stop x.1 = some w ∧ majorOf w = x.2.1 ∧ (w.extractLsb' 0 3).toNat = x.2.2

/-- 10 R182, 09 R167: FP32 arithmetic rounds each lane's exact result once, in the mode of %rmode and with the lane's own step of the
generator, of which 64 are taken in mode 4. Latency 4. 10 R185: the functions, latency 8, each lane rounded with its own step of the
generator. -/
def Obligations.VectorFloats : Prop :=
  (∀ (s : State) (d a b : Reg) (q : PReg),
     let x := fun j => f32 (lane (s.cur.rv a) j)
     let y := fun j => f32 (lane (s.cur.rv b) j)
     let z := fun j => f32 (lane (s.cur.rv d) j)
     let m := s.cur.mode
     let lands := fun (i : Instr) (f : Nat → Fp) => ∃ v, exec i s = .next ((s.inFlight (.v d) (.v v) 4).drawn 64) ∧
       Lanes (s.cur.rk q.toNat) v fun j => toF32 (s.rounding j) (f j)
     lands (.vaddF32 d a b q) (fun j => (x j).add (y j) m) ∧
     lands (.vsubF32 d a b q) (fun j => (x j).add (y j).neg m) ∧
     lands (.vmulF32 d a b q) (fun j => (x j).mul (y j)) ∧
     lands (.vminF32 d a b q) (fun j => (x j).min (y j)) ∧
     lands (.vmaxF32 d a b q) (fun j => (x j).max (y j)) ∧
     lands (.vfmaF32 d a b q) (fun j => ((x j).mul (y j)).add (z j) m) ∧
     lands (.vfmsF32 d a b q) (fun j => (z j).add ((x j).mul (y j)).neg m)) ∧
  (∀ (s : State) (d a : Reg) (q : PReg),
     let lands := fun (i : Instr) (f : Rnd → Fp → W32) => ∃ v, exec i s = .next ((s.inFlight (.v d) (.v v) 8).drawn 64) ∧
       Lanes (s.cur.rk q.toNat) v fun j => f (s.rounding j) (f32 (lane (s.cur.rv a) j))
     lands (.vrcpF32 d a q) rcpF32 ∧ lands (.vrsqF32 d a q) rsqF32 ∧ lands (.vexp2F32 d a q) exp2F32 ∧
     lands (.vlog2F32 d a q) log2F32 ∧ lands (.vsqrtF32 d a q) sqrtF32)

/-- 10 R186: the special inputs of the functions, in every rounding mode: +0, −0, +∞, −∞, a negative number, 1.0, NaN. 10 R194, R191: the
worked example of the manual: 2^24 in lane 0 and 1.0 in lanes 1 to 63 sum to 16,777,278 in RNE and to 16,777,280 in RU. -/
def Obligations.FloatWorkedValues : Prop :=
  (∀ (rd : Rnd), rd.mode < 5 →
     ([0x00000000#32, 0x80000000#32, 0x7F800000#32, 0xFF800000#32, 0x3F800000#32, 0x7FC00000#32].map fun x => rcpF32 rd (f32 x)) =
       [0x7F800000#32, 0xFF800000#32, 0x00000000#32, 0x80000000#32, 0x3F800000#32, 0x7FC00000#32] ∧
     ([0x00000000#32, 0x80000000#32, 0x7F800000#32, 0xFF800000#32, 0xC0000000#32, 0x3F800000#32, 0x7FC00000#32].map
       fun x => rsqF32 rd (f32 x)) =
       [0x7F800000#32, 0xFF800000#32, 0x00000000#32, 0x7FC00000#32, 0x7FC00000#32, 0x3F800000#32, 0x7FC00000#32] ∧
     ([0x00000000#32, 0x80000000#32, 0x7F800000#32, 0xFF800000#32, 0x3F800000#32, 0x7FC00000#32].map fun x => exp2F32 rd (f32 x)) =
       [0x3F800000#32, 0x3F800000#32, 0x7F800000#32, 0x00000000#32, 0x40000000#32, 0x7FC00000#32] ∧
     ([0x00000000#32, 0x80000000#32, 0x7F800000#32, 0xFF800000#32, 0xC0000000#32, 0x3F800000#32, 0x7FC00000#32].map
       fun x => log2F32 rd (f32 x)) =
       [0xFF800000#32, 0xFF800000#32, 0x7F800000#32, 0x7FC00000#32, 0x7FC00000#32, 0x00000000#32, 0x7FC00000#32] ∧
     ([0x00000000#32, 0x80000000#32, 0x7F800000#32, 0xFF800000#32, 0xC0000000#32, 0x3F800000#32, 0x7FC00000#32].map
       fun x => sqrtF32 rd (f32 x)) =
       [0x00000000#32, 0x80000000#32, 0x7F800000#32, 0x7FC00000#32, 0x7FC00000#32, 0x3F800000#32, 0x7FC00000#32]) ∧
  (let v : VReg := ofLanes fun j => if j = 0 then 0x4B800000#32 else 0x3F800000#32
   let add := fun m => reduceF (BitVec.allOnes 64) v 0 fun _ x y => toF32 ⟨m, 0⟩ ((f32 x).add (f32 y) m)
   add 0 = 0x4B80001F#32 ∧ add 2 = 0x4B800020#32)

/-- 10 R187 to R189: the narrowing conversions, element j in the narrow layout under predicate bit j, one generator step each in mode 4;
the conversions between FP32 and integers; latency 4. 10 R187, R188: the widening conversions are exact, under the bit of the output lane,
and do not step the generator. -/
def Obligations.VectorConversions : Prop :=
  (∀ (s : State) (d a : Reg) (q : PReg),
     let k := s.cur.rk q.toNat
     let x := fun j => f32 (lane (s.cur.rv a) j)
     let narrow := fun (i : Instr) (w : Nat) (f : Rnd → Fp → Nat) => ∃ v,
       exec i s = .next ((s.inFlight (.v d) (.v v) 4).drawn 64) ∧ Narrow k w v fun j => f (s.rounding j) (x j)
     narrow (.vcvtBf16F32 d a q) 16 (fun rd v => bf16.encode rd false v) ∧
     narrow (.vcvtF16F32 d a q) 16 (fun rd v => fp16.encode rd false v) ∧
     narrow (.vcvtE4m3F32 d a q) 8 (fun rd v => e4m3.encode rd true v) ∧
     narrow (.vcvtE5m2F32 d a q) 8 (fun rd v => e5m2.encode rd (s.cur.rmode.getLsbD 3) v) ∧
     narrow (.vcvtQF32 d a q) (if s.cur.fmt.getLsbD 6 then 4 else 8) (fun rd v => narrowCode s.cur.fmt rd v) ∧
     (∃ v, exec (.vcvtI32F32 d a q) s = .next ((s.inFlight (.v d) (.v v) 4).drawn 64) ∧
       Lanes k v fun j => BitVec.ofInt 32 (toIntSat (s.rounding j) (-2 ^ 31) (2 ^ 31 - 1) (x j))) ∧
     (∃ v, exec (.vcvtF32I32 d a q) s = .next ((s.inFlight (.v d) (.v v) 4).drawn 64) ∧
       Lanes k v fun j => toF32 (s.rounding j) (fpOfInt (lane (s.cur.rv a) j).toInt 0)) ∧
     let fq := (s.cur.fmt.extractLsb' 24 8).toNat
     let block := fun h => f4xBlock ((List.range 32).map fun j => if k.getLsbD (32 * h + j) then x (32 * h + j) else .fin false 0 0) fq
     ∃ v, LandsV (.vcvtF4xF32 d a q) s d 4 v ∧
       (∀ j < 64, narrowElem 4 v j = if k.getLsbD j then (block (j / 32)).1.getD (j % 32) 0 % 2 ^ 4 else 0) ∧
       (∀ h < 2, v.toNat / 2 ^ (256 + 16 * h) % 2 ^ 16 = (block h).2 + 2 ^ 8 * fq) ∧ v.toNat < 2 ^ 288) ∧
  (∀ (s : State) (d a : Reg) (q : PReg),
     let x := s.cur.rv a
     let widen := fun (i : Instr) (f : Nat → Fp) => ∃ v, LandsV i s d 4 v ∧
       Lanes (s.cur.rk q.toNat) v fun j => toF32 rne (f j)
     let header := fun j n => (lane x 8).toNat / 2 ^ (16 * (j / 32) + 8 * n) % 2 ^ 8
     widen (.vcvtF32Bf16 d a q) (fun j => bf16.decode (x.toNat / 2 ^ (16 * j) % 2 ^ 16)) ∧
     widen (.vcvtF32F16 d a q) (fun j => fp16.decode (x.toNat / 2 ^ (16 * j) % 2 ^ 16)) ∧
     widen (.vcvtF32E4m3 d a q) (fun j => e4m3.decode (x.toNat / 2 ^ (8 * j) % 2 ^ 8)) ∧
     widen (.vcvtF32E5m2 d a q) (fun j => e5m2.decode (x.toNat / 2 ^ (8 * j) % 2 ^ 8)) ∧
     widen (.vcvtF32F4x d a q) (fun j => decF4x (x.toNat / 2 ^ (4 * j) % 2 ^ 4) (header j 0) (header j 1)) ∧
     let w := if s.cur.fmt.getLsbD 6 then 4 else 8
     widen (.vcvtF32Q d a q) (fun j => fpOfInt (narrowValue s.cur.fmt (x.toNat / 2 ^ (w * j) % 2 ^ w)) 0))

/-- 10 R190, R191: the reductions combine the active lanes in the tree of R190, latency 6; the FP ones take 63 steps of the generator in
mode 4 and give the canonical NaN when an active lane holds a NaN. -/
def Obligations.VectorReductions : Prop :=
  (∀ (s : State) (d a : Reg) (q : PReg),
     let t := fun j => if (s.cur.rk q.toNat).getLsbD j then some (lane (s.cur.rv a) j) else none
     let nan := ∃ j < 64, (s.cur.rk q.toNat).getLsbD j = true ∧ f32 (lane (s.cur.rv a) j) = .nan
     LandsG (.vredaddI32 d a q) s d 6 (BitVec.ofInt 64 ((treeOf (fun _ x y => x + y) t).getD 0).toInt) ∧
     LandsG (.vredmaxI32 d a q) s d 6
       (BitVec.ofInt 64 ((treeOf (fun _ x y => BitVec.ofInt 32 (max x.toInt y.toInt)) t).getD 0x80000000#32).toInt) ∧
     (nan → exec (.vredaddF32 d a q) s = .next ((s.inFlight (.g d) (.w 0x7FC00000) 6).drawn 63) ∧
       exec (.vredmaxF32 d a q) s = .next ((s.inFlight (.g d) (.w 0x7FC00000) 6).drawn 63)) ∧
     (¬nan → exec (.vredaddF32 d a q) s = .next ((s.inFlight (.g d) (.w (BitVec.ofNat 64
         ((treeOf (fun n x y => toF32 (s.rounding n) ((f32 x).add (f32 y) s.cur.mode)) t).getD 0).toNat)) 6).drawn 63) ∧
       exec (.vredmaxF32 d a q) s = .next ((s.inFlight (.g d) (.w (BitVec.ofNat 64
         ((treeOf (fun _ x y => toF32 rne ((f32 x).max (f32 y))) t).getD 0xFF800000#32).toNat)) 6).drawn 63))) ∧
  ∀ (d a : Reg) (q : PReg) (stop : Bool),
    ∀ x ∈ [(Instr.vredaddI32 d a q, 42, 0), (.vredaddF32 d a q, 42, 1), (.vredmaxF32 d a q, 42, 2), (.vredmaxI32 d a q, 42, 3)],
      ∃ w, encode stop x.1 = some w ∧ majorOf w = x.2.1 ∧ (w.extractLsb' 0 3).toNat = x.2.2

/-- 10 R192: permutes, insertion, selection and constants, latency 3 (`vli` 2). 10 R193: the predicate instructions on whole 64-bit
predicates, where k0 reads all ones. -/
def Obligations.VectorMovesAndPredicates : Prop :=
  ((∀ (s : State) (d a b : Reg) (q : PReg),
     let k := s.cur.rk q.toNat
     let n := (s.cur.rg b).toNat % 64
     (∃ v, LandsV (.vperm d a b q) s d 3 v ∧ Lanes k v fun j => lane (s.cur.rv a) ((lane (s.cur.rv b) j).toNat % 64)) ∧
     (∃ v, LandsV (.vrot d a b q) s d 3 v ∧ Lanes k v fun j => lane (s.cur.rv a) ((j + n) % 64)) ∧
     (∃ v, LandsV (.vbcast d a q) s d 3 v ∧ Lanes k v fun _ => BitVec.ofNat 32 (s.cur.rg a).toNat) ∧
     LandsG (.vext d a b) s d 3 (BitVec.ofNat 64 (lane (s.cur.rv a) n).toNat) ∧
     (∃ v, LandsV (.vins d a b) s d 3 v ∧
       ∀ j < 64, lane v j = if j = n then BitVec.ofNat 32 (s.cur.rg a).toNat else lane (s.cur.rv d) j) ∧
     (∃ v, LandsV (.vsel d a b q) s d 3 v ∧
       ∀ j < 64, lane v j = if k.getLsbD j then lane (s.cur.rv a) j else lane (s.cur.rv b) j)) ∧
   ∀ (s : State) (d : Reg) (i : BitVec 18),
     ∃ v, LandsV (.vli d i) s d 2 v ∧ ∀ j < 64, lane v j = BitVec.ofInt 32 i.toInt) ∧
  ((∀ (s : State) (d a b : Reg), let x := s.cur.rk a.toNat; let y := s.cur.rk b.toNat
     LandsK (.pand d a b) s d 1 (x &&& y) ∧ LandsK (.por d a b) s d 1 (x ||| y) ∧ LandsK (.pxor d a b) s d 1 (x ^^^ y) ∧
     LandsK (.pnot d a) s d 1 (BitVec.ofNat 64 (2 ^ 64 - 1 - x.toNat)) ∧ LandsK (.pset d a) s d 1 (s.cur.rg a) ∧
     LandsG (.pany d a) s d 2 (if x.toNat = 0 then 0 else 1) ∧
     LandsG (.pall d a) s d 2 (if x.toNat = 2 ^ 64 - 1 then 1 else 0) ∧
     LandsG (.ppop d a) s d 2 (BitVec.ofNat 64 ((List.range 64).countP fun j => x.getLsbD j))) ∧
   ∀ t : Strand, t.rk 0 = BitVec.allOnes 64)

/-! ## Landing, commit and control flow -/

/-- 03 R57, R48: at the end of its due step a result lands in the register it names, and only there; g0 and k0 discard it; a result due
later stays in flight. 06 R112: a result issued before the region's `ckpt` lands in the snapshot too; one issued in the region does not.
04 R75, R55, R56: the idle steps of `nop` add up in its bundle; each of them, as an event of a strand whose context runs, advances the
step counter by one and lands what is due at it. -/
def Obligations.ResultsLand : Prop :=
  (∀ (s : State) (t : StrandId) (rest : List Exposed) (r : Reg) (x : W64) (v : VReg) (issued : W64) (p : Bool),
     let st := s.strand t
     (∀ e ∈ rest, e.due ≠ st.step) →
     (st.inflight = rest ++ [⟨.g r, .w x, st.step, issued, p⟩] → ∃ s', exec (.exposedResultLands t) s = .next s' ∧
       (s'.strand t).inflight = rest ∧ (∀ n : Reg, (s'.strand t).rg n = if n = r ∧ r ≠ 0 then x else st.rg n) ∧
       (∀ n, (s'.strand t).rv n = st.rv n) ∧ (∀ n, (s'.strand t).rk n = st.rk n) ∧ s'.mem = s.mem ∧
       ∀ u, u.key ≠ t.key → s'.strand u = s.strand u) ∧
     (st.inflight = rest ++ [⟨.v r, .v v, st.step, issued, p⟩] → ∃ s', exec (.exposedResultLands t) s = .next s' ∧
       (s'.strand t).inflight = rest ∧ (∀ n : Reg, (s'.strand t).rv n = if n = r then v else st.rv n) ∧
       (∀ n, (s'.strand t).rg n = st.rg n) ∧ (∀ n, (s'.strand t).rk n = st.rk n) ∧ s'.mem = s.mem ∧
       ∀ u, u.key ≠ t.key → s'.strand u = s.strand u) ∧
     (st.inflight = rest ++ [⟨.k r, .w x, st.step, issued, p⟩] → r.toNat < 8 → ∃ s', exec (.exposedResultLands t) s = .next s' ∧
       (s'.strand t).inflight = rest ∧ (∀ n < 8, (s'.strand t).rk n = if n = r.toNat ∧ n ≠ 0 then x else st.rk n) ∧
       (∀ n, (s'.strand t).rg n = st.rg n) ∧ (∀ n, (s'.strand t).rv n = st.rv n) ∧ s'.mem = s.mem ∧
       ∀ u, u.key ≠ t.key → s'.strand u = s.strand u)) ∧
  (∀ (s : State) (t : StrandId) (reg : Region) (r : Reg) (x : W64) (issued : W64),
     (s.strand t).region = some reg → (s.strand t).inflight = [⟨.g r, .w x, (s.strand t).step, issued, false⟩] → r ≠ 0 →
       ∃ s' reg', exec (.exposedResultLands t) s = .next s' ∧ (s'.strand t).region = some reg' ∧ (s'.strand t).rg r = x ∧
         reg'.snap.g = (if stepBefore issued reg.step then reg.snap.g.set r.toNat x r.isLt else reg.snap.g) ∧
         reg'.held = reg.held ∧ reg'.guards = reg.guards) ∧
  ((∀ (s : State) (i : BitVec 12), exec (.nop i) s = .next (s.gathering { s.iss with idle := s.iss.idle + i.toNat })) ∧
   ∀ (s : State) (t : StrandId), 0 < (s.strand t).idle → s.runs t.ctxId = true → s.presents t = true → let st := s.strand t
     (st.inflight = [] → exec (.idleStep t) s =
       .next { s with strands := tset s.strands t.key { st with step := st.step + 1, idle := st.idle - 1 } }) ∧
     ∀ (rest : List Exposed) (r : Reg) (x : W64) (issued : W64) (p : Bool), (∀ e ∈ rest, e.due ≠ st.step + 1) →
       st.inflight = rest ++ [⟨.g r, .w x, st.step + 1, issued, p⟩] → ∃ s', exec (.idleStep t) s = .next s' ∧ let y := s'.strand t
         y.step = st.step + 1 ∧ y.idle = st.idle - 1 ∧ y.inflight = rest ∧ (∀ n : Reg, y.rg n = if n = r ∧ r ≠ 0 then x else st.rg n) ∧
         y.v = st.v ∧ y.k = st.k ∧ y.pc = st.pc ∧ s'.mem = s.mem ∧ ∀ u, u.key ≠ t.key → s'.strand u = s.strand u)

/-- 04 R84, R85, 07 R136: where a bundle that commits leaves the strand: at the target of a branch, which ends every frame whose range it
leaves; at the start of the innermost frame that loops back, a bundle that ends both frames testing the inner one first and the outer one
once that has ended; or at the bundle that follows. That a frame's range is start to address A of its `loop`, that frame 1 is the inner
one, and what the bundle of a `loop` does that is itself an outer frame's body end, is the model's choice (DESIGN CHOICE, log 57). 04 R81,
R83: `loop` takes the innermost free frame with the count of its register; a third loop and a body that ends before it begins are ILLEGAL;
a count of 0 skips the body. -/
def Obligations.NextBundle : Prop :=
  (∀ (t : Strand) (b : Issue), b.sets = [] →
     (∀ a, b.transfer = .to a → (t.committed b).pc = a ∧
       (∀ j : Fin 2, (t.frame j).active → let f := (t.committed b).frame j
         if (t.frame j).start.toNat ≤ a.toNat ∧ a.toNat ≤ (t.frame j).stop.toNat then
           f = t.frame j ∧ (t.committed b).lc j = t.lc j
         else f.active = false ∧ (t.committed b).lc j = 0)) ∧
     (b.transfer = .none → ∀ n start stop (j : Fin 2), b.loop_ = some (j, n, start, stop) →
       (t.committed b).pc = start ∧ (t.committed b).lc j = n ∧ (t.committed b).frame j = ⟨true, start, stop⟩ ∧
       ∀ k : Fin 2, k ≠ j → (t.committed b).frame k = t.frame k ∧ (t.committed b).lc k = t.lc k) ∧
     ∀ next, b.transfer = .skip next ∨ (b.transfer = .none ∧ b.loop_ = none ∧ next = b.following) →
       let x := t.committed b
       let ends := fun j => t.endsFrame j b.addr b.following
       (t.f1.active = false →
         (ends 0 = false → x.pc = next ∧ x.lc0 = t.lc0 ∧ x.f0 = t.f0) ∧
         (ends 0 = true → 1 < t.lc0.toNat → x.pc = t.f0.start ∧ x.lc0 = t.lc0 - 1 ∧ x.f0 = t.f0) ∧
         (ends 0 = true → t.lc0.toNat ≤ 1 → x.pc = next ∧ x.lc0 = 0 ∧ x.f0.active = false)) ∧
       (t.f1.active = true →
         (ends 1 = false → x.pc = next ∧ x.lc0 = t.lc0 ∧ x.lc1 = t.lc1 ∧ x.f0 = t.f0 ∧ x.f1 = t.f1) ∧
         (ends 1 = true → 1 < t.lc1.toNat →
           x.pc = t.f1.start ∧ x.lc1 = t.lc1 - 1 ∧ x.f1 = t.f1 ∧ x.lc0 = t.lc0 ∧ x.f0 = t.f0) ∧
         (ends 1 = true → t.lc1.toNat ≤ 1 → x.lc1 = 0 ∧ x.f1.active = false ∧
           (ends 0 = false → x.pc = next ∧ x.lc0 = t.lc0 ∧ x.f0 = t.f0) ∧
           (ends 0 = true → 1 < t.lc0.toNat → x.pc = t.f0.start ∧ x.lc0 = t.lc0 - 1 ∧ x.f0 = t.f0) ∧
           (ends 0 = true → t.lc0.toNat ≤ 1 → x.pc = next ∧ x.lc0 = 0 ∧ x.f0.active = false)))) ∧
  (∀ (s : State) (c : Reg) (i : BitVec 18),
     let t := s.cur
     let n := t.rg c
     let stop := BitVec.ofInt 64 (s.iss.addr.toNat + 4 * i.toInt)
     (t.f0.active = true → t.f1.active = true → Finds (.loop c i) s 1 0 0) ∧
     (¬(t.f0.active = true ∧ t.f1.active = true) → 4 * i.toInt < (s.iss.following - s.iss.addr).toNat → Finds (.loop c i) s 1 0 0) ∧
     (¬(t.f0.active = true ∧ t.f1.active = true) → ((s.iss.following - s.iss.addr).toNat : Int) ≤ 4 * i.toInt →
       (n ≠ 0 → exec (.loop c i) s = .next (s.gathering { s.iss with
         loop_ := some (if t.f0.active then 1 else 0, n, s.iss.following, stop) })) ∧
       (n = 0 → ∀ next, s.walkBody s.turn s.iss.following stop (2 ^ 56) = .ok next →
         exec (.loop c i) s = .next (s.gathering { s.iss with transfer := .skip next }))))

/-- 04 R76, R79, R80: what a branch, a call and a jump record for the commit; a jump to a misaligned address raises ALIGN, one outside the
global window BOUNDS. 07 R141: `brq` branches on all ones, falls through on 0, traps NONUNIFORM with the predicate on anything else; a
register above k7 is ILLEGAL. -/
def Obligations.Branches : Prop :=
  ((∀ (s : State) (c : Reg) (i : BitVec 18), let a := BitVec.ofInt 64 (s.iss.addr.toNat + 4 * i.toInt)
     exec (.brNz c i) s = .next (s.gathering { s.iss with
       transfer := if s.cur.rg c ≠ 0 then .to a else .none }) ∧
     exec (.brZ c i) s = .next (s.gathering { s.iss with
       transfer := if s.cur.rg c = 0 then .to a else .none }) ∧
     exec (.jal c i) s = .next ((s.inFlight (.g c) (.w s.iss.following) 1).gathering { s.iss with transfer := .to a })) ∧
   ∀ (s : State) (a : Reg), let x := s.cur.rg a
     (x.toNat % 4 ≠ 0 → Finds (.jr a) s 4 0 x) ∧
     (x.toNat % 4 = 0 → x.toNat < 2 ^ 32 ∨ 2 ^ 57 ≤ x.toNat → Finds (.jr a) s 6 0 x) ∧
     (x.toNat % 4 = 0 → 2 ^ 32 ≤ x.toNat → x.toNat < 2 ^ 57 →
       exec (.jr a) s = .next (s.gathering { s.iss with transfer := .to x }))) ∧
  (∀ (s : State) (c : Reg) (i : BitVec 18), let k := s.cur.rk c.toNat
     (8 ≤ c.toNat → IllegalHere (.brq c i) s) ∧
     (c.toNat < 8 → k = BitVec.allOnes 64 → exec (.brq c i) s = .next (s.gathering { s.iss with
       transfer := .to (BitVec.ofInt 64 (s.iss.addr.toNat + 4 * i.toInt)) })) ∧
     (c.toNat < 8 → k = 0 → exec (.brq c i) s = .next (s.gathering { s.iss with transfer := .none })) ∧
     (c.toNat < 8 → k ≠ BitVec.allOnes 64 → k ≠ 0 → Finds (.brq c i) s 3 0 k))

/-- 04 R87 to R90, 07 R142: yield, exit, trap and the joins record what follows the commit of their bundle; in a region they roll back
with EXCLUDED. 04 R87, R88, R89, 12 R219: what the commit of such a bundle does: `exit` discards the results that have not landed and ends
the strand, once its interlocked operations have returned; `yield` offers the issue to the picker; `trap` takes BREAK, whose record names
the bundle, the code and the next bundle as restart. -/
def Obligations.StrandEnds : Prop :=
  (∀ (s : State) (c : BitVec 12),
     (s.cur.region = none →
       exec .yield s = .next (s.gathering { s.iss with transfer := .yield }) ∧
       exec .exit s = .next (s.gathering { s.iss with transfer := .exit }) ∧
       exec (.trap c) s = .next (s.gathering { s.iss with transfer := .break_ c }) ∧
       exec .join s = .next (s.gathering { s.iss with transfer := .join false }) ∧
       exec .joinAll s = .next (s.gathering { s.iss with transfer := .join true })) ∧
     (s.cur.region ≠ none → ∀ i ∈ [Instr.yield, .exit, .trap c, .join, .joinAll], RollsBack i s 4)) ∧
  (∀ (s : State) (t : StrandId) (b : Issue),
     (b.transfer = .exit → let s' := s.afterCommit t b
       ((s.strand t).pend = [] → (s'.strand t).exited = true) ∧
       ((s.strand t).pend ≠ [] → (s'.strand t).exiting = true ∧ (s'.strand t).exited = (s.strand t).exited) ∧
       (s'.strand t).inflight = [] ∧ s'.mem = s.mem) ∧
     (b.transfer = .yield → (s.afterCommit t b).ctx t.ctxId = { s.ctx t.ctxId with yielded := true }) ∧
     (∀ c, b.transfer = .break_ c → (s.strand t).lastFault = none →
       let s' := s.afterCommit t b; let r := (s'.strand t).trap
       r.cause = 12 ∧ r.mask = 0 ∧ r.sub = 0 ∧ r.bundle = b.addr ∧ r.faddr = BitVec.ofNat 64 c.toNat ∧ r.step = (s.strand t).step ∧
       r.region = 0 ∧ r.restart = (s.strand t).pc ∧ (s'.strand t).trapping = true ∧ (s'.strand t).attached = false ∧
       (s'.ctx t.ctxId).suspending = true ∧ s'.mem = s.mem))

/-! ## Speculative regions and traps -/

/-- 06 R110, R111, R117, 18 R308: `ckpt` opens a region with a snapshot of the items of R111 and its recovery address; in an open region,
and with SPEC = 0, it rolls back with EXCLUDED. 06 R114, R116, R117, R121: outside a region `commit`, `guard`, `assert` and `abort` do
nothing; in one, `commit` closes it, `guard` enters its range clipped at 2^64 (nothing for length 0, OVERFLOW for a seventeenth), `assert`
of 0 rolls back with ASSUME and `abort` with ABORT. -/
def Obligations.RegionsOpenAndClose : Prop :=
  (∀ (s : State) (i : BitVec 18), let t := s.cur
     (t.region ≠ none → RollsBack (.ckpt i) s 4) ∧
     (t.region = none →
       let r : Region := {
         snap := { g := t.g, v := t.v, k := t.k, gp := t.gp, vp := t.vp, kp := t.kp, f0 := t.f0, f1 := t.f1, lc0 := t.lc0,
                   lc1 := t.lc1, rmode := t.rmode, lfsr := t.lfsr, jbudget := t.jbudget }
         recovery := BitVec.ofInt 64 (s.iss.addr.toNat + 4 * i.toInt), bundle := s.iss.addr, step := t.step, guards := [], held := [] }
       let s1 := { s with strands := tset s.strands s.turn.key { t with region := some r } }
       ((s.bindOf s.turn.ctxId).spec = true → exec (.ckpt i) s = .next s1) ∧
       ((s.bindOf s.turn.ctxId).spec = false →
         exec (.ckpt i) s = .next (s1.gathering { s.iss with rollbacks := s.iss.rollbacks ++ [(s.iss.pos, 4)] })))) ∧
  (∀ (s : State) (a b : Reg), let t := s.cur
     (t.region = none → ∀ i ∈ [Instr.commit, .guard a b, .assert a, .abort], exec i s = .next s) ∧
     (∀ r, t.region = some r →
       exec .commit s = .next (s.gathering { s.iss with commits := true }) ∧
       RollsBack .abort s 3 ∧
       (t.rg a = 0 → RollsBack (.assert a) s 2) ∧ (t.rg a ≠ 0 → exec (.assert a) s = .next s) ∧
       (t.rg b = 0 → exec (.guard a b) s = .next s) ∧
       (t.rg b ≠ 0 → 16 ≤ r.guards.length + s.iss.guards.length → RollsBack (.guard a b) s 5) ∧
       (t.rg b ≠ 0 → r.guards.length + s.iss.guards.length < 16 →
         exec (.guard a b) s = .next (s.gathering { s.iss with
           guards := s.iss.guards ++ [((t.rg a).toNat, min ((t.rg a).toNat + (t.rg b).toNat) (2 ^ 64))] }))))

/-- 06 R124, R111, R125: a rollback restores exactly the items of R111, discards the results issued in the region, records its cause and
bundle, detaches the strand and leaves memory alone; causes 1 to 6 go on at the recovery address, 7 to 9 at the `ckpt` bundle; except
under FREEZE the rollback bundle counts as a step. Of a lockstep pair the other copy restores its own items to the same place (22 R362;
DEDUCED, log 88). -/
def Obligations.RollbackRestores : Prop :=
  ∀ (s : State) (t : StrandId) (r : Region) (cause : Nat) (bundle : W64),
    (s.strand t).region = some r → 1 ≤ cause → cause ≤ 9 → (∀ e ∈ (s.strand t).inflight, stepBefore e.issued r.step = false) →
      let x := (s.rollback t cause bundle).strand t
      x.g = r.snap.g ∧ x.v = r.snap.v ∧ x.k = r.snap.k ∧ x.f0 = r.snap.f0 ∧ x.f1 = r.snap.f1 ∧ x.lc0 = r.snap.lc0 ∧
      x.lc1 = r.snap.lc1 ∧ x.rmode = r.snap.rmode ∧ x.lfsr = r.snap.lfsr ∧ x.jbudget = r.snap.jbudget ∧
      x.inflight = [] ∧ x.region = none ∧ x.attached = false ∧ x.rbcause = BitVec.ofNat 4 cause ∧ x.rbaddr = bundle ∧
      x.pc = (if cause ≤ 6 then r.recovery else r.bundle) ∧
      x.step = (if cause = 8 then (s.strand t).step else (s.strand t).step + 1) ∧
      x.fmt = (s.strand t).fmt ∧ x.hintdrop = (s.strand t).hintdrop ∧
      (s.rollback t cause bundle).mem = s.mem ∧ (s.rollback t cause bundle).writes = s.writes ∧
      ((s.bindOf t.ctxId).lock = false → ∀ u, u.key ≠ t.key → (s.rollback t cause bundle).strand u = s.strand u) ∧
      ((s.bindOf t.ctxId).lock = true → let m := s.mateStrand t
        (∀ u, u.key ≠ t.key → u.key ≠ m.key → (s.rollback t cause bundle).strand u = s.strand u) ∧
        ∀ q, (s.strand m).region = some q → let y := (s.rollback t cause bundle).strand m
          y.g = q.snap.g ∧ y.v = q.snap.v ∧ y.k = q.snap.k ∧ y.region = none ∧ y.rbcause = x.rbcause ∧ y.pc = x.pc ∧
          y.fmt = (s.strand m).fmt)

/-- 12 R219, R220, R222: outside a region a trap detaches the strand and makes its record: cause, mask, SUB, FADDR, the bundle as both
BUNDLE and RESTART, the step it would have had; registers, step counter and memory stay, and its context begins to suspend. 06 R127, 12
R222: in a region the strand rolls back with TRAP first; the record holds %region of the offending bundle and the `ckpt` bundle as
restart. 12 R236: the sixteenth identical fault in a row is STUCK and parks the context. -/
def Obligations.TrapsTaken : Prop :=
  (∀ (s : State) (t : StrandId) (cause mask : BitVec 8) (sub : BitVec 4) (faddr : W64),
     (s.strand t).region = none → (s.strand t).lastFault ≠ some ((s.strand t).pc, cause, sub, faddr) →
       let s' := s.takeTrap t cause mask sub faddr; let x := s'.strand t; let old := s.strand t
       x.trap.cause = cause ∧ x.trap.mask = mask ∧ x.trap.sub = sub ∧ x.trap.faddr = faddr ∧ x.trap.bundle = old.pc ∧
       x.trap.restart = old.pc ∧ x.trap.step = old.step + 1 ∧ x.trap.region = 0 ∧ x.trap.repeat_ = 1 ∧ x.trap.valid = false ∧
       x.trapping = true ∧ x.attached = false ∧ x.pc = old.pc ∧ x.step = old.step ∧ x.g = old.g ∧ x.v = old.v ∧ x.k = old.k ∧
       x.inflight = old.inflight ∧ (s'.ctx t.ctxId).suspending = true ∧ s'.mem = s.mem ∧
       ∀ u, u.key ≠ t.key → s'.strand u = s.strand u) ∧
  (∀ (s : State) (t : StrandId) (r : Region) (cause mask : BitVec 8) (sub : BitVec 4) (faddr : W64),
     (s.strand t).region = some r → (s.strand t).lastFault = none → (s.strand t).inflight = [] →
       let s' := s.takeTrap t cause mask sub faddr; let x := s'.strand t; let old := s.strand t
       x.g = r.snap.g ∧ x.rbcause = 7 ∧ x.rbaddr = old.pc ∧ x.region = none ∧ x.pc = r.bundle ∧ x.step = old.step + 1 ∧
       x.trap.cause = cause ∧ x.trap.bundle = old.pc ∧ x.trap.restart = r.bundle ∧ x.trap.step = old.step + 1 ∧
       x.trap.region.toNat = (1 + 2 * r.guards.length + 256 * min (old.step + 1 - r.step).toNat 0x1FFFF) % 2 ^ 32 ∧
       (s'.ctx t.ctxId).suspending = true ∧ s'.mem = s.mem) ∧
  (∀ (s : State) (t : StrandId) (cause mask : BitVec 8) (sub : BitVec 4) (faddr : W64),
     (s.strand t).region = none → (s.strand t).lastFault = some ((s.strand t).pc, cause, sub, faddr) →
       (15 ≤ (s.strand t).repeats →
         ((s.takeTrap t cause mask sub faddr).strand t).trap.cause = 11 ∧
         ((s.takeTrap t cause mask sub faddr).ctx t.ctxId).parked = true) ∧
       ((s.strand t).repeats < 15 →
         ((s.takeTrap t cause mask sub faddr).strand t).trap.cause = cause ∧
         ((s.takeTrap t cause mask sub faddr).strand t).trap.repeat_ = BitVec.ofNat 5 ((s.strand t).repeats + 1) ∧
         ((s.takeTrap t cause mask sub faddr).ctx t.ctxId).parked = (s.ctx t.ctxId).parked))

/-- 12 R220: a trap record is 64 bytes at 64 × core in the save area; the write changes no other byte. 12 R221: the resume of a strand
whose record is valid clears VALID, leaves the record's other fields, and continues the strand detached at the RESTART that its record in
memory holds; a strand without a valid record is left alone. -/
def Obligations.TrapRecordAndReturn : Prop :=
  (∀ (s : State) (t : StrandId), Memory.wf s.mem = true → let a := (s.bindOf t.ctxId).save.toNat + 64 * t.core.val
     let r := (s.strand t).trap; let m := (s.storeTrap t).mem
     memWord m (a + 8) = r.bundle ∧ memWord m (a + 16) = r.faddr ∧ memWord m (a + 24) = r.step ∧
     memWord m (a + 32) = BitVec.ofNat 64 r.region.toNat ∧ memWord m (a + 40) = r.restart ∧
     memWord m (a + 48) = 0 ∧ memWord m (a + 56) = 0 ∧
     (memWord m a).toNat = r.cause.toNat + 2 ^ 8 * r.mask.toNat + 2 ^ 16 * r.sub.toNat + 2 ^ 20 * r.reissue.toNat +
       2 ^ 22 * r.replay.toNat + 2 ^ 29 * r.repeat_.toNat + 2 ^ 34 * r.valid.toNat ∧
     ∀ b, b < a ∨ a + 64 ≤ b → memRead m b = memRead s.mem b) ∧
  (∀ (s : State) (t : StrandId), let old := s.strand t; let x := (s.resumeStrand t).strand t
     (old.trap.valid = false → s.resumeStrand t = s) ∧
     (old.trap.valid = true →
       let a := s.deviceWord ((s.bindOf t.ctxId).save.toNat + 64 * t.core.val + 40)
       x.pc = a ∧ x.attached = false ∧ x.queue = [] ∧ x.trap = { old.trap with valid := false, restart := a } ∧
       x.step = old.step ∧ x.g = old.g ∧ x.v = old.v ∧ x.k = old.k ∧ x.inflight = old.inflight ∧
       ∀ u, u.key ≠ t.key → (s.resumeStrand t).strand u = s.strand u))

/-! ## Memory accesses -/

/-- 05 R92 to R95, R99, R101: the scalar loads: ALIGN, then the fault of the window or the translation, else the bytes at ga + size ×
imm9: exposed with latency 3 through the local window, interlocked through any other. A load that would take some of its bytes from a
store withheld for lockstep and others from elsewhere is held until that store is confirmed (14 R245; DESIGN CHOICE, log 38). 05 R92, R99,
R97: the register value of n loaded bytes: little-endian, extended with the sign or with zeros; poisoned when one of its bytes is. 05
R108, 14 R244: a byte of a load of the strand's own scratchpad, with no region open, nothing withheld and no write on the way, is the byte
that the scratchpad holds, read as the bundle issues; any other byte waits for its moment, and what it then returns is, with no write on
the way, the byte that its scratchpad holds; with a held store over it, it is the youngest held byte. Of a frame that is mapped in two
ways a read returns a free value, whatever is still to be written there (21 R339, log 24). -/
def Obligations.ScalarLoads : Prop :=
  (∀ (s : State) (d a : Reg) (i : BitVec 9),
     ∀ x ∈ [(Instr.ldbI d a i, (1 : Nat), true), (.ldbN d a i, 1, false), (.ldhI d a i, 2, true), (.ldhN d a i, 2, false),
            (.ldwI d a i, 4, true), (.ldwN d a i, 4, false), (.ldd d a i, 8, false)],
       let va := BitVec.ofInt 64 ((s.cur.rg a).toNat + x.2.1 * i.toInt)
       (va.toNat % x.2.1 ≠ 0 → Finds x.1 s 4 0 va) ∧
       (va.toNat % x.2.1 = 0 → ∀ e, s.resolve s.turn va needR = .error e → Finds x.1 s e.1.toNat e.2.1.toNat e.2.2) ∧
       (va.toNat % x.2.1 = 0 → ∀ p, s.resolve s.turn va needR = .ok p → s.needBanks [p] = s → s.forwards [p] x.2.1 = s →
         s.tears (.scalar x.2.1 x.2.2) [(0, p)] x.2.1 = true → HeldFor x.1 s .lockstep) ∧
       (va.toNat % x.2.1 = 0 → ∀ p, s.resolve s.turn va needR = .ok p → s.needBanks [p] = s → s.forwards [p] x.2.1 = s →
         s.tears (.scalar x.2.1 x.2.2) [(0, p)] x.2.1 = false → let bytes := s.loadBytes p x.2.1
         (va.toNat < 0x80000 → exec x.1 s =
           .next (s.inFlightP (.g d) (loadValue (.scalar x.2.1 x.2.2) bytes).1 3 (loadValue (.scalar x.2.1 x.2.2) bytes).2)) ∧
         (0x80000 ≤ va.toNat → exec x.1 s = .next ((s.touch [va]).awaiting (.g d) (.load (.scalar x.2.1 x.2.2) bytes)
           (if allRead bytes then some (loadValue (.scalar x.2.1 x.2.2) bytes) else none) false)))) ∧
  (∀ (n : Nat) (signed : Bool) (f : Nat → Byte) (q : Nat → Bool), n ∈ [1, 2, 4, 8] →
     let v := (List.range n).foldr (fun j acc => (f j).toNat + 256 * acc) 0
     loadValue (.scalar n signed) ((List.range n).map fun j => .got (f j) (q j)) =
       (.w (if signed then BitVec.ofInt 64 (if 2 ^ (8 * n - 1) ≤ v then (v : Int) - 2 ^ (8 * n) else v) else BitVec.ofNat 64 v),
         decide (∃ j < n, q j = true))) ∧
  ((∀ (s : State) (core off : Nat) (ms ro : Bool) (cp : Nat), s.cur.unconfirmed = [] →
     let p : Place := ⟨.spad core off, ms, cp, ro⟩
     (s.cur.region = none → s.writes = [] → core = s.turn.coreId.key → s.loadByte p = .got (s.spadRead core off) (s.spadPoisoned core off)) ∧
     (s.cur.region = none → core ≠ s.turn.coreId.key → s.loadByte p = .at_ p) ∧
     (∀ pa, s.cur.region = none → s.loadByte ⟨.phys pa, ms, cp, ro⟩ = .at_ ⟨.phys pa, ms, cp, ro⟩) ∧
     (s.writes = [] → ∀ t n, s.view t n p = some (s.spadRead core off, s.spadPoisoned core off, none))) ∧
   (∀ (s : State) (p : Place) (hs : List Held) (h : Held) (b : Byte),
     s.cur.withheld ++ s.cur.heldStores = hs ++ [h] → h.at_.loc = p.loc → h.bytes = [(0, b)] → (∀ pa, p.loc = .phys pa → s.mixed pa = false) →
       s.loadByte p = .got b false) ∧
   ∀ (s : State) (pa : Nat) (ms ro : Bool) (cp : Nat), s.mixed pa = true → let p : Place := ⟨.phys pa, ms, cp, ro⟩
     s.loadByte p = .at_ p ∧ (s.hostGone pa = false → ∀ t n, s.view t n p = some (s.frameByte pa, s.devicePoison pa, none)))

/-- 05 R92 to R94, R99: the scalar stores: ALIGN, then the fault of the window or the translation, else one store of the low bytes of gd,
little-endian, at ga + size × imm9, which joins the bundle's stores. 05 R100, R101, R94: the vector accesses: `vld` and `vst` need a
multiple of 32 unless every lane is inactive; only active lanes are checked and accessed; an access that runs past the top of the address
space is BOUNDS at its first active lane; `vld` through the local window has latency 5, everything else that loads is interlocked; `vsts`
stores lane by lane in increasing order. A load of which a piece would be torn between a store withheld for lockstep and elsewhere is held
(14 R245; DESIGN CHOICE, log 38). The bytes that a `vst` adds are those of its active lanes, each at its lane's offset from the store's
address, no others, and each of its stores lies within one aligned chunk of 16 bytes. -/
def Obligations.StoresAndVectorAccesses : Prop :=
  (∀ (s : State) (d a : Reg) (i : BitVec 9),
     ∀ x ∈ [(Instr.stb d a i, (1 : Nat)), (.sth d a i, 2), (.stw d a i, 4), (.std d a i, 8)],
       let va := BitVec.ofInt 64 ((s.cur.rg a).toNat + x.2 * i.toInt)
       (va.toNat % x.2 ≠ 0 → Finds x.1 s 4 0 va) ∧
       (va.toNat % x.2 = 0 → ∀ e, s.resolve s.turn va needW = .error e → Finds x.1 s e.1.toNat e.2.1.toNat e.2.2) ∧
       (va.toNat % x.2 = 0 → ∀ p, s.resolve s.turn va needW = .ok p → s.needBanks [p] = s →
         Stores x.1 s va p ((List.range x.2).map fun j => BitVec.ofNat 8 ((s.cur.rg d).toNat / 256 ^ j)))) ∧
  (∀ (s : State) (d a b : Reg) (i : BitVec 9) (q : PReg),
     let k := s.cur.rk q.toNat
     let va := BitVec.ofInt 64 ((s.cur.rg a).toNat + 32 * i.toInt)
     let s1 := s.touch [va, va + 252]
     let active := (List.range 64).filter fun j => k.getLsbD j
     let row := active.map fun j => (j, va + BitVec.ofNat 64 (4 * j))
     let spread := active.map fun j => (j, BitVec.ofInt 64 ((s.cur.rg a).toNat + (lane (s.cur.rv b) j).toInt))
     (k ≠ 0 → va.toNat % 32 ≠ 0 → Finds (.vld d a i q) s 4 0 va ∧ Finds (.vst d a i q) s 4 0 va) ∧
     (k = 0 → exec (.vst d a i q) s = .next s) ∧
     (k = 0 → va.toNat < 0x80000 → exec (.vld d a i q) s = .next (s.inFlight (.v d) (.v 0) 5)) ∧
     (k = 0 → 0x80000 ≤ va.toNat → exec (.vld d a i q) s =
       .next (s.awaiting (.v d) (.load .vector (List.replicate 256 .zero)) (some (.v 0, false)) false)) ∧
     (va.toNat % 32 = 0 → 2 ^ 64 < va.toNat + 256 → ∀ j rest, active = j :: rest →
       Finds (.vld d a i q) s 6 0 (va + BitVec.ofNat 64 (4 * j)) ∧ Finds (.vst d a i q) s 6 0 (va + BitVec.ofNat 64 (4 * j))) ∧
     (k ≠ 0 → va.toNat % 32 = 0 → va.toNat + 256 ≤ 2 ^ 64 →
       (∀ e, s.lanes s.turn row 4 needR = .error e → Finds (.vld d a i q) s e.1.toNat e.2.1.toNat e.2.2) ∧
       ∀ e, s.lanes s.turn row 4 needW = .error e → Finds (.vst d a i q) s e.1.toNat e.2.1.toNat e.2.2) ∧
     (k ≠ 0 → va.toNat % 32 = 0 → va.toNat + 256 ≤ 2 ^ 64 → ∀ ps, s.lanes s.turn row 4 needR = .ok ps →
       s.needBanks (ps.map (·.2)) = s → s.forwards (ps.map (·.2)) 4 = s → s.tears .vector ps 4 = true → HeldFor (.vld d a i q) s .lockstep) ∧
     (k ≠ 0 → va.toNat % 32 = 0 → va.toNat + 256 ≤ 2 ^ 64 → ∀ ps, s.lanes s.turn row 4 needR = .ok ps →
       s.needBanks (ps.map (·.2)) = s → s.forwards (ps.map (·.2)) 4 = s → s.tears .vector ps 4 = false →
         let bytes := s.laneBytes ps
         (va.toNat < 0x80000 → exec (.vld d a i q) s = .next (s1.inFlightP (.v d) (loadValue .vector bytes).1 5 (loadValue .vector bytes).2)) ∧
         (0x80000 ≤ va.toNat → exec (.vld d a i q) s = .next (s1.awaiting (.v d) (.load .vector bytes)
           (if allRead bytes then some (loadValue .vector bytes) else none) false))) ∧
     (k ≠ 0 → va.toNat % 32 = 0 → va.toNat + 256 ≤ 2 ^ 64 → ∀ ps, s.lanes s.turn row 4 needW = .ok ps → s.needBanks (ps.map (·.2)) = s →
       exec (.vst d a i q) s = .next (s1.gathering { s1.iss with stores := s.iss.stores ++ vstChunks va k (s.cur.rv d) ps s.iss.pos }) ∧
       (∀ c ∈ vstChunks va k (s.cur.rv d) ps s.iss.pos, c.pos = s.iss.pos ∧ (c.va.toNat - va.toNat) % 4 = 0 ∧
         ps.lookup ((c.va.toNat - va.toNat) / 4) = some c.at_ ∧
         ∀ b ∈ c.bytes, let o := c.va.toNat - va.toNat + b.1
           o / 16 = (c.va.toNat - va.toNat) / 16 ∧ o < 256 ∧ k.getLsbD (o / 4) = true ∧
             b.2 = BitVec.ofNat 8 ((lane (s.cur.rv d) (o / 4)).toNat / 256 ^ (o % 4))) ∧
       ∀ o < 256, k.getLsbD (o / 4) = true →
         ∃ c ∈ vstChunks va k (s.cur.rv d) ps s.iss.pos, ∃ b ∈ c.bytes, c.va.toNat - va.toNat + b.1 = o) ∧
     (∀ ps, s.lanes s.turn spread 4 needR = .ok ps → s.needBanks (ps.map (·.2)) = s → s.forwards (ps.map (·.2)) 4 = s →
       s.tears .gather ps 4 = true → HeldFor (.vldg d a b q) s .lockstep) ∧
     (∀ ps, s.lanes s.turn spread 4 needR = .ok ps → s.needBanks (ps.map (·.2)) = s → s.forwards (ps.map (·.2)) 4 = s →
       s.tears .gather ps 4 = false → let bytes := s.laneBytes ps
       exec (.vldg d a b q) s = .next ((s.touch (spread.map (·.2))).awaiting (.v d) (.load .gather bytes)
         (if allRead bytes then some (loadValue .gather bytes) else none) false)) ∧
     (∀ ps, s.lanes s.turn spread 4 needW = .ok ps → s.needBanks (ps.map (·.2)) = s →
       exec (.vsts d a b q) s = .next ((s.touch (spread.map (·.2))).gathering { (s.touch (spread.map (·.2))).iss with
         stores := s.iss.stores ++ ps.map fun x =>
           { va := BitVec.ofInt 64 ((s.cur.rg a).toNat + (lane (s.cur.rv b) x.1).toInt), at_ := x.2
             bytes := (List.range 4).map fun j => (j, BitVec.ofNat 8 ((lane (s.cur.rv d) x.1).toNat / 256 ^ j)), clears := 0,
             pos := s.iss.pos } })) ∧
     (∀ e, s.lanes s.turn spread 4 needR = .error e → Finds (.vldg d a b q) s e.1.toNat e.2.1.toNat e.2.2) ∧
     (∀ e, s.lanes s.turn spread 4 needW = .error e → Finds (.vsts d a b q) s e.1.toNat e.2.1.toNat e.2.2))

/-- 05 R102, R104: a prefetch outside every window is dropped and counted; one into a scratchpad does nothing; one of a cacheable global
page with CP = 1 brings the line into the die's L2, or asks the line's home for it, when its set can take a line, and else does nothing.
05 R102, R103: a reservation of a range within one line brings the line into the die's L2, where its set has a place, and retains it for
the gang, from another gang that retained it before (DESIGN CHOICE, log 52); a length of 0 does nothing. 05 R105, R106, R107: `cop.wb` and
`cop.inv` of no bytes do nothing; more than 2^30 bytes is BOUNDS, whose FADDR is ga (DESIGN CHOICE, log 82), as is a range that leaves the
global window, at the first address that does; else `cop.inv` drops the cluster's own copies and the strand waits for the range operation,
which completes as an event of its own: `cop.wb` writes dirty L2 copies back and leaves them clean, `cop.inv` removes the die's copies of
lines homed elsewhere; lines of a failed home are left for the salvage (20 R336). -/
def Obligations.HintsAndRanges : Prop :=
  (∀ (s : State) (a : Reg), let va := s.cur.rg a; let b := s.bindOf s.turn.ctxId
     (windowOf va = .none → exec (.pref a) s = .next (s.gathering { s.iss with drops := s.iss.drops + 1 })) ∧
     (va.toNat < 0x80000 ∨ 0x100000 ≤ va.toNat ∧ va.toNat < 0x300000 → exec (.pref a) s = .next s) ∧
     (∀ e, isGlobal va = true → s.leafFor s.turn.clusterId b.asid b.gen va.toNat = .leaf e → pteR e = true → pteMs e = false →
       pteCp e = 1 → leafPa e va.toNat < hbmEnd → s.dielost = 0 →
         let line := leafPa e va.toNat / 128
         (s.makeRoom s.turn.die line = none → exec (.pref a) s = .next s) ∧
         (∀ s1, s.makeRoom s.turn.die line = some s1 →
           (∀ x, s1.sliceCopy s.turn.die line = some x → exec (.pref a) s = .next (s1.setLine s.turn.die line x)) ∧
           (s1.sliceCopy s.turn.die line = none →
             exec (.pref a) s = .next ((s1.request s.turn.die line .shared).wish s.turn.die line id))))) ∧
  (∀ (s : State) (a b : Reg), let va := (s.cur.rg a).toNat; let n := (s.cur.rg b).toNat; let k := s.bindOf s.turn.ctxId
     (n = 0 → exec (.res a b) s = .next s) ∧
     (∀ e, 0 < n → 2 ^ 32 ≤ va → va + n ≤ 2 ^ 57 → va / 128 = (va + n - 1) / 128 →
       s.leafFor s.turn.clusterId k.asid k.gen va = .leaf e → pteR e = true → pteMs e = false → pteCp e ≠ 2 → pteSz e = 0 →
       pteAddr e % 2 ^ 16 = 0 → leafPa e va < hbmEnd → s.dielost = 0 →
         exec (.res a b) s = .next (s.retain s.turn.die k.gang.toNat (leafPa e va / 128)) ∧
         (∀ x, s.makeRoom s.turn.die (leafPa e va / 128) = some s → s.sliceCopy s.turn.die (leafPa e va / 128) = some x →
           retainedIn (s.die s.turn.die) (leafPa e va / 128 % 16) < 12288 →
           ∃ s', exec (.res a b) s = .next s' ∧
             tget (s'.die s.turn.die).l2 (leafPa e va / 128) = some { x with retained := some k.gang.toNat }))) ∧
  ((∀ (s : State) (a b : Reg), let va := s.cur.rg a; let n := (s.cur.rg b).toNat
     ∀ x ∈ [(Instr.copWb a b, true), (.copInv a b, false)],
       (n = 0 → exec x.1 s = .next s) ∧
       (2 ^ 30 < n → Finds x.1 s 6 0 va) ∧
       (0 < n → n ≤ 2 ^ 30 → isGlobal va = false → Finds x.1 s 6 0 va) ∧
       (0 < n → n ≤ 2 ^ 30 → isGlobal va = true → 2 ^ 57 < va.toNat + n → Finds x.1 s 6 0 (BitVec.ofNat 64 (2 ^ 57))) ∧
       (0 < n → n ≤ 2 ^ 30 → isGlobal va = true → va.toNat + n ≤ 2 ^ 57 →
         ∀ ls, s.rangeLines s.turn va.toNat (va.toNat + n) 16386 = .ok ls →
           let s1 := if x.2 then s else s.dropLines s.turn.clusterId ls
           exec x.1 s = .next (({ s1 with seq := s1.seq + 1 } : State).setStrand s.turn { s1.cur with range := some (x.2, ls, s1.seq) }) ∧
           ∀ line row, x.2 = false → inLines ls line = true → (s.cluster s.turn.clusterId).cache = [(line, row)] →
             (s1.cluster s.turn.clusterId).cache = [])) ∧
   (∀ (s : State) (t : StrandId) (d : DieId) (ls : List (Nat × Nat)) (mark line : Nat) (x : L2Line),
     (s.strand t).range = some (true, ls, mark) → s.rangeStored t ls mark = true → s.rangeMoves ls = false →
       (s.die d).l2 = [(line, x)] → (∀ e, e ≠ d → (s.die e).l2 = []) →
       (s.lostAt (128 * line) = true → ∃ s', exec (.cacheRangeOperationComplete t) s = .next s' ∧ (s'.strand t).range = none ∧
         (s'.die d).l2 = (s.die d).l2 ∧ s'.mem = s.mem) ∧
       (s.lostAt (128 * line) = false → Memory.wf s.mem = true → inLines ls line = true → (x.st = .M ∨ x.st = .O) → x.data.length = 128 →
         ∃ s', exec (.cacheRangeOperationComplete t) s = .next s' ∧ (s'.strand t).range = none ∧
           (s'.die d).l2 = [(line, { x.released (s.bindOf t.ctxId).gang.toNat with st := if x.st = .M then .E else .S })] ∧
           (∀ i < 128, memRead s'.mem (128 * line + i) = x.data.getD i 0) ∧
           (∀ a, a < 128 * line ∨ 128 * line + 128 ≤ a → memRead s'.mem a = memRead s.mem a) ∧ s'.writes = s.writes)) ∧
   ∀ (s : State) (t : StrandId) (ls : List (Nat × Nat)) (mark line : Nat) (x : L2Line),
     (s.strand t).range = some (false, ls, mark) → (s.die t.die).l2 = [(line, x)] → homeDie (line * 128) ≠ t.die → inLines ls line = true →
       s.removable t.clusterId ls = true →
       (s.lostAt (128 * line) = true → ∃ s', exec (.cacheRangeOperationComplete t) s = .next s' ∧ (s'.strand t).range = none ∧
         (s'.die t.die).l2 = (s.die t.die).l2 ∧ s'.mem = s.mem) ∧
       (s.lostAt (128 * line) = false → (x.st = .M ∨ x.st = .O) → ∃ s', exec (.cacheRangeOperationComplete t) s = .next s' ∧ (s'.strand t).range = none ∧
           (s'.die t.die).l2 = [] ∧ s'.mem = memWriteBytes s.mem (line * 128) x.data))

/-- 05 R102, R104: a hint completes whatever its operands are, in every state: it finds no fault and holds nothing, no strand changes, and
the bundle notes at most that it was dropped. 05 R105: a range operation of 1 to 2^30 bytes of the global window, each of whose bytes has
a translation with read permission, issues: it finds no fault, and the strand waits for it. 05 R105, R106, R107: the range operation of a
strand completes, and the strand goes on: `cop.wb` when the strand's earlier stores to the range are performed and none of its lines is on
its way, `cop.inv` when no lease on a copy that it removes is running. -/
def Obligations.HintsAndRangesComplete : Prop :=
  (∀ (s : State) (a b : Reg), ∀ i ∈ [Instr.pref a, .res a b],
     ∃ s', exec i s = .next s' ∧ s'.iss = { s.iss with drops := s'.iss.drops } ∧ s.iss.drops ≤ s'.iss.drops ∧ ∀ u, s'.strand u = s.strand u) ∧
  (∀ (s : State) (a b : Reg), let va := (s.cur.rg a).toNat; let n := (s.cur.rg b).toNat; let k := s.bindOf s.turn.ctxId
     0 < n → n ≤ 2 ^ 30 → isGlobal (s.cur.rg a) = true → va + n ≤ 2 ^ 57 →
     (∀ x, va ≤ x → x < va + n → ∃ e, s.leafFor s.turn.clusterId k.asid k.gen x = .leaf e ∧ pteR e = true) →
       ∀ y ∈ [(Instr.copWb a b, true), (.copInv a b, false)],
         ∃ s' ls, exec y.1 s = .next s' ∧ (s'.strand s.turn).range = some (y.2, ls, s.seq) ∧ s'.seq = s.seq + 1 ∧ s'.iss = s.iss ∧ s'.mem = s.mem ∧
           ∀ u, u.key ≠ s.turn.key → s'.strand u = s.strand u) ∧
  (∀ (s : State) (t : StrandId) (wb : Bool) (ls : List (Nat × Nat)) (mark : Nat), (s.strand t).range = some (wb, ls, mark) →
     (wb = true → s.rangeStored t ls mark = true ∧ s.rangeMoves ls = false) → (wb = false → s.removable t.clusterId ls = true) →
       ∃ s', exec (.cacheRangeOperationComplete t) s = .next s' ∧ (s'.strand t).range = none ∧ s'.iss = s.iss ∧
         (s'.strand t).pc = (s.strand t).pc ∧ (s'.strand t).g = (s.strand t).g ∧ ∀ u, u.key ≠ t.key → s'.strand u = s.strand u)

/-! ## Synchronisation -/

/-- 15 R265, 06 R118: what every tag operation, `bind` and `drain` check of their address outside a region: an address in no window or
beyond the partition is BOUNDS, a misaligned one ALIGN; through the global window XLATE, then BOUNDS for a page without MS, then HOMELOST.
In a region they roll back with EXCLUDED. 15 R267: the loads of a tag word: `ldt` waits for full, reads, empties and acquires; `ldtp`
leaves it full; `tagr` reads the tag without waiting. The two that read its data wait for the strand's own accesses to it (05 R95). Each
waits for its class's budget where the word lies in HBM (18 R314). 15 R267, 14 R249: the stores of a tag word: with the release conditions
met and the strand's own accesses to the word done, `stt` writes an empty word and fills it, and waits while it is full; `sttn` never
waits for the tag and says 0 or 1; `tagw` sets the tag from bit 0 without order. Each waits for its class's budget where the word lies in
HBM (18 R314). 15 R270 to R272: `bind` adds an entry to the gang's table (a length of 0 removes it, an entry already there changes
nothing, a sixty-fifth is BOUNDS); `drain` holds until the object can be released. -/
def Obligations.TagOperations : Prop :=
  (∀ (s : State) (d a b : Reg), let va := s.cur.rg a; let v := va.toNat; let k := s.bindOf s.turn.ctxId; let part := k.psize.toNat * 16384
     let leaf := s.leafFor s.turn.clusterId k.asid k.gen v
     ∀ x ∈ [(Instr.ldt d a, needRW), (.ldtp d a, needR), (.stt a b, needRW), (.sttn d a b, needRW), (.tagr d a, needR), (.tagw a b, needRW),
            (.bind a d b, needR), (.drain a, needR)],
       (s.cur.region ≠ none → Excluded x.1 s) ∧
       (s.cur.region = none →
         (0x80000 ≤ v ∧ v < 0x100000 ∨ 0x300000 ≤ v ∧ v < 2 ^ 32 ∨ 2 ^ 57 ≤ v → Finds x.1 s 6 0 va) ∧
         (v < 0x80000 ∨ 0x100000 ≤ v ∧ v < 0x300000 →
           (v % 4 ≠ 0 → Finds x.1 s 4 0 va) ∧ (v % 4 = 0 → part ≤ v % 0x80000 → Finds x.1 s 6 0 va)) ∧
         (2 ^ 32 ≤ v → v < 2 ^ 57 →
           (v % 8 ≠ 0 → Finds x.1 s 4 0 va) ∧
           (v % 8 = 0 →
             (∀ sub l, leaf = .fail sub l → Finds x.1 s 5 sub va) ∧
             ∀ e, leaf = .leaf e →
               (pteR e = false → Finds x.1 s 5 1 va) ∧
               (pteR e = true → x.2.w = true → pteW e = false → Finds x.1 s 5 2 va) ∧
               (pteR e = true → (x.2.w = true → pteW e = true) →
                 (pteMs e = false → Finds x.1 s 6 0 va) ∧
                 (pteMs e = true → s.lostAt (leafPa e v) = true → Finds x.1 s 10 0 va) ∧
                 (pteMs e = true → s.lostAt (leafPa e v) = false →
                   s.tagWord s.turn va x.2 = .ok (.sync (leafPa e v), 8, ⟨.phys (leafPa e v), true, pteCp e, !pteW e⟩)))))) ∧
       (v % 4 = 0 → v % 0x80000 < part → let off := (k.pbase.toNat * 16384 + v % 0x80000) % 0x80000
         (v < 0x80000 → s.tagWord s.turn va x.2 = .ok (.spad s.turn.coreId off, 4, ⟨.spad s.turn.coreId.key off, false, 0, false⟩)) ∧
         ∀ c : Fin 4, v / 0x80000 = c.val + 2 → let o := s.turn.ctxId.coreId c
           s.tagWord s.turn va x.2 = .ok (.spad o off, 4, ⟨.spad o.key off, false, 0, false⟩))) ∧
  (∀ (s : State) (d a : Reg) (w : TagWord) (n : Nat) (p : Place), let s1 := s.touch [s.cur.rg a]
     (TagReady s a needRW w n p →
       (s.tagOf w = true →
         (∀ s2, s1.admitsTag w = some s2 → exec (.ldt d a) s =
           .next ((s2.setTag w false).awaiting (.g d) (.tag w) (some (.w (s2.tagData p n).1, (s2.tagData p n).2)) true)) ∧
         (s1.admitsTag w = none → HeldFor (.ldt d a) s .budget)) ∧
       (s.tagOf w = false → Holds (.ldt d a) s s1 (.tag w true))) ∧
     (TagReady s a needR w n p →
       (s.tagOf w = true →
         (∀ s2, s1.admitsTag w = some s2 → exec (.ldtp d a) s =
           .next (s2.awaiting (.g d) (.tag w) (some (.w (s2.tagData p n).1, (s2.tagData p n).2)) true)) ∧
         (s1.admitsTag w = none → HeldFor (.ldtp d a) s .budget)) ∧
       (s.tagOf w = false → Holds (.ldtp d a) s s1 (.tag w true))) ∧
     (TagFound s a needR w n p →
       (∀ s2, s1.admitsTag w = some s2 → exec (.tagr d a) s =
         .next (s2.awaiting (.g d) (.tag w) (some (.w (if s.tagOf w then 1 else 0), false)) false)) ∧
       (s1.admitsTag w = none → HeldFor (.tagr d a) s .budget)) ∧
     (s.ownDone s.turn p n = false →
       (TagFound s a needRW w n p → Holds (.ldt d a) s s1 (.release none (some (p, n)))) ∧
       (TagFound s a needR w n p → Holds (.ldtp d a) s s1 (.release none (some (p, n)))))) ∧
  (∀ (s : State) (d a b : Reg) (w : TagWord) (n : Nat) (p : Place), TagFound s a needRW w n p →
     let s1 := s.touch [s.cur.rg a]
     let go := s.releaseReady s.turn w && s.ownDone s.turn p n
     let bs := (List.range n).map fun j => (j, BitVec.ofNat 8 ((s.cur.rg b).toNat / 256 ^ j))
     (∀ s2, s1.admitsTag w = some s2 →
       exec (.tagw a b) s = .next (s2.setTag w ((s.cur.rg b).getLsbD 0)) ∧
       (go = true → s.tagOf w = false →
         exec (.stt a b) s = .next (((s2.beforeTag p n).performAt p bs 0).setTag w true) ∧
         exec (.sttn d a b) s =
           .next ((((s2.beforeTag p n).performAt p bs 0).setTag w true).awaiting (.g d) (.tag w) (some (.w 0, false)) false)) ∧
       (go = true → s.tagOf w = true →
         exec (.sttn d a b) s = .next (s2.awaiting (.g d) (.tag w) (some (.w 1, false)) false))) ∧
     (s1.admitsTag w = none → HeldFor (.tagw a b) s .budget ∧ (go = true →
       HeldFor (.sttn d a b) s .budget ∧ (s.tagOf w = false → HeldFor (.stt a b) s .budget))) ∧
     (go = true → s.tagOf w = true → Holds (.stt a b) s s1 (.tag w false)) ∧
     (go = false → Holds (.stt a b) s s1 (.release (some w) (some (p, n))) ∧
       Holds (.sttn d a b) s s1 (.release (some w) (some (p, n))))) ∧
  (∀ (s : State) (d a b : Reg) (w : TagWord) (n : Nat) (p : Place), TagFound s d needR w n p →
     let s1 := s.touch [s.cur.rg d]
     let k := s.turn.die.val * 65536 + (s.bindOf s.turn.ctxId).gang.toNat
     let g := s.gangAt k
     let base := (s.cur.rg a).toNat
     let len := (s.cur.rg b).toNat
     let e : Binding := ⟨w, base, min len (2 ^ 64 - base)⟩
     (len = 0 → exec (.bind d a b) s =
       .next { s1 with gangs := tset s.gangs k { g with table := g.table.filter fun e => !(e.obj == w && e.base == base) } }) ∧
     (len ≠ 0 → e ∈ g.table → exec (.bind d a b) s = .next s1) ∧
     (len ≠ 0 → e ∉ g.table → 64 ≤ g.table.length → exec (.bind d a b) s = .next (s1.faultAt 6 0 (s.cur.rg d))) ∧
     (len ≠ 0 → e ∉ g.table → g.table.length < 64 →
       exec (.bind d a b) s = .next { s1 with gangs := tset s.gangs k { g with table := g.table ++ [e] } }) ∧
     (s.releaseReady s.turn w = true → exec (.drain d) s = .next s1) ∧
     (s.releaseReady s.turn w = false → Holds (.drain d) s s1 (.release (some w) none)))

/-- 15 R273, 14 R251: a fence with scope 1 to 4 is in force from the commit of its bundle; any other scope is ILLEGAL; in a region it
rolls back. 15 R274, R275: the barriers of a context: `bar.init` sets the count of a slot (its own count again changes nothing; a count
that the open phase's arrivals have reached completes it, and the next one after it; 0 clears its count, its tallies and its latest
phases, and leaves the arrivals that are still to be counted, as the model reads the manual: DEDUCED, log 25; more than 4 is BOUNDS);
`bar.arrive` takes the open phase, or the next when the strand's latest arrival is of the open one, and is counted later; `bar.wait` holds
until the phase of the strand's latest arrival is complete. A slot above 7 is ILLEGAL; in a region all three roll back with EXCLUDED (06
R118). 15 R274: an arrival whose strand's earlier accesses are done is counted in its phase, the open one or the next; the open phase
advances once its count is reached; until those accesses are done, nothing is counted. -/
def Obligations.FencesAndBarriers : Prop :=
  (∀ (s : State) (b : Reg),
     (s.cur.region = none → 1 ≤ b.toNat → b.toNat ≤ 4 →
       exec (.fenceAcq b) s = .next (s.gathering { s.iss with fence := some ⟨s.iss.mark, none, true, false⟩ }) ∧
       exec (.fenceRel b) s = .next (s.gathering { s.iss with fence := some ⟨s.iss.mark, some b.toNat, false, false⟩ }) ∧
       exec (.fenceFull b) s = .next (s.gathering { s.iss with fence := some ⟨s.iss.mark, some b.toNat, true, true⟩ })) ∧
     (s.cur.region = none → b.toNat = 0 ∨ 5 ≤ b.toNat → ∀ i ∈ [Instr.fenceAcq b, .fenceRel b, .fenceFull b], IllegalHere i s) ∧
     (s.cur.region ≠ none → ∀ i ∈ [Instr.fenceAcq b, .fenceRel b, .fenceFull b],
       Excluded i s ∧ (1 ≤ b.toNat → b.toNat ≤ 4 → RollsBack i s 4))) ∧
  ((∀ (s : State) (j a : Reg), ∀ i ∈ [Instr.barInit j a, .barArrive j, .barWait j],
     (s.cur.region = none → 8 ≤ j.toNat → IllegalHere i s) ∧ (s.cur.region ≠ none → Excluded i s)) ∧
   (∀ (s : State) (j a : Reg), s.cur.region ≠ none → j.toNat ≤ 7 →
     RollsBack (.barWait j) s 4 ∧ ((s.cur.rg a).toNat ≤ 4 → RollsBack (.barInit j a) s 4) ∧
     ((s.bar s.turn.ctxId j.toNat).count ≠ 0 → RollsBack (.barArrive j) s 4)) ∧
   ∀ (s : State) (j a : Reg), s.cur.region = none → j.toNat ≤ 7 →
     let c := s.turn.ctxId
     let b := s.bar c j.toNat
     let n := (s.cur.rg a).toNat
     let last := b.last[s.turn.core.val]
     (5 ≤ n → Finds (.barInit j a) s 6 0 (s.cur.rg a)) ∧
     (n = 0 → b.count ≠ 0 → exec (.barInit j a) s =
       .next (s.setBar c j.toNat ⟨0, b.phase, 0, 0, Vector.replicate 4 none, b.coming⟩)) ∧
     (n ≤ 4 → n = b.count → exec (.barInit j a) s = .next s) ∧
     (1 ≤ n → n ≤ 4 → n ≠ b.count → b.tally0 < n → exec (.barInit j a) s = .next (s.setBar c j.toNat { b with count := n })) ∧
     (1 ≤ n → n ≤ 4 → n ≠ b.count → n ≤ b.tally0 → b.tally1 < n → exec (.barInit j a) s =
       .next (s.setBar c j.toNat ⟨n, b.phase + 1, b.tally1, 0, b.last, b.coming⟩)) ∧
     (1 ≤ n → n ≤ 4 → n ≠ b.count → n ≤ b.tally0 → n ≤ b.tally1 → exec (.barInit j a) s =
       .next (s.setBar c j.toNat ⟨n, b.phase + 2, 0, 0, b.last, b.coming⟩)) ∧
     (b.count = 0 → Finds (.barArrive j) s 6 0 (BitVec.ofNat 64 j.toNat)) ∧
     (b.count ≠ 0 → (∀ l, last = some l → l < b.phase) → exec (.barArrive j) s = .next (s.setBar c j.toNat
       { b with last := b.last.set s.turn.core.val (some b.phase), coming := b.coming ++ [(s.turn.core.val, b.phase, s.iss.mark)] })) ∧
     (b.count ≠ 0 → last = some b.phase →
       let s1 := s.setBar c j.toNat
         { b with last := b.last.set s.turn.core.val (some (b.phase + 1)), coming := b.coming ++ [(s.turn.core.val, b.phase + 1, s.iss.mark)] }
       exec (.barArrive j) s = .next (s1.setStrand s.turn { s.cur with barovr := s.cur.barovr ||| (1#8 <<< j.toNat) })) ∧
     (b.count ≠ 0 → last = some (b.phase + 1) → Holds (.barArrive j) s s (.arrive j.toNat)) ∧
     (last = none → exec (.barWait j) s = .next s) ∧
     (∀ l, last = some l → l < b.phase → exec (.barWait j) s = .next s) ∧
     (∀ l, last = some l → b.phase ≤ l → Holds (.barWait j) s s (.barrier j.toNat))) ∧
  ((∀ (s : State) (t : StrandId) (j : Fin 8) (p mark : Nat) (rest : List (Nat × Nat × Nat)), let b := s.bar t.ctxId j.val
     b.coming = (t.core.val, p, mark) :: rest →
       (s.doneAtCluster t mark = false → exec (.barrierArrivalCounted t j) s = .next s) ∧
       (s.doneAtCluster t mark = true → b.phase < p → b.tally0 < b.count → exec (.barrierArrivalCounted t j) s =
         .next (s.setBar t.ctxId j.val { b with coming := rest, tally1 := b.tally1 + 1 }))) ∧
   ∀ (s : State) (t : StrandId) (j : Fin 8) (mark : Nat) (rest : List (Nat × Nat × Nat)),
     let b := s.bar t.ctxId j.val
     b.coming = (t.core.val, b.phase, mark) :: rest → s.doneAtCluster t mark = true → b.tally1 = 0 →
       (b.tally0 + 1 < b.count → exec (.barrierArrivalCounted t j) s =
         .next (s.setBar t.ctxId j.val { b with coming := rest, tally0 := b.tally0 + 1 })) ∧
       (b.tally0 + 1 = b.count → exec (.barrierArrivalCounted t j) s =
         .next (s.setBar t.ctxId j.val { b with coming := rest, phase := b.phase + 1, tally0 := 0, tally1 := 0 })))

/-- 15 R277: an atomic on an aligned word of HBM in the global window with read and write permission is pending with its operands;
misaligned it is ALIGN, outside the global window or in a host's BOUNDS; what its translation finds it raises; in a region it rolls back
with EXCLUDED (06 R118). 15 R277: what an atomic writes, of the old value, gb and the old gd. 15 R277, R278, 14 R257: an atomic on
uncached or memory-side memory, the strand's own earlier accesses to its word done and its home alive, is performed and lands once its
class's budget admits it (18 R314): the old value in gd, the new one in memory, and no other byte changes; until then it is pending. -/
def Obligations.Atomics : Prop :=
  (∀ (s : State) (d a b : Reg), let va := s.cur.rg a
     ∀ x ∈ [(Instr.amoAdd d a b, AmoOp.add), (.amoMinI d a b, .minI), (.amoMaxI d a b, .maxI), (.amoAnd d a b, .and),
            (.amoOr d a b, .or), (.amoSwap d a b, .swap), (.amoCas d a b, .cas)],
       (s.cur.region ≠ none → Excluded x.1 s ∧
         ∀ p pa, va.toNat % 8 = 0 → isGlobal va = true → s.resolve s.turn va needRW = .ok p → p.loc = .phys pa → pa < hbmEnd →
           RollsBack x.1 s 4) ∧
       (s.cur.region = none →
         (va.toNat % 8 ≠ 0 → Finds x.1 s 4 0 va) ∧
         (va.toNat % 8 = 0 → isGlobal va = false → Finds x.1 s 6 0 va) ∧
         (∀ e, va.toNat % 8 = 0 → isGlobal va = true → s.resolve s.turn va needRW = .error e → Finds x.1 s e.1.toNat e.2.1.toNat e.2.2) ∧
         (∀ p pa, va.toNat % 8 = 0 → isGlobal va = true → s.resolve s.turn va needRW = .ok p → p.loc = .phys pa → hbmEnd ≤ pa →
           Finds x.1 s 6 0 va) ∧
         ∀ p pa, va.toNat % 8 = 0 → isGlobal va = true → s.resolve s.turn va needRW = .ok p → p.loc = .phys pa → pa < hbmEnd →
           exec x.1 s = .next ((s.touch [va]).awaiting (.g d) (.amo x.2 p (s.cur.rg b) (s.cur.rg d)) none false))) ∧
  (∀ old b d : W64,
     amoNew .add old b d = some (BitVec.ofNat 64 (old.toNat + b.toNat)) ∧
     amoNew .minI old b d = some (BitVec.ofInt 64 (min old.toInt b.toInt)) ∧
     amoNew .maxI old b d = some (BitVec.ofInt 64 (max old.toInt b.toInt)) ∧
     amoNew .and old b d = some (old &&& b) ∧ amoNew .or old b d = some (old ||| b) ∧ amoNew .swap old b d = some b ∧
     amoNew .cas old b d = if old = d then some b else none) ∧
  (∀ (s : State) (t : StrandId) (n pa : Nat) (r : Reg) (issued : W64) (op : AmoOp) (p : Place) (b d : W64),
     Memory.wf s.mem = true → (s.strand t).pend = [⟨n, .g r, issued, .amo op p b d, none, false⟩] → p.loc = .phys pa → p.cacheable = false →
     s.placeLost p = false → s.writes = [] → (∀ i < 8, s.mixed (pa + i) = false) → s.newest (lineOf pa) = none → s.devicePoison pa = false → pa % 8 = 0 →
     (s.strand t).region = none → (s.strand t).unconfirmed = [] →
       ((s.admitAmo t n p).1 = false → ∃ s', exec (.interlockedResultArrives t n) s = .next s' ∧ (s'.strand t).pend = (s.strand t).pend ∧
         s'.mem = s.mem) ∧
       ((s.admitAmo t n p).1 = true → ∃ s', exec (.interlockedResultArrives t n) s = .next s' ∧ (s'.strand t).pend = [] ∧
         (r ≠ 0 → (s'.strand t).rg r = s.deviceWord pa) ∧
         memWord s'.mem pa = (amoNew op (s.deviceWord pa) b d).getD (s.deviceWord pa) ∧
         ∀ c, c < pa ∨ pa + 8 ≤ c → memRead s'.mem c = memRead s.mem c))

/-! ## The matrix unit, the engines and the allowance counters -/

/-- 03 R50, 06 R118: in a context that is not bound as matrix-using an X or E syllable is ILLEGAL, in a region too; in a region of one
that is, it rolls back with EXCLUDED. 11 R201, 09 R162: `fmt` writes %fmt for operations two steps later; 6 and 7 in AF or WF store 0,
reserved bits store 0. 11 R202, R198: `mlatch` reads 128 rows of the row length of WF, works the array on their banks, and lands with
latency 20. 11 R203, 00 R13: `mgather` with no active lane lands an empty stage with latency 8; with n active lanes it reads, for each
lane j of them in increasing order, the row at ga + n32(lane j) × row length, an exact sum, and lands those rows with latency 8 + ⌈n /
16⌉; a base that is no multiple of 16 is ALIGN at the lowest active lane's row, a row that leaves the strand's partition or the local
window BOUNDS at the lowest lane whose row does. 11 R207: `mst` adds to its bundle one store for each of the 64 rows of the accumulator
and reserves the banks of the range: with code 0 the row's 128 words, with code 1 their BF16 values, rounded to nearest, with code 2 their
narrow integers, two to a byte for QW = 1; a code of 3 or more is ILLEGAL. 11 R208, R197: `mkat` on words equal to its literals has no
further effect; on the first that differs it fails with KATFAIL at its address. It reads its scratchpad with the strand's own earlier
stores, the youngest that lockstep withholds or an open region holds (06 R126, 22 R363): with none, the bytes that the scratchpad holds. -/
def Obligations.MatrixOperands : Prop :=
  (∀ (s : State) (a b : Reg) (w : BitVec 2) (z c t : BitVec 1) (q : PReg) (m : BitVec 8) (n : BitVec 3),
     ∀ i ∈ [Instr.fmt a, .mlatch a w, .mgather a b q t, .mma w z c t, .mmas w z c t, .mst a 0 c, .mkat a n, .cpSrc a, .cpDst a,
            .cpDims a b 0, .cpDimd b 0, .cpGo a 0, .cpQfence m, .cpStatus a, .cpWait 0, .msLen a, .msCw a, .msZero a, .msCopy a b,
            .lkCw a 0, .lkSend a b 0, .lkRecv a b 0, .lkRaddF32 a b 0, .lkRaddBf16 a b 0, .lkRaddI32 a b 0],
       (s.matrix s.turn = false → IllegalHere i s) ∧ (s.matrix s.turn = true → s.cur.region ≠ none → Excluded i s)) ∧
  ((∀ (s : State) (a : Reg), s.matrix s.turn = true → s.cur.region = none →
     exec (.fmt a) s = .next (s.inFlight .fmt (.fmt (fmtStored (BitVec.ofNat 32 (s.cur.rg a).toNat))) 2)) ∧
   ∀ (x : W32) (k : Nat), k < 32 → (fmtStored x).getLsbD k =
     if k < 3 then x.getLsbD k && !(x.getLsbD 2 && x.getLsbD 1)
     else if k < 6 then x.getLsbD k && !(x.getLsbD 5 && x.getLsbD 4)
     else if 9 ≤ k ∧ k < 16 then false else x.getLsbD k) ∧
  (∀ (s : State) (a : Reg) (w : BitVec 2) (off : Nat),
     let rb := rowBytes s.cur.fmt (s.cur.fmt.extractLsb' 3 3).toNat
     RangeReady s a (128 * rb) 64 off → (s.core s.turn.coreId).arrayBusy = false →
       let o := s.core s.turn.coreId
       exec (.mlatch a w) s = .next ((s.setCore s.turn.coreId { o with
           arrayBusy := true, reservations := o.reservations ++ [⟨bankBits off (128 * rb), true⟩] }).inFlight
         (.latch w.toFin) (.rows ((List.range 128).map fun i => s.rowAt (off + i * rb) rb) 0) 20)) ∧
  (∀ (s : State) (c a : Reg) (q : PReg) (t : BitVec 1),
     let rb := rowBytes s.cur.fmt (s.cur.fmt.extractLsb' 0 3).toNat
     let k := s.bindOf s.turn.ctxId
     let sum := fun j => (s.cur.rg a).toNat + (lane (s.cur.rv c) j).toNat * rb
     let fits := fun j => sum j < 0x80000 ∧ sum j < k.psize.toNat * 16384 ∧ sum j + rb ≤ k.psize.toNat * 16384
     let off := fun j => (k.pbase.toNat * 16384 + sum j) % 0x80000
     let ls := (List.range 64).filter fun i => (s.cur.rk q.toNat).getLsbD i
     let banks := ls.foldl (fun m j => m ||| bankBits (off j) rb) 0
     s.matrix s.turn = true → s.cur.region = none →
       (s.cur.rk q.toNat = 0 → s.bankBusy s.turn.coreId.key 0 = false → exec (.mgather c a q t) s =
         .next (s.inFlight (.stage t.toFin) (.rows [] 0) 8)) ∧
       (∀ j rest, ls = j :: rest → (s.cur.rg a).toNat % 16 ≠ 0 → Finds (.mgather c a q t) s 4 0 (BitVec.ofNat 64 (sum j))) ∧
       (∀ pre j rest, ls = pre ++ j :: rest → (s.cur.rg a).toNat % 16 = 0 → (∀ i ∈ pre, fits i) → ¬fits j →
         Finds (.mgather c a q t) s 6 0 (BitVec.ofNat 64 (sum j))) ∧
       (ls ≠ [] → (s.cur.rg a).toNat % 16 = 0 → (∀ j ∈ ls, fits j) →
         (s.bankBusy s.turn.coreId.key banks = true → Holds (.mgather c a q t) s s (.bank [(s.turn.coreId.key, banks)])) ∧
         (s.bankBusy s.turn.coreId.key banks = false →
           ∃ s', exec (.mgather c a q t) s = .next s' ∧ (s'.strand s.turn).inflight = s.cur.inflight ++
             [⟨.stage t.toFin, .rows (ls.map fun j => s.rowAt (off j) rb) banks, s.cur.step + BitVec.ofNat 64 (7 + (ls.length + 15) / 16),
               s.cur.step, false⟩] ∧ s'.mem = s.mem))) ∧
  (∀ (s : State) (a : Reg) (code : BitVec 4) (c : BitVec 1) (off : Nat),
     let f := s.cur.fmt
     let rb := if code = 0 then 512 else if code = 1 then 256 else if f.getLsbD 6 then 64 else 128
     let o := s.core s.turn.coreId
     let row := fun m => (o.acc[c.toFin]).getD m 0
     let q := fun m n => narrowCode f rne (f32 (accLane (row m) n))
     let byte := fun m j =>
       if code = 0 then (row m).toNat / 256 ^ j
       else if code = 1 then bf16.encode rne false (f32 (accLane (row m) (j / 2))) / 256 ^ (j % 2)
       else if f.getLsbD 6 then q m (2 * j) + 16 * q m (2 * j + 1)
       else q m j
     (3 ≤ code.toNat → IllegalHere (.mst a code c) s) ∧
     (code.toNat < 3 → RangeReady s a (64 * rb) 64 off → o.accPoison[c.toFin] = [] →
       exec (.mst a code c) s = .next (State.gathering (s.setCore s.turn.coreId { o with
           reservations := o.reservations ++ [⟨bankBits off (64 * rb), false⟩] })
         { s.iss with stores := s.iss.stores ++ (List.range 64).map fun m =>
             { va := s.cur.rg a + BitVec.ofNat 64 (m * rb), at_ := ⟨.spad s.turn.coreId.key (off + m * rb), false, 0, false⟩
               bytes := (List.range rb).map fun j => (j, BitVec.ofNat 8 (byte m j)), clears := 0, pos := s.iss.pos } }))) ∧
  ((∀ (s : State) (hs : List Held) (h : Held) (b : Byte) (x : Nat), s.cur.withheld ++ s.cur.heldStores = hs ++ [h] →
     h.at_.loc = .spad s.turn.coreId.key x → h.bytes = [(0, b)] → s.ownByte x = (b, false)) ∧
   ∀ (s : State) (a : Reg) (n : BitVec 3) (off : Nat), let k := n.toNat + 1
     RangeReady s a (4 * k) 4 off → s.iss.lits.length = k → (∀ j < 4 * k, (s.ownByte (off + j)).2 = false) →
       let word := fun i => BitVec.ofNat 32 (leNat ((List.range 4).map fun j => (s.ownByte (off + 4 * i + j)).1))
       (s.cur.unconfirmed = [] → ∀ x, s.ownByte x = (s.spadRead s.turn.coreId.key x, s.spadPoisoned s.turn.coreId.key x)) ∧
       ((∀ i < k, s.iss.lits[i]? = some (word i)) → exec (.mkat a n) s = .next s) ∧
       (∀ i < k, (∀ j < i, s.iss.lits[j]? = some (word j)) → s.iss.lits[i]? ≠ some (word i) →
         exec (.mkat a n) s = .next (s.gathering { s.iss with katfail := some (s.iss.pos, s.cur.rg a + BitVec.ofNat 64 (4 * i)) })))

/-- 11 R204, 09 R171, 03 R57: `mma` and `mmas` on a stage of M rows: the result row m, column n, is R171 of stage row m and latch column n
(expanded for `mmas`), added to the old accumulator unless Z; it lands in rows 0 to M − 1 after the occupancy plus 18 steps, with M = 0 in
no row; a busy array holds it. 09 R171, R172: one element of a product: four blocks of 32 products, each summed exactly and added to the
running value with one rounding to nearest; small whole numbers come out exact, whatever the order. -/
def Obligations.MatrixProducts : Prop :=
  (∀ (s : State) (w : BitVec 2) (z c t : BitVec 1),
     let o := s.core s.turn.coreId
     let f := s.cur.fmt
     let m := o.stageRows[t.toFin]
     let rho2 := min (16 / elemBits f (f.extractLsb' 0 3).toNat) (16 / elemBits f (f.extractLsb' 3 3).toNat)
     let old := fun i n => if z = 1 then 0 else accLane ((o.acc[c.toFin]).getD i 0) n
     let av := fun i => (List.range 128).map fun k => denseElem f (f.extractLsb' 0 3).toNat ((o.stage[t.toFin]).getD i 0) k
     let dense := fun n => (List.range 128).map fun k => denseElem f (f.extractLsb' 3 3).toNat ((o.latch[w.toFin]).getD n 0) k
     let sparse := fun n => (List.range 128).map fun k => sparseElem f (f.extractLsb' 3 3).toNat ((o.latch[w.toFin]).getD n 0) k
     let rows := fun col => (List.range m).map fun i => (accOf fun n => mmaElem (av i) (if n < 128 then col n else []) (old i n), false)
     let busy := fun (lat : Nat) (xs : List (AccRow × Bool)) => (s.setCore s.turn.coreId { o with
         arrayBusy := true, reservations := o.reservations ++ [⟨o.stageBanks[t.toFin], true⟩] }).inFlight (.acc c.toFin) (.accRows xs) lat
     s.matrix s.turn = true → s.cur.region = none →
       o.latchPoison[w.toFin] = [] → o.stagePoison[t.toFin] = [] → o.accPoison[c.toFin] = [] →
         (o.arrayBusy = true → Holds (.mma w z c t) s s .array ∧ Holds (.mmas w z c t) s s .array) ∧
         (o.arrayBusy = false → s.bankBusy s.turn.coreId.key o.stageBanks[t.toFin] = false →
           (m = 0 → exec (.mma w z c t) s = .next (s.inFlight (.acc c.toFin) (.accRows []) 18) ∧
             exec (.mmas w z c t) s = .next (s.inFlight (.acc c.toFin) (.accRows []) 18)) ∧
           (0 < m → exec (.mma w z c t) s = .next (busy ((2 * m + rho2 - 1) / rho2 + 18) (rows dense)) ∧
             exec (.mmas w z c t) s = .next (busy ((m + rho2 - 1) / rho2 + 18) (rows sparse))))) ∧
  ((∀ (as ws : List Fp) (c : W32), mmaElem as ws c =
     [0, 1, 2, 3].foldl (fun c b => toF32 rne ((f32 c).add
       (plusZero (((as.drop (32 * b)).take 32).zip ((ws.drop (32 * b)).take 32) |>.foldl (fun acc x => acc.add (x.1.mul x.2) 0) (.fin false 0 0))) 0)) c) ∧
   mmaElem (List.replicate 128 (f32 0x3F800000#32)) (List.replicate 128 (f32 0x40000000#32)) 0x3F800000#32 = 0x43808000#32)

/-- 11 R209, R210, 21 R340, R341, R349: the sub-commands that write a register of the core's engines write that register alone. 11 R211,
R213, R215, 03 R64: `cp.go` with its queue of 16 not full and its banks free appends a copy with the geometry as it stands, its completion
word, which it checks first, the address space of its context and the fences of the queue; a full queue holds, and so does a reserved bank
that the copy needs; `cp.wait` holds until its queue is empty; `cp.status` is interlocked; `cp.qfence` adds the ages of the named queues'
operations to the fences of each named queue. 21 R341, R342: `ms.zero` and `ms.copy` check the length, the alignment of the destination
and of the source, the global window, at the first byte that lies outside it, and the completion word in that order, and then append one
row operation to the queue of 8; a full queue holds. 21 R348 to R350: the transfer forms check port, alignment, length, range, at the
first byte outside the strand's partition, and completion word in that order, and then append one operation to the port's sends or
receives, at most 8 of a core. -/
def Obligations.EngineCommands : Prop :=
  (∀ (s : State) (a b : Reg), s.matrix s.turn = true → s.cur.region = none →
     let o := s.core s.turn.coreId
     let cw := fun (old : CwReg) => if a = 0 then { old with valid := false } else ({ valid := true, addr := BitVec.ofNat 57 (s.cur.rg a).toNat } : CwReg)
     let ends := fun (x : Core) => Host.Outcome.next (s.setCore s.turn.coreId x)
     exec (.cpSrc a) s = ends { o with geo := { o.geo with csrc := s.cur.rg a } } ∧
     exec (.cpDst a) s = ends { o with geo := { o.geo with cdst := s.cur.rg a } } ∧
     (∀ n : BitVec 5, ∀ h : n.toNat < 6,
       exec (.cpDims a b n) s = ends { o with geo := { o.geo with
         ccount := o.geo.ccount.set n.toNat (BitVec.ofNat 32 (s.cur.rg a).toNat) h, csstr := o.geo.csstr.set n.toNat (s.cur.rg b) h } } ∧
       exec (.cpDimd b n) s = ends { o with geo := { o.geo with cdstr := o.geo.cdstr.set n.toNat (s.cur.rg b) h } }) ∧
     exec (.msLen a) s = ends { o with mlen := s.cur.rg a } ∧
     exec (.msCw a) s = ends { o with mcw := cw o.mcw } ∧
     ∀ p : BitVec 5, ∀ h : p.toNat < 16, exec (.lkCw a p) s = ends { o with lcw := o.lcw.set p.toNat (cw o.lcw[p.toNat]) h }) ∧
  (∀ (s : State) (d : Reg) (n : BitVec 5) (m : BitVec 8), s.matrix s.turn = true → s.cur.region = none →
     let o := s.core s.turn.coreId
     let b := s.bindOf s.turn.ctxId
     let op := fun (cw : Option CWord) => ({
       geo := o.geo, asid := b.asid, gen := b.gen, ctx := s.turn.ctx.val, core := s.turn.core.val, cw := cw
       seq := s.seq, after := o.qfence.getD n.toNat [], moved := 0, chunk := [], prior := [], begun := false, corrupt := false
       status := none } : CopyOp)
     let s1 : State := { s with seq := s.seq + 1 }
     (∀ h : n.toNat < 8,
       (∀ (a : Reg) (cw : Option CWord), (a = 0 ∧ cw = none ∨ a ≠ 0 ∧ ∃ w, cw = some w ∧ s.cwordAt (s.cur.rg a) = .ok w) →
         (o.copyq[n.toNat].length < 16 → s.busyOf (s.copyNeeds o.geo) = false → exec (.cpGo a n) s =
           .next (s1.setCore s.turn.coreId { o with copyq := o.copyq.set n.toNat (o.copyq[n.toNat] ++ [op cw]) h })) ∧
         (o.copyq[n.toNat].length < 16 → s.busyOf (s.copyNeeds o.geo) = true → Holds (.cpGo a n) s s (.bank (s.copyNeeds o.geo))) ∧
         (16 ≤ o.copyq[n.toNat].length → Holds (.cpGo a n) s s (.queue (.copies n.toNat)))) ∧
       (∀ (a : Reg) e, a ≠ 0 → s.cwordAt (s.cur.rg a) = .error e → Finds (.cpGo a n) s e.1.toNat e.2.1.toNat e.2.2) ∧
       (∀ a : Reg, a ≠ 0 → isGlobal (s.cur.rg a) = true → (s.cur.rg a).toNat % 8 ≠ 0 → Finds (.cpGo a n) s 4 0 (s.cur.rg a)) ∧
       (o.copyq[n.toNat] = [] → exec (.cpWait n) s = .next s) ∧
       (o.copyq[n.toNat] ≠ [] → Holds (.cpWait n) s s (.cpWait n.toNat))) ∧
     exec (.cpStatus d) s = .next (s.awaiting (.g d) .cpStatus none false) ∧
     ∃ o', exec (.cpQfence m) s = .next (s.setCore s.turn.coreId o') ∧ o'.copyq = o.copyq ∧ o'.geo = o.geo ∧
       ∀ q : Fin 8, ∀ x, x ∈ o'.qfence[q] ↔ x ∈ o.qfence[q] ∨ m.getLsbD q.val = true ∧
         ∃ r : Fin 8, m.getLsbD r.val = true ∧ ∃ op ∈ o.copyq[r], op.seq = x) ∧
  (∀ (s : State) (a b : Reg), s.matrix s.turn = true → s.cur.region = none →
     let o := s.core s.turn.coreId
     let k := s.bindOf s.turn.ctxId
     let n := o.mlen.toNat
     ∀ x ∈ [(Instr.msZero a, false, s.cur.rg a, (0 : W64)), (.msCopy a b, true, s.cur.rg a, s.cur.rg b)],
       let dst := x.2.2.1; let src := x.2.2.2
       (n % 1024 ≠ 0 ∨ 2 ^ 30 < n → Finds x.1 s 6 0 o.mlen) ∧
       (n % 1024 = 0 → n ≤ 2 ^ 30 → dst.toNat % 1024 ≠ 0 → Finds x.1 s 4 0 dst) ∧
       (n % 1024 = 0 → n ≤ 2 ^ 30 → dst.toNat % 1024 = 0 → x.2.1 = true → src.toNat % 1024 ≠ 0 → Finds x.1 s 4 0 src) ∧
       (n % 1024 = 0 → n ≤ 2 ^ 30 → dst.toNat % 1024 = 0 → src.toNat % 1024 = 0 → 0 < n →
         let inside := fun (y : W64) => isGlobal y = true ∧ y.toNat + n ≤ 2 ^ 57
         (isGlobal dst = false → Finds x.1 s 6 0 dst) ∧
         (isGlobal dst = true → 2 ^ 57 < dst.toNat + n → Finds x.1 s 6 0 (BitVec.ofNat 64 (2 ^ 57))) ∧
         (inside dst → x.2.1 = true → isGlobal src = false → Finds x.1 s 6 0 src) ∧
         (inside dst → x.2.1 = true → isGlobal src = true → 2 ^ 57 < src.toNat + n → Finds x.1 s 6 0 (BitVec.ofNat 64 (2 ^ 57)))) ∧
       (∀ cw : Option CWord, n % 1024 = 0 → n ≤ 2 ^ 30 → dst.toNat % 1024 = 0 → src.toNat % 1024 = 0 → leavesGlobal dst n = none →
         (x.2.1 = true → leavesGlobal src n = none) →
         (∀ e, o.mcw.valid = true → s.cwordAt (o.mcw.addr.setWidth 64) = .error e → Finds x.1 s e.1.toNat e.2.1.toNat e.2.2) ∧
         ((o.mcw.valid = false ∧ cw = none ∨ o.mcw.valid = true ∧ ∃ w, cw = some w ∧ s.cwordAt (o.mcw.addr.setWidth 64) = .ok w) →
           (8 ≤ o.msq.length → Holds x.1 s s (.queue .rows)) ∧
           (o.msq.length < 8 →
             let op : MsOp := { copy := x.2.1, dst := dst, src := src, len := n, asid := k.asid, gen := k.gen, strand := s.turn.key,
                                cw := cw, seq := s.seq, moved := 0, prior := [], begun := false, corrupt := false, status := none }
             let s1 : State := { s with seq := s.seq + 1 }
             exec x.1 s = .next (s1.setCore s.turn.coreId { o with msq := o.msq ++ [op] }))))) ∧
  (∀ (s : State) (a b : Reg) (p : BitVec 5), s.matrix s.turn = true → s.cur.region = none → p.toNat < 16 →
     let va := s.cur.rg a
     let n := (s.cur.rg b).toNat
     let k := s.bindOf s.turn.ctxId
     let q := s.port p.toNat
     let me := s.turn.coreId.key
     ∀ x ∈ [(Instr.lkSend a b p, LinkForm.send), (.lkRecv a b p, .recv), (.lkRaddF32 a b p, .raddF32), (.lkRaddBf16 a b p, .raddBf16),
            (.lkRaddI32 a b p, .raddI32)],
       let mine := ((if x.2 = .send then q.sends else q.recvs).filter fun y => y.core == me).length
       (p.toNat / 4 ≠ s.turn.die.val → Finds x.1 s 6 0 (BitVec.ofNat 64 p.toNat)) ∧
       (p.toNat / 4 = s.turn.die.val → va.toNat % 64 ≠ 0 → Finds x.1 s 4 0 va) ∧
       (p.toNat / 4 = s.turn.die.val → va.toNat % 64 = 0 → n % 64 ≠ 0 → Finds x.1 s 6 0 va) ∧
       (p.toNat / 4 = s.turn.die.val → va.toNat % 64 = 0 → n % 64 = 0 → 0 < n →
         (0x80000 ≤ va.toNat ∨ k.partBytes ≤ va.toNat → Finds x.1 s 6 0 va) ∧
         (va.toNat < 0x80000 → va.toNat < k.partBytes → k.partBytes < va.toNat + n → Finds x.1 s 6 0 (BitVec.ofNat 64 k.partBytes))) ∧
       (∀ cw : Option CWord, p.toNat / 4 = s.turn.die.val → va.toNat % 64 = 0 → n % 64 = 0 →
         n = 0 ∨ va.toNat < 0x80000 ∧ va.toNat + n ≤ k.partBytes →
         let r := (s.core s.turn.coreId).lcw.getD p.toNat ⟨false, 0⟩
         (∀ e, r.valid = true → s.cwordAt (r.addr.setWidth 64) = .error e → Finds x.1 s e.1.toNat e.2.1.toNat e.2.2) ∧
         (r.valid = false ∧ cw = none ∨ r.valid = true ∧ (∃ w, cw = some w ∧ s.cwordAt (r.addr.setWidth 64) = .ok w) →
           let op : LinkOp := { form := x.2, base := k.partBase + va.toNat, len := n, core := me, cw := cw, seq := s.seq,
                                cls := k.bclass.toNat, moved := 0, poison := false, corrupt := false }
           (8 ≤ mine → Holds x.1 s s (.queue (.link p.toNat (x.2 == .send)))) ∧
           (mine < 8 → (n ≠ 0 → s.bankBusy me (bankBits (k.partBase + va.toNat) n) = false) → exec x.1 s = .next { s with
             seq := s.seq + 1
             ports := tset s.ports p.toNat (if x.2 = .send then { q with sends := q.sends ++ [op] } else { q with recvs := q.recvs ++ [op] }) }))))

/-- 17 R297, 06 R118: what every allowance instruction checks of its counter's address outside a region, in this order: ALIGN, BOUNDS by
the window, XLATE, BOUNDS of the page or the frame, HOMELOST; it is held behind the strand's previous one on the counter. In a region it
rolls back with EXCLUDED. 17 R297, R287: `adec` of 0 answers at once; from a ladle that may spend n it takes n and answers 0, a holding
that comes to 0 is given up and reported; else it sends a request of its cluster to the counter's home. 17 R297, R290: the other allowance
instructions on a counter with an entry: `ainc` adds at home up to 2^63 − 1, at its issue whatever waits there (DESIGN CHOICE, log 93; in
exact mode it ends that mode when V reaches twice T); `aread` is interlocked; `axread` sends a request; `afree` gives the ladle's holding
back; `ainit` to 2^63 or more is BOUNDS. -/
def Obligations.AllowanceInstructions : Prop :=
  (∀ (s : State) (d a b : Reg), let va := s.cur.rg a; let v := va.toNat; let k := s.bindOf s.turn.ctxId
     let leaf := s.leafFor s.turn.clusterId k.asid k.gen v
     ∀ i ∈ [Instr.adec d a b, .ainc a b, .aread d a, .axread d a, .afree a, .ainit a b],
       (s.cur.region ≠ none → Excluded i s) ∧
       (s.cur.region = none →
         (v % 64 ≠ 0 → Finds i s 4 0 va) ∧
         (v % 64 = 0 → v < 2 ^ 32 ∨ 2 ^ 57 ≤ v → Finds i s 6 0 va) ∧
         (v % 64 = 0 → 2 ^ 32 ≤ v → v < 2 ^ 57 →
           (∀ sub l, leaf = .fail sub l → Finds i s 5 sub va) ∧
           ∀ e, leaf = .leaf e →
             (pteR e = false → Finds i s 5 1 va) ∧
             (pteR e = true → pteW e = false → Finds i s 5 2 va) ∧
             (pteR e = true → pteW e = true →
               (0x00C000000000 ≤ leafPa e v ∨ pteMs e = true ∨ pteCp e = 2 → Finds i s 6 0 va) ∧
               (leafPa e v < 0x00C000000000 → pteMs e = false → pteCp e ≠ 2 →
                 (s.lostAt (leafPa e v) = true → Finds i s 10 0 va) ∧
                 (s.lostAt (leafPa e v) = false → s.counterAt va = .ok (leafPa e v) ∧
                   (s.counterBusy s.cur (leafPa e v) = true → HeldFor i s (.counter (leafPa e v))))))))) ∧
  (∀ (s : State) (d a b : Reg) (ctr : Nat), CounterReady s a ctr →
     let n := (s.cur.rg b).toNat
     let l := s.turn.clusterId
     let ok := s.awaiting (.g d) .done (some (.w 0, false)) false
     (n = 0 → exec (.adec d a b) s = .next ok) ∧
     (∀ e, s.ladle l.key ctr = some e → 0 < n → n < e.amount → s.spendable l.key e = true →
       exec (.adec d a b) s = .next (ok.setLadle l.key ctr { e with amount := e.amount - n, used := s.seq })) ∧
     (∀ e, s.ladle l.key ctr = some e → 0 < n → n = e.amount → s.spendable l.key e = true →
       exec (.adec d a b) s = .next ((ok.dropLadle l.key ctr).asend (.zero l.key ctr e.grantSeq))) ∧
     (0 < n → (s.ladle l.key ctr = none ∨ ∃ e, s.ladle l.key ctr = some e ∧ (e.amount < n ∨ s.spendable l.key e = false)) →
       exec (.adec d a b) s = .next ((s.awaiting (.g d) (.adec ctr n) none false).asend
         (.request ctr { cluster := l.key, strand := s.turn.key, seq := s.seq, kind := .adec n })))) ∧
  (∀ (s : State) (d a b : Reg) (ctr : Nat) (x : Tundish), CounterReady s a ctr → tget (s.die (ctrHome ctr)).tundish ctr = some x →
     let n := (s.cur.rg b).toNat
     let l := s.turn.clusterId
     (x.normal = true → exec (.ainc a b) s =
       .next (s.setTundish ctr { x with reserve := min (x.reserve + n) (2 ^ 63 - 1), used := s.seq })) ∧
     (x.normal = false →
       let x1 : Tundish := { x with reserve := min (x.reserve + n) (2 ^ 63 - 1), used := s.seq }
       let s1 := s.setTundish ctr x1
       exec (.ainc a b) s = .next (if 2 * x1.threshold ≤ s1.ctrValue ctr then s1.setTundish ctr { x1 with normal := true } else s1)) ∧
     (exec (.aread d a) s = .next ((s.setTundish ctr { x with used := s.seq }).awaiting (.g d) (.aread ctr) none false)) ∧
     (exec (.axread d a) s = .next ((s.awaiting (.g d) (.axread ctr) none false).asend
       (.request ctr { cluster := l.key, strand := s.turn.key, seq := s.seq, kind := .axread }))) ∧
     (s.ladle l.key ctr = none → exec (.afree a) s = .next s) ∧
     (∀ e, s.ladle l.key ctr = some e → 0 < e.amount →
       exec (.afree a) s = .next (((s.setStrand s.turn { s.cur with
         freed := (l.key, ctr, e.grantSeq) :: s.cur.freed.filter s.returning }).dropLadle l.key ctr).asend
           (.answer l.key ctr e.amount e.grantSeq))) ∧
     (2 ^ 63 ≤ n → Finds (.ainit a b) s 6 0 (s.cur.rg a)) ∧
     (n < 2 ^ 63 → ∃ s' y, exec (.ainit a b) s = .next s' ∧ tget (s'.die (ctrHome ctr)).tundish ctr = some y ∧
       y.reserve = n ∧ y.holders = [] ∧ y.recalling = none ∧ y.lost = 0 ∧ y.grants = 0 ∧ y.recalls = 0 ∧ y.exact = 0 ∧ y.fails = 0 ∧
       y.queue = x.queue ∧ y.atHome = x.queue.length ∧ s'.mem = s.mem ∧ s'.inLadles ctr = 0))

/-! ## Events of a strand and its context -/

/-- 15 R266, 18 R311: a tag operation whose condition is false, a join, a `cp.wait` and a barrier held for 64 cycles make their bundle a
waiting bundle; a change of the tag presents the bundles that wait on the word again. A waiting context is made ready by a strand whose
condition has come about and whose next bundle nothing keeps from issuing (DEDUCED, log 87), and by no other. 07 R143: a join group that
reaches its budget while its timer may run issues its join, and its strands go on together: each of them may issue, waits no more and has
the join bundle as its next. 18 R311 to R314: with no owner the picker gives the front end to the ready context it picks; an owner that
has yielded becomes ready again and loses the front end to it, and keeps its registers; a ready context that has been passed over for
4,096 cycles gains a level, up to 3; a new budget period starts a die's meters again: of the activities that a meter has deferred and that
still wait it admits the first ones, in the order of their arrival, while less than the limit is used, and a bundle among them, or one
whose tag operation is among them, is held no more. A meter admits an activity while less than its limit is used, and else defers it. -/
def Obligations.WaitingJoinsAndPicker : Prop :=
  ((∀ (s : State) (t : StrandId) (w : TagWord) (want : Bool), (s.strand t).hold = some (.tag w want) → s.tagOf w ≠ want → s.heldLong t = true →
     exec (.tagWaitTimeout t) s = .next (s.setStrand t { s.strand t with waited := true })) ∧
   (∀ (s : State) (t : StrandId) (h : Hold), (s.strand t).hold = some h →
     ((∃ a all, h = .join a all) ∨ (∃ q, h = .cpWait q) ∨ (∃ j, h = .barrier j) ∨ ∃ j, h = .arrive j) → s.heldLong t = true →
       exec (.waitHoldTimeout t) s = .next (s.setStrand t { s.strand t with waited := true })) ∧
   (∀ (s : State) (w : TagWord), ∃ s', exec (.tagChangeWake w) s = .next s' ∧
     (∀ t want, (s.strand t).hold = some (.tag w want) → s'.strand t = { s.strand t with waited := false }) ∧
     (∀ t, (∀ want, (s.strand t).hold ≠ some (.tag w want)) → s'.strand t = s.strand t) ∧ s'.mem = s.mem ∧ s'.ctxs = s.ctxs) ∧
   (∀ (s : State) (c : CtxId), (∀ t ∈ c.strands, s.clearToIssue t = false ∨ (s.strand t).exited = true) → exec (.contextWake c) s = .next s) ∧
   (∀ (s : State) (t : StrandId), s.holdOver t = false ∨ s.stalled t = true ∨ s.ainitWaits t = true ∨ (s.strand t).confirming = true ∨
     s.dry t = true → s.clearToIssue t = false) ∧
   (∀ (s : State) (c : CtxId) (n : Fin 4), let t := c.strand n
     (∀ u ∈ c.strands, u ≠ t → (s.strand u).exited = true) → (s.strand t).exited = false → s.clearToIssue t = true → (s.strand t).waited = true →
       (s.strand t).exiting = false → (s.strand t).trapping = false → (s.strand t).range = none → s.wakesLater t = false →
       (s.ctx c).run = .waiting → ∃ s', exec (.contextWake c) s = .next s' ∧ (s'.ctx c).run = .ready ∧ (s'.ctx c).ready = s.now ∧
         s'.strand t = { s.strand t with waited := false } ∧ s'.mem = s.mem)) ∧
  (∀ (s : State) (c : CtxId) (a : W64) (budget start : Nat) (late : Bool),
     (s.ctx c).joinAt a = some ⟨a, budget, some start, late⟩ → budget ≤ s.cycles c.die (s.now - start) →
       s.timerRuns c (s.joinGroup c a) late = true →
         ∃ s', exec (.joinBudgetExpiry c a) s = .next s' ∧ (∀ t ∈ c.strands, ∀ all, (s.strand t).hold = some (.join a all) →
           (s'.strand t).hold = none ∧ (s'.strand t).joinGo = true ∧ (s'.strand t).queue = [⟨a, [], []⟩] ∧
           (s'.strand t).g = (s.strand t).g ∧ (s'.strand t).step = (s.strand t).step) ∧
           (∀ t ∈ c.strands, (∀ all, (s.strand t).hold ≠ some (.join a all)) → s'.strand t = { s.strand t with late := (s'.strand t).late }) ∧
           s'.mem = s.mem) ∧
  ((∀ (s : State) (l : ClusterId) (n : Fin 8), (s.cluster l).running = none → s.pick l = some n →
     exec (.pickerSwitch l) s = .next (s.select l n) ∧ ((s.select l n).ctx (l.ctxId n)).run = .running ∧
       ((s.select l n).cluster l).running = some n) ∧
   (∀ (s : State) (l : ClusterId) (r n : Fin 8), (s.cluster l).running = some r → (s.ctx (l.ctxId r)).run = .running →
     (s.ctx (l.ctxId r)).yielded = true → s.pick l = some n →
       exec (.pickerSwitch l) s =
         .next ((s.switchOut (l.ctxId r) { s.ctx (l.ctxId r) with run := .ready, yielded := false, ready := s.now }).select l n)) ∧
   (∀ (s : State) (c : CtxId) (x : Context) (n : Fin 4), let t := c.strand n
     (s.switchOut c x).ctx c = x ∧ (s.switchOut c x).mem = s.mem ∧
       (s.switchOut c x).strand t = { s.strand t with queue := (s.strand t).emptied, stall := ((s.switchOut c x).strand t).stall } ∧
       (∀ b r, (s.strand t).queue = b :: r → b.words ≠ [] → ((s.switchOut c x).strand t).stall = (s.strand t).stallAges b)) ∧
   (∀ (s : State) (d : DieId) (cls meter limit amount bit who : Nat),
     (s.die d).deferredOf meter = [] → (s.die d).admittedOf meter = [] →
       (limit = 0 ∨ (s.die d).usedOf meter < limit → ∃ s', s.charge d cls meter limit amount bit who = (true, s') ∧
         (s'.die d).usedOf meter = (s.die d).usedOf meter + amount ∧ (s'.die d).deferredOf meter = []) ∧
       (limit ≠ 0 → limit ≤ (s.die d).usedOf meter → ∃ s', s.charge d cls meter limit amount bit who = (false, s') ∧
         (s'.die d).usedOf meter = (s.die d).usedOf meter ∧ (s'.die d).deferredOf meter = [(who, amount)])) ∧
   (∀ (s : State) (l : ClusterId) (n : Fin 8), s.pick l = some n → s.selectable (l.ctxId n) = true ∧
     ∀ m : Fin 8, s.selectable (l.ctxId m) = true → (s.ctx (l.ctxId m)).ep ≤ 3 → (s.ctx (l.ctxId m)).ep ≤ (s.ctx (l.ctxId n)).ep) ∧
   (∀ (s : State) (c : CtxId), s.selectable c = true → 4096 ≤ s.cycles c.die (s.now - (s.ctx c).ready) →
     exec (.epAging c) s = .next (s.setCtx c { s.ctx c with ep := min 3 ((s.ctx c).ep + 1), ready := s.now })) ∧
   ∀ (s : State) (e : DieId), ∃ s', exec (.budgetPeriod e) s = .next s' ∧ s'.now = (s.now / 4000 + 1) * 4000 ∧
     s'.mem = s.mem ∧ (∀ d, d ≠ e → s'.die d = s.die d) ∧ (∀ t : StrandId, (s.strand t).g = (s'.strand t).g) ∧
     ((s.die e).deferred = [] → (s'.die e).used = []) ∧
     ∀ (m : Nat) (xs : List (Nat × Nat)), (s.die e).deferred = [(m, xs)] →
       let ws := xs.filter fun x =>
         if m < 4096 then s.bundleWaits x.1 else if tagAccess ≤ x.1 then s.bundleWaits (x.1 - tagAccess) else s.accessWaits x.1
       let limit := ((s.die e).meter m).2.1
       let sum := fun (l : List (Nat × Nat)) => (l.map fun x => x.2).sum
       ∃ k ≤ ws.length, (s'.die e).usedOf m = sum (ws.take k) ∧ (s'.die e).deferredOf m = ws.drop k ∧
         (∀ x ∈ ws.take k, x.1 ∈ (s'.die e).admittedOf m) ∧ (∀ j < k, limit = 0 ∨ sum (ws.take j) < limit) ∧
         (k < ws.length → limit ≠ 0 ∧ limit ≤ sum (ws.take k)) ∧
         ∀ t : StrandId, t.die = e → (s.strand t).hold = some .budget →
           (∃ x ∈ ws.take k, x.1 = bundleKey t.key (s.strand t).pc + if m < 4096 then 0 else tagAccess) → (s'.strand t).hold = none ∧ (s'.strand t).waited = false)

/-- 07 R133 to R138: the team stream decodes its next bundle into the queue of every attached strand, and stands still while one of those
queues is full or behind a resolution point; the first attached strand that is past it says where the stream goes on; an attached strand
whose next bundle is another detaches, its later entries discarded. 07 R133, R139, 12 R232: a detached strand's stream decodes its next
bundle into its own queue; an instruction-buffer line is filled with the bytes of device memory; a TLB miss on a mapped page enters the
leaf in the TLBs of the cluster and of its die. -/
def Obligations.FrontEndFills : Prop :=
  ((∀ (s : State) (c : CtxId) (t : StrandId) (r : List StrandId) (b : Decoded) (s0 : State),
     (s.bindOf c).valid = true → (s.ctx c).run = .running → s.teamSet c = t :: r → s.discarded c = none → (s.ctx c).teamWait = false →
       s.teamFull c = false → s.fetchFor t (s.ctx c).teamNext = .ok (b, s0) → ∃ s', exec (.fetchDecode c none) s = .next s' ∧
         (∀ u ∈ s.teamSet c, s'.strand u = { s.strand u with queue := (s.strand u).queue ++ [b] }) ∧
         (∀ u : StrandId, (∀ v ∈ s.teamSet c, v.key ≠ u.key) → s'.strand u = s.strand u) ∧ s'.mem = s.mem ∧
         (s.streamNext c b = none → (s'.ctx c).teamWait = true) ∧
         ∀ a, s.streamNext c b = some a → (s'.ctx c).teamWait = false ∧ (s'.ctx c).teamNext = a) ∧
   (∀ (s : State) (c : CtxId), s.discarded c = none → (s.ctx c).teamWait = true ∨ s.teamFull c = true → exec (.fetchDecode c none) s = .next s) ∧
   ∀ (s : State) (t : StrandId) (b : Decoded) (q : List Decoded), (s.strand t).attached = true → (s.strand t).queue = b :: q →
     let x := (s.leaveQueue t).strand t; let c := (s.leaveQueue t).ctx t.ctxId
     x.pc = (s.strand t).pc ∧ x.g = (s.strand t).g ∧
     (∀ d r, q = d :: r → (d.addr = (s.strand t).pc → x.attached = true ∧ x.queue = q ∧ x.issuedTeam = (s.strand t).issuedTeam + 1) ∧
       (d.addr ≠ (s.strand t).pc → x.attached = false ∧ x.queue = [])) ∧
     (q = [] → (s.ctx t.ctxId).teamWait = true → x.attached = true ∧ c.teamWait = false ∧ c.teamNext = (s.strand t).pc) ∧
     (q = [] → (s.ctx t.ctxId).teamWait = false → c = s.ctx t.ctxId ∧
       ((s.ctx t.ctxId).teamNext = (s.strand t).pc → x.attached = true) ∧ ((s.ctx t.ctxId).teamNext ≠ (s.strand t).pc → x.attached = false))) ∧
  ((∀ (s : State) (c : CtxId) (n : Fin 4) (b : Decoded), let t := c.strand n
     (s.bindOf c).valid = true → (s.ctx c).run = .running → (s.strand t).attached = false → (s.strand t).exited = false →
       (s.strand t).exiting = false → (s.strand t).queue = [] → s.fetchAt t (s.strand t).pc = .ok b → let s1 := s.fillText t b
         exec (.fetchDecode c (some n)) s = .next (s1.setStrand t { s1.strand t with queue := [b] })) ∧
   (∀ (s : State) (l : ClusterId) (line : Nat), exec (.ibufFill l line) s = .next (s.setText l line) ∧
     ((s.cluster l).ibuf.length < textLines → s.setText l line = s.setCluster l { s.cluster l with
       ibuf := tset (s.cluster l).ibuf line ((List.range 128).map fun i => s.deviceByte (128 * line + i)) })) ∧
   ∀ (s : State) (l : ClusterId) (c : Fin 8) (va e : W64), let b := s.bindOf (l.ctxId c)
     b.valid = true → isGlobal va = true → tlbFind (s.cluster l).tlb b.asid b.gen va.toNat = none →
       tlbFind (s.die l.die).tlb b.asid b.gen va.toNat = none → s.walkWith ((s.die l.die).walksFor b.asid b.gen) b.asid b.gen va.toNat = .leaf e →
         ∃ s', exec (.pageWalk l c va) s = .next s' ∧ s'.mem = s.mem ∧ s'.strands = s.strands ∧
           tlbFind (s'.cluster l).tlb b.asid b.gen va.toNat = some e ∧ tlbFind (s'.die l.die).tlb b.asid b.gen va.toNat = some e)

/-- 03 R64, 11 R202, R212 to R214: a bank reservation that is not the array's ends on its own, the array's with its work; the copy at the
head of a queue moves its next byte from the source tuple to the destination tuple of R212, and completes once it has moved them all,
filling its completion word. 21 R343, R346: the row operation at the head of a core's queue writes its next 512 bytes on a memory-side
page: zeros for `ms.zero`, for `ms.copy` the bytes of its source, whose dirty lines go to HBM first, and no other byte; with every byte
moved it completes with status 0, a stopped one with its status. -/
def Obligations.EnginesWork : Prop :=
  ((∀ (s : State) (o : CoreId) (n : Nat) (r : Reservation), (s.core o).reservations[n]? = some r → r.array = false →
     exec (.bankReservationEnd o n) s = .next (s.setCore o { s.core o with reservations := (s.core o).reservations.eraseIdx n })) ∧
   (∀ (s : State) (o : CoreId), exec (.arrayWorkComplete o) s = .next (s.setCore o
     { s.core o with arrayBusy := false, reservations := (s.core o).reservations.filter fun r => !r.array })) ∧
   (∀ (s : State) (o : CoreId) (n : Fin 8) (op : CopyOp) (r : List CopyOp) (p q : Place) (b was : Byte) (x y : Option Nat) (z : Bool)
     (s1 : State),
     let t : StrandId := ⟨o.die, o.cluster, Fin.ofNat 8 op.ctx, Fin.ofNat 4 op.core⟩
     let sa := op.geo.addr op.geo.csrc op.geo.csstr op.moved
     let da := op.geo.addr op.geo.cdst op.geo.cdstr op.moved
     (s.core o).copyq[n.val] = op :: r → op.status = none → op.corrupt = false → (∀ k ∈ op.after, k ∉ agesIn (s.core o) 255) → op.moved < op.geo.total →
       s.resolveIn t op.asid op.gen sa needR = .ok p → s.lookUp t [.at_ p] = s → s.admitByte t op.seq p = (true, s1) → s.view t op.seq p = some (b, false, x) →
       s.resolveIn t op.asid op.gen da needW = .ok q → s.view t op.seq q = some (was, z, y) → op.prior = [] →
         let s2 := s1.engineWrite t (engineKey op.seq t.key) da q b
         let op1 := { op with begun := true, moved := op.moved + 1, prior := [(q.loc, was)] }
         exec (.copyOperationStart o n 1) s = .next (s2.setCopyq o n ({ op1 with chunk := s2.nextChunk o op1 } :: r))) ∧
   (∀ (g : Geometry) (base : W64) (strides : Vector W64 6) (i j : Nat), (∀ n : Fin 6, 2 ≤ n.val → (g.ccount[n]).toNat ≤ 1) →
     i < dimCount g 0 → j < dimCount g 1 → g.addr base strides (i + dimCount g 0 * j) =
       base + BitVec.ofNat 64 i * strides[0] + BitVec.ofNat 64 j * strides[1]) ∧
   (∀ (s : State) (o : CoreId) (n : Fin 8) (op : CopyOp) (r : List CopyOp),
     (s.core o).copyq[n.val] = op :: r → op.status = none → op.geo.total ≤ op.moved → op.prior = [] → s.writes = [] →
       exec (.copyOperationComplete o n) s = .next ((s.setCopyq o n r).fillWord op.cw 0)) ∧
   ∀ (s : State) (status pa va : Nat) (asid : BitVec 11), Memory.wf s.mem = true → s.lostAt pa = false → status < 256 →
     let s' := s.fillWord (some (.sync pa va asid)) status
     memWord s'.mem pa = BitVec.ofNat 64 status ∧ s'.tagOf (.sync pa) = true ∧ ∀ a, a < pa ∨ pa + 8 ≤ a → memRead s'.mem a = memRead s.mem a) ∧
  ((∀ (s : State) (o : CoreId) (op : MsOp) (r : List MsOp) (pa : Nat), Memory.wf s.mem = true →
     (s.core o).msq = op :: r → op.status = none → op.corrupt = false → op.copy = false → op.moved < op.len →
       s.pieceAt o { op with begun := true } (op.dst + BitVec.ofNat 64 op.moved) needW = .ok (pa, true) →
       s.storesBefore op.strand op.seq pa 512 = false → s.pathHolds o.clusterId.key pa 512 = false → (s.admitPiece op pa 512).1 = true →
         ∃ s', exec (.msOperationStart o 1) s = .next s' ∧ (s'.core o).msq = { op with begun := true, moved := op.moved + 512 } :: r ∧
           (∀ i < 512, memRead s'.mem (pa + i) = 0) ∧ (∀ a, a < pa ∨ pa + 512 ≤ a → memRead s'.mem a = memRead s.mem a) ∧
           s'.strands = s.strands ∧ s'.writes = s.writes) ∧
   (∀ (s : State) (o : CoreId) (op : MsOp) (r : List MsOp) (pa qa : Nat) (m : Bool), Memory.wf s.mem = true →
     (s.core o).msq = op :: r → op.status = none → op.corrupt = false → op.copy = true → op.moved < op.len → op.prior = [] →
       s.pieceAt o { op with begun := true } (op.dst + BitVec.ofNat 64 op.moved) needW = .ok (pa, true) →
       s.pieceAt o { op with begun := true } (op.src + BitVec.ofNat 64 op.moved) needR = .ok (qa, m) →
       (∀ a ∈ [pa, qa], s.storesBefore op.strand op.seq a 512 = false ∧ s.pathHolds o.clusterId.key a 512 = false) →
       let s1 := (List.range 4).foldl (fun s j => s.cleanLine (lineOf qa + j)) s
       ((∀ j < 4, ∀ d, tget (s.die d).l2 (lineOf qa + j) = none) → s1 = s) ∧
       ((∀ j < 16, s1.devicePoison (qa + 32 * j) = false) → (s1.admitPiece op pa 1024).1 = true →
         ∃ s' op', exec (.msOperationStart o 1) s = .next s' ∧ (s'.core o).msq = op' :: r ∧ op'.moved = op.moved + 512 ∧ op'.status = none ∧
           op'.dst = op.dst ∧ op'.src = op.src ∧ op'.len = op.len ∧ (∀ i < 512, memRead s'.mem (pa + i) = s1.frameByte (qa + i)) ∧
           (∀ a, a < pa ∨ pa + 512 ≤ a → memRead s'.mem a = memRead s1.mem a) ∧ s'.strands = s.strands ∧ s'.writes = s.writes)) ∧
   ∀ (s : State) (o : CoreId) (op : MsOp) (r : List MsOp), (s.core o).msq = op :: r →
     (op.status = none → op.len ≤ op.moved → exec (.msOperationComplete o) s = .next ((s.setMsq o r).fillWord op.cw 0)) ∧
     (∀ st, op.status = some st → st ≠ 7 → exec (.msOperationComplete o) s = .next ((s.setMsq o r).fillWord op.cw st)))

/-- 21 R350 to R353, 23 R381: a flit of a plain receive is written to its range, with its poison; one of a receive that adds is added to
the range element by element, FP32, BF16 or 32-bit integers, and poison of either stays; a send that its class's budget admits and whose
peer has the same length completes with 0, one of another length with 5; a receive completes once it has the shorter length, with 5 for
unequal lengths before 3 for poison (DEDUCED, log 27); linkdown ends the port's operations with 6 and leaves its peer named with state 0
(DEDUCED, log 29), a cancellation ends them with 4; a port that comes up names its peer. -/
def Obligations.LinkTransfers : Prop :=
  (∀ (s : State) (p : Fin 16) (flit : BitVec 512) (poison : BitVec 8) (x : LinkOp) (r : List LinkOp),
    (s.port p.val).recvs = x :: r → x.corrupt = false → x.moved < x.len → x.form = .recv → x.core < 512 →
      ∃ s', exec (.linkFlitArrival p flit poison) s = .next s' ∧
        (∀ i < 64, s'.spadRead x.core (x.base + x.moved + i) = BitVec.ofNat 8 (flit.toNat / 2 ^ (8 * i))) ∧
        (∀ a, a < x.base + x.moved ∨ x.base + x.moved + 64 ≤ a → s'.spadRead x.core a = s.spadRead x.core a) ∧
        ((x.base + x.moved) % 64 = 0 → ∀ i < 64, s'.spadPoisoned x.core (x.base + x.moved + i) = poison.getLsbD (i / 8)) ∧
        (s'.port p.val).recvs = { x with moved := x.moved + 64, poison := x.poison || poison != 0 } :: r ∧ s'.mem = s.mem) ∧
  (∀ (s : State) (p : Fin 16) (flit : BitVec 512) (poison : BitVec 8) (x : LinkOp) (r : List LinkOp),
    (s.port p.val).recvs = x :: r → x.corrupt = false → x.moved < x.len → x.form ∈ [.raddF32, .raddBf16, .raddI32] → x.core < 512 →
      let w := if x.form = .raddBf16 then 2 else 4
      let off := x.base + x.moved
      ∃ s', exec (.linkFlitArrival p flit poison) s = .next s' ∧
        (∀ i < 64 / w, leNat (s'.spadBytes x.core (off + w * i) w) =
          raddElem x.form (leNat (s.spadBytes x.core (off + w * i) w)) (flit.toNat / 2 ^ (8 * w * i) % 2 ^ (8 * w)) % 2 ^ (8 * w)) ∧
        (∀ a, a < off ∨ off + 64 ≤ a → s'.spadRead x.core a = s.spadRead x.core a) ∧
        (off % 64 = 0 → ∀ i < 64, s'.spadPoisoned x.core (off + i) = (poison.getLsbD (i / 8) || s.spadPoisoned x.core (off + i))) ∧
        (s'.port p.val).recvs = { x with moved := x.moved + 64, poison := x.poison || poison != 0 } :: r ∧ s'.mem = s.mem) ∧
  (∀ (s : State) (p : Fin 16) (n : Nat) (x : LinkOp) (r : List LinkOp), (s.port p.val).sends = x :: r → x.corrupt = false →
    let q := s.port p.val
    let flits := (List.range (x.len / 64)).map fun i => s.flitAt x.core (x.base + 64 * i)
    let s1 := (s.chargeLink x.cls p x.len x.seq).2
    ((s.chargeLink x.cls p x.len x.seq).1 = true → exec (.linkSendComplete p n) s =
      .next ((s1.setPort p.val { q with sends := r, out := q.out ++ flits }).fillWord x.cw (if n = x.len then 0 else 5))) ∧
    ((s.chargeLink x.cls p x.len x.seq).1 = false → exec (.linkSendComplete p n) s = .next s1)) ∧
  (∀ (s : State) (k off : Nat), (s.flitAt k off).1 = BitVec.ofNat 512 (leNat (s.spadBytes k off 64)) ∧
    ∀ i < 8, (s.flitAt k off).2.getLsbD i = s.spadPoisoned k (off + 8 * i)) ∧
  (∀ (s : State) (p : Fin 16) (n : Nat) (x : LinkOp) (r : List LinkOp), (s.port p.val).recvs = x :: r → x.corrupt = false →
    min n x.len ≤ x.moved → exec (.linkReceiveComplete p n) s = .next ((s.setPort p.val { s.port p.val with recvs := r }).fillWord x.cw
      (if n ≠ x.len then 5 else if x.poison then 3 else 0))) ∧
  (∀ (s : State) (p : Fin 16), let q := s.port p.val
    exec (.linkdown p) s = .next ((s.setPort p.val { q with sends := [], recvs := [], peer := q.peer &&& 0x0FFFFFFFFF }).endOps (q.sends ++ q.recvs) 6) ∧
    exec (.linkCancel p) s = .next ((s.setPort p.val { q with sends := [], recvs := [] }).endOps (q.sends ++ q.recvs) 4) ∧
    ∀ peer, exec (.linkUp p peer) s = .next (s.setPort p.val { q with peer := peer })) ∧
  ∀ (old new : W32), raddElem .raddI32 old.toNat new.toNat = (old + new).toNat ∧
    raddElem .raddF32 old.toNat new.toNat = (toF32 rne ((f32 old).add (f32 new) 0)).toNat ∧
    raddElem .raddBf16 (old.toNat % 65536) (new.toNat % 65536) =
      bf16.encode rne false ((bf16.decode (old.toNat % 65536)).add (bf16.decode (new.toNat % 65536)) 0)

/-- 12 R219, R220, R224, 22 R356: a suspending context none of whose strands awaits an interlocked result is suspended: the record of each
trapping strand is valid, the context trapped, no longer suspending. A freeze rolls open regions back with FREEZE and lets the context
suspend; its resume clears the freeze; of a lockstep pair both act on the leading copy's context (DESIGN CHOICE, log 38). A context
trapped MACHINE in a region is resumed by the firmware. 22 R361, 12 R225, R227: the control core logs a KATFAIL; under policy 0 of QCTL it
leaves the context trapped; under policy 2 it marks the cluster in QMASK too and leaves the context trapped; under policy 1, and 3, it
marks the cluster and freezes the gang, and once the gang's work has drained it is saved and its records are released (DEDUCED, log 36).
An evicted gang is restored on free slots of one die that pass Dispatch's checks: its members are the new contexts, its records are valid
there, its scalar registers and step counters are as its save areas hold them at device scope (12 R226; the next bundle and the results in
flight come from the sealed image: DESIGN CHOICE, log 18), and nothing is saved any more. -/
def Obligations.StopsOfContexts : Prop :=
  ((∀ (s : State) (c : CtxId), (s.ctx c).suspending = true → (∀ t ∈ c.strands, (s.strand t).pend = []) →
     ∃ s', exec (.suspensionComplete c) s = .next s' ∧ (s'.ctx c).suspending = false ∧
       ((s'.ctx c).trapped = true ↔ (s.ctx c).trapped = true ∨ ∃ t ∈ c.strands, (s.strand t).trapping = true) ∧
       ((s'.ctx c).frozen = true ↔ (s.ctx c).frozen = true ∨ (s.ctx c).freezing = true) ∧ (s'.ctx c).run ≠ .running ∧
       ∀ t ∈ c.strands, (s'.strand t).trapping = false ∧ (s'.strand t).g = (s.strand t).g ∧ (s'.strand t).step = (s.strand t).step ∧
         (s'.strand t).inflight = (s.strand t).inflight ∧ (s'.strand t).pc = (s.strand t).pc ∧
         ((s.strand t).trapping = true → (s'.strand t).trap =
           { (s.strand t).trap with valid := true, replay := BitVec.ofNat 7 (s.strand t).inflight.length })) ∧
   (∀ (s : State) (c : CtxId), s.trails c = true → s.trails (s.mateOf c) = false ∧ exec (.freeze c) s = exec (.freeze (s.mateOf c)) s ∧
     exec (.controlCoreResume c) s = exec (.controlCoreResume (s.mateOf c)) s) ∧
   (∀ (s : State) (c : CtxId), s.trails c = false → (s.bindOf c).valid = true → (s.ctx c).frozen = false → ∃ s', exec (.freeze c) s = .next s' ∧
     (s'.ctx c).suspending = true ∧ (s'.ctx c).freezing = true ∧ s'.mem = s.mem ∧
     ∀ t ∈ c.strands, (s'.strand t).region = none ∧ (s'.strand t).step = (s.strand t).step ∧
       ((s.strand t).region = none → s'.strand t = s.strand t) ∧
       ∀ r, (s.strand t).region = some r → (s'.strand t).g = r.snap.g ∧ (s'.strand t).rbcause = 8 ∧ (s'.strand t).pc = r.bundle) ∧
   (∀ (s : State) (c : CtxId), s.trails c = false → s.halted = false → (s.ctx c).frozen = true →
     exec (.controlCoreResume c) s = .next (s.setCtx c { s.ctx c with frozen := false, ready := s.now })) ∧
   ∀ (s : State) (c : CtxId) (t : StrandId), t ∈ c.strands → (s.ctx c).trapped = true → (s.ctx c).parked = false →
     (s.strand t).trap.valid = true → (s.strand t).trap.cause = 13 → (s.strand t).trap.region.getLsbD 0 = true →
       ∃ s', exec (.regionMachineResume c) s = .next s' ∧ (s'.ctx c).trapped = false ∧ (s'.ctx c).frozen = (s.ctx c).frozen ∧
         (s'.strand t).trap.valid = false ∧ (s'.strand t).attached = false ∧ (s'.strand t).g = (s.strand t).g) ∧
  ((∀ (s : State) (t : StrandId), (s.strand t).trap.valid = true → (s.strand t).trap.cause = 8 → (s.strand t).notice = 1 →
     ((s.die t.die).qctl = 0 → ∃ s', exec (.katfailPolicy t) s = .next s' ∧ s'.strand t = { s.strand t with notice := 0 } ∧
       (s'.die t.die).qmask = (s.die t.die).qmask ∧
       ((s'.die t.die).logs[0]).recs.getLast?.map (fun r => (r.kind, r.unit, r.addr)) =
         some (7, 4 * t.cluster.val + t.core.val, (s.strand t).trap.step.toNat) ∧ s'.mem = s.mem ∧ s'.ctxs = s.ctxs) ∧
     ((s.die t.die).qctl = 2 → ∃ s', exec (.katfailPolicy t) s = .next s' ∧ s'.strand t = { s.strand t with notice := 0 } ∧
       (s'.die t.die).qmask = (s.die t.die).qmask ||| (1#32 <<< t.cluster.val) ∧ s'.mem = s.mem ∧ s'.ctxs = s.ctxs) ∧
     ((s.die t.die).qctl = 1 ∨ (s.die t.die).qctl = 3 → ∃ s', exec (.katfailPolicy t) s = .next s' ∧ (s'.strand t).notice = 2 ∧
       (s'.die t.die).qmask = (s.die t.die).qmask ||| (1#32 <<< t.cluster.val) ∧ s'.mem = s.mem ∧
       (s'.ctx t.ctxId).trapped = (s.ctx t.ctxId).trapped ∧
       ∀ c ∈ (s.gangAt (s.gangOf t)).members, (s'.ctx c).frozen = true ∨ (s'.ctx c).freezing = true)) ∧
   (∀ (s : State) (t : StrandId), (s.strand t).trap.valid = true → (s.strand t).trap.cause = 8 → (s.strand t).notice = 2 →
     let k := s.gangOf t
     (s.evictable (s.gangAt k) = false → exec (.katfailPolicy t) s = .next s) ∧
     (s.evictable (s.gangAt k) = true → ∃ s', exec (.katfailPolicy t) s = .next s' ∧ (s'.gangAt k).saved ≠ none ∧
       (s'.gangAt k).members = (s.gangAt k).members ∧ ∀ c ∈ (s.gangAt k).members, (s'.bindOf c).valid = false)) ∧
   ∀ (s : State) (old e : DieId) (gang : BitVec 16) (p : Placement) (im : Image),
     let g := s.gangAt (gangKey old gang)
     let c : CtxId := ⟨e, p.cluster, p.ctx⟩
     let b := { im.bind with pbase := p.pbase, valid := true }
     g.saved = some [im] → s.halted = false → (s.bindOf c).valid = false → im.bind.lock = false →
       s.failingRecord [(c, { b with valid := false })] g.size = none → (old = e ∨ tget s.gangs (gangKey e gang) = none) →
         ∃ s' g', exec (.restoration old gang e [p]) s = .next s' ∧ tget s'.gangs (gangKey e gang) = some g' ∧ g'.members = [c] ∧
           g'.saved = none ∧ g'.die = e ∧ s'.bindOf c = b ∧ (s'.ctx c).frozen = false ∧ s'.mem = s.mem ∧
           ∀ n : Fin 4, let x := s'.strand (c.strand n); let y := im.strands.getD n.val Strand.reset; let a := strandArea im.bind.save.toNat n.val
             x.pc = y.pc ∧ (s.poisonedSectors = [] →
               x.inflight.map (fun e => (e.tgt, e.dat, e.poison)) = y.inflight.map (fun e => (e.tgt, e.dat, e.poison))) ∧
             (∀ r : Fin 64, x.g[r] = memWord s.deviceImage (a + 8 * r.val)) ∧ x.step = memWord s.deviceImage (a + 0x240))

/-! ## Coherence, time and the network -/

/-- 20 R324 to R327: a beacon reaches every die's unit and then every cluster, a die that misses its third in a row is declared failed; a
cluster whose counter is off by more than GUARD becomes lease-blind, its cache is dropped and its ladle returns its allowances, one within
it is released at its third good beacon and never steps back while it holds leases; a counter that stops keeps its cluster out and falls
behind, and one that resumes, still behind, leaves it lease-blind. 20 R319 to R322: a slice that has a line, or room for it, and no write
waiting for it fills a sector of the cluster's cache under a lease whose end is the slice's time plus the length of R319, and records the
cluster as a holder; a cluster that drops a line returns its lease; one whose counter has stopped does nothing (R326). -/
def Obligations.TimeBaseAndLeases : Prop :=
  ((∀ (s : State) (errs : List (ClusterId × Int)) (found : List (DieId × Int)),
     let s0 := allDies.foldl (fun s d => if (s.die d).missed = 0 then s else s.setDie d { s.die d with missed := 0 }) s
     exec (.timeBeacon errs (found.map fun x => (x.1, some x.2))) s =
       .next (allDies.foldl (fun s d => (clustersOf d).foldl (fun s l => s.beaconAt errs l) s) (allDies.foldl (fun s d => s.dieBeacon found d) s0))) ∧
   (∀ (s : State) (errs : List (ClusterId × Int)) (d : DieId), (s.die d).failed = false → ∃ s', exec (.timeBeacon errs [(d, none)]) s = .next s' ∧
     (2 ≤ (s.die d).missed → (s'.die d).failed = true) ∧
     ((s.die d).missed < 2 → (s'.die d).failed = false ∧ (s'.die d).missed = (s.die d).missed + 1)) ∧
   (∀ (s : State) (errs : List (ClusterId × Int)) (l : ClusterId), let c := s.cluster l; let e := errorOf errs l c.error
     c.stopped = false → (s.die l.die).failed = false → c.restarted = false →
       ((s.die l.die).guard < e.natAbs → c.blind = false → let s' := s.beaconAt errs l
         (s'.cluster l).blind = true ∧ (s'.cluster l).cache = [] ∧ (s'.cluster l).error = 0 ∧ s'.mem = s.mem ∧
           (s'.die l.die).blindEvents = min ((s.die l.die).blindEvents + 1) 0xFFFF ∧
           (∀ ctr h, c.ladle = [(ctr, h)] → 0 < h.amount → (s'.cluster l).ladle = [] ∧ s'.amsgs = s.amsgs ++ [.answer l.key ctr h.amount h.grantSeq])) ∧
       (e.natAbs ≤ (s.die l.die).guard → c.blind = true → c.cache = [] → 2 ≤ c.goodBeacons → (s.die l.die).dieOff = false →
         ((s.beaconAt errs l).cluster l).blind = false) ∧
       (e.natAbs ≤ (s.die l.die).guard → c.blind = true → c.cache = [] → c.goodBeacons < 2 →
         ((s.beaconAt errs l).cluster l).blind = true ∧ ((s.beaconAt errs l).cluster l).goodBeacons = c.goodBeacons + 1) ∧
       (e.natAbs ≤ (s.die l.die).guard → c.error.natAbs ≤ (s.die l.die).guard → c.cache ≠ [] → c.blind = false →
         s.timeAt l ≤ (s.beaconAt errs l).timeAt l)) ∧
   (∀ (s : State) (l : ClusterId), exec (.clusterCounterStop l) s = .next (s.setCluster l { s.cluster l with stopped := true }) ∧
     ((s.cluster l).stopped = true → ∃ s', exec (.clusterCounterResume l) s = .next s' ∧ (s'.cluster l).stopped = false ∧
       (s'.cluster l).blind = true ∧ (s'.cluster l).goodBeacons = 0 ∧ ((s.cluster l).blind = false → (s'.cluster l).cache = []) ∧ s'.mem = s.mem ∧
       s'.timeAt l = s.timeAt l) ∧
     ((s.cluster l).stopped = true → ∀ a b, a ≤ b → ((s.follow a b).cluster l).error = (s.cluster l).error - ((b - a : Nat) : Int)))) ∧
  ((∀ (s : State) (l : ClusterId) (c : Fin 8) (va : W64) (p : Place) (pa : Nat) (x : L2Line), let b := s.bindOf (l.ctxId c)
     b.valid = true → isGlobal va = true → s.translate l b.asid b.gen va needR = .ok p → p.loc = .phys pa → p.cacheable = true → p.cp = 0 →
       s.lineWaits l.die (lineOf pa) = false → s.sliceCopy l.die (lineOf pa) = some x → (s.die l.die).dieOff = false →
       (s.cluster l).blind = false → (s.cluster l).stopped = false → s.makeRoom l.die (lineOf pa) = some s →
         let d := s.die l.die
         let hot := match tget d.written (lineOf pa) with | some w => decide (s.now ≤ w + 8000) | none => false
         let lend := s.now + (if hot then d.lhot else if p.ro then d.lro else d.lord)
         ∃ s' row y, exec (.clusterFill l c va) s = .next s' ∧ tget (s'.cluster l).cache (lineOf pa) = some row ∧ row.leaseEnd = lend ∧
           row.sectors.getLsbD (pa % 128 / 32) = true ∧ (∀ i, i / 32 = pa % 128 / 32 → i < 128 → row.data.getD i 0 = x.data.getD i 0) ∧
           tget (s'.die l.die).l2 (lineOf pa) = some y ∧ l.cluster.val ∈ y.holders ∧ y.lend = max x.lend lend ∧ y.data = x.data ∧ s'.mem = s.mem) ∧
   (∀ (s : State) (l : ClusterId) (line : Nat), (s.cluster l).stopped = true → exec (.leaseReturn l line) s = .next s) ∧
   (∀ (s : State) (l : ClusterId) (line : Nat) (x : L2Line), (s.cluster l).stopped = false → tget (s.die l.die).l2 line = some x → ∃ s' y, exec (.leaseReturn l line) s = .next s' ∧
     (Memory.wf s.mem = true → s'.mem = s.mem) ∧ tget (s'.die l.die).l2 line = some y ∧ y.holders = x.holders.filter (· != l.cluster.val) ∧ y.data = x.data ∧
     y.st = x.st ∧ y.lend = x.lend))

/-- 14 R243, 20 R321, R330: a write to uncached or memory-side HBM reaches its home: its bytes stand in memory and no other byte changes;
a write that is not yet in its order is not performed; in a host window it is accepted first and acknowledged then, and neither once die 0
is lost (23 R382); a cacheable write is performed in its die's slice once that holds the line in M and the leases are over, and until then
the slice asks for ownership. -/
def Obligations.WritesPerformed : Prop :=
  (∀ (s : State) (n : Nat) (w : PWrite), writeAt s.writes n = some w → s.inOrder w = false →
    exec (.writePerformed n) s = .next s ∧ exec (.sliceWritePerformed n) s = .next s) ∧
  (∀ (s : State) (n pa : Nat) (w : PWrite), writeAt s.writes n = some w → w.at_.cacheable = false → s.inOrder w = true →
    s.placeLost w.at_ = false → w.at_.loc = .phys pa → pa < hostBase → Memory.wf s.mem = true → (s.admitWrite w).1 = true →
      s.counterUsed (pa / 64 * 64) = false → s.initialising (pa / 64 * 64) = false →
      ∃ s', exec (.writePerformed n) s = .next s' ∧ s'.writes = s.writes.filter (fun x => x.seq != n) ∧
        (∀ i, memRead s'.mem (pa + i) = (byteAt w.bytes i).getD (memRead s.mem (pa + i))) ∧ (∀ a < pa, memRead s'.mem a = memRead s.mem a) ∧
        s'.strands = s.strands ∧ s'.cores = s.cores) ∧
  (∀ (s : State) (n pa : Nat) (w : PWrite), writeAt s.writes n = some w → w.at_.cacheable = false → s.inOrder w = true →
    s.placeLost w.at_ = false → w.at_.loc = .phys pa → hostBase ≤ pa →
      (s.dielost.getLsbD 0 = true → exec (.writePerformed n) s = .next s) ∧
      (s.dielost.getLsbD 0 = false → w.accepted = true → exec (.writePerformed n) s = .next { s with writes := s.writes.filter fun x => x.seq != n }) ∧
      (s.dielost.getLsbD 0 = false → w.accepted = false → (s.performAt w.at_ w.bytes 0).mem = memApply s.mem pa w.bytes ∧
        exec (.writePerformed n) s = .next { s.performAt w.at_ w.bytes 0 with
          writes := s.writes.map fun x => if x.seq = n then { x with accepted := true } else x })) ∧
  (∀ (s : State) (n o off : Nat) (w : PWrite), writeAt s.writes n = some w → w.at_.cacheable = false → s.inOrder w = true →
    w.at_.loc = .spad o off → o < 512 → ∃ s', exec (.writePerformed n) s = .next s' ∧ s'.writes = s.writes.filter (fun x => x.seq != n) ∧
      (∀ i, s'.spadRead o (off + i) = (byteAt w.bytes i).getD (s.spadRead o (off + i))) ∧ s'.mem = s.mem) ∧
  (∀ (s : State) (n pa : Nat) (w : PWrite), writeAt s.writes n = some w → w.at_.cacheable = true → s.inOrder w = true →
    s.placeLost w.at_ = false → w.at_.loc = .phys pa → let d := (clusterOfKey w.cluster).die; let line := lineOf pa
      (∀ x, tget (s.die d).l2 line = some x → x.st = .M ∨ x.st = .E → s.leasesOver d x = true →
        s.counterUsed (pa / 64 * 64) = false → s.initialising (pa / 64 * 64) = false → (s.admitWrite w).1 = true → ∃ s' y, exec (.sliceWritePerformed n) s = .next s' ∧
          s'.writes = s.writes.filter (fun x => x.seq != n) ∧ tget (s'.die d).l2 line = some y ∧ y.st = .M ∧
          tget (s'.die d).written line = some s.now ∧ y.data = lineApply x.data (pa % 128) w.bytes ∧ s'.mem = s.mem) ∧
      (∀ x, tget (s.die d).l2 line = some x → x.st = .M ∨ x.st = .E → s.leasesOver d x = false → exec (.sliceWritePerformed n) s = .next s) ∧
      (homeDie pa ≠ d → tget (s.die d).l2 line = none → exec (.sliceWritePerformed n) s = .next (s.request d line .own)))

/-- 20 R328 to R332: a home, at work on no other line, answers the one request before it: a reader of a line that nobody has gets Data and
the line alone (X); a writer of one gets Data that gives it ownership; a writer of a line with one sharer gets Data while the sharer gets
Inv; an Upgrade of the one sharer gets ownership at once; a dirty line that its owner evicts is written to HBM and acknowledged. That the
Data of a line with no other holder gives ownership alone, with no Ack of the home, is the model's reading of R316 and R317 against the
letter of R330 (DEDUCED, log 85). -/
def Obligations.HomeTransactions : Prop :=
  ∀ (s : State) (h r q : DieId) (line : Nat), r ≠ h → q ≠ h → q ≠ r → (s.die r).failed = false → (s.die q).failed = false →
    (s.die h).txns = [] → (s.die h).waiting = [] → tget (s.die h).l2 line = none → homeDie (line * 128) = h →
      (∀ m, s.msgs = [m] → m = ⟨.readShared, h, r, line, r, none, true, .nothing⟩ → tget (s.die h).dir line = none →
        (filterSet (s.die h) line).length < 12 → ∃ s', exec (.readshared h line) s = .next s' ∧
          s'.msgs = [⟨.data, r, h, line, r, some (s.homeLine line), false, .nothing⟩] ∧
          tget (s'.die h).dir line = some ⟨.X, r, dieBit r, s.seq⟩ ∧ (s'.die h).txns = [] ∧ s'.mem = s.mem) ∧
      (∀ m used, s.msgs = [m] → m = ⟨.readOwn, h, r, line, r, none, true, .nothing⟩ →
        tget (s.die h).dir line = some ⟨.S, h, dieBit q, used⟩ → ∃ s', exec (.readown h line) s = .next s' ∧
          s'.msgs = [⟨.inv, q, h, line, r, none, false, .nothing⟩, ⟨.data, r, h, line, r, some (s.homeLine line), false, .nothing⟩] ∧
          tget (s'.die h).txns line = some ⟨r, .own, dieBit q, true, .nothing, none, s.seq⟩ ∧ s'.mem = s.mem) ∧
      (∀ m, s.msgs = [m] → m = ⟨.readOwn, h, r, line, r, none, true, .nothing⟩ → tget (s.die h).dir line = none →
        (filterSet (s.die h) line).length < 12 → ∃ s', exec (.readown h line) s = .next s' ∧
          s'.msgs = [⟨.data, r, h, line, r, some (s.homeLine line), false, .owned⟩] ∧
          tget (s'.die h).dir line = some ⟨.X, r, dieBit r, s.seq⟩ ∧ (s'.die h).txns = [] ∧ s'.mem = s.mem) ∧
      (∀ m used, s.msgs = [m] → m = ⟨.upgrade, h, r, line, r, none, true, .nothing⟩ →
        tget (s.die h).dir line = some ⟨.S, h, dieBit r, used⟩ → ∃ s', exec (.upgrade h line) s = .next s' ∧
          s'.msgs = [⟨.ack, r, h, line, r, none, false, .nothing⟩] ∧ tget (s'.die h).dir line = some ⟨.X, r, dieBit r, s.seq⟩ ∧
          (s'.die h).txns = [] ∧ s'.mem = s.mem) ∧
      (∀ m used data poison, s.msgs = [m] → m = ⟨.wbDirty, h, r, line, r, some (data, poison), true, .owned⟩ →
        tget (s.die h).dir line = some ⟨.X, r, dieBit r, used⟩ → ∃ s', exec (.wbdirty h line) s = .next s' ∧
          s'.msgs = [⟨.ack, r, h, line, r, none, false, .noData⟩] ∧ s'.mem = memWriteBytes s.mem (line * 128) data)

/-- 20 R330, R331: what a holder does with the one message before it. FwdShared at a dirty owner: Data to the requester, the owner keeps
O. FwdOwn, Inv and BackInv: the copy is given up, and the answer is owed until the leases on it are over, a dirty line that BackInv takes
with it. Data ends a read, in E when the reader may be alone; Data that gives ownership, or Data and the home's Ack, end a write, in M.
Data that gives ownership alone is the model's reading of 19 R316 and R317 against the letter of R330 (DEDUCED, log 85). -/
def Obligations.HolderAnswers : Prop :=
  ∀ (s : State) (e r h : DieId) (line : Nat), homeDie (line * 128) = h → (s.die h).failed = false → (s.die r).failed = false →
    (∀ x : L2Line, tget (s.die e).l2 line = some x → x.st ≠ .I → (s.die e).taking line = false →
      (s.msgs = [⟨.fwdShared, e, h, line, r, none, false, .nothing⟩] → x.st = .M → exec (.fwdshared e line) s = .next
        { ({ s with msgs := [] } : State).setLine e line { x with st := .O } with
          msgs := [⟨.data, r, e, line, r, some (x.data, x.poison), false, .shared⟩, ⟨.ack, h, e, line, r, none, true, .owned⟩] }) ∧
      (s.msgs = [⟨.fwdOwn, e, h, line, r, none, false, .nothing⟩] → ∃ s', exec (.fwdown e line) s = .next s' ∧
        s'.msgs = [⟨.data, r, e, line, r, some (x.data, x.poison), false, .nothing⟩] ∧
        (s'.die e).owed = (s.die e).owed ++ [⟨line, none, x.lend, x.holders⟩] ∧ s'.mem = s.mem) ∧
      (s.msgs = [⟨.inv, e, h, line, r, none, false, .nothing⟩] → ∃ s', exec (.inv e line) s = .next s' ∧ s'.msgs = [] ∧
        (s'.die e).owed = (s.die e).owed ++ [⟨line, none, x.lend, x.holders⟩] ∧ (s'.die e).l2 = terase (s.die e).l2 line ∧ s'.mem = s.mem) ∧
      (s.msgs = [⟨.backInv, e, h, line, r, none, false, .nothing⟩] → ∃ s', exec (.backinv e line) s = .next s' ∧ s'.msgs = [] ∧
        (s'.die e).owed = (s.die e).owed ++ [⟨line, if x.st = .M ∨ x.st = .O then some (x.data, x.poison) else none, x.lend, x.holders⟩] ∧
        (s'.die e).l2 = terase (s.die e).l2 line ∧ s'.mem = s.mem)) ∧
    (∀ (o : Owed) (rest : List Owed), (s.die e).owed = o :: rest → o.line = line → o.wb = none →
      (o.holders = [] ∨ ((s.die e).dieOff = false ∧ o.lend + (s.die e).guard ≤ s.now) →
        exec (.deferredAck e line) s = .next { s.setDie e { s.die e with owed := rest } with
          msgs := s.msgs ++ [⟨.ack, h, e, line, e, none, true, .nothing⟩] }) ∧
      (o.holders ≠ [] → s.now < o.lend + (s.die e).guard → exec (.deferredAck e line) s = .next s)) ∧
    (∀ (x : List Byte × BitVec 4) (k : Kept), (s.die e).txns = [] → (s.die e).waiting = [] → tget (s.die e).l2 line = none →
      ((s.die e).l2.filter fun y => y.1 % sliceSets == line % sliceSets).length < 16 →
        (s.msgs = [⟨.data, e, h, line, e, some x, false, k⟩] → tget (s.die e).mshr line = some ⟨.shared, none, false, false, none, []⟩ →
          ∃ s', exec (.data e line) s = .next s' ∧ s'.msgs = [] ∧ tget (s'.die e).mshr line = none ∧
            tget (s'.die e).l2 line = some ⟨if k = .shared then .S else .E, x.1, x.2, [], 0, none⟩ ∧ s'.mem = s.mem) ∧
        (s.msgs = [⟨.data, e, h, line, e, some x, false, .owned⟩] → tget (s.die e).mshr line = some ⟨.own, none, false, false, none, []⟩ →
          ∃ s', exec (.data e line) s = .next s' ∧ s'.msgs = [] ∧ tget (s'.die e).mshr line = none ∧
            tget (s'.die e).l2 line = some ⟨.M, x.1, x.2, [], 0, none⟩ ∧ s'.mem = s.mem) ∧
        (s.msgs = [⟨.ack, e, h, line, e, none, false, .nothing⟩] → tget (s.die e).mshr line = some ⟨.own, some x, false, false, none, []⟩ →
          ∃ s', exec (.ack e line) s = .next s' ∧ s'.msgs = [] ∧ tget (s'.die e).mshr line = none ∧
            tget (s'.die e).l2 line = some ⟨.M, x.1, x.2, [], 0, none⟩ ∧ s'.mem = s.mem))

/-- 17 R287 to R292: a request joins its counter's queue; the tundish grants min(reserve, GMAX, max(n, reserve / 2H)) when the reserve
stays at T or more, else serves at home once nothing is out; a grant joins the ladle's holding; a recall and a lease that has ended bring
the holding back, which a lease-blind cluster returns at once; what comes back by lease end plus GUARD joins the reserve; a holding not
back by then is lost, and what comes of it later is discarded. What a ladle sends to a home arrives there in the order in which it was
sent (DEDUCED, log 77), as lease end plus GUARD comes too what a live ladle has returned (DEDUCED, log 68), and a report to a counter
without an entry is dropped (R285). -/
def Obligations.AllowanceNetwork : Prop :=
  (∀ (s : State) (l : ClusterId) (ctr k : Nat), tget (s.die (ctrHome ctr)).tundish ctr = none → s.amsgs = [.zero l.key ctr k] →
    (s.die l.die).failed = false → exec (.holdingZeroReport l ctr) s = .next { s with amsgs := [] }) ∧
  (∀ (s : State) (l : ClusterId) (ctr a k m : Nat),
    (∀ h ∈ (s.tundish ctr).holders, h.cluster = l.key → s.now < h.leaseEnd + (s.die (ctrHome ctr)).guard) →
    (s.amsgs = [.answer l.key ctr a k, .zero l.key ctr m] → exec (.holdingZeroReport l ctr) s = .next s) ∧
    (s.amsgs = [.zero l.key ctr m, .answer l.key ctr a k] → exec (.recallAnswer l ctr) s = .next s)) ∧
  ∀ (s : State) (l : ClusterId) (ctr : Nat) (x : Tundish), tget (s.die (ctrHome ctr)).tundish ctr = some x →
    let home := fun (t : State) => tget (t.die (ctrHome ctr)).tundish ctr
    (∀ q : AReq, q.cluster = l.key → s.amsgs = [.request ctr q] → ∃ s', exec (.allowanceRequest l ctr) s = .next s' ∧ s'.amsgs = [] ∧
      home s' = some { x with queue := x.queue ++ [q], used := s.seq }) ∧
    (∀ (q : AReq) (r : List AReq) (n : Nat), x.queue = q :: r → q.kind = .adec n → x.recalling = none → x.atHome = 0 → x.normal = true →
      x.threshold ≤ x.reserve → n ≤ x.gmax → n ≤ x.reserve → let g := min x.reserve (min x.gmax (max n (x.reserve / (2 * x.sharers))))
        x.threshold ≤ x.reserve - g → ∃ s' y, exec (.serve ctr) s = .next s' ∧ home s' = some y ∧ y.reserve = x.reserve - g ∧
          y.grants = x.grants + 1 ∧ y.queue = r ∧ (∃ k, s'.amsgs = s.amsgs ++ [.grant q.cluster ctr (g - n) (s.now + x.lease) k q]) ∧
          ∃ h ∈ y.holders, h.cluster = q.cluster ∧ h.leaseEnd = s.now + x.lease) ∧
    (∀ (q : AReq) (r : List AReq) (n : Nat), x.queue = q :: r → q.kind = .adec n → x.recalling = none → x.atHome = 0 → x.normal = false →
      x.holders = [] → ∃ s' y, exec (.serve ctr) s = .next s' ∧ home s' = some y ∧ y.queue = r ∧ y.normal = false ∧ s'.amsgs = s.amsgs ∧
        (x.reserve < n → y.reserve = x.reserve ∧ y.fails = x.fails + 1) ∧ (n ≤ x.reserve → y.reserve = x.reserve - n ∧ y.fails = x.fails) ∧
        ∀ p ∈ (s.strand (strandOfKey q.strand)).pend, p.seq = q.seq →
          { p with val := some (.w (if x.reserve < n then 2 else if x.reserve = n then 1 else 0), false) } ∈ (s'.strand (strandOfKey q.strand)).pend) ∧
    (∀ (rest lend k : Nat) (q : AReq) (e : LadleEntry), s.amsgs = [.grant l.key ctr rest lend k q] → (s.die l.die).failed = false →
      s.lostAt ctr = false → s.ladle l.key ctr = some e → 0 < rest →
      ∃ s', exec (.grant l ctr) s = .next s' ∧
        ((s.cluster l).blind = false ∨ (s.cluster l).stopped = true →
          s'.amsgs = [] ∧ s'.ladle l.key ctr = some ⟨e.amount + rest, lend, k, s.seq⟩) ∧
        ((s.cluster l).blind = true → (s.cluster l).stopped = false →
          s'.amsgs = [.answer l.key ctr (e.amount + rest) k] ∧ s'.ladle l.key ctr = none) ∧
        ∀ p ∈ (s.strand (strandOfKey q.strand)).pend, p.seq = q.seq →
          { p with val := some (.w 0, false) } ∈ (s'.strand (strandOfKey q.strand)).pend) ∧
    (∀ (k : Nat) (e : LadleEntry), s.amsgs = [.recall l.key ctr k] → s.ladleDead l.key = false → s.ladle l.key ctr = some e →
      exec (.recall l ctr) s = .next { (({ s with amsgs := [] } : State).dropLadle l.key ctr) with amsgs := [.answer l.key ctr e.amount e.grantSeq] }) ∧
    (∀ (a k : Nat) (h : Holder), s.amsgs = [.answer l.key ctr a k] → (s.die l.die).failed = false → x.holders = [h] → h.cluster = l.key → h.first ≤ k → h.last = k → x.recalling = none →
      let late := h.leaseEnd + (s.die (ctrHome ctr)).guard ≤ s.now
      ∃ s', exec (.recallAnswer l ctr) s = .next s' ∧ s'.amsgs = [] ∧
        (¬late → home s' = some { x with reserve := x.reserve + a, found := x.found || decide (0 < a), holders := [] }) ∧
        (late → ∃ y, home s' = some y ∧ y.reserve = x.reserve ∧ y.lost = x.lost + h.amount ∧ y.holders = [])) ∧
    (∀ (k : Nat) (h : Holder), s.amsgs = [.zero l.key ctr k] → (s.die l.die).failed = false → x.holders = [h] → h.cluster = l.key → h.last = k → x.recalling = none →
      s.now < h.leaseEnd + (s.die (ctrHome ctr)).guard → ∃ s', exec (.holdingZeroReport l ctr) s = .next s' ∧ s'.amsgs = [] ∧ home s' = some { x with holders := [] }) ∧
    (∀ e : LadleEntry, s.ladle l.key ctr = some e → s.ladleDead l.key = false → e.leaseEnd ≤ s.timeAt l → 0 < e.amount →
      exec (.allowanceLeaseEnd l ctr) s = .next { (s.dropLadle l.key ctr) with amsgs := s.amsgs ++ [.answer l.key ctr e.amount e.grantSeq] }) ∧
    (∀ h : Holder, x.holders = [h] → h.cluster = l.key → s.now < h.leaseEnd + (s.die (ctrHome ctr)).guard →
      exec (.reclamation l ctr) s = .next s) ∧
    (∀ h : Holder, x.holders = [h] → h.cluster = l.key → x.recalling = none → h.leaseEnd + (s.die (ctrHome ctr)).guard ≤ s.now →
      ∃ s' y, exec (.reclamation l ctr) s = .next s' ∧ home s' = some y ∧ y.lost = x.lost + h.amount ∧ y.holders = [] ∧
        y.reserve = x.reserve ∧ s'.ladle l.key ctr = none) ∧
    (∀ (e : LadleEntry) (h : Holder), s.amsgs = [] → s.ladle l.key ctr = some e → s.ladleDead l.key = false → e.leaseEnd ≤ s.timeAt l →
      0 < e.amount → x.holders = [h] → h.cluster = l.key → h.first ≤ e.grantSeq → h.last = e.grantSeq → x.recalling = none →
        (s.comesBack l ctr).amsgs = [] ∧ (s.comesBack l ctr).ladle l.key ctr = none ∧
        home (s.comesBack l ctr) = some { x with reserve := x.reserve + e.amount, found := true, holders := [] })

/-! ## Graphs and gangs -/

/-- 18 R302 to R306: the node at the head of a die's queue. A live kernel node goes to the control core with a fresh gang identifier; a
cond takes S0 for a nonzero dword and S1 for zero; a switch takes the lesser of its dword and its last successor; a join takes all; one of
any kind that is not live skips all, a loop then with its body; a loop as it first comes runs its COUNT iterations, with a COUNT of 0 it
takes its successors, its body counted as retired; a loop with nothing remaining takes its successors. An edge decrements its successor's
counter, and the decrement that takes it to zero says so. -/
def Obligations.NodeEvaluation : Prop :=
  (∀ (s : State) (e : DieId) (r : ReadyNode) (h : Nat) (g : Graph) (n : Node), s.headNode e = .ok (r, h, g, n) →
    (n.kind = 0 → r.live = true → exec (.kernelNodeEval e) s = .next
      ((s.setDie e { s.die e with placing := (s.die e).placing ++ [⟨r.launch, r.node, s.freshGang⟩] }).popReady e)) ∧
    (n.kind = 0 → r.live = false → exec (.kernelNodeEval e) s = .next (s.retireHead e r (n.succs.map fun x => (x, false)))) ∧
    (n.kind = 1 → n.nsucc = 2 → r.live = true → ∀ w, s.dieDword e g.asid g.gen n.opnd = .ok w →
      exec (.condNodeEval e) s = .next (s.retireHead e r [(n.succ 0, decide (w ≠ 0)), (n.succ 1, decide (w = 0))])) ∧
    (n.kind = 1 → r.live = false → exec (.condNodeEval e) s = .next (s.retireHead e r (n.succs.map fun x => (x, false)))) ∧
    (n.kind = 3 → r.live = false → exec (.switchNodeEval e) s = .next (s.retireHead e r (n.succs.map fun x => (x, false)))) ∧
    (n.kind = 3 → 1 ≤ n.nsucc → n.nsucc ≤ 8 → r.live = true → ∀ w, s.dieDword e g.asid g.gen n.opnd = .ok w →
      exec (.switchNodeEval e) s = .next (s.retireHead e r
        ((List.range n.nsucc).map fun k => (n.succ k, k == min w.toNat (n.nsucc - 1))))) ∧
    (n.kind = 4 → exec (.joinNodeEval e) s = .next (s.retireHead e r (n.succs.map fun x => (x, r.live)))) ∧
    (n.kind = 2 → g.loops.contains r.node = false →
      let body := (List.range (n.bits 3 31 16 + 1 - n.bits 3 15 0)).map fun i => n.bits 3 15 0 + i
      (r.live = false → ∀ t, s.retire e r.launch r.node none (n.succs.map fun x => (x, false)) = (true, t) →
        exec (.loopNodeEval e) s = .next ((t.popReady e).markRetired r.launch body)) ∧
      (r.live = true → n.bits 2 31 0 = 0 → ∀ t,
        ({ s with graphs := tset s.graphs h { g with loops := nsErase g.loops r.node } } : State).retire e r.launch r.node none
          (n.succs.map fun x => (x, true)) = (true, t) → exec (.loopNodeEval e) s = .next ((t.popReady e).markRetired r.launch body)) ∧
      (r.live = true → ∀ m, n.bits 2 31 0 = m + 1 → ∀ s0 t, (s.dropReady e).refill e = .ok s0 → s0.iterate e r h g n m = .ok t →
        exec (.loopNodeEval e) s = .next t)) ∧
    (n.kind = 2 → g.loops.contains r.node = true → n.bits 6 31 0 = 0 → ∀ t,
      ({ s with graphs := tset s.graphs h { g with loops := nsErase g.loops r.node } } : State).retire e r.launch r.node none
        (n.succs.map fun x => (x, true)) = (true, t) → exec (.loopNodeEval e) s = .next (t.popReady e)) ∧
    (n.kind = 2 → g.loops.contains r.node = true → ∀ m, n.bits 6 31 0 = m + 1 → ∀ s0 t, (s.dropReady e).refill e = .ok s0 →
      s0.iterate e r h g n m = .ok t → exec (.loopNodeEval e) s = .next t)) ∧
  (∀ (s : State) (e : DieId) (g : Graph) (x : Node) (ctr : Nat) (t : Tundish), s.engineCounter e g x.ctr = .ok ctr →
    tget (s.die (ctrHome ctr)).tundish ctr = some t →
      (t.reserve ≠ 0 → ∃ s' y, s.decrement e g x = .ok (decide (t.reserve = 1), s') ∧ tget (s'.die (ctrHome ctr)).tundish ctr = some y ∧
        y.reserve = t.reserve - 1 ∧ y.normal = (t.normal && decide (t.threshold ≤ t.reserve - 1))) ∧
      (t.reserve = 0 → ∃ s', s.decrement e g x = .ok (false, s') ∧ tget (s'.die (ctrHome ctr)).tundish ctr = some { t with fails := t.fails + 1 })) ∧
  ∀ (s : State) (e : DieId) (g : Graph) (launch n : Nat) (live : Bool), (s.die e).engine.fault = false →
    (s.die e).engine.queue.length < 256 → (s.die e).engine.ringUsed = 0 → s.makeReady e g launch n live = .ok (s.setDie e { s.die e with
      engine := { (s.die e).engine with queue := (s.die e).engine.queue ++ [⟨launch, n, live⟩] } })

/-- 18 R304, R306, R310: a gang whose contexts all retire with nothing outstanding releases its successors and is gone, its records
invalid; a record that cannot be read stops the engine before anything else happens; a held retirement goes on with its remaining edges;
clearing FAULT lets the engine go on from the access that failed: a refill, a held retirement, a root, a launch or a gang's retirement at
once, an evaluation with the next; then its queue refills. 18 R309, 03 R49, 12 R220, 15 R274: without records of the gang GCOMMIT reads
0x8000 (DESIGN CHOICE, log 84); records of a gang of one that pass the checks make it valid, and its context ready at ENTRY with the
registers of R49 and with a trap block of zeros; a failing record is named by GCOMMIT. The control core writes the records of the places
it chose and commits them so. -/
def Obligations.GangsEnterAndRetire : Prop :=
  ((∀ (s : State) (e : DieId) (gang : BitVec 16) (h : Nat) (x : Graph) (n : Node) (t : State),
     let k := gangKey e gang; let g := s.gangAt k; let f := s.nodeDie g
     g.members ≠ [] → g.retiring = false → g.saved = none → s.gangDone g = true → (s.die f).engine.fault = false →
       s.graphOf g.launch = some (h, x) → s.readNode f x g.node = .ok n →
       (s.setGang k { g with retiring := true }).retire f g.launch g.node none (n.succs.map fun y => (y, true)) = (true, t) →
       ((t.die f).engine.held.any fun y => y.launch == g.launch && y.node == g.node) = false →
         exec (.gangRetirement e gang) s = .next (t.retireGang k)) ∧
   (∀ (s : State) (e : DieId) (gang : BitVec 16) (h : Nat) (x : Graph) (q : DieId) (va : W64),
     let k := gangKey e gang; let g := s.gangAt k; let f := s.nodeDie g
     g.members ≠ [] → g.retiring = false → g.saved = none → s.gangDone g = true → (s.die f).engine.fault = false →
       s.graphOf g.launch = some (h, x) → s.readNode f x g.node = .error (.fault q va) →
         exec (.gangRetirement e gang) s = .next (s.engineFault q va (some (.gang k)))) ∧
   (∀ (s : State) (e : DieId) (va : W64) (r : Option Resume), let x := ((s.engineFault e va r).die e).engine
     x.fault = true ∧ x.grfaddr = va ∧ x.resume = r ∧ x.queue = (s.die e).engine.queue ∧ x.held = (s.die e).engine.held) ∧
   (∀ (s : State) (e : DieId), ((s.die e).engine.fault = true → s.refillOnce e = s) ∧
     ∀ t, (s.die e).engine.fault = false → s.refill e = .ok t → s.refillOnce e = t) ∧
   (∀ (s : State) (k : Nat) (c : CtxId), (s.gangAt k).members = [c] → (s.gangAt k).saved = none → (s.bindOf c).lock = false →
     let s' := s.retireGang k
     tget s'.gangs k = none ∧ s'.bindOf c = { s.bindOf c with valid := false } ∧ (s'.ctx c).run = .free ∧ s'.mem = s.mem) ∧
   (∀ (s : State) (e : DieId) (a : HeldRetire) (r : List HeldRetire) (h : Nat) (g : Graph) (t : State),
     (s.die e).engine.held = a :: r → s.graphOf a.launch = some (h, g) → s.wouldOverflow e g a.edges = false →
       s.retireEdges e g a.launch a.edges = (t, [], none) →
         let t1 := t.setDie e { t.die e with engine := { (t.die e).engine with held := r } }
         ((s.die e).engine.fault = false → (s.die e).engine.resume ≠ some .head → exec (.heldRetirementProceeds e) s = .next (t1.finishRetire a.launch a.node a.gang))) ∧
   ∀ (s : State) (e : DieId), (s.die e).engine.fault = true →
     let go := fun (r : Option Resume) => s.setDie e { s.die e with engine := { (s.die e).engine with fault := false, resume := r } }
     (∀ r, (s.die e).engine.resume = r → r = none ∨ r = some .head → exec (.grstatFaultClear e) s = .next (go r)) ∧
     ((s.die e).engine.resume = some .refill → exec (.grstatFaultClear e) s = .next ((go none).refillOnce e)) ∧
     (∀ f, (s.die e).engine.resume = some (.held f) → ((go none).die f).engine.fault = false →
       exec (.grstatFaultClear e) s = .next (((go none).retireHeld f).refillOnce e)) ∧
     ((s.die e).engine.resume = some .root → exec (.grstatFaultClear e) s = .next (((go none).readyRoot e).refillOnce e)) ∧
     (∀ h, (s.die e).engine.resume = some (.launch h) → exec (.grstatFaultClear e) s = .next (((go none).launchOn h).refillOnce e)) ∧
     (∀ k, (s.die e).engine.resume = some (.gang k) → exec (.grstatFaultClear e) s = .next (((go none).gangRetires k).refillOnce e))) ∧
  ((∀ (s : State) (e : DieId) (gang : BitVec 16), s.recordsOf e gang = [] →
     exec (.gcommit e gang) s = .next (s.setDie e { s.die e with gcommit := 0x8000 })) ∧
   (∀ (s : State) (e : DieId) (gang : BitVec 16) (c : CtxId) (b : Bind) (n : Node) (k : Kernel),
     Memory.wf s.mem = true → s.recordsOf e gang = [(c, b)] → tget s.gangs (gangKey e gang) = none → s.kernelOf e b = some (n, k) → k.unplaceable n.lock = false →
       s.halted = false → (s.die e).placing = [] → k.gang = 1 → b.cig = 0 → b.lock = false →
         (s.failingRecord [(c, b)] 1 ≠ none → exec (.gcommit e gang) s =
           .next (s.setDie e { s.die e with gcommit := BitVec.ofNat 16 (c.cluster.val * 8 + c.ctx.val + 2 ^ 15) })) ∧
         (s.failingRecord [(c, b)] 1 = none → ∃ s', exec (.gcommit e gang) s = .next s' ∧ (s'.die e).gcommit = gang ∧
           s'.bindOf c = { b with valid := true } ∧ (s'.ctx c).run = .ready ∧ (s'.ctx c).teamNext = b.entry.setWidth 64 ∧
           (∀ j : Fin 8, (s'.bar c j.val).count = 0 ∧ (s'.bar c j.val).phase = 0) ∧
           (∀ a, memRead s'.mem a = if b.save.toNat ≤ a ∧ a < b.save.toNat + 256 then 0 else memRead s.mem a) ∧
           ∀ i : Fin 4, let t := s'.strand (c.strand i)
             t.pc = b.entry.setWidth 64 ∧ t.rg 1 = b.args ∧ t.rg 2 = BitVec.ofNat 64 i.val ∧ t.rg 3 = 4 ∧
             (∀ r : Reg, 4 ≤ r.toNat → t.rg r = 0) ∧ (∀ r, t.rv r = 0) ∧ t.step = 0 ∧ t.attached = true ∧ t.exited = false ∧ t.region = none)) ∧
   ∀ (s : State) (e : DieId) (w : Waiting) (h : Nat) (g : Graph) (n : Node) (k : Kernel) (p : Placement),
     (s.die e).placing.find? (fun x => x.gang == w.gang) = some w → s.graphOf w.launch = some (h, g) →
       s.nodeAt e g.asid g.gen g.base w.node = .ok n → s.kernelAt e g.asid g.gen n.opnd = .ok k → k.unplaceable n.lock = false → k.gang = 1 →
       n.lock = false → k.lock = false → ∀ a, s.freeSaves 1 = [a] → (s.bindOf ⟨e, p.cluster, p.ctx⟩).valid = false →
         let c : CtxId := ⟨e, p.cluster, p.ctx⟩
         let b := bindFor k n g (s.genOf g.asid) w.gang 0 p.pbase a (g.base + BitVec.ofNat 64 (64 * w.node))
         exec (.placementRetry e w.gang [p]) s = .next (((s.clearRecords e w.gang).setBind c b).commitGang e w.gang n k [(c, b)]
           (p.cluster.val * 8 + p.ctx.val) (g.base + BitVec.ofNat 64 (64 * w.node))))

/-! ## Errors, loss and supplies -/

/-- 03 R61, 22 R354, R359, R362: a detected error at issue lets the bundle issue again, twice at most; the third is MACHINE, of a trailing
copy's bundle in its leading copy's trap record (DEDUCED, log 88). A soft error of a register is corrected, or poisons the register, of a
lockstep pair that of the copy it meets; one in a scrubbed granule lies there until it is read (DESIGN CHOICE, log 19), and the patrol
scrub's read finds it; poison in HBM marks its granule. A word that is no instruction is ILLEGAL at its position. 22 R362, R363: the
trailing copy issues the registers', the matrix products' and the control syllables of the leading copy's oldest unconfirmed bundle on its
own strand, takes over the values that the leading copy's other syllables brought, performs no write, and records the bundle with a
signature of its own. That a bundle that waits for its confirmation commits in it only after that is the model's reading (DEDUCED, log
88). 22 R363, R364: once every value that the oldest bundle of a pair writes has come and the trailing copy has formed its signature of
it, the two are compared, the trailing one with what an undetected error changed in it (log 38). When they agree the bundle is confirmed
in both copies, and the stores it withheld go out; when they differ each copy goes back to its own registers before that bundle and issues
it and every later unconfirmed one again; a bundle that has been issued again so and differs once more traps LOCKSTEP. -/
def Obligations.ErrorsAndLockstep : Prop :=
  ((∀ (s : State) (t : StrandId), s.trails t.ctxId = false → s.issuing t = true →
     ((s.strand t).reissue < 2 → ∃ s', exec (.pipelineError t) s = .next s' ∧ s'.strand t = { s.strand t with reissue := (s.strand t).reissue + 1 } ∧
       s'.mem = s.mem) ∧
     (2 ≤ (s.strand t).reissue → (s.strand t).region = none → (s.strand t).lastFault = none → ∃ s', exec (.pipelineError t) s = .next s' ∧
       (s'.strand t).trap.cause = 13 ∧ (s'.strand t).trapping = true ∧ (s'.ctx t.ctxId).suspending = true ∧ s'.mem = s.mem)) ∧
   (∀ (s : State) (t : StrandId) (u : Unconfirmed) (b : Bool), s.copyReady t = true → s.copyTask t = some (u, b) → let l := s.mateStrand t
     ((s.strand t).reissue < 2 → ∃ s', exec (.pipelineError t) s = .next s' ∧ s'.strand t = { s.strand t with reissue := (s.strand t).reissue + 1 } ∧
       s'.mem = s.mem ∧ s'.strand l = s.strand l) ∧
     (2 ≤ (s.strand t).reissue → s.runs l.ctxId = true → (s.strand l).region = none → (s.strand l).lastFault = none →
       ∃ s', exec (.pipelineError t) s = .next s' ∧ (s'.strand l).trap.cause = 13 ∧ (s'.strand l).trap.bundle = u.addr ∧
         (s'.strand l).trapping = true ∧ (s'.ctx l.ctxId).suspending = true ∧ s'.mem = s.mem)) ∧
   (∀ (s : State) (t : StrandId) (n : Reg), n ≠ 0 →
     (∃ s', exec (.softError (.regG t n) true) s = .next s' ∧ s'.strands = s.strands) ∧
     (∃ s', exec (.softError (.regG t n) false) s = .next s' ∧ s'.strand t = { s.strand t with gp := nsInsert (s.strand t).gp n.toNat } ∧
       ∀ u, u.key ≠ t.key → s'.strand u = s.strand u)) ∧
   (∀ (s : State) (pa : Nat) (correctable : Bool),
     exec (.softError (.hbm pa) correctable) s = .next { s with latent := s.latent ++ [(.hbm pa, correctable)] }) ∧
   (∀ (s : State) (pa : Nat), s.latent = [(.hbm pa, false)] → s.hbmRate ((s.channelOf pa).1) ≠ 0 →
     ∃ s', exec (.patrolScrub (.hbm pa)) s = .next s' ∧ s'.latent = [] ∧ s'.hbmPoison = nsInsert s.hbmPoison (pa / 64) ∧ s'.mem = s.mem) ∧
   ∀ (s : State) (w : W32) (e : Reject), decodeWord w = .error e → IllegalHere (.illegalSyllable w) s) ∧
  ((∀ (b : Decoded) (x : Nat × Instr), x ∈ b.ownOrder ↔ x ∈ b.order ∧ ∃ y ∈ b.positions, y.1 = x.1 ∧
     (classOf y.2 = .V ∨ classOf y.2 = .C ∨ classOf y.2 = .K ∨ classOf y.2 = .S ∧ (∀ d n, instrOf y.2 ≠ .gets d n) ∨
       classOf y.2 = .X ∧ ∃ w z c t, instrOf y.2 = .mma w z c t ∨ instrOf y.2 = .mmas w z c t)) ∧
   (∀ (s : State), s.pass = false → s.trails s.turn.ctxId = true → (s.copyReady s.turn = false → s.openTurn = .blocked s) ∧
     ∀ u, s.copyReady s.turn = true → s.copyTask s.turn = some (u, false) → (s.strand s.turn).inflight = [] →
       let s1 := s.setStrand s.turn { s.strand s.turn with step := u.step - 1 }
       s.openTurn = .run s1 (s1.beginIssue u.bundle u.bundle.syllables) u.bundle.ownOrder) ∧
   ∀ (before after_ : State) (u : Unconfirmed), let t := before.turn; let st := before.strand t
     before.trails t.ctxId = true → before.copyTask t = some (u, false) → after_.iss.hold = none → after_.iss.poisoned = [] →
       before.poisonedStores t u.bundle = [] → st.heldStores = [] →
         let own := (after_.strand t).inflight.drop st.inflight.length
         let s' := before.closeTurn after_
         (u.waits = true → s' = before.setStrand t { st with unconfirmed := (s'.strand t).unconfirmed }) ∧
         (u.waits = false → s'.mem = after_.mem ∧ s'.writes = after_.writes ∧ ∀ x, x.key ≠ t.key → s'.strand x = after_.strand x) ∧
         ∃ v, (s'.strand t).unconfirmed = [v] ∧ v.step = u.step ∧ v.addr = u.addr ∧ v.stores = [] ∧ v.waits = u.waits ∧ v.brought = u.brought ∧
           v.before = st.snapshot ∧ v.inflight = st.inflight ∧
           v.results = own ++ u.results.filter fun x => own.all fun y => y.tgt != x.tgt) ∧
  ((∀ (s : State) (t : StrandId) (f : W32), s.trails t.ctxId = true ∨ (s.strand t).unconfirmed = [] ∨ (s.strand (s.mateStrand t)).unconfirmed = [] →
     exec (.lockstepConfirm t f) s = .next s) ∧
   (∀ (t : Strand) (u : Unconfirmed) (r : List Unconfirmed), t.unconfirmed = u :: r → let x := t.confirm u
     x.unconfirmed = r ∧ x.g = t.g ∧ x.v = t.v ∧ x.k = t.k ∧ x.pc = t.pc ∧ x.step = t.step ∧
     (u.waits = false → t.mismatched = none → x = { t with unconfirmed := r }) ∧ (u.waits = true → x.confirmed = some u ∧ x.hold = none)) ∧
   ∀ (s : State) (t : StrandId) (u v : Unconfirmed) (r q : List Unconfirmed) (f : W32), let m := s.mateStrand t
     s.trails t.ctxId = false → (s.strand t).unconfirmed = u :: r → (s.strand m).unconfirmed = v :: q →
       (u.complete = false ∨ u.step ≠ v.step → exec (.lockstepConfirm t f) s = .next s) ∧
       (u.complete = true → u.step = v.step → u.sig = v.sig ^^^ f → exec (.lockstepConfirm t f) s =
         .next (((s.setStrand m { s.strand m with unconfirmed := q, confirmed := if v.waits then some v else (s.strand m).confirmed }).setStrand t
           ((s.strand t).confirm u)).issueStores t (u.stores.map Held.store))) ∧
       (u.complete = true → u.step = v.step → u.sig ≠ v.sig ^^^ f → (s.strand t).region = none →
         ((s.strand t).mismatched = none → ∃ s', exec (.lockstepConfirm t f) s = .next s' ∧
           let x := s'.strand t; let y := s'.strand m
           x.g = u.before.g ∧ x.v = u.before.v ∧ x.k = u.before.k ∧ x.fmt = u.fmt ∧ x.inflight = u.inflight ∧ x.pc = u.addr ∧
           x.step = u.step - 1 ∧ x.unconfirmed = [] ∧ x.mismatched = some (.steps u.step (((u :: r).getLast (by simp)).step)) ∧
           y.g = v.before.g ∧ y.v = v.before.v ∧ y.k = v.before.k ∧ y.fmt = v.fmt ∧ y.inflight = v.inflight ∧ y.step = v.step - 1 ∧
           y.unconfirmed = [] ∧ s'.mem = s.mem ∧ s'.writes = s.writes) ∧
         (∀ a b, (s.strand t).mismatched = some (.steps a b) → stepBefore u.step a = false → stepBefore b u.step = false →
           (s.strand t).lastFault = none → s.runs t.ctxId = true → ∃ s', exec (.lockstepConfirm t f) s = .next s' ∧ let x := s'.strand t
             x.trap.cause = 9 ∧ x.trap.bundle = u.addr ∧ x.trap.faddr = u.step ∧ x.trap.step = u.step ∧ x.trap.restart = u.addr ∧
             x.trapping = true ∧ x.g = u.before.g ∧ x.unconfirmed = [] ∧ x.mismatched = none ∧ (s'.ctx t.ctxId).suspending = true ∧
             (s'.strand m).g = v.before.g ∧ (s'.strand m).unconfirmed = [] ∧ s'.mem = s.mem ∧ s'.writes = s.writes)))

/-- 20 R334 to R337, 17 R293: a die declared failed does nothing more, and nothing of it is on the way but the Data it sent, poisoned;
without die 0 the device halts. A surviving home poisons a line that the failed die owned and forgets it; a surviving slice salvages a
dirty line of the failed home, or logs it as lost; the tundishes take a holder on the failed die for lost at once. -/
def Obligations.DieLoss : Prop :=
  (∀ (s : State) (e : DieId), ∃ s', exec (.dieFailureDeclaration e) s = .next s' ∧ (s'.die e).failed = true ∧ s'.dielost = s.dielost ||| dieBit e ∧
    s'.halted = (s.halted || decide (e = 0)) ∧ s'.mem = s.mem ∧
    (∀ m ∈ s'.msgs, m.dst ≠ e ∧ (m.src = e → m.kind = .data ∧ ∀ x, m.data = some x → x.2 = 0xF)) ∧
    (∀ w ∈ s'.writes, (clusterOfKey w.cluster).die ≠ e) ∧
    (∀ d, d ≠ e → s'.die d = s.die d) ∧ ∀ pa < hbmEnd, homeDie pa = e → s'.lostAt pa = true) ∧
  (∀ (s : State) (h e : DieId) (line used : Nat), h ≠ e → (s.die e).failed = true → (s.die h).dir = [(line, ⟨.X, e, dieBit e, used⟩)] →
    (s.die h).txns = [] → (s.die h).waiting = [] → tget (s.die h).l2 line = none →
      ∃ s', exec (.declarationAtHome h e) s = .next s' ∧ (s'.die h).dir = [] ∧ (s'.die h).losthome = (s.die h).losthome ||| dieBit e ∧
        s'.hbmPoison.contains (2 * line) = true ∧ s'.hbmPoison.contains (2 * line + 1) = true) ∧
  (∀ (s : State) (h e : DieId) (line : Nat) (x : L2Line), h ≠ e → (s.die e).failed = true → homeDie (line * 128) = e →
    (s.die h).l2 = [(line, x)] → (x.st = .M ∨ x.st = .O) → x.holders = [] → (∀ l ∈ clustersOf h, (s.cluster l).cache = []) →
      (s.die h).wbuf = [] → (s.die h).owed = [] → (s.die h).mshr = [] →
      (((s.die h).salvbase = 0 ∨ (s.die h).salvsize ≤ (s.die h).salvnext) → ∃ s', exec (.salvage h e) s = .next s' ∧ (s'.die h).l2 = [] ∧
        (s'.die h).salvnext = (s.die h).salvnext ∧ s'.mem = s.mem ∧
        ((s'.die h).logs[2]).recs.getLast?.map (fun r => (r.kind, r.addr)) = some (5, line * 128)) ∧
      ((s.die h).salvbase ≠ 0 → (s.die h).salvnext < (s.die h).salvsize →
        let a := (s.die h).salvbase.toNat + 144 * (s.die h).salvnext
        ∃ s', exec (.salvage h e) s = .next s' ∧ (s'.die h).l2 = [] ∧ (s'.die h).salvnext = (s.die h).salvnext + 1 ∧
          s'.mem = memWriteBytes s.mem a (leBytes 8 (line * 128 + (if x.st = .M then 1 else 0)) ++ leBytes 8 x.poison.toNat ++
            (List.range 128).map fun i => x.data.getD i 0))) ∧
  ∀ (s : State) (h e : DieId) (ctr : Nat) (x : Tundish) (o : Holder), h ≠ e → (s.die e).failed = true → ctrHome ctr = h →
    (s.die h).tundish = [(ctr, x)] → x.holders = [o] → (clusterOfKey o.cluster).die = e → x.recalling = none →
      ∃ s' y, exec (.declarationAtTundish h e) s = .next s' ∧ tget (s'.die h).tundish ctr = some y ∧ y.holders = [] ∧
        y.lost = x.lost + o.amount ∧ y.reserve = x.reserve

/-- 00 R3, 23 R365, R377 to R382: power-good brings the device up from its reset state with what host memory held, the measurement
register extended stage by stage, or stops at the step that failed; a stage whose signature fails its check stops it at step 4, after the
stages before it, and the identity key is made at the first boot that succeeds (DEDUCED, log 86); power-off loses everything of the
device, whose memory then reads 0 (DESIGN CHOICE, log 2); a tamper level of 1 is logged, 2 halts, 3 destroys the key too; a hot junction
lowers its die's clock by 100 MHz, not below 800, and 105 °C halts; the power limit lowers every die's. -/
def Obligations.SuppliesAndAlarms : Prop :=
  (∀ (s : State) (b : BringUp), s.power = false → ∃ s', exec (.powerGood b) s = .next s' ∧ s'.power = true ∧
    ((∀ x ∈ b.stages, x.signed = true) →
      (b.failAt = none → s'.ready = true ∧ s'.phase = State.reset.phase ∧ s'.meas = stagesMeasured b.stages ∧
        s'.key = (s.key || !s.booted) ∧ s'.booted = true) ∧
      ∀ n, b.failAt = some n → s'.ready = false ∧ s'.phase = 5 ∧ s'.failStep = n ∧ s'.key = s.key ∧
        s'.meas = if n.toNat < 4 then 0 else stagesMeasured b.stages) ∧
    (∀ (xs zs : List Stage) (y : Stage), b.stages = xs ++ y :: zs → (∀ x ∈ xs, x.signed = true) → y.signed = false →
      (∀ n, b.failAt = some n → 4 ≤ n.toNat) → s'.ready = false ∧ s'.phase = 5 ∧ s'.failStep = 4 ∧ s'.key = s.key ∧ s'.meas = stagesMeasured xs) ∧
    s'.strands = [] ∧ s'.dies = [] ∧ ∀ a, hostBase ≤ a → memRead s'.mem a = memRead s.mem a) ∧
  (∀ (s : State), ∃ s', exec .powerOff s = .next s' ∧ s'.power = false ∧ s'.ready = false ∧ s'.strands = [] ∧ s'.key = s.key ∧ s'.tamper = 0 ∧
    (∀ a < hostBase, memRead s'.mem a = 0) ∧ ∀ a, hostBase ≤ a → memRead s'.mem a = memRead s.mem a) ∧
  (∀ (s : State) (b : BringUp), s.power = true → ∃ s', exec (.deviceReset b) s = .next s' ∧ s'.tamper = s.tamper ∧ s'.strands = [] ∧ s'.cmds = [] ∧
    (b.failAt = none → (∀ x ∈ b.stages, x.signed = true) → s'.ready = true ∧ s'.key = (s.key || !s.booted) ∧ s'.meas = stagesMeasured b.stages)) ∧
  (∀ (s : State) (sensor : BitVec 12), s.power = true →
    (∃ s', exec (.tamperAlarm 1 sensor) s = .next s' ∧ s'.tamper = max s.tamper 1 ∧ s'.halted = s.halted ∧ s'.key = s.key ∧
      ((s'.die 0).logs[0]).recs.getLast?.map (fun r => (r.kind, r.unit)) = some (10, sensor.toNat)) ∧
    (∃ s', exec (.tamperAlarm 2 sensor) s = .next s' ∧ s'.tamper = max s.tamper 2 ∧ s'.halted = true ∧ s'.key = s.key) ∧
    (∃ s', exec (.tamperAlarm 3 sensor) s = .next s' ∧ s'.tamper = max s.tamper 3 ∧ s'.halted = true ∧ s'.key = false)) ∧
  ∀ (s : State) (e : DieId) (milli : Nat), s.power = true →
    (milli < 100000 → exec (.junctionTemperature e milli) s = .next s) ∧
    (100000 ≤ milli → milli < 105000 → exec (.junctionTemperature e milli) s =
      .next (s.setDie e { s.die e with clock := max 800 ((s.die e).clock - 100) })) ∧
    (105000 ≤ milli → ∃ s', exec (.junctionTemperature e milli) s = .next s' ∧ s'.halted = true) ∧
    ∃ s', exec .packagePowerLimit s = .next s' ∧ (∀ d, (s'.die d).clock = max 800 ((s.die d).clock - 100)) ∧ s'.mem = s.mem ∧
      s'.strands = s.strands

/-! ## Commands of the host -/

/-- 23 R369 to R371, R379: a command with a reserved field set is REFUSED, one on a halted device HALTED, unless it is QUERY; a command
that completes writes its results, its status and DONE in its slot and advances CMDDONE; a host write of VALID hands the slot over, which
accepts the command with the next sequence number; any other write of word 0, VALID with DONE included, hands nothing over (R368). -/
def Obligations.CommandWindow : Prop :=
  (∀ (s : State) (c : Cmd) (r : List Cmd), s.cmds = c :: r → s.windowOpen = true →
    ∀ x ∈ [(Instr.loadGraph, 1), (.launch, 2), (.map, 3), (.unmap, 4), (.asidAlloc, 5), (.asidRetire, 6), (.ptsync, 7), (.resume, 8),
           (.evict, 9), (.scrubSet, 11), (.attest, 12), (.writeMem, 13), (.readMem, 14)], c.op.toNat = x.2 →
      (s.halted = true → exec x.1 s = .next (s.complete c 2 [])) ∧
      (s.halted = false → c.reservedOk = false → exec x.1 s = .next (s.complete c 1 []))) ∧
  (∀ (s : State) (c : Cmd) (i status : Nat) (res : List W64), c.slot = some i → i < 15 → res.length ≤ 4 → let s' := s.complete c status res
    s'.cmddone = c.seq ∧ (∀ k < 4, s'.windowRead (slotAt i (24 + k)) = res.getD k 0) ∧ s'.windowRead (slotAt i 30) = BitVec.ofNat 64 status ∧
    (s'.windowRead (slotAt i 0)).getLsbD 62 = true ∧ (s'.windowRead (slotAt i 0)).getLsbD 63 = false ∧
    (∀ x ∈ s'.cmds, x ∈ s.cmds ∧ x.seq ≠ c.seq) ∧ s'.strands = s.strands) ∧
  ∀ (s : State) (i : Nat) (x : W64), i < 15 → s.windowOpen = true → s.slotHeld i = false →
    (x.getLsbD 63 = true → x.getLsbD 62 = false → ∃ s' c, exec (.registerWrite (.window (slotAt i 0)) x) s = .next s' ∧ s'.cmds = s.cmds ++ [c] ∧
      c.seq = s.cmdacc + 1 ∧ s'.cmdacc = s.cmdacc + 1 ∧ c.op = x.setWidth 8 ∧ c.slot = some i ∧ s'.slotHeld i = true ∧
      ∀ k, 1 ≤ k → k ≤ 28 → c.word k = s.windowRead (slotAt i k)) ∧
    (x.getLsbD 63 = false ∨ x.getLsbD 62 = true → exec (.registerWrite (.window (slotAt i 0)) x) s = .next { s with window := tset s.window (slotAt i 0) x })

/-- 12 R233, R234, 23 R371, R384: ASID_ALLOC makes the lowest free ASID, below which every one is live, live with the root it gives or one
of the pool (which, DESIGN CHOICE, log 22), and is refused only when none is free; ASID_RETIRE frees it, advances its generation, having
invalidated its translations everywhere when that wraps to 0, and drops its graphs that do not run (DESIGN CHOICE, log 40); PTSYNC drops
its translations of the range and completes when no older access is pending, by which the model means those of log 42 (DESIGN CHOICE); MAP
writes a leaf where the tables have its place, the tags of its words left alone (DESIGN CHOICE, log 91), and UNMAP writes 0 there (DESIGN
CHOICE, log 39). -/
def Obligations.AddressSpaceCommands : Prop :=
  (∀ s : State, let live := fun k => (s.liveAsid (BitVec.ofNat 11 k)).isSome = true
    (s.freeAsidFrom 0 2048 = none → ∀ k < 2048, live k) ∧ ∀ n, s.freeAsidFrom 0 2048 = some n → n < 2048 ∧ ¬live n ∧ ∀ k < n, live k) ∧
  (∀ (s : State) (c : Cmd), Commanded s c 5 →
    (s.freeAsidFrom 0 2048 = none → exec .asidAlloc s = .next (s.complete c 1 [])) ∧
    (∀ n, s.freeAsidFrom 0 2048 = some n → let old := (tget s.asids n).getD ⟨0, 0, false, []⟩
      let res := [BitVec.ofNat 64 (n + old.gen.toNat * 2 ^ 16)]
      (c.word 1 ≠ 0 → (c.word 1).toNat % 4096 = 0 → (c.word 1).toNat < 2 ^ 48 → exec .asidAlloc s =
        .next (({ s with asids := tset s.asids n { old with root := (c.word 1).toNat, live := true } } : State).complete c 0 res)) ∧
      (c.word 1 = 0 → ∃ (s1 : State) (r : AsidRec), exec .asidAlloc s = .next (s1.complete c 0 res) ∧ tget s1.asids n = some r ∧ r.live = true ∧
        r.root = poolAt n))) ∧
  (∀ (s : State) (c : Cmd) (r : AsidRec), Commanded s c 6 → s.liveAsid (asidOf (c.word 1)) = some r → r.gen ≠ 15 →
    exec .asidRetire s = .next (({ s with
      asids := tset s.asids (asidOf (c.word 1)).toNat { r with gen := r.gen + 1, live := false, tables := [] }
      graphs := s.graphs.filter fun g => g.2.asid != asidOf (c.word 1) || g.2.running } : State).complete c 0 [(r.gen + 1).setWidth 64])) ∧
  (∀ (s : State) (c : Cmd) (r : AsidRec), Commanded s c 6 → s.liveAsid (asidOf (c.word 1)) = some r → r.gen = 15 →
    let s1 := s.flushTlbs fun e => e.asid == asidOf (c.word 1)
    (∀ l, ∀ e ∈ (s1.cluster l).tlb, e.asid ≠ asidOf (c.word 1)) ∧ (∀ d, (∀ e ∈ (s1.die d).tlb, e.asid ≠ asidOf (c.word 1)) ∧ (s1.die d).walks = []) ∧
    exec .asidRetire s = .next (({ s1 with
      asids := tset s.asids (asidOf (c.word 1)).toNat { r with gen := 0, live := false, tables := [] }
      graphs := s.graphs.filter fun g => g.2.asid != asidOf (c.word 1) || g.2.running } : State).complete c 0 [0])) ∧
  (∀ (s : State) (c : Cmd), Commanded s c 7 → s.liveAsid (asidOf (c.word 1)) = none → exec .ptsync s = .next (s.complete c 1 [])) ∧
  (∀ (s : State) (c : Cmd) (r : AsidRec), Commanded s c 7 → s.liveAsid (asidOf (c.word 1)) = some r → c.mark = none → (c.word 3).toNat ≠ 0 →
    let a := asidOf (c.word 1)
    let stale := fun (e : TlbEntry) => e.asid == a && rangesMeet (e.vpn * 2 ^ pageBits e.size) (2 ^ pageBits e.size) (c.word 2).toNat (c.word 3).toNat
    let s1 := s.flushTlbs stale
    (∀ l, (s1.cluster l).tlb = (s.cluster l).tlb.filter fun e => !stale e) ∧ (∀ d, (s1.die d).tlb = (s.die d).tlb.filter fun e => !stale e) ∧
    (∀ d, (s1.die d).walks = []) ∧
    (s1.translatedPending a (c.word 2).toNat (c.word 3).toNat s.seq = false → exec .ptsync s = .next (s1.complete c 0 []))) ∧
  (∀ (s : State) (c : Cmd) (r : AsidRec) (pa : Nat) (e : W64) (s1 : State), Commanded s c 3 → s.liveAsid (asidOf (c.word 1)) = some r →
    (c.word 3).toNat = 1 → c.word 5 = 0 → let va := (c.word 2).toNat; let leaf := c.word 4; let z := pteSz leaf
      va % 2 ^ pageBits z = 0 → 0x100000000 ≤ va → va + 2 ^ pageBits z ≤ 2 ^ 57 → s.templateOk leaf 1 = true →
        s.pageSlot r.root va z walkLevels = .entry pa e → s.smallerLeaf z e = false → s.purgeLines [lineOf pa] = some s1 →
          exec .map s = .next (({ s1 with mem := memSetWord s1.mem pa leaf } : State).complete c 0 [])) ∧
  ∀ (s : State) (c : Cmd) (r : AsidRec) (pa : Nat) (e : W64) (s1 : State), Commanded s c 4 → s.liveAsid (asidOf (c.word 1)) = some r →
    (c.word 3).toNat = 1 → c.mark = none → let va := (c.word 2).toNat; let z := (c.word 4).toNat; let a := asidOf (c.word 1)
      z < 3 → va % 2 ^ pageBits z = 0 → 0x100000000 ≤ va → va + 2 ^ pageBits z ≤ 2 ^ 57 →
        s.pageSlot r.root va z walkLevels = .entry pa e → pteV e = true → pteMalformed z e = false → pteSz e = z →
          s.purgeLines [lineOf pa] = some s1 →
          let s2 : State := { s1 with mem := memSetWord s1.mem pa 0 }
          let s3 := s2.flushTlbs fun e => e.asid == a && rangesMeet (e.vpn * 2 ^ pageBits e.size) (2 ^ pageBits e.size) va (2 ^ pageBits z)
          s3.translatedPending a va (2 ^ pageBits z) s3.seq = false → exec .unmap s = .next (s3.complete c 0 [])

/-- 18 R301, R302, 23 R371, R384: LOAD_GRAPH refuses with the lowest failing node and its check, or loads under its sequence number;
LAUNCH of an idle graph of a live generation, whose node array no running graph has (DESIGN CHOICE, log 78), starts it under its own: node
after node its counter is set up and its run state cleared, and it completes once that is done and every root has been made ready; an
engine that has stopped holds it (R306). 12 R221, R225, R236, 23 R384: RESUME of a context that is not valid, or is parked and not asked
for so, is refused; of a stopped one it resumes its strands, and one that is not stopped it leaves as it is; a trailing slot names its
leading copy's context (DESIGN CHOICE, log 38); EVICT of an unknown gang is REFUSED (DESIGN CHOICE, log 46), of a gang whose state can be
saved saves it, and names its gang record. -/
def Obligations.GraphAndContextCommands : Prop :=
  ((∀ (s : State) (c : Cmd) (r : AsidRec), Commanded s c 1 → s.liveAsid (asidOf (c.word 1)) = some r → (c.word 2).toNat % 64 = 0 →
     (c.word 3).toNat ≠ 0 → let a := asidOf (c.word 1); let base := c.word 2; let n := (c.word 3).toNat
       let xs := readRecords (s.serviceNode a r.gen base) n
       (∀ i k, validateGraph xs (s.counterOk a r.gen) = some (i, k) →
         exec .loadGraph s = .next (s.complete c 1 [0, BitVec.ofNat 64 (i + k * 2 ^ 16)])) ∧
       (validateGraph xs (s.counterOk a r.gen) = none → exec .loadGraph s =
         .next (({ s with graphs := tset s.graphs c.seq ⟨a, r.gen, base, n, none, false, [], [], false, [], []⟩ } : State).complete c 0
           [BitVec.ofNat 64 c.seq, 0]))) ∧
   (∀ (xs : List (Option Node)) (ok : W64 → Bool) (i k : Nat), validateGraph xs ok = some (i, k) → i < xs.length ∧ 1 ≤ k ∧ k ≤ 7 ∧
     failedCheck xs (edgesOf xs) ok i = some k ∧ ∀ j < i, failedCheck xs (edgesOf xs) ok j = none) ∧
   (∀ (s : State) (h launch : Nat) (g : Graph), s.launchGraph h launch g = ({ s with graphs := tset s.graphs h { g with
     launch := some launch, running := true, retired := [], loops := [], refused := false, roots := [], todo := List.range g.count } } : State).launchOn h) ∧
   (∀ (s s1 : State) (g : Graph) (n : Nat) (r : List Nat), s.launchNodes g [] = (s, [], none) ∧
     (s.launchNode g n = .ok s1 → s.launchNodes g (n :: r) = s1.launchNodes g r) ∧
     ∀ y, s.launchNode g n = .error y → s.launchNodes g (n :: r) = (s, n :: r, some y)) ∧
   (∀ (s : State) (g : Graph) (n : Nat) (x : Node) (s1 : State), s.readNode 0 g n = .ok x → (s.die x.die).engine.fault = false →
     s.readNode x.die g n = .ok x → s.initCounter x.die g x (if x.kind = 2 then x.pred - x.btail else x.pred) = .ok s1 →
       s.launchNode g n = s1.writeRun x.die g n 0) ∧
   ∀ (s : State) (c : Cmd) (g : Graph) (r : AsidRec), Commanded s c 2 → let h := (c.word 1).toNat
     let ends := fun (s1 : State) => ∀ g1, tget s1.graphs h = some g1 →
       (g1.todo = [] → g1.roots = [] → exec .launch s = .next (s1.complete c 0 [])) ∧
       (g1.todo ≠ [] ∨ g1.roots ≠ [] → ∃ s', exec .launch s = .next s' ∧ s'.cmds = s1.cmds ∧ s'.cmddone = s1.cmddone ∧ s'.graphs = s1.graphs)
     tget s.graphs h = some g →
     (g.launch ≠ some c.seq → g.running = true ∨ s.arrayRuns h g = true → exec .launch s = .next (s.complete c 1 [])) ∧
     (g.launch ≠ some c.seq → g.running = false → s.arrayRuns h g = false → s.liveAsid g.asid = some r → r.gen = g.gen →
       ((∃ d ∈ s.graphDies g, (s.die d).engine.fault = true) → ∃ s', exec .launch s = .next s' ∧ s'.cmds = s.cmds ∧ s'.cmddone = s.cmddone ∧
         s'.graphs = s.graphs) ∧
       ((∀ d ∈ s.graphDies g, (s.die d).engine.fault = false) → ends (s.launchGraph h c.seq g))) ∧
     (g.launch = some c.seq →
       (g.todo = [] ∨ (∃ d ∈ s.graphDies g, (s.die d).engine.fault = true) → ends s) ∧
       (g.todo ≠ [] → (∀ d ∈ s.graphDies g, (s.die d).engine.fault = false) → ends (s.launchOn h)))) ∧
  ((∀ (s : State) (c : Cmd), Commanded s c 8 → let x := s.leading (selected (c.word 1)); let parked := (c.word 2).getLsbD 0; let y := s.ctx x
     ((s.bindOf x).valid = false ∨ (y.parked = true ∧ parked = false) → exec .resume s = .next (s.complete c 1 [])) ∧
     ((s.bindOf x).valid = true → (y.parked = true → parked = true) → (y.trapped = true ∨ y.frozen = true ∨ y.parked = true) →
       exec .resume s = .next ((s.resumeCtx x parked).complete c 0 [])) ∧
     ((s.bindOf x).valid = true → y.trapped = false → y.frozen = false → y.parked = false → exec .resume s = .next (s.complete c 0 []))) ∧
   (∀ (s : State) (x : CtxId) (unpark : Bool), let s' := s.resumeCtx x unpark
     (s'.ctx x).trapped = false ∧ (s'.ctx x).frozen = false ∧ ((s'.ctx x).parked = true ↔ (s.ctx x).parked = true ∧ unpark = false) ∧
     ∀ t ∈ x.strands, (s'.strand t).trap.valid = false ∧ (s'.strand t).g = (s.strand t).g ∧ (s'.strand t).step = (s.strand t).step) ∧
   (∀ (s : State) (c : Cmd), Commanded s c 9 → let k := (c.word 1).toNat * 65536 + (c.word 2).toNat
     (tget s.gangs k = none → exec .evict s = .next (s.complete c 1 [])) ∧
     (∀ g, tget s.gangs k = some g → g.saved = none → (s.freezeGang g).evictable g = true →
       exec .evict s = .next (((s.freezeGang g).saveGang k g).complete c 0 [BitVec.ofNat 64 (gangRecordAt k)]))) ∧
   ∀ (s : State) (k : Nat) (g : Gang) (c : CtxId), g.members = [c] → (s.bindOf c).lock = false → let s' := s.saveGang k g
     (∃ g', tget s'.gangs k = some g' ∧ g'.saved.isSome = true ∧ g'.members = [c]) ∧ s'.bindOf c = { s.bindOf c with valid := false } ∧
     (s'.ctx c).run = .free)

/-- 22 R359, 23 R371, R372, R378: QUERY writes its item to host memory, or is refused a short buffer, and a selector that names nothing
(DESIGN CHOICE, log 45), as one without a valid record names no trap block; item 2 is the trap block as the save area holds it; SCRUB_SET
sets a stack's rate, at most 64; ATTEST without a key is NOKEY, whatever its operands (DESIGN CHOICE, log 44), else it writes report and
signature; WRITE_MEM and READ_MEM move their bytes between host memory and the device range, READ_MEM poisoned ones too (DESIGN CHOICE,
log 43), and a free value for a byte of a frame that is mapped in two ways (21 R339, log 24). -/
def Obligations.ServiceCommands : Prop :=
  (∀ (s : State) (c : Cmd) (r : List Cmd), s.cmds = c :: r → s.windowOpen = true → c.op = 10 → c.reservedOk = true →
    s.item (c.word 1).toNat (c.word 2).toNat ((c.word 4).toNat / 256) = none → exec .query s = .next (s.complete c 1 [])) ∧
  (∀ (s : State) (pa : Nat), (s.mixed pa = false → s.frameByte pa = s.deviceByte pa) ∧
    (s.mixed pa = true → s.frameByte pa = Config.mixedByte s.tick pa)) ∧
  (∀ (s : State) (c : Cmd) (r : List Cmd) (ws : List W64), s.cmds = c :: r → s.windowOpen = true → c.op = 10 → c.reservedOk = true →
    s.item (c.word 1).toNat (c.word 2).toNat ((c.word 4).toNat / 256) = some ws →
      ((c.word 4).toNat < 8 * ws.length → exec .query s = .next (s.complete c 1 [])) ∧
      (8 * ws.length ≤ (c.word 4).toNat → (c.word 3).toNat + 8 * ws.length ≤ 2 ^ 47 → exec .query s =
        .next (({ s with mem := memWriteBytes s.mem (hostBase + (c.word 3).toNat) (dwordBytes ws) } : State).complete c 0
          [BitVec.ofNat 64 (8 * ws.length)]))) ∧
  (∀ (s : State) (sel room : Nat), sel < 1024 → let x := selected (BitVec.ofNat 64 sel)
    ((s.bindOf x).valid = false → s.item 2 sel room = none) ∧
    ((s.bindOf x).valid = true → ∃ ws, s.item 2 sel room = some ws ∧ ws.length = 32 ∧
      ∀ k < 32, ws.getD k 0 = s.deviceWord ((s.bindOf x).save.toNat + 8 * k))) ∧
  (∀ (s : State) (c : Cmd), Commanded s c 11 →
    (3 < (c.word 1).toNat → exec .scrubSet s = .next (s.complete c 1 [])) ∧
    (c.word 1 = 0 → (c.word 2).toNat < 12 → exec .scrubSet s =
      .next (({ s with scrhbm := tset s.scrhbm (c.word 2).toNat (min (c.word 3).toNat 64) } : State).complete c 0 []))) ∧
  (∀ (s : State) (c : Cmd), Commanded s c 12 →
    (s.key = false → exec .attest s = .next (s.complete c 3 [])) ∧
    (s.key = true → 4843 ≤ (c.word 10).toNat → (c.word 9).toNat + 4843 ≤ 2 ^ 47 →
      let r := s.report ((List.range 8).map fun k => c.word (k + 1))
      exec .attest s = .next (({ s with
        mem := memWriteBytes s.mem (hostBase + (c.word 9).toNat) (r ++ (List.range 4627).map (Config.signatureByte r)) } : State).complete c 0
          [4843]))) ∧
  (∀ (s : State) (c : Cmd) (s1 : State), Commanded s c 13 → c.word 1 = 0x8000 → let pa := (c.word 2).toNat; let n := (c.word 4).toNat
    0 < n → pa % 65536 + n ≤ 65536 → pa + n ≤ hbmEnd → (c.word 3).toNat + n ≤ 2 ^ 47 → s.lostAt pa = false → s.meetsReserved pa n = false →
      s.purgeLines (linesOf pa n) = some s1 → exec .writeMem s = .next (({ s1 with
        mem := memWriteBytes s1.mem pa (memBytes s.mem (hostBase + (c.word 3).toNat) n)
        hbmPoison := s1.hbmPoison.filter fun g => !decide (pa ≤ 64 * g ∧ 64 * g + 64 ≤ pa + n) } : State).complete c 0 [])) ∧
  ∀ (s : State) (c : Cmd), Commanded s c 14 → c.word 1 = 0x8000 → let pa := (c.word 2).toNat; let n := (c.word 4).toNat
    0 < n → pa % 65536 + n ≤ 65536 → pa + n ≤ hbmEnd → (c.word 3).toNat + n ≤ 2 ^ 47 → s.lostAt pa = false → s.meetsReserved pa n = false →
      let bs := (List.range n).map fun i => s.frameByte (pa + i)
      exec .readMem s = .next (({ s with mem := memWriteBytes s.mem (hostBase + (c.word 3).toNat) bs } : State).complete c 0 [])

/-- 20 R323, 18 R305, R307, 22 R360, 00 R10: a write of a register without a row of its own writes that register: COHCTL with GUARD from
16 to 256 and lengths of at least twice GUARD; GRSIZE from 12 to 24, else 12; GRBASE, its low bits included, and a word of a bind record,
its VALID included (DESIGN CHOICE, log 48); a W1C register clears the bits written 1, a counter bit by bit (DESIGN CHOICE, log 69); host
memory takes its eight bytes. -/
def Obligations.RegisterWrites : Prop :=
  (∀ (s : State) (e : DieId) (x : W64), let d := s.die e
    let guard := max 16 (min 256 (x.toNat % 512))
    exec (.registerWrite (.cohctl e) x) s = .next (s.setDie e { d with
      guard := guard, lord := max (2 * guard) (x.toNat / 2 ^ 16 % 2 ^ 16)
      lhot := max (2 * guard) (x.toNat / 2 ^ 32 % 2 ^ 16)
      lro := max (2 * guard) (x.toNat / 2 ^ 48 % 2 ^ 16) }) ∧
    exec (.registerWrite (.salvbase e) x) s = .next (s.setDie e { d with salvbase := BitVec.ofNat 48 x.toNat }) ∧
    exec (.registerWrite (.grsize e) x) s = .next (s.setDie e { d with
      engine := { d.engine with grsize := if 12 ≤ x.toNat % 32 ∧ x.toNat % 32 ≤ 24 then x.toNat % 32 else 12 } }) ∧
    exec (.registerWrite (.grbase e) x) s = .next (s.setDie e { d with engine := { d.engine with grbase := x } }) ∧
    exec (.registerWrite (.qmask e) x) s = .next (s.setDie e { d with qmask := BitVec.ofNat 32 x.toNat }) ∧
    (x.getLsbD 0 = true → x.getLsbD 1 = false →
      exec (.registerWrite (.grstat e) x) s = .next (s.setDie e { d with engine := { d.engine with bp := false } })) ∧
    ∀ n : Fin 5, ∃ s', exec (.registerWrite (.elglost e n) x) s = .next s' ∧ ((s'.die e).logs[n]).lost =
      (BitVec.ofNat 32 ((s.die e).logs[n]).lost &&& ~~~(BitVec.ofNat 32 x.toNat)).toNat ∧ ((s'.die e).logs[n]).recs = ((s.die e).logs[n]).recs) ∧
  (∀ (s : State) (c : CtxId) (x : W64), ∃ s' b, exec (.registerWrite (.bind c.die (Fin.ofNat 256 (c.cluster.val * 8 + c.ctx.val)) 0) x) s = .next s' ∧
    s'.bindOf c = b ∧ b.valid = x.getLsbD 0 ∧ b.matrix = x.getLsbD 1 ∧ b.lock = x.getLsbD 2 ∧ b.spec = x.getLsbD 3 ∧
    b.asid.toNat = x.toNat / 2 ^ 11 % 2 ^ 11 ∧ b.gang.toNat = x.toNat / 2 ^ 32 % 2 ^ 16 ∧ b.entry = (s.bindOf c).entry ∧ b.args = (s.bindOf c).args) ∧
  ∀ (s : State) (a : Nat) (x : W64), Memory.wf s.mem = true → a + 8 ≤ 2 ^ 47 → ∃ s', exec (.registerWrite (.host a) x) s = .next s' ∧
    memWord s'.mem (hostBase + a) = x ∧ ∀ b, b < hostBase + a ∨ hostBase + a + 8 ≤ b → memRead s'.mem b = memRead s.mem b

/-! ## The machine as a whole -/

/-- 04 R72, 05 R99, 14 R251, 15 R263, 17 R297, 21 R341, R348 and others: words that the manual's own listings give, and the syllable each
of them is; a stop bit that is clear. -/
def Obligations.ListedWordsDecode : Prop :=
  decodeWord 0x80000000#32 = .ok (.nop 0) ∧ decodeWord 0x46204000#32 = .ok (.ldd 8 4 0) ∧ stopBit 0x46204000#32 = false ∧
  decodeWord 0x831461C0#32 = .ok (.mul 5 6 7) ∧ stopBit 0x831461C0#32 = true ∧ decodeWord 0x81248140#32 = .ok (.add 9 8 5) ∧
  decodeWord 0x8E149ABC#32 = .ok (.li 5 0x09ABC) ∧ decodeWord 0x8F15159E#32 = .ok (.lih1 5 0x1159E) ∧
  decodeWord 0x90140123#32 = .ok (.lih2 5 0x00123) ∧ decodeWord 0xDA080005#32 = .ok (.brq 2 5) ∧
  decodeWord 0xDE0001C3#32 = .ok (.trap 7) ∧ decodeWord 0xDE000000#32 = .ok .join ∧ decodeWord 0xDE000040#32 = .ok .joinAll ∧
  decodeWord 0xE3000040#32 = .ok (.mma 0 1 0 0) ∧ decodeWord 0xE3000001#32 = .ok (.mma 0 0 0 1) ∧
  decodeWord 0xD10000C2#32 = .ok (.fenceAcq 3) ∧ decodeWord 0xD02461C3#32 = .ok (.sttn 9 6 7) ∧
  decodeWord 0xD118D380#32 = .ok (.bind 6 13 14) ∧ decodeWord 0xD3083000#32 = .ok (.barInit 2 3) ∧
  decodeWord 0xD4244146#32 = .ok (.amoCas 9 4 5) ∧ decodeWord 0xD52C5241#32 = .ok (.adec 11 5 9) ∧
  decodeWord 0xE924A300#32 = .ok (.msCopy 9 10) ∧ decodeWord 0xEA24A110#32 = .ok (.lkSend 9 10 2)

/-- 02 R22 to R27, R33, R36, R37: decoding and encoding agree: every well-formed syllable, with every operand, is read back from its word
with its stop bit, and from its four bytes; and a word that decodes is the word of its syllable, whose operands are within the limits of
R33. -/
def Obligations.EncodeDecode : Prop :=
  (∀ (i : Instr) (stop : Bool) (w : W32), i.wellFormed = true → encode stop i = some w →
    decodeWord w = .ok i ∧ stopBit w = stop ∧ decodeBytes (wordBytes w) = .ok (stop, i, [])) ∧
  ∀ (w : W32) (i : Instr), decodeWord w = .ok i → i.wellFormed = true ∧ encode (stopBit w) i = some w

/-- 00 R7, R8: every step that answers a next state keeps the memory's canonical form: addresses rise, and no listed byte is what an
unlisted one reads as. -/
def Obligations.MemoryKeepsItsForm : Prop :=
  ∀ s t : State, Memory.wf s.mem = true → step s = .next t → Memory.wf t.mem = true

/-- The state right after reset (00 R10, 20 R323, 18 R305, R307, 20 R336, 22 R359 to R361, 23 R367): the values that the manual gives. -/
def Obligations.ResetState : Prop :=
  let s := State.reset
  s.ready = true ∧ s.phase = 4 ∧ s.failStep = 0 ∧ s.tamper = 0 ∧ s.halted = false ∧ s.dielost = 0 ∧ s.key = true ∧
  s.cmdacc = 0 ∧ s.cmddone = 0 ∧ s.cmds = [] ∧ Memory.wf s.mem = true ∧
  (∀ e : DieId, let d := s.die e
    d.guard = 32 ∧ d.lord = 1000 ∧ d.lhot = 128 ∧ d.lro = 64000 ∧ d.engine.grbase = 0 ∧ d.engine.grsize = 12 ∧ d.engine.grhead = 0 ∧
    d.engine.grtail = 0 ∧ d.engine.bp = false ∧ d.engine.fault = false ∧ d.engine.grfaddr = 0 ∧ d.salvbase = 0 ∧ d.salvsize = 0 ∧
    d.salvnext = 0 ∧ d.losthome = 0 ∧ d.scrl2 = 8 ∧ d.scrsp = 4 ∧ d.scrcc = 4 ∧ d.qctl = 1 ∧ d.qmask = 0 ∧
    ∀ n : Fin 5, (d.logs[n]).recs = [] ∧ (d.logs[n]).lost = 0) ∧
  (∀ k : Fin 12, s.hbmRate k.val = 8) ∧ (∀ c : CtxId, s.bindOf c = Bind.reset ∧ (s.bindOf c).valid = false) ∧
  ∀ w : TagWord, s.tagOf w = false

/-- A step runs what is decoded (DESIGN CHOICE, log 1 and log 23). The event at the head of the agenda: `exec` of it, and then the
device's time. The bundle of the strand whose turn it is: its syllables one after the other, each `exec` of it at its position, and then
what `closeTurn` makes of them, which outside the trailing copy of a lockstep pair (log 38) is `closeBundle`. A strand whose next bundle
is one word without literals: the four bytes at its pc, in the text, are that word, its syllable is what the decoder reads, and with the
bundle's limits kept, nothing that holds it and the budget of its class not spent, the step is `exec` of that syllable between the begin
and the close of the bundle. -/
def Obligations.StepRunsInstruction : Prop :=
  (∀ (s : State) (i : Instr) (r : List Instr), s.agenda = i :: r → s.power = true → step s =
    match exec i (({ s with agenda := r } : State).beforeEvent i) with
    | .next t => .next (t.tickOver 0) | .fault f => .fault f | .refused f => .refused f) ∧
  (∀ (s before start : State) (is : List (Nat × Instr)), s.agenda = [] → s.power = true → s.latent = [] →
    s.openTurn = .run before start is → step s =
      match runSyllables is start with
      | .next t => .next ((before.closeTurn t).tickOver 0) | .fault f => .fault f | .refused f => .refused f) ∧
  (∀ (i : Instr) (p : Nat) (is : List (Nat × Instr)) (s t : State), exec i (s.atPosition p) = .next t →
    runSyllables ((p, i) :: is) s = runSyllables is t) ∧
  (∀ before after_ : State, before.trails before.turn.ctxId = false → before.closeTurn after_ = before.closeBundle after_) ∧
  (∀ (s : State) (t : StrandId) (va : W64) (p : Place) (pa : Nat) (w : W32), va.toNat % 4 = 0 → isGlobal va = true →
    s.resolve t va needX = .ok p → p.loc = .phys pa → (∀ k < 4, s.textByte t.clusterId (pa + k) = (wordBytes w).getD k 0) →
      s.fetchWord t va = .ok w) ∧
  (∀ (s : State) (t : StrandId) (w : W32), s.fetchWord t (s.strand t).pc = .ok w → stopBit w = true → majorOf w ≠ 0x66 →
    (s.strand t).queue = [] → (s.strand t).attached = false →
      let b : Decoded := ⟨(s.strand t).pc, [w], []⟩
      let s1 := s.fillText t b
      s.nextBundle t = .got b (s1.setStrand t { s1.strand t with queue := [b] })) ∧
  ∀ (s s0 : State) (w : W32) (i : Instr) (va : W64),
    let t := s.turn
    let b : Decoded := ⟨va, [w], []⟩
    s.agenda = [] → s.power = true → s.latent = [] → s.pass = false → s.runs t.ctxId = true → s.presents t = true →
    (s.strand t).idle = 0 → (s.strand t).ainit = none → (s.strand t).unconfirmed = [] → (s.ctx t.ctxId).brokenSeal = [] →
    s.nextBundle t = .got b s0 → stopBit w = true → decodeWord w = .ok i → s0.turn = t → s0.trails t.ctxId = false →
    (s.matrix t = true ∨ (classOf w ≠ .X ∧ classOf w ≠ .E)) → s0.matrix t = s.matrix t →
    classMask b.positions ||| portMask b.syllables ||| conflictMask b.syllables = 0 →
    (s0.strand t).lengthOut = false → (s0.strand t).pend = [] → (s0.strand t).fences = [] → (s0.strand t).confirmed = none →
    (s0.chargeIssue t).1 = true →
      step s = match exec i ((s0.beginIssue b [(0, i)]).atPosition 0) with
        | .next a => .next ((s0.closeBundle a).tickOver 0) | .fault f => .fault f | .refused f => .refused f

/-- 02 R32, 03 R57, 00 R14: no syllable, as it runs, changes a register, the pc, the step counter or the trap record of any strand, nor
anything of another strand: results land later and the bundle commits as a whole. Only `bar.arrive` changes a %barovr, of its own strand.
Memory stays as it is but for `stt`, `sttn`, `pref` and `res`. What else stands outside the strand and its bundle's record: a syllable of
the classes S, V, M, C, K and Z but `pref`, `res` and `cop.inv` leaves it alone; one of the classes X and E changes no other core, and of
its own neither a scratchpad byte nor a latch, a stage or an accumulator, and link ports only in class E; of class Y, fences, `drain`,
atomics, `bind` and the barriers change no core, die, cluster or write, only `bind` a gang's table and only the barriers a context. A tag
operation may change cores, dies, clusters and the write path, an allowance command dies, clusters and the write path: the statements on
them say how. -/
def Obligations.SyllableFrame : Prop :=
  ∀ (i : Instr) (w : W32) (s t : State), encode true i = some w → exec i s = .next t →
    (∀ u : StrandId, let x := s.strand u; let y := t.strand u
      y.g = x.g ∧ y.v = x.v ∧ y.k = x.k ∧ y.pc = x.pc ∧ y.step = x.step ∧ y.fmt = x.fmt ∧ y.rmode = x.rmode ∧ y.lfsr = x.lfsr ∧
      y.lc0 = x.lc0 ∧ y.lc1 = x.lc1 ∧ y.f0 = x.f0 ∧ y.f1 = x.f1 ∧ y.jbudget = x.jbudget ∧ y.hintdrop = x.hintdrop ∧
      y.rbcause = x.rbcause ∧ y.rbaddr = x.rbaddr ∧ y.trap = x.trap ∧ y.exited = x.exited ∧ y.attached = x.attached ∧
      ((∀ j, i ≠ .barArrive j) → y.barovr = x.barovr) ∧ (u.key ≠ s.turn.key → y = x)) ∧
    ((∀ a b, i ≠ .stt a b) → (∀ d a b, i ≠ .sttn d a b) → (∀ a, i ≠ .pref a) → (∀ a b, i ≠ .res a b) →
      t.mem = s.mem) ∧
    (classOf w ≠ .Y → classOf w ≠ .E → classOf w ≠ .X → (∀ a, i ≠ .pref a) → (∀ a b, i ≠ .res a b) → (∀ a b, i ≠ .copInv a b) →
      t.cores = s.cores ∧ t.dies = s.dies ∧ t.clusters = s.clusters ∧ t.writes = s.writes ∧ t.ports = s.ports ∧ t.gangs = s.gangs ∧
      t.ctxs = s.ctxs ∧ t.msgs = s.msgs) ∧
    (classOf w = .X ∨ classOf w = .E →
      t.dies = s.dies ∧ t.clusters = s.clusters ∧ t.writes = s.writes ∧ t.gangs = s.gangs ∧ t.ctxs = s.ctxs ∧ t.msgs = s.msgs ∧
      (∀ o : CoreId, o.key ≠ s.turn.coreId.key → t.core o = s.core o) ∧
      let x := s.core s.turn.coreId; let y := t.core s.turn.coreId
      y.spad = x.spad ∧ y.spadPoison = x.spadPoison ∧ y.tags = x.tags ∧ y.latch = x.latch ∧ y.stage = x.stage ∧ y.stageRows = x.stageRows ∧
      y.acc = x.acc ∧ (classOf w = .X → t.ports = s.ports)) ∧
    (classOf w = .Y → t.ports = s.ports ∧ t.msgs = s.msgs ∧ ((∀ d a b, i ≠ .bind d a b) → t.gangs = s.gangs) ∧
      ((∀ j a, i ≠ .barInit j a) → (∀ j, i ≠ .barArrive j) → t.ctxs = s.ctxs) ∧
      (majorOf w = 0x51 ∨ majorOf w = 0x53 ∨ majorOf w = 0x54 →
        t.cores = s.cores ∧ t.dies = s.dies ∧ t.clusters = s.clusters ∧ t.writes = s.writes))

/-- 02 R29, R31, 06 R119, R126: what stops a bundle before its syllables run, in this order. A missing stop bit raises BUNDLE with the
mask 0xFF, an `mkat` that is not the last syllable BUNDLE with every such one marked. Encodings come next, and are marked as the syllables
run. Then BUNDLE marks every syllable of a class of which there are more than R29 allows, every one that writes a file with more
destinations named than R29 allows (each syllable's count: DESIGN CHOICE, log 56), and every one that writes a register another syllable
writes or reads, or reads one that another writes. A bundle that passes, whose step makes the region 65,536 steps long, rolls back with
LENGTH, unless it holds a `loop` that raises ILLEGAL. 05 R96, 02 R33, 06 R126, 12 R219, R222: what becomes of a bundle whose syllables
found faults: ILLEGAL by encoding comes first, with every such position in the mask; else the fault of the lowest position is the cause,
with every faulting position in the mask, NONUNIFORM being none where another cause stops the bundle; the bundle's effects are discarded:
registers, memory and write path are those before it. A bundle whose results, less those of the syllables that fault (DESIGN CHOICE, log
79), find no entry free takes an idle step in its place (R62). 03 R61, 06 R126, 11 R208, 12 R222: a bundle that no fault stops and nothing
holds, but that reads a poisoned operand, traps with POISON: every syllable that reads one is marked, FADDR is that of the lowest; nothing
of it takes effect, and in a region the rollback comes first. One without, outside a region, whose `mkat` finds a word that differs traps
with KATFAIL, marked at its position. 06 R126, R125: in a region the rollback causes that a bundle meets rank EXCLUDED, ABORT, ASSUME,
ALIAS, OVERFLOW; a hundred and twenty-ninth held store is OVERFLOW, a store in a guarded range ALIAS; none of the bundle's stores is held
then. The bundle counts as issued (06 R124). -/
def Obligations.BundleOutcome : Prop :=
  ((∀ c : SlotClass, c.limit = if c = .S ∨ c = .V ∨ c = .M then 2 else 1) ∧ fileLimit 0 = 3 ∧ fileLimit 1 = 3 ∧ fileLimit 2 = 1 ∧
   ∀ (s : State) (b : Decoded), 0 < b.words.length → b.words.length ≤ 8 →
     let t := s.turn
     let n := b.words.length
     let w := fun k => b.words.getD k 0
     let i := fun k => instrOf (w k)
     let stray := fun k => k + 1 < n ∧ majorOf (w k) = 0x66
     let many := fun k => (classOf (w k)).limit < ((List.range n).filter fun j => decide (classOf (w j) = classOf (w k))).length
     let ports := fun k => ∃ f < 3, (∃ r ∈ writesOf (i k), r.file = some f) ∧
       fileLimit f < ((List.range n).flatMap fun j => (writesOf (i j)).filter fun r => decide (r.file = some f)).length
     let clash := fun k => ∃ j < n, j ≠ k ∧ ((∃ r ∈ writesOf (i k), r ∈ writesOf (i j) ∨ r ∈ readsOf (i j)) ∨ ∃ r ∈ readsOf (i k), r ∈ writesOf (i j))
     let bad := fun k => k < n ∧ (many k ∨ ports k ∨ clash k)
     (stopBit (w (n - 1)) = false → s.startBundle b = .done (s.trapAtIssue t 2 0xFF)) ∧
     (stopBit (w (n - 1)) = true → (∃ k, stray k) → ∃ mask : BitVec 8, s.startBundle b = .done (s.trapAtIssue t 2 mask) ∧
       ∀ k < 8, mask.getLsbD k = true ↔ stray k) ∧
     (stopBit (w (n - 1)) = true → (∀ k, ¬stray k) →
       ((∃ k < n, s.encodingOk t (w k) = false) → s.startBundle b = .run s (s.beginIssue b b.syllables) b.syllables) ∧
       ((∀ k < n, s.encodingOk t (w k) = true) →
         ((∃ k, bad k) → ∃ mask : BitVec 8, s.startBundle b = .done (s.trapAtIssue t 2 mask) ∧ ∀ k < 8, mask.getLsbD k = true ↔ bad k) ∧
         ((∀ k, ¬bad k) → ∀ r, (s.strand t).region = some r → 65536 ≤ ((s.strand t).step + 1 - r.step).toNat →
           (s.strand t).loopFails b = false → (s.chargeIssue t).1 = true →
           s.startBundle b = .done ((s.issueOnce t).rollback t 6 b.addr))))) ∧
  (∀ (before after_ : State), let t := before.turn; let b := after_.iss; let old := before.strand t
     let s := before.closeBundle after_; let x := s.strand t
     old.region = none → (after_.strand t).region = none → old.lastFault = none →
       (b.illegal = 0 → overfull (after_.strand t).inflight b = true → s = (before.setStrand t { old with idle := 1 }).idleOnce t) ∧
       (b.illegal ≠ 0 → x.trap.cause = 1 ∧ x.trap.mask = b.illegal ∧ x.trap.bundle = old.pc ∧ x.trap.restart = old.pc ∧ s.mem = before.mem) ∧
       (b.illegal = 0 → overfull (after_.strand t).inflight b = false → (∀ f ∈ b.faults, f.cause ≠ 1 ∧ f.pos < 8) →
         let fs := if b.faults.all fun f => f.cause == 3 then b.faults else b.faults.filter fun f => f.cause != 3
         ∀ f ∈ fs, (∀ g ∈ fs, g = f ∨ f.pos < g.pos) →
           x.trap.cause = f.cause ∧ x.trap.sub = f.sub ∧ x.trap.faddr = f.faddr ∧ x.trap.bundle = b.addr ∧ x.trap.restart = b.addr ∧
           (∀ k < 8, x.trap.mask.getLsbD k = fs.any fun g => g.pos == k) ∧ x.trapping = true ∧ x.g = old.g ∧ x.v = old.v ∧ x.k = old.k ∧
           x.inflight = old.inflight ∧ x.step = old.step ∧ s.mem = before.mem ∧ s.writes = before.writes ∧ s.cores = before.cores)) ∧
  (∀ (before after_ : State), let t := before.turn; let b := after_.iss; let old := before.strand t
     let s := before.closeBundle after_; let x := s.strand t
     old.lastFault = none → b.illegal = 0 → overfull (after_.strand t).inflight b = false → b.faults = [] → b.hold = none → b.bad = false →
       (b.commits = true → ∀ h ∈ old.heldStores, h.bad = false) →
       ((∀ p ∈ b.poisoned, p.1 < 8) → ∀ p ∈ b.poisoned, (∀ q ∈ b.poisoned, q = p ∨ p.1 < q.1) →
         (old.region = none → (after_.strand t).region = none →
           x.trap.cause = 7 ∧ x.trap.faddr = p.2 ∧ x.trap.bundle = b.addr ∧ x.trap.restart = b.addr ∧ x.pc = b.addr ∧ x.trapping = true ∧
           (∀ k < 8, x.trap.mask.getLsbD k = b.poisoned.any fun q => q.1 == k) ∧
           x.g = old.g ∧ x.v = old.v ∧ x.k = old.k ∧ x.inflight = old.inflight ∧ x.step = old.step ∧ s.mem = before.mem ∧
           s.writes = before.writes ∧ s.cores = before.cores) ∧
         (∀ r, old.region = some r →
           x.trap.cause = 7 ∧ x.trap.faddr = p.2 ∧ x.trap.bundle = b.addr ∧ x.trap.restart = r.bundle ∧ x.pc = r.bundle ∧ x.trapping = true ∧
           (∀ k < 8, x.trap.mask.getLsbD k = b.poisoned.any fun q => q.1 == k) ∧ x.region = none ∧ x.rbcause = 7 ∧ s.mem = before.mem ∧
           s.writes = before.writes)) ∧
       (b.poisoned = [] → old.region = none → (after_.strand t).region = none → ∀ pos faddr, b.katfail = some (pos, faddr) →
         x.trap.cause = 8 ∧ x.trap.mask = 1#8 <<< pos ∧ x.trap.faddr = faddr ∧ x.trap.bundle = b.addr ∧ x.trap.restart = b.addr ∧
         x.trapping = true ∧ x.g = old.g ∧ x.v = old.v ∧ x.k = old.k ∧ x.step = old.step ∧ s.mem = before.mem ∧
         s.writes = before.writes ∧ s.cores = before.cores)) ∧
  (∀ (before after_ : State) (r : Region), let t := before.turn; let b := after_.iss
     (before.strand t).region = some r → (after_.strand t).region = some r → b.illegal = 0 → overfull (after_.strand t).inflight b = false →
     b.faults = [] → b.hold = none → b.bad = false → (∀ h ∈ r.held, h.bad = false) → b.poisoned = [] →
       let has := fun c => ∃ p, (p, c) ∈ b.rollbacks
       let alias_ := ∃ x ∈ b.stores, guarded r.guards x = true
       (has 4 → before.closeBundle after_ = (before.issueOnce t).rollback t 4 b.addr) ∧
       (¬has 4 → has 3 → before.closeBundle after_ = (before.issueOnce t).rollback t 3 b.addr) ∧
       (¬has 4 → ¬has 3 → has 2 → before.closeBundle after_ = (before.issueOnce t).rollback t 2 b.addr) ∧
       (¬has 4 → ¬has 3 → ¬has 2 → alias_ → before.closeBundle after_ = (before.issueOnce t).rollback t 1 b.addr) ∧
       (¬has 4 → ¬has 3 → ¬has 2 → ¬alias_ → has 5 ∨ 128 < r.held.length + b.stores.length →
         before.closeBundle after_ = (before.issueOnce t).rollback t 5 b.addr))

/-- 02 R32, 14 R243, 20 R321, R322, 22 R355, 06 R121: the stores of a bundle that commits. A store to the strand's own scratchpad is
performed at once, byte by byte, no other byte of any scratchpad changes, and a granule that it covers whole, or is the last part of a
store over, loses its poison; one to a sibling's scratchpad or to memory joins the write path as the youngest write; one to a cacheable
place that the cluster's write path can accept is accepted, the cluster giving up its copy of the line and the lease; in a region they are
held behind the ones already held, under lockstep they are withheld; `commit` issues the held ones in their order and closes the region. -/
def Obligations.StoresOfACommit : Prop :=
  (∀ (s : State) (t : StrandId) (va : W64) (off clears pos : Nat) (ms ro : Bool) (cp : Nat) (bs : List Byte), bs ≠ [] →
    let o := t.coreId.key
    let s' := s.issueStore t ⟨va, ⟨.spad o off, ms, cp, ro⟩, (List.range bs.length).zip bs, clears, pos⟩
    (∀ i < bs.length, s'.spadRead o (off + i) = bs.getD i 0) ∧ s'.mem = s.mem ∧ s'.writes = s.writes ∧
    (∀ a, a < off ∨ off + bs.length ≤ a → s'.spadRead o a = s.spadRead o a) ∧
    (∀ a, s'.spadPoisoned o a = (s.spadPoisoned o a &&
      !(decide (off ≤ a / 8 * 8) && decide (a / 8 * 8 + 8 ≤ off + bs.length)) && !(clears == 8 && a / 8 == off / 8))) ∧
    ∀ c, c ≠ o → c < 512 → ∀ a, s'.spadRead c a = s.spadRead c a) ∧
  (∀ (s : State) (t : StrandId) (x : StoreAt),
    let w := fun (clears : Nat) => (⟨s.seq, t.key, t.clusterId.key, x.at_, x.va.toNat, x.bytes, clears, false⟩ : PWrite)
    let joins := fun (w : PWrite) => ({ s with seq := s.seq + 1, writes := s.writes ++ [w] } : State)
    (∀ o off, x.at_.loc = .spad o off → o ≠ t.coreId.key → s.issueStore t x = joins (w (if x.clears = 8 then 8 else 0))) ∧
    ∀ pa, x.at_.loc = .phys pa →
      (x.at_.cacheable = false → s.issueStore t x = joins (w x.clears)) ∧
      (({ s with seq := s.seq + 1 } : State).acceptable (w x.clears) = false → s.issueStore t x = joins (w x.clears)) ∧
      (({ s with seq := s.seq + 1 } : State).acceptable (w x.clears) = true → (∀ y ∈ s.writes, y.seq ≠ s.seq) →
        s.issueStore t x = (joins { w x.clears with accepted := true }).dropCopy t.clusterId (lineOf pa))) ∧
  (∀ (s : State) (l : ClusterId) (line : Nat), let s' := s.dropCopy l line
    tget (s'.cluster l).cache line = none ∧ (∀ x, tget (s'.die l.die).l2 line = some x → x.holders.contains l.cluster.val = false) ∧
    s'.writes = s.writes ∧ s'.mem = s.mem ∧ s'.strands = s.strands ∧ s'.cores = s.cores ∧
    (∀ n, n ≠ line → tget (s'.cluster l).cache n = tget (s.cluster l).cache n) ∧ ∀ m : ClusterId, m.key ≠ l.key → s'.cluster m = s.cluster m) ∧
  (∀ (s : State) (t : StrandId) (b : Issue), b.commits = false →
    s.commitStores t b true = s ∧
    ((s.strand t).region.isSome = true → s.commitStores t b false = s) ∧
    ((s.strand t).region = none → s.commitStores t b false = s.issueStores t b.stores)) ∧
  (∀ (x : Strand) (b : Issue) (r : Region), x.region = some r → b.sets = [] → ∃ r', (x.committed b).region = some r' ∧
    r'.held = r.held ++ b.stores.map StoreAt.held ∧ r'.guards = r.guards ++ b.guards ∧ r'.snap = r.snap) ∧
  ∀ (s : State) (t : StrandId) (b : Issue) (r : Region), b.commits = true → (s.strand t).region = some r →
    s.commitStores t b false = (s.setStrand t { s.strand t with region := none, mismatched := none }).issueStores t (r.held.flatMap Held.stores)

/-- 00 R6, 05 R94, 12 R228 to R232, 20 R337: where an address lies. In the local and the cluster window it reaches the partition, a
strand's own core through either at the same bytes; beyond it, in no window and above the global one, BOUNDS. In the global window, with
nothing of it in a TLB or a walk cache, the tables from the root of the ASID's record are walked over the five indices of R229: an entry
with V = 0 is XLATE 0, a malformed one, as R230 says, XLATE 4, a pointer leads on; a leaf is checked for the permissions and gives the
frame and the offset in the page. A stale generation is XLATE 5. What a TLB holds for the page decides before any walk. -/
def Obligations.AddressesResolve : Prop :=
  (∀ (s : State) (t : StrandId) (va : W64) (need : Need),
    let a := va.toNat
    let part := (s.bindOf t.ctxId).psize.toNat * 16384
    let base := (s.bindOf t.ctxId).pbase.toNat * 16384
    let at_ := fun (c : Fin 4) (o : Nat) => (⟨.spad (t.ctxId.coreId c).key ((base + o) % 0x80000), false, 0, false⟩ : Place)
    (a < 0x80000 → s.resolve t va need = if a < part then .ok (at_ t.core a) else .error (6, 0, va)) ∧
    (∀ (c : Fin 4) (o : Nat), o < 0x80000 → a = 0x100000 + c.val * 0x80000 + o →
      s.resolve t va need = if o < part then .ok (at_ c o) else .error (6, 0, va)) ∧
    (0x80000 ≤ a ∧ a < 0x100000 ∨ 0x300000 ≤ a ∧ a < 0x100000000 ∨ 2 ^ 57 ≤ a → s.resolve t va need = .error (6, 0, va)) ∧
    t.ctxId.coreId t.core = t.coreId) ∧
  (∀ (l : Nat) (e : W64), l ≤ 4 →
    let frame := (e.extractLsb' 12 36).toNat * 4096
    let sz := (e.extractLsb' 8 2).toNat
    let cp := (e.extractLsb' 6 2).toNat
    (pteMalformed l e = true ↔ e.getLsbD 10 = true ∨ e.getLsbD 11 = true ∨ (∃ k, 48 ≤ k ∧ k < 64 ∧ e.getLsbD k = true) ∨
      ¬(l = 0 ∧ sz = 0 ∨ l = 1 ∧ (sz = 1 ∨ sz = 3) ∨ l = 2 ∧ (sz = 2 ∨ sz = 3) ∨ 3 ≤ l ∧ sz = 3) ∨
      0xC000000000 ≤ frame ∧ frame < 0x800000000000 ∨
      sz ≠ 3 ∧ (cp = 3 ∨ e.getLsbD 5 = true ∧ ¬(sz = 0 ∧ e.getLsbD 4 = true) ∨
        frame % 2 ^ (if sz = 0 then 16 else if sz = 1 then 21 else 30) ≠ 0 ∨ 0x800000000000 ≤ frame ∧ cp ≠ 2))) ∧
  (∀ (es : List TlbEntry) (asid : BitVec 11) (gen : BitVec 4) (a : Nat),
    tlbFind es asid gen a = (es.find? fun x => decide (x.asid = asid ∧ x.gen = gen ∧ a / 2 ^ pageBits x.size = x.vpn)).map TlbEntry.leaf) ∧
  ∀ (s : State) (t : StrandId) (va : W64) (need : Need), 0x100000000 ≤ va.toNat → va.toNat < 2 ^ 57 →
    let a := va.toNat
    let b := s.bindOf t.ctxId
    let r := s.resolve t va need
    let leaf := fun (e : W64) =>
      let sz := (e.extractLsb' 8 2).toNat
      let pa := (e.extractLsb' 12 36).toNat * 4096 + a % 2 ^ (if sz = 0 then 16 else if sz = 1 then 21 else 30)
      let noR := need.r = true ∧ e.getLsbD 1 = false
      let noW := need.w = true ∧ e.getLsbD 2 = false
      let noX := need.x = true ∧ e.getLsbD 3 = false
      let lost := pa < 0xC000000000 ∧ s.dielost.getLsbD (pa / 0x3000000000) = true
      (noR → r = .error (5, 1, va)) ∧ (¬noR → noW → r = .error (5, 2, va)) ∧ (¬noR → ¬noW → noX → r = .error (5, 3, va)) ∧
      (¬noR → ¬noW → ¬noX → lost → r = .error (10, 0, va)) ∧
      (¬noR → ¬noW → ¬noX → ¬lost →
        r = .ok ⟨.phys pa, e.getLsbD 4, (e.extractLsb' 6 2).toNat, !e.getLsbD 2⟩)
    let near := tlbFind (s.cluster t.clusterId).tlb b.asid b.gen a
    let far := tlbFind (s.die t.die).tlb b.asid b.gen a
    (∀ e, near = some e → leaf e) ∧ (∀ e, near = none → far = some e → leaf e) ∧
    (near = none → far = none → ∀ x, tget s.asids b.asid.toNat = some x →
      (x.gen ≠ b.gen → r = .error (5, 5, va)) ∧
      (x.gen = b.gen → (s.die t.die).walksFor b.asid b.gen = [] →
        let next := fun (e : W64) (i : Nat) => s.deviceWord ((e.extractLsb' 12 36).toNat * 4096 + 8 * i)
        let e4 := s.deviceWord (x.root + 8 * (a / 2 ^ 48 % 512))
        let e3 := next e4 (a / 2 ^ 39 % 512)
        let e2 := next e3 (a / 2 ^ 30 % 512)
        let e1 := next e2 (a / 2 ^ 21 % 512)
        let e0 := next e1 (a / 2 ^ 16 % 32)
        let ends := fun (l : Nat) (e : W64) =>
          (e.getLsbD 0 = false → r = .error (5, 0, va)) ∧ (e.getLsbD 0 = true → pteMalformed l e = true → r = .error (5, 4, va)) ∧
          (e.getLsbD 0 = true → pteMalformed l e = false → (e.extractLsb' 8 2).toNat ≠ 3 → leaf e)
        let on := fun (l : Nat) (e : W64) => e.getLsbD 0 = true ∧ pteMalformed l e = false ∧ (e.extractLsb' 8 2).toNat = 3
        ends 4 e4 ∧ (on 4 e4 → ends 3 e3 ∧ (on 3 e3 → ends 2 e2 ∧ (on 2 e2 → ends 1 e1 ∧ (on 1 e1 → ends 0 e0))))))

end
end

