-- ==== Sys2Proof/Laws/Dispatch.lean ====
section
/-! SUPPORT. The meaning that each arm of `exec` calls, one equation per instruction and event. -/

namespace Sys2Proof.Machine

@[simp] theorem exec_nop (i : BitVec 12) (s : State) : exec (.nop i) s = execNop i s := rfl
@[simp] theorem exec_add (d : Reg) (a : Reg) (b : Reg) (s : State) : exec (.add d a b) s = execAdd d a b s := rfl
@[simp] theorem exec_sub (d : Reg) (a : Reg) (b : Reg) (s : State) : exec (.sub d a b) s = execSub d a b s := rfl
@[simp] theorem exec_and (d : Reg) (a : Reg) (b : Reg) (s : State) : exec (.and d a b) s = execAnd d a b s := rfl
@[simp] theorem exec_or (d : Reg) (a : Reg) (b : Reg) (s : State) : exec (.or d a b) s = execOr d a b s := rfl
@[simp] theorem exec_xor (d : Reg) (a : Reg) (b : Reg) (s : State) : exec (.xor d a b) s = execXor d a b s := rfl
@[simp] theorem exec_andn (d : Reg) (a : Reg) (b : Reg) (s : State) : exec (.andn d a b) s = execAndn d a b s := rfl
@[simp] theorem exec_shl (d : Reg) (a : Reg) (b : Reg) (s : State) : exec (.shl d a b) s = execShl d a b s := rfl
@[simp] theorem exec_shr (d : Reg) (a : Reg) (b : Reg) (s : State) : exec (.shr d a b) s = execShr d a b s := rfl
@[simp] theorem exec_sra (d : Reg) (a : Reg) (b : Reg) (s : State) : exec (.sra d a b) s = execSra d a b s := rfl
@[simp] theorem exec_ror (d : Reg) (a : Reg) (b : Reg) (s : State) : exec (.ror d a b) s = execRor d a b s := rfl
@[simp] theorem exec_mul (d : Reg) (a : Reg) (b : Reg) (s : State) : exec (.mul d a b) s = execMul d a b s := rfl
@[simp] theorem exec_mulhI (d : Reg) (a : Reg) (b : Reg) (s : State) : exec (.mulhI d a b) s = execMulhI d a b s := rfl
@[simp] theorem exec_mulhN (d : Reg) (a : Reg) (b : Reg) (s : State) : exec (.mulhN d a b) s = execMulhN d a b s := rfl
@[simp] theorem exec_divI (d : Reg) (a : Reg) (b : Reg) (s : State) : exec (.divI d a b) s = execDivI d a b s := rfl
@[simp] theorem exec_divN (d : Reg) (a : Reg) (b : Reg) (s : State) : exec (.divN d a b) s = execDivN d a b s := rfl
@[simp] theorem exec_remI (d : Reg) (a : Reg) (b : Reg) (s : State) : exec (.remI d a b) s = execRemI d a b s := rfl
@[simp] theorem exec_remN (d : Reg) (a : Reg) (b : Reg) (s : State) : exec (.remN d a b) s = execRemN d a b s := rfl
@[simp] theorem exec_minI (d : Reg) (a : Reg) (b : Reg) (s : State) : exec (.minI d a b) s = execMinI d a b s := rfl
@[simp] theorem exec_maxI (d : Reg) (a : Reg) (b : Reg) (s : State) : exec (.maxI d a b) s = execMaxI d a b s := rfl
@[simp] theorem exec_minN (d : Reg) (a : Reg) (b : Reg) (s : State) : exec (.minN d a b) s = execMinN d a b s := rfl
@[simp] theorem exec_maxN (d : Reg) (a : Reg) (b : Reg) (s : State) : exec (.maxN d a b) s = execMaxN d a b s := rfl
@[simp] theorem exec_clz (d : Reg) (a : Reg) (s : State) : exec (.clz d a) s = execClz d a s := rfl
@[simp] theorem exec_popc (d : Reg) (a : Reg) (s : State) : exec (.popc d a) s = execPopc d a s := rfl
@[simp] theorem exec_sext (d : Reg) (a : Reg) (w : BitVec 6) (s : State) : exec (.sext d a w) s = execSext d a w s := rfl
@[simp] theorem exec_zext (d : Reg) (a : Reg) (w : BitVec 6) (s : State) : exec (.zext d a w) s = execZext d a w s := rfl
@[simp] theorem exec_cmpEq (d : Reg) (a : Reg) (b : Reg) (s : State) : exec (.cmpEq d a b) s = execCmpEq d a b s := rfl
@[simp] theorem exec_cmpLtI (d : Reg) (a : Reg) (b : Reg) (s : State) : exec (.cmpLtI d a b) s = execCmpLtI d a b s := rfl
@[simp] theorem exec_cmpLeI (d : Reg) (a : Reg) (b : Reg) (s : State) : exec (.cmpLeI d a b) s = execCmpLeI d a b s := rfl
@[simp] theorem exec_cmpLtN (d : Reg) (a : Reg) (b : Reg) (s : State) : exec (.cmpLtN d a b) s = execCmpLtN d a b s := rfl
@[simp] theorem exec_cmpLeN (d : Reg) (a : Reg) (b : Reg) (s : State) : exec (.cmpLeN d a b) s = execCmpLeN d a b s := rfl
@[simp] theorem exec_sel (d : Reg) (a : Reg) (b : Reg) (s : State) : exec (.sel d a b) s = execSel d a b s := rfl
@[simp] theorem exec_addi (d : Reg) (a : Reg) (i : BitVec 12) (s : State) : exec (.addi d a i) s = execAddi d a i s := rfl
@[simp] theorem exec_andi (d : Reg) (a : Reg) (i : BitVec 12) (s : State) : exec (.andi d a i) s = execAndi d a i s := rfl
@[simp] theorem exec_ori (d : Reg) (a : Reg) (i : BitVec 12) (s : State) : exec (.ori d a i) s = execOri d a i s := rfl
@[simp] theorem exec_xori (d : Reg) (a : Reg) (i : BitVec 12) (s : State) : exec (.xori d a i) s = execXori d a i s := rfl
@[simp] theorem exec_shli (d : Reg) (a : Reg) (h : BitVec 6) (s : State) : exec (.shli d a h) s = execShli d a h s := rfl
@[simp] theorem exec_shri (d : Reg) (a : Reg) (h : BitVec 6) (s : State) : exec (.shri d a h) s = execShri d a h s := rfl
@[simp] theorem exec_srai (d : Reg) (a : Reg) (h : BitVec 6) (s : State) : exec (.srai d a h) s = execSrai d a h s := rfl
@[simp] theorem exec_cmpiEq (d : Reg) (a : Reg) (i : BitVec 10) (s : State) : exec (.cmpiEq d a i) s = execCmpiEq d a i s := rfl
@[simp] theorem exec_cmpiLtI (d : Reg) (a : Reg) (i : BitVec 10) (s : State) : exec (.cmpiLtI d a i) s = execCmpiLtI d a i s := rfl
@[simp] theorem exec_cmpiLtN (d : Reg) (a : Reg) (i : BitVec 10) (s : State) : exec (.cmpiLtN d a i) s = execCmpiLtN d a i s := rfl
@[simp] theorem exec_li (d : Reg) (i : BitVec 18) (s : State) : exec (.li d i) s = execLi d i s := rfl
@[simp] theorem exec_lih1 (d : Reg) (i : BitVec 18) (s : State) : exec (.lih1 d i) s = execLih1 d i s := rfl
@[simp] theorem exec_lih2 (d : Reg) (i : BitVec 18) (s : State) : exec (.lih2 d i) s = execLih2 d i s := rfl
@[simp] theorem exec_lih3 (d : Reg) (i : BitVec 10) (s : State) : exec (.lih3 d i) s = execLih3 d i s := rfl
@[simp] theorem exec_addpc (d : Reg) (i : BitVec 18) (s : State) : exec (.addpc d i) s = execAddpc d i s := rfl
@[simp] theorem exec_gets (d : Reg) (i : BitVec 12) (s : State) : exec (.gets d i) s = execGets d i s := rfl
@[simp] theorem exec_sets (a : Reg) (i : BitVec 12) (s : State) : exec (.sets a i) s = execSets a i s := rfl
@[simp] theorem exec_vaddI32 (d : Reg) (a : Reg) (b : Reg) (q : PReg) (s : State) : exec (.vaddI32 d a b q) s = execVaddI32 d a b q s := rfl
@[simp] theorem exec_vsubI32 (d : Reg) (a : Reg) (b : Reg) (q : PReg) (s : State) : exec (.vsubI32 d a b q) s = execVsubI32 d a b q s := rfl
@[simp] theorem exec_vmulI32 (d : Reg) (a : Reg) (b : Reg) (q : PReg) (s : State) : exec (.vmulI32 d a b q) s = execVmulI32 d a b q s := rfl
@[simp] theorem exec_vmulhI32 (d : Reg) (a : Reg) (b : Reg) (q : PReg) (s : State) : exec (.vmulhI32 d a b q) s = execVmulhI32 d a b q s := rfl
@[simp] theorem exec_vmulhN32 (d : Reg) (a : Reg) (b : Reg) (q : PReg) (s : State) : exec (.vmulhN32 d a b q) s = execVmulhN32 d a b q s := rfl
@[simp] theorem exec_vand (d : Reg) (a : Reg) (b : Reg) (q : PReg) (s : State) : exec (.vand d a b q) s = execVand d a b q s := rfl
@[simp] theorem exec_vor (d : Reg) (a : Reg) (b : Reg) (q : PReg) (s : State) : exec (.vor d a b q) s = execVor d a b q s := rfl
@[simp] theorem exec_vxor (d : Reg) (a : Reg) (b : Reg) (q : PReg) (s : State) : exec (.vxor d a b q) s = execVxor d a b q s := rfl
@[simp] theorem exec_vshlI32 (d : Reg) (a : Reg) (b : Reg) (q : PReg) (s : State) : exec (.vshlI32 d a b q) s = execVshlI32 d a b q s := rfl
@[simp] theorem exec_vshrI32 (d : Reg) (a : Reg) (b : Reg) (q : PReg) (s : State) : exec (.vshrI32 d a b q) s = execVshrI32 d a b q s := rfl
@[simp] theorem exec_vsraI32 (d : Reg) (a : Reg) (b : Reg) (q : PReg) (s : State) : exec (.vsraI32 d a b q) s = execVsraI32 d a b q s := rfl
@[simp] theorem exec_vminI32 (d : Reg) (a : Reg) (b : Reg) (q : PReg) (s : State) : exec (.vminI32 d a b q) s = execVminI32 d a b q s := rfl
@[simp] theorem exec_vmaxI32 (d : Reg) (a : Reg) (b : Reg) (q : PReg) (s : State) : exec (.vmaxI32 d a b q) s = execVmaxI32 d a b q s := rfl
@[simp] theorem exec_vminN32 (d : Reg) (a : Reg) (b : Reg) (q : PReg) (s : State) : exec (.vminN32 d a b q) s = execVminN32 d a b q s := rfl
@[simp] theorem exec_vmaxN32 (d : Reg) (a : Reg) (b : Reg) (q : PReg) (s : State) : exec (.vmaxN32 d a b q) s = execVmaxN32 d a b q s := rfl
@[simp] theorem exec_vaddI16 (d : Reg) (a : Reg) (b : Reg) (q : PReg) (s : State) : exec (.vaddI16 d a b q) s = execVaddI16 d a b q s := rfl
@[simp] theorem exec_vsubI16 (d : Reg) (a : Reg) (b : Reg) (q : PReg) (s : State) : exec (.vsubI16 d a b q) s = execVsubI16 d a b q s := rfl
@[simp] theorem exec_vaddsI16 (d : Reg) (a : Reg) (b : Reg) (q : PReg) (s : State) : exec (.vaddsI16 d a b q) s = execVaddsI16 d a b q s := rfl
@[simp] theorem exec_vsubsI16 (d : Reg) (a : Reg) (b : Reg) (q : PReg) (s : State) : exec (.vsubsI16 d a b q) s = execVsubsI16 d a b q s := rfl
@[simp] theorem exec_vcmpEqI32 (d : Reg) (a : Reg) (b : Reg) (q : PReg) (s : State) : exec (.vcmpEqI32 d a b q) s = execVcmpEqI32 d a b q s := rfl
@[simp] theorem exec_vcmpLtI32 (d : Reg) (a : Reg) (b : Reg) (q : PReg) (s : State) : exec (.vcmpLtI32 d a b q) s = execVcmpLtI32 d a b q s := rfl
@[simp] theorem exec_vcmpLeI32 (d : Reg) (a : Reg) (b : Reg) (q : PReg) (s : State) : exec (.vcmpLeI32 d a b q) s = execVcmpLeI32 d a b q s := rfl
@[simp] theorem exec_vcmpLtN32 (d : Reg) (a : Reg) (b : Reg) (q : PReg) (s : State) : exec (.vcmpLtN32 d a b q) s = execVcmpLtN32 d a b q s := rfl
@[simp] theorem exec_vcmpLeN32 (d : Reg) (a : Reg) (b : Reg) (q : PReg) (s : State) : exec (.vcmpLeN32 d a b q) s = execVcmpLeN32 d a b q s := rfl
@[simp] theorem exec_vaddF32 (d : Reg) (a : Reg) (b : Reg) (q : PReg) (s : State) : exec (.vaddF32 d a b q) s = execVaddF32 d a b q s := rfl
@[simp] theorem exec_vsubF32 (d : Reg) (a : Reg) (b : Reg) (q : PReg) (s : State) : exec (.vsubF32 d a b q) s = execVsubF32 d a b q s := rfl
@[simp] theorem exec_vmulF32 (d : Reg) (a : Reg) (b : Reg) (q : PReg) (s : State) : exec (.vmulF32 d a b q) s = execVmulF32 d a b q s := rfl
@[simp] theorem exec_vminF32 (d : Reg) (a : Reg) (b : Reg) (q : PReg) (s : State) : exec (.vminF32 d a b q) s = execVminF32 d a b q s := rfl
@[simp] theorem exec_vmaxF32 (d : Reg) (a : Reg) (b : Reg) (q : PReg) (s : State) : exec (.vmaxF32 d a b q) s = execVmaxF32 d a b q s := rfl
@[simp] theorem exec_vfmaF32 (d : Reg) (a : Reg) (b : Reg) (q : PReg) (s : State) : exec (.vfmaF32 d a b q) s = execVfmaF32 d a b q s := rfl
@[simp] theorem exec_vfmsF32 (d : Reg) (a : Reg) (b : Reg) (q : PReg) (s : State) : exec (.vfmsF32 d a b q) s = execVfmsF32 d a b q s := rfl
@[simp] theorem exec_vcmpEqF32 (d : Reg) (a : Reg) (b : Reg) (q : PReg) (s : State) : exec (.vcmpEqF32 d a b q) s = execVcmpEqF32 d a b q s := rfl
@[simp] theorem exec_vcmpLtF32 (d : Reg) (a : Reg) (b : Reg) (q : PReg) (s : State) : exec (.vcmpLtF32 d a b q) s = execVcmpLtF32 d a b q s := rfl
@[simp] theorem exec_vcmpLeF32 (d : Reg) (a : Reg) (b : Reg) (q : PReg) (s : State) : exec (.vcmpLeF32 d a b q) s = execVcmpLeF32 d a b q s := rfl
@[simp] theorem exec_vrcpF32 (d : Reg) (a : Reg) (q : PReg) (s : State) : exec (.vrcpF32 d a q) s = execVrcpF32 d a q s := rfl
@[simp] theorem exec_vrsqF32 (d : Reg) (a : Reg) (q : PReg) (s : State) : exec (.vrsqF32 d a q) s = execVrsqF32 d a q s := rfl
@[simp] theorem exec_vexp2F32 (d : Reg) (a : Reg) (q : PReg) (s : State) : exec (.vexp2F32 d a q) s = execVexp2F32 d a q s := rfl
@[simp] theorem exec_vlog2F32 (d : Reg) (a : Reg) (q : PReg) (s : State) : exec (.vlog2F32 d a q) s = execVlog2F32 d a q s := rfl
@[simp] theorem exec_vsqrtF32 (d : Reg) (a : Reg) (q : PReg) (s : State) : exec (.vsqrtF32 d a q) s = execVsqrtF32 d a q s := rfl
@[simp] theorem exec_vcvtBf16F32 (d : Reg) (a : Reg) (q : PReg) (s : State) : exec (.vcvtBf16F32 d a q) s = execVcvtBf16F32 d a q s := rfl
@[simp] theorem exec_vcvtF32Bf16 (d : Reg) (a : Reg) (q : PReg) (s : State) : exec (.vcvtF32Bf16 d a q) s = execVcvtF32Bf16 d a q s := rfl
@[simp] theorem exec_vcvtF16F32 (d : Reg) (a : Reg) (q : PReg) (s : State) : exec (.vcvtF16F32 d a q) s = execVcvtF16F32 d a q s := rfl
@[simp] theorem exec_vcvtF32F16 (d : Reg) (a : Reg) (q : PReg) (s : State) : exec (.vcvtF32F16 d a q) s = execVcvtF32F16 d a q s := rfl
@[simp] theorem exec_vcvtE4m3F32 (d : Reg) (a : Reg) (q : PReg) (s : State) : exec (.vcvtE4m3F32 d a q) s = execVcvtE4m3F32 d a q s := rfl
@[simp] theorem exec_vcvtE5m2F32 (d : Reg) (a : Reg) (q : PReg) (s : State) : exec (.vcvtE5m2F32 d a q) s = execVcvtE5m2F32 d a q s := rfl
@[simp] theorem exec_vcvtF32E4m3 (d : Reg) (a : Reg) (q : PReg) (s : State) : exec (.vcvtF32E4m3 d a q) s = execVcvtF32E4m3 d a q s := rfl
@[simp] theorem exec_vcvtF32E5m2 (d : Reg) (a : Reg) (q : PReg) (s : State) : exec (.vcvtF32E5m2 d a q) s = execVcvtF32E5m2 d a q s := rfl
@[simp] theorem exec_vcvtF4xF32 (d : Reg) (a : Reg) (q : PReg) (s : State) : exec (.vcvtF4xF32 d a q) s = execVcvtF4xF32 d a q s := rfl
@[simp] theorem exec_vcvtF32F4x (d : Reg) (a : Reg) (q : PReg) (s : State) : exec (.vcvtF32F4x d a q) s = execVcvtF32F4x d a q s := rfl
@[simp] theorem exec_vcvtI32F32 (d : Reg) (a : Reg) (q : PReg) (s : State) : exec (.vcvtI32F32 d a q) s = execVcvtI32F32 d a q s := rfl
@[simp] theorem exec_vcvtF32I32 (d : Reg) (a : Reg) (q : PReg) (s : State) : exec (.vcvtF32I32 d a q) s = execVcvtF32I32 d a q s := rfl
@[simp] theorem exec_vcvtQF32 (d : Reg) (a : Reg) (q : PReg) (s : State) : exec (.vcvtQF32 d a q) s = execVcvtQF32 d a q s := rfl
@[simp] theorem exec_vcvtF32Q (d : Reg) (a : Reg) (q : PReg) (s : State) : exec (.vcvtF32Q d a q) s = execVcvtF32Q d a q s := rfl
@[simp] theorem exec_vredaddI32 (d : Reg) (a : Reg) (q : PReg) (s : State) : exec (.vredaddI32 d a q) s = execVredaddI32 d a q s := rfl
@[simp] theorem exec_vredaddF32 (d : Reg) (a : Reg) (q : PReg) (s : State) : exec (.vredaddF32 d a q) s = execVredaddF32 d a q s := rfl
@[simp] theorem exec_vredmaxF32 (d : Reg) (a : Reg) (q : PReg) (s : State) : exec (.vredmaxF32 d a q) s = execVredmaxF32 d a q s := rfl
@[simp] theorem exec_vredmaxI32 (d : Reg) (a : Reg) (q : PReg) (s : State) : exec (.vredmaxI32 d a q) s = execVredmaxI32 d a q s := rfl
@[simp] theorem exec_vperm (d : Reg) (a : Reg) (b : Reg) (q : PReg) (s : State) : exec (.vperm d a b q) s = execVperm d a b q s := rfl
@[simp] theorem exec_vrot (d : Reg) (a : Reg) (b : Reg) (q : PReg) (s : State) : exec (.vrot d a b q) s = execVrot d a b q s := rfl
@[simp] theorem exec_vbcast (d : Reg) (a : Reg) (q : PReg) (s : State) : exec (.vbcast d a q) s = execVbcast d a q s := rfl
@[simp] theorem exec_vext (d : Reg) (a : Reg) (b : Reg) (s : State) : exec (.vext d a b) s = execVext d a b s := rfl
@[simp] theorem exec_vins (d : Reg) (a : Reg) (b : Reg) (s : State) : exec (.vins d a b) s = execVins d a b s := rfl
@[simp] theorem exec_vsel (d : Reg) (a : Reg) (b : Reg) (k : PReg) (s : State) : exec (.vsel d a b k) s = execVsel d a b k s := rfl
@[simp] theorem exec_vli (d : Reg) (i : BitVec 18) (s : State) : exec (.vli d i) s = execVli d i s := rfl
@[simp] theorem exec_pand (d : Reg) (a : Reg) (b : Reg) (s : State) : exec (.pand d a b) s = execPand d a b s := rfl
@[simp] theorem exec_por (d : Reg) (a : Reg) (b : Reg) (s : State) : exec (.por d a b) s = execPor d a b s := rfl
@[simp] theorem exec_pxor (d : Reg) (a : Reg) (b : Reg) (s : State) : exec (.pxor d a b) s = execPxor d a b s := rfl
@[simp] theorem exec_pnot (d : Reg) (a : Reg) (s : State) : exec (.pnot d a) s = execPnot d a s := rfl
@[simp] theorem exec_pset (d : Reg) (a : Reg) (s : State) : exec (.pset d a) s = execPset d a s := rfl
@[simp] theorem exec_pany (d : Reg) (a : Reg) (s : State) : exec (.pany d a) s = execPany d a s := rfl
@[simp] theorem exec_pall (d : Reg) (a : Reg) (s : State) : exec (.pall d a) s = execPall d a s := rfl
@[simp] theorem exec_ppop (d : Reg) (a : Reg) (s : State) : exec (.ppop d a) s = execPpop d a s := rfl
@[simp] theorem exec_ldbI (d : Reg) (a : Reg) (i : BitVec 9) (s : State) : exec (.ldbI d a i) s = execLdbI d a i s := rfl
@[simp] theorem exec_ldbN (d : Reg) (a : Reg) (i : BitVec 9) (s : State) : exec (.ldbN d a i) s = execLdbN d a i s := rfl
@[simp] theorem exec_ldhI (d : Reg) (a : Reg) (i : BitVec 9) (s : State) : exec (.ldhI d a i) s = execLdhI d a i s := rfl
@[simp] theorem exec_ldhN (d : Reg) (a : Reg) (i : BitVec 9) (s : State) : exec (.ldhN d a i) s = execLdhN d a i s := rfl
@[simp] theorem exec_ldwI (d : Reg) (a : Reg) (i : BitVec 9) (s : State) : exec (.ldwI d a i) s = execLdwI d a i s := rfl
@[simp] theorem exec_ldwN (d : Reg) (a : Reg) (i : BitVec 9) (s : State) : exec (.ldwN d a i) s = execLdwN d a i s := rfl
@[simp] theorem exec_ldd (d : Reg) (a : Reg) (i : BitVec 9) (s : State) : exec (.ldd d a i) s = execLdd d a i s := rfl
@[simp] theorem exec_stb (d : Reg) (a : Reg) (i : BitVec 9) (s : State) : exec (.stb d a i) s = execStb d a i s := rfl
@[simp] theorem exec_sth (d : Reg) (a : Reg) (i : BitVec 9) (s : State) : exec (.sth d a i) s = execSth d a i s := rfl
@[simp] theorem exec_stw (d : Reg) (a : Reg) (i : BitVec 9) (s : State) : exec (.stw d a i) s = execStw d a i s := rfl
@[simp] theorem exec_std (d : Reg) (a : Reg) (i : BitVec 9) (s : State) : exec (.std d a i) s = execStd d a i s := rfl
@[simp] theorem exec_vld (d : Reg) (a : Reg) (i : BitVec 9) (q : PReg) (s : State) : exec (.vld d a i q) s = execVld d a i q s := rfl
@[simp] theorem exec_vst (d : Reg) (a : Reg) (i : BitVec 9) (q : PReg) (s : State) : exec (.vst d a i q) s = execVst d a i q s := rfl
@[simp] theorem exec_vldg (d : Reg) (a : Reg) (b : Reg) (q : PReg) (s : State) : exec (.vldg d a b q) s = execVldg d a b q s := rfl
@[simp] theorem exec_vsts (d : Reg) (a : Reg) (b : Reg) (q : PReg) (s : State) : exec (.vsts d a b q) s = execVsts d a b q s := rfl
@[simp] theorem exec_pref (a : Reg) (s : State) : exec (.pref a) s = execPref a s := rfl
@[simp] theorem exec_res (a : Reg) (b : Reg) (s : State) : exec (.res a b) s = execRes a b s := rfl
@[simp] theorem exec_ldt (d : Reg) (a : Reg) (s : State) : exec (.ldt d a) s = execLdt d a s := rfl
@[simp] theorem exec_ldtp (d : Reg) (a : Reg) (s : State) : exec (.ldtp d a) s = execLdtp d a s := rfl
@[simp] theorem exec_stt (a : Reg) (b : Reg) (s : State) : exec (.stt a b) s = execStt a b s := rfl
@[simp] theorem exec_sttn (d : Reg) (a : Reg) (b : Reg) (s : State) : exec (.sttn d a b) s = execSttn d a b s := rfl
@[simp] theorem exec_tagr (d : Reg) (a : Reg) (s : State) : exec (.tagr d a) s = execTagr d a s := rfl
@[simp] theorem exec_tagw (a : Reg) (b : Reg) (s : State) : exec (.tagw a b) s = execTagw a b s := rfl
@[simp] theorem exec_bind (d : Reg) (a : Reg) (b : Reg) (s : State) : exec (.bind d a b) s = execBind d a b s := rfl
@[simp] theorem exec_drain (a : Reg) (s : State) : exec (.drain a) s = execDrain a s := rfl
@[simp] theorem exec_fenceAcq (b : Reg) (s : State) : exec (.fenceAcq b) s = execFenceAcq b s := rfl
@[simp] theorem exec_fenceRel (b : Reg) (s : State) : exec (.fenceRel b) s = execFenceRel b s := rfl
@[simp] theorem exec_fenceFull (b : Reg) (s : State) : exec (.fenceFull b) s = execFenceFull b s := rfl
@[simp] theorem exec_barInit (j : Reg) (a : Reg) (s : State) : exec (.barInit j a) s = execBarInit j a s := rfl
@[simp] theorem exec_barArrive (j : Reg) (s : State) : exec (.barArrive j) s = execBarArrive j s := rfl
@[simp] theorem exec_barWait (j : Reg) (s : State) : exec (.barWait j) s = execBarWait j s := rfl
@[simp] theorem exec_amoAdd (d : Reg) (a : Reg) (b : Reg) (s : State) : exec (.amoAdd d a b) s = execAmoAdd d a b s := rfl
@[simp] theorem exec_amoMinI (d : Reg) (a : Reg) (b : Reg) (s : State) : exec (.amoMinI d a b) s = execAmoMinI d a b s := rfl
@[simp] theorem exec_amoMaxI (d : Reg) (a : Reg) (b : Reg) (s : State) : exec (.amoMaxI d a b) s = execAmoMaxI d a b s := rfl
@[simp] theorem exec_amoAnd (d : Reg) (a : Reg) (b : Reg) (s : State) : exec (.amoAnd d a b) s = execAmoAnd d a b s := rfl
@[simp] theorem exec_amoOr (d : Reg) (a : Reg) (b : Reg) (s : State) : exec (.amoOr d a b) s = execAmoOr d a b s := rfl
@[simp] theorem exec_amoSwap (d : Reg) (a : Reg) (b : Reg) (s : State) : exec (.amoSwap d a b) s = execAmoSwap d a b s := rfl
@[simp] theorem exec_amoCas (d : Reg) (a : Reg) (b : Reg) (s : State) : exec (.amoCas d a b) s = execAmoCas d a b s := rfl
@[simp] theorem exec_ainit (a : Reg) (b : Reg) (s : State) : exec (.ainit a b) s = execAinit a b s := rfl
@[simp] theorem exec_adec (d : Reg) (a : Reg) (b : Reg) (s : State) : exec (.adec d a b) s = execAdec d a b s := rfl
@[simp] theorem exec_ainc (a : Reg) (b : Reg) (s : State) : exec (.ainc a b) s = execAinc a b s := rfl
@[simp] theorem exec_aread (d : Reg) (a : Reg) (s : State) : exec (.aread d a) s = execAread d a s := rfl
@[simp] theorem exec_axread (d : Reg) (a : Reg) (s : State) : exec (.axread d a) s = execAxread d a s := rfl
@[simp] theorem exec_afree (a : Reg) (s : State) : exec (.afree a) s = execAfree a s := rfl
@[simp] theorem exec_brNz (c : Reg) (i : BitVec 18) (s : State) : exec (.brNz c i) s = execBrNz c i s := rfl
@[simp] theorem exec_brZ (c : Reg) (i : BitVec 18) (s : State) : exec (.brZ c i) s = execBrZ c i s := rfl
@[simp] theorem exec_brq (c : Reg) (i : BitVec 18) (s : State) : exec (.brq c i) s = execBrq c i s := rfl
@[simp] theorem exec_jal (d : Reg) (i : BitVec 18) (s : State) : exec (.jal d i) s = execJal d i s := rfl
@[simp] theorem exec_jr (a : Reg) (s : State) : exec (.jr a) s = execJr a s := rfl
@[simp] theorem exec_loop (c : Reg) (i : BitVec 18) (s : State) : exec (.loop c i) s = execLoop c i s := rfl
@[simp] theorem exec_join (s : State) : exec (.join) s = execJoin s := rfl
@[simp] theorem exec_joinAll (s : State) : exec (.joinAll) s = execJoinAll s := rfl
@[simp] theorem exec_yield (s : State) : exec (.yield) s = execYield s := rfl
@[simp] theorem exec_exit (s : State) : exec (.exit) s = execExit s := rfl
@[simp] theorem exec_trap (c : BitVec 12) (s : State) : exec (.trap c) s = execTrap c s := rfl
@[simp] theorem exec_fmt (a : Reg) (s : State) : exec (.fmt a) s = execFmt a s := rfl
@[simp] theorem exec_mlatch (a : Reg) (w : BitVec 2) (s : State) : exec (.mlatch a w) s = execMlatch a w s := rfl
@[simp] theorem exec_mgather (c : Reg) (a : Reg) (q : PReg) (t : BitVec 1) (s : State) : exec (.mgather c a q t) s = execMgather c a q t s := rfl
@[simp] theorem exec_mma (w : BitVec 2) (z : BitVec 1) (c : BitVec 1) (t : BitVec 1) (s : State) : exec (.mma w z c t) s = execMma w z c t s := rfl
@[simp] theorem exec_mmas (w : BitVec 2) (z : BitVec 1) (c : BitVec 1) (t : BitVec 1) (s : State) : exec (.mmas w z c t) s = execMmas w z c t s := rfl
@[simp] theorem exec_mst (a : Reg) (f : BitVec 4) (c : BitVec 1) (s : State) : exec (.mst a f c) s = execMst a f c s := rfl
@[simp] theorem exec_mkat (a : Reg) (n : BitVec 3) (s : State) : exec (.mkat a n) s = execMkat a n s := rfl
@[simp] theorem exec_cpSrc (a : Reg) (s : State) : exec (.cpSrc a) s = execCpSrc a s := rfl
@[simp] theorem exec_cpDst (a : Reg) (s : State) : exec (.cpDst a) s = execCpDst a s := rfl
@[simp] theorem exec_cpDims (a : Reg) (b : Reg) (n : BitVec 5) (s : State) : exec (.cpDims a b n) s = execCpDims a b n s := rfl
@[simp] theorem exec_cpDimd (b : Reg) (n : BitVec 5) (s : State) : exec (.cpDimd b n) s = execCpDimd b n s := rfl
@[simp] theorem exec_cpGo (a : Reg) (n : BitVec 5) (s : State) : exec (.cpGo a n) s = execCpGo a n s := rfl
@[simp] theorem exec_cpQfence (m : BitVec 8) (s : State) : exec (.cpQfence m) s = execCpQfence m s := rfl
@[simp] theorem exec_cpStatus (d : Reg) (s : State) : exec (.cpStatus d) s = execCpStatus d s := rfl
@[simp] theorem exec_cpWait (n : BitVec 5) (s : State) : exec (.cpWait n) s = execCpWait n s := rfl
@[simp] theorem exec_msLen (a : Reg) (s : State) : exec (.msLen a) s = execMsLen a s := rfl
@[simp] theorem exec_msCw (a : Reg) (s : State) : exec (.msCw a) s = execMsCw a s := rfl
@[simp] theorem exec_msZero (a : Reg) (s : State) : exec (.msZero a) s = execMsZero a s := rfl
@[simp] theorem exec_msCopy (a : Reg) (b : Reg) (s : State) : exec (.msCopy a b) s = execMsCopy a b s := rfl
@[simp] theorem exec_lkCw (a : Reg) (p : BitVec 5) (s : State) : exec (.lkCw a p) s = execLkCw a p s := rfl
@[simp] theorem exec_lkSend (a : Reg) (b : Reg) (p : BitVec 5) (s : State) : exec (.lkSend a b p) s = execLkSend a b p s := rfl
@[simp] theorem exec_lkRecv (a : Reg) (b : Reg) (p : BitVec 5) (s : State) : exec (.lkRecv a b p) s = execLkRecv a b p s := rfl
@[simp] theorem exec_lkRaddF32 (a : Reg) (b : Reg) (p : BitVec 5) (s : State) : exec (.lkRaddF32 a b p) s = execLkRaddF32 a b p s := rfl
@[simp] theorem exec_lkRaddBf16 (a : Reg) (b : Reg) (p : BitVec 5) (s : State) : exec (.lkRaddBf16 a b p) s = execLkRaddBf16 a b p s := rfl
@[simp] theorem exec_lkRaddI32 (a : Reg) (b : Reg) (p : BitVec 5) (s : State) : exec (.lkRaddI32 a b p) s = execLkRaddI32 a b p s := rfl
@[simp] theorem exec_ckpt (i : BitVec 18) (s : State) : exec (.ckpt i) s = execCkpt i s := rfl
@[simp] theorem exec_commit (s : State) : exec (.commit) s = execCommit s := rfl
@[simp] theorem exec_guard (a : Reg) (b : Reg) (s : State) : exec (.guard a b) s = execGuard a b s := rfl
@[simp] theorem exec_assert (a : Reg) (s : State) : exec (.assert a) s = execAssert a s := rfl
@[simp] theorem exec_abort (s : State) : exec (.abort) s = execAbort s := rfl
@[simp] theorem exec_copWb (a : Reg) (b : Reg) (s : State) : exec (.copWb a b) s = execCopWb a b s := rfl
@[simp] theorem exec_copInv (a : Reg) (b : Reg) (s : State) : exec (.copInv a b) s = execCopInv a b s := rfl
@[simp] theorem exec_illegalSyllable (w : W32) (s : State) : exec (.illegalSyllable w) s = execIllegalSyllable w s := rfl
@[simp] theorem exec_suspensionComplete (c : CtxId) (s : State) : exec (.suspensionComplete c) s = execSuspensionComplete c s := rfl
@[simp] theorem exec_exposedResultLands (t : StrandId) (s : State) : exec (.exposedResultLands t) s = execExposedResultLands t s := rfl
@[simp] theorem exec_interlockedResultArrives (t : StrandId) (n : Nat) (s : State) : exec (.interlockedResultArrives t n) s = execInterlockedResultArrives t n s := rfl
@[simp] theorem exec_idleStep (t : StrandId) (s : State) : exec (.idleStep t) s = execIdleStep t s := rfl
@[simp] theorem exec_pipelineError (t : StrandId) (s : State) : exec (.pipelineError t) s = execPipelineError t s := rfl
@[simp] theorem exec_bankReservationEnd (o : CoreId) (n : Nat) (s : State) : exec (.bankReservationEnd o n) s = execBankReservationEnd o n s := rfl
@[simp] theorem exec_arrayWorkComplete (o : CoreId) (s : State) : exec (.arrayWorkComplete o) s = execArrayWorkComplete o s := rfl
@[simp] theorem exec_fetchDecode (c : CtxId) (priv : Option (Fin 4)) (s : State) : exec (.fetchDecode c priv) s = execFetchDecode c priv s := rfl
@[simp] theorem exec_ibufFill (l : ClusterId) (line : Nat) (s : State) : exec (.ibufFill l line) s = execIbufFill l line s := rfl
@[simp] theorem exec_joinBudgetExpiry (c : CtxId) (at_ : W64) (s : State) : exec (.joinBudgetExpiry c at_) s = execJoinBudgetExpiry c at_ s := rfl
@[simp] theorem exec_tagWaitTimeout (t : StrandId) (s : State) : exec (.tagWaitTimeout t) s = execTagWaitTimeout t s := rfl
@[simp] theorem exec_waitHoldTimeout (t : StrandId) (s : State) : exec (.waitHoldTimeout t) s = execWaitHoldTimeout t s := rfl
@[simp] theorem exec_tagChangeWake (w : TagWord) (s : State) : exec (.tagChangeWake w) s = execTagChangeWake w s := rfl
@[simp] theorem exec_barrierArrivalCounted (t : StrandId) (j : Fin 8) (s : State) : exec (.barrierArrivalCounted t j) s = execBarrierArrivalCounted t j s := rfl
@[simp] theorem exec_pickerSwitch (l : ClusterId) (s : State) : exec (.pickerSwitch l) s = execPickerSwitch l s := rfl
@[simp] theorem exec_epAging (c : CtxId) (s : State) : exec (.epAging c) s = execEpAging c s := rfl
@[simp] theorem exec_contextWake (c : CtxId) (s : State) : exec (.contextWake c) s = execContextWake c s := rfl
@[simp] theorem exec_budgetPeriod (e : DieId) (s : State) : exec (.budgetPeriod e) s = execBudgetPeriod e s := rfl
@[simp] theorem exec_pageWalk (l : ClusterId) (c : Fin 8) (va : W64) (s : State) : exec (.pageWalk l c va) s = execPageWalk l c va s := rfl
@[simp] theorem exec_copyOperationStart (o : CoreId) (n : Fin 8) (count : Nat) (s : State) : exec (.copyOperationStart o n count) s = execCopyOperationStart o n count s := rfl
@[simp] theorem exec_copyOperationComplete (o : CoreId) (n : Fin 8) (s : State) : exec (.copyOperationComplete o n) s = execCopyOperationComplete o n s := rfl
@[simp] theorem exec_msOperationStart (o : CoreId) (count : Nat) (s : State) : exec (.msOperationStart o count) s = execMsOperationStart o count s := rfl
@[simp] theorem exec_msOperationComplete (o : CoreId) (s : State) : exec (.msOperationComplete o) s = execMsOperationComplete o s := rfl
@[simp] theorem exec_linkFlitArrival (p : Fin 16) (flit : BitVec 512) (poison : BitVec 8) (s : State) : exec (.linkFlitArrival p flit poison) s = execLinkFlitArrival p flit poison s := rfl
@[simp] theorem exec_linkSendComplete (p : Fin 16) (peerLen : Nat) (s : State) : exec (.linkSendComplete p peerLen) s = execLinkSendComplete p peerLen s := rfl
@[simp] theorem exec_linkReceiveComplete (p : Fin 16) (sendLen : Nat) (s : State) : exec (.linkReceiveComplete p sendLen) s = execLinkReceiveComplete p sendLen s := rfl
@[simp] theorem exec_linkdown (p : Fin 16) (s : State) : exec (.linkdown p) s = execLinkdown p s := rfl
@[simp] theorem exec_linkCancel (p : Fin 16) (s : State) : exec (.linkCancel p) s = execLinkCancel p s := rfl
@[simp] theorem exec_linkUp (p : Fin 16) (peer : BitVec 38) (s : State) : exec (.linkUp p peer) s = execLinkUp p peer s := rfl
@[simp] theorem exec_timeBeacon (errs : List (ClusterId × Int)) (dieErrs : List (DieId × Option Int)) (s : State) : exec (.timeBeacon errs dieErrs) s = execTimeBeacon errs dieErrs s := rfl
@[simp] theorem exec_clusterCounterStop (l : ClusterId) (s : State) : exec (.clusterCounterStop l) s = execClusterCounterStop l s := rfl
@[simp] theorem exec_clusterCounterResume (l : ClusterId) (s : State) : exec (.clusterCounterResume l) s = execClusterCounterResume l s := rfl
@[simp] theorem exec_clusterFill (l : ClusterId) (c : Fin 8) (va : W64) (s : State) : exec (.clusterFill l c va) s = execClusterFill l c va s := rfl
@[simp] theorem exec_leaseReturn (l : ClusterId) (line : Nat) (s : State) : exec (.leaseReturn l line) s = execLeaseReturn l line s := rfl
@[simp] theorem exec_sliceWritePerformed (n : Nat) (s : State) : exec (.sliceWritePerformed n) s = execSliceWritePerformed n s := rfl
@[simp] theorem exec_deferredAck (e : DieId) (line : Nat) (s : State) : exec (.deferredAck e line) s = execDeferredAck e line s := rfl
@[simp] theorem exec_readshared (e : DieId) (line : Nat) (s : State) : exec (.readshared e line) s = execReadshared e line s := rfl
@[simp] theorem exec_readown (e : DieId) (line : Nat) (s : State) : exec (.readown e line) s = execReadown e line s := rfl
@[simp] theorem exec_upgrade (e : DieId) (line : Nat) (s : State) : exec (.upgrade e line) s = execUpgrade e line s := rfl
@[simp] theorem exec_fwdshared (e : DieId) (line : Nat) (s : State) : exec (.fwdshared e line) s = execFwdshared e line s := rfl
@[simp] theorem exec_fwdown (e : DieId) (line : Nat) (s : State) : exec (.fwdown e line) s = execFwdown e line s := rfl
@[simp] theorem exec_inv (e : DieId) (line : Nat) (s : State) : exec (.inv e line) s = execInv e line s := rfl
@[simp] theorem exec_backinv (e : DieId) (line : Nat) (s : State) : exec (.backinv e line) s = execBackinv e line s := rfl
@[simp] theorem exec_wbdirty (e : DieId) (line : Nat) (s : State) : exec (.wbdirty e line) s = execWbdirty e line s := rfl
@[simp] theorem exec_ack (e : DieId) (line : Nat) (s : State) : exec (.ack e line) s = execAck e line s := rfl
@[simp] theorem exec_data (e : DieId) (line : Nat) (s : State) : exec (.data e line) s = execData e line s := rfl
@[simp] theorem exec_allowanceRequest (l : ClusterId) (ctr : Nat) (s : State) : exec (.allowanceRequest l ctr) s = execAllowanceRequest l ctr s := rfl
@[simp] theorem exec_serve (ctr : Nat) (s : State) : exec (.serve ctr) s = execServe ctr s := rfl
@[simp] theorem exec_grant (l : ClusterId) (ctr : Nat) (s : State) : exec (.grant l ctr) s = execGrant l ctr s := rfl
@[simp] theorem exec_recall (l : ClusterId) (ctr : Nat) (s : State) : exec (.recall l ctr) s = execRecall l ctr s := rfl
@[simp] theorem exec_recallAnswer (l : ClusterId) (ctr : Nat) (s : State) : exec (.recallAnswer l ctr) s = execRecallAnswer l ctr s := rfl
@[simp] theorem exec_holdingZeroReport (l : ClusterId) (ctr : Nat) (s : State) : exec (.holdingZeroReport l ctr) s = execHoldingZeroReport l ctr s := rfl
@[simp] theorem exec_allowanceLeaseEnd (l : ClusterId) (ctr : Nat) (s : State) : exec (.allowanceLeaseEnd l ctr) s = execAllowanceLeaseEnd l ctr s := rfl
@[simp] theorem exec_reclamation (l : ClusterId) (ctr : Nat) (s : State) : exec (.reclamation l ctr) s = execReclamation l ctr s := rfl
@[simp] theorem exec_kernelNodeEval (e : DieId) (s : State) : exec (.kernelNodeEval e) s = execKernelNodeEval e s := rfl
@[simp] theorem exec_condNodeEval (e : DieId) (s : State) : exec (.condNodeEval e) s = execCondNodeEval e s := rfl
@[simp] theorem exec_switchNodeEval (e : DieId) (s : State) : exec (.switchNodeEval e) s = execSwitchNodeEval e s := rfl
@[simp] theorem exec_loopNodeEval (e : DieId) (s : State) : exec (.loopNodeEval e) s = execLoopNodeEval e s := rfl
@[simp] theorem exec_joinNodeEval (e : DieId) (s : State) : exec (.joinNodeEval e) s = execJoinNodeEval e s := rfl
@[simp] theorem exec_gangRetirement (e : DieId) (gang : BitVec 16) (s : State) : exec (.gangRetirement e gang) s = execGangRetirement e gang s := rfl
@[simp] theorem exec_heldRetirementProceeds (e : DieId) (s : State) : exec (.heldRetirementProceeds e) s = execHeldRetirementProceeds e s := rfl
@[simp] theorem exec_gcommit (e : DieId) (gang : BitVec 16) (s : State) : exec (.gcommit e gang) s = execGcommit e gang s := rfl
@[simp] theorem exec_placementRetry (e : DieId) (gang : BitVec 16) (slots : List Placement) (s : State) : exec (.placementRetry e gang slots) s = execPlacementRetry e gang slots s := rfl
@[simp] theorem exec_grstatFaultClear (e : DieId) (s : State) : exec (.grstatFaultClear e) s = execGrstatFaultClear e s := rfl
@[simp] theorem exec_registerWrite (r : RegSel) (x : W64) (s : State) : exec (.registerWrite r x) s = execRegisterWrite r x s := rfl
@[simp] theorem exec_freeze (c : CtxId) (s : State) : exec (.freeze c) s = execFreeze c s := rfl
@[simp] theorem exec_controlCoreResume (c : CtxId) (s : State) : exec (.controlCoreResume c) s = execControlCoreResume c s := rfl
@[simp] theorem exec_restoration (old : DieId) (gang : BitVec 16) (e : DieId) (slots : List Placement) (s : State) : exec (.restoration old gang e slots) s = execRestoration old gang e slots s := rfl
@[simp] theorem exec_katfailPolicy (t : StrandId) (s : State) : exec (.katfailPolicy t) s = execKatfailPolicy t s := rfl
@[simp] theorem exec_regionMachineResume (c : CtxId) (s : State) : exec (.regionMachineResume c) s = execRegionMachineResume c s := rfl
@[simp] theorem exec_lockstepConfirm (t : StrandId) (sig : W32) (s : State) : exec (.lockstepConfirm t sig) s = execLockstepConfirm t sig s := rfl
@[simp] theorem exec_patrolScrub (g : Granule) (s : State) : exec (.patrolScrub g) s = execPatrolScrub g s := rfl
@[simp] theorem exec_dieFailureDeclaration (e : DieId) (s : State) : exec (.dieFailureDeclaration e) s = execDieFailureDeclaration e s := rfl
@[simp] theorem exec_declarationAtHome (home : DieId) (e : DieId) (s : State) : exec (.declarationAtHome home e) s = execDeclarationAtHome home e s := rfl
@[simp] theorem exec_salvage (home : DieId) (e : DieId) (s : State) : exec (.salvage home e) s = execSalvage home e s := rfl
@[simp] theorem exec_declarationAtTundish (home : DieId) (e : DieId) (s : State) : exec (.declarationAtTundish home e) s = execDeclarationAtTundish home e s := rfl
@[simp] theorem exec_powerGood (b : BringUp) (s : State) : exec (.powerGood b) s = execPowerGood b s := rfl
@[simp] theorem exec_powerOff (s : State) : exec (.powerOff) s = execPowerOff s := rfl
@[simp] theorem exec_deviceReset (b : BringUp) (s : State) : exec (.deviceReset b) s = execDeviceReset b s := rfl
@[simp] theorem exec_tamperAlarm (level : Fin 4) (sensor : BitVec 12) (s : State) : exec (.tamperAlarm level sensor) s = execTamperAlarm level sensor s := rfl
@[simp] theorem exec_junctionTemperature (e : DieId) (milli : Nat) (s : State) : exec (.junctionTemperature e milli) s = execJunctionTemperature e milli s := rfl
@[simp] theorem exec_packagePowerLimit (s : State) : exec (.packagePowerLimit) s = execPackagePowerLimit s := rfl
@[simp] theorem exec_loadGraph (s : State) : exec (.loadGraph) s = execLoadGraph s := rfl
@[simp] theorem exec_launch (s : State) : exec (.launch) s = execLaunch s := rfl
@[simp] theorem exec_map (s : State) : exec (.map) s = execMap s := rfl
@[simp] theorem exec_unmap (s : State) : exec (.unmap) s = execUnmap s := rfl
@[simp] theorem exec_asidAlloc (s : State) : exec (.asidAlloc) s = execAsidAlloc s := rfl
@[simp] theorem exec_asidRetire (s : State) : exec (.asidRetire) s = execAsidRetire s := rfl
@[simp] theorem exec_ptsync (s : State) : exec (.ptsync) s = execPtsync s := rfl
@[simp] theorem exec_resume (s : State) : exec (.resume) s = execResume s := rfl
@[simp] theorem exec_evict (s : State) : exec (.evict) s = execEvict s := rfl
@[simp] theorem exec_query (s : State) : exec (.query) s = execQuery s := rfl
@[simp] theorem exec_scrubSet (s : State) : exec (.scrubSet) s = execScrubSet s := rfl
@[simp] theorem exec_attest (s : State) : exec (.attest) s = execAttest s := rfl
@[simp] theorem exec_writeMem (s : State) : exec (.writeMem) s = execWriteMem s := rfl
@[simp] theorem exec_readMem (s : State) : exec (.readMem) s = execReadMem s := rfl
@[simp] theorem exec_softError (g : Granule) (correctable : Bool) (s : State) : exec (.softError g correctable) s = execSoftError g correctable s := rfl
@[simp] theorem exec_writePerformed (n : Nat) (s : State) : exec (.writePerformed n) s = execWritePerformed n s := rfl
@[simp] theorem exec_cacheRangeOperationComplete (t : StrandId) (s : State) : exec (.cacheRangeOperationComplete t) s = execCacheRangeOperationComplete t s := rfl

end Sys2Proof.Machine
end

