-- ==== Sys2Proof/Laws/Encoding.lean ====
section
/-! SUPPORT. Fields of a syllable as numbers (02 R22, R25), and one lemma per layout of R26, R36 and R37: what the fields, the
selector and the reserved bits of a word of that layout are. -/

namespace Sys2Proof.Laws

/-- The number that two joined fields hold. -/
theorem app_nat {a b : Nat} (x : BitVec a) (y : BitVec b) : (x ++ y).toNat = x.toNat * 2 ^ b + y.toNat := by
  rw [BitVec.toNat_append, Nat.shiftLeft_eq, Nat.mul_comm, Nat.two_pow_add_eq_or_of_lt y.isLt]
/-- The number that a syllable holds: its stop bit above its 31 other bits. -/
theorem word_nat (stop : Bool) (i : Instr) (b : BitVec 31) (w : W32) (hb : encodeBody i = some b) (h : encode stop i = some w) :
    w.toNat = stop.toNat * 2 ^ 31 + b.toNat := by
  unfold encode at h; rw [hb] at h
  obtain rfl := Option.some.inj h
  refine (app_nat _ b).trans ?_; cases stop <;> rfl
/-- A field read from the number that a word holds. -/
theorem field {n : Nat} (w : W32) (st : Nat) (x : BitVec n) (h : w.toNat / 2 ^ st % 2 ^ n = x.toNat) : w.extractLsb' st n = x := by
  apply BitVec.eq_of_toNat_eq; rw [BitVec.extractLsb'_toNat, Nat.shiftRight_eq_div_pow, h]
/-- A selector read from the number that a word holds. -/
theorem fieldN (w : W32) (st n v : Nat) (h : w.toNat / 2 ^ st % 2 ^ n = v) : (w.extractLsb' st n).toNat = v := by
  rw [BitVec.extractLsb'_toNat, Nat.shiftRight_eq_div_pow, h]
/-- The mask of n bits from bit st. -/
def maskBits (st n : Nat) : W32 := (BitVec.allOnes n).setWidth 32 <<< st
/-- A field that is 0 passes its mask. -/
theorem res_field (w : W32) (st n : Nat) (h : w.toNat / 2 ^ st % 2 ^ n = 0) : w &&& maskBits st n = 0 := by
  have h' : w.extractLsb' st n = 0 := field w st 0 (by simpa using h)
  apply BitVec.eq_of_getLsbD_eq; intro i hi
  simp only [maskBits, BitVec.getLsbD_and, BitVec.getLsbD_shiftLeft, BitVec.getLsbD_setWidth, BitVec.getLsbD_allOnes]
  have := congrArg (fun x => x.getLsbD (i - st)) h'
  simp only [BitVec.getLsbD_extractLsb'] at this
  by_cases h1 : i < st
  · simp [h1]
  · by_cases h2 : i - st < n
    · simp [h2, show st + (i - st) = i by omega] at this; simp [this]
    · simp [h2]
/-- Masks taken together. -/
theorem res_or (w x y : W32) (h : w &&& x = 0) (h' : w &&& y = 0) : w &&& (x ||| y) = 0 := by
  rw [BitVec.and_or_distrib_left, h, h']; rfl
/-- A syllable whose reserved bits are 0 and whose operands keep their limits is its instruction. -/
theorem syllable_ok (w res : W32) (i : Instr) (hr : w &&& res = 0) (hw : i.wellFormed = true) : syllable w res i = .ok i := by
  unfold syllable; rw [if_pos hr, if_pos hw]
/-- The two halves of a mask field. -/
theorem mask_halves (m : BitVec 8) : m.extractLsb' 5 3 ++ m.extractLsb' 0 5 = m := by
  apply BitVec.eq_of_toNat_eq
  rw [app_nat, BitVec.extractLsb'_toNat, BitVec.extractLsb'_toNat, Nat.shiftRight_eq_div_pow, Nat.shiftRight_eq_div_pow]; omega
/-- The stop bit of an encoded syllable (R22). -/
theorem stop_of_encode (stop : Bool) (i : Instr) (w : W32) (h : encode stop i = some w) : stopBit w = stop := by
  unfold encode at h
  cases hb : encodeBody i with
  | none => rw [hb] at h; cases h
  | some b =>
    rw [hb] at h
    obtain rfl := Option.some.inj h
    have : (BitVec.ofBool stop ++ b).getLsbD 31 = stop := by
      rw [BitVec.getLsbD_append]; cases stop <;> rfl
    exact this
/-- A syllable read back from its bytes (R22). -/
theorem bytes_of_word (w : W32) : bytesWord (w.extractLsb' 0 8) (w.extractLsb' 8 8) (w.extractLsb' 16 8) (w.extractLsb' 24 8) = w := by
  unfold bytesWord
  apply BitVec.eq_of_toNat_eq
  refine (app_nat (w.extractLsb' 24 8 ++ w.extractLsb' 16 8 ++ w.extractLsb' 8 8) (w.extractLsb' 0 8)).trans ?_
  rw [app_nat, app_nat]
  simp only [BitVec.extractLsb'_toNat, Nat.shiftRight_eq_div_pow]
  have := w.isLt
  omega

/-- The layout of nop. -/
theorem layout0 (w : W32) (s m x2 : Nat) (h0 : m < 128) (h1 : x2 < 4096)
    (h : w.toNat = s * 2 ^ 31 + (((m) * 4096 + 0) * 4096 + x2)) :
    majorOf w = m ∧ w.toNat / 2 ^ 0 % 2 ^ 12 = x2 ∧ w &&& 0x00FFF000 = 0 :=
  ⟨fieldN w 24 7 m (by omega), by omega, (show (0x00FFF000 : W32) = maskBits 12 12 by decide) ▸ res_field w 12 12 (by omega)⟩
/-- The layout of add, sub, and, or and others. -/
theorem layout1 (w : W32) (s m x1 x2 x3 t : Nat) (h0 : m < 128) (h1 : x1 < 64) (h2 : x2 < 64) (h3 : x3 < 64) (h4 : t < 8)
    (h : w.toNat = s * 2 ^ 31 + (((((m) * 64 + x1) * 64 + x2) * 64 + x3) * 64 + t * 1)) :
    majorOf w = m ∧ w.toNat / 2 ^ 18 % 2 ^ 6 = x1 ∧ w.toNat / 2 ^ 12 % 2 ^ 6 = x2 ∧ w.toNat / 2 ^ 6 % 2 ^ 6 = x3 ∧ (w.extractLsb' 0 3).toNat = t ∧ w &&& 0x00000038 = 0 :=
  ⟨fieldN w 24 7 m (by omega), by omega, by omega, by omega, fieldN w 0 3 t (by omega), (show (0x00000038 : W32) = maskBits 3 3 by decide) ▸ res_field w 3 3 (by omega)⟩
/-- The layout of clz, popc, pnot, pset and others. -/
theorem layout2 (w : W32) (s m x1 x2 t : Nat) (h0 : m < 128) (h1 : x1 < 64) (h2 : x2 < 64) (h3 : t < 8)
    (h : w.toNat = s * 2 ^ 31 + ((((m) * 64 + x1) * 64 + x2) * 4096 + t * 1)) :
    majorOf w = m ∧ w.toNat / 2 ^ 18 % 2 ^ 6 = x1 ∧ w.toNat / 2 ^ 12 % 2 ^ 6 = x2 ∧ (w.extractLsb' 0 3).toNat = t ∧ w &&& 0x00000FF8 = 0 :=
  ⟨fieldN w 24 7 m (by omega), by omega, by omega, fieldN w 0 3 t (by omega), (show (0x00000FF8 : W32) = maskBits 3 9 by decide) ▸ res_field w 3 9 (by omega)⟩
/-- The layout of addi, andi, ori, xori. -/
theorem layout3 (w : W32) (s m x1 x2 x3 : Nat) (h0 : m < 128) (h1 : x1 < 64) (h2 : x2 < 64) (h3 : x3 < 4096)
    (h : w.toNat = s * 2 ^ 31 + ((((m) * 64 + x1) * 64 + x2) * 4096 + x3)) :
    majorOf w = m ∧ w.toNat / 2 ^ 18 % 2 ^ 6 = x1 ∧ w.toNat / 2 ^ 12 % 2 ^ 6 = x2 ∧ w.toNat / 2 ^ 0 % 2 ^ 12 = x3 ∧ w &&& 0x00000000 = 0 :=
  ⟨fieldN w 24 7 m (by omega), by omega, by omega, by omega, BitVec.and_zero⟩
/-- The layout of shli, shri, srai. -/
theorem layout4 (w : W32) (s m x1 x2 t x4 : Nat) (h0 : m < 128) (h1 : x1 < 64) (h2 : x2 < 64) (h3 : t < 4) (h4 : x4 < 64)
    (h : w.toNat = s * 2 ^ 31 + (((((m) * 64 + x1) * 64 + x2) * 64 + t * 1) * 64 + x4)) :
    majorOf w = m ∧ w.toNat / 2 ^ 18 % 2 ^ 6 = x1 ∧ w.toNat / 2 ^ 12 % 2 ^ 6 = x2 ∧ (w.extractLsb' 6 2).toNat = t ∧ w.toNat / 2 ^ 0 % 2 ^ 6 = x4 ∧ w &&& 0x00000F00 = 0 :=
  ⟨fieldN w 24 7 m (by omega), by omega, by omega, fieldN w 6 2 t (by omega), by omega, (show (0x00000F00 : W32) = maskBits 8 4 by decide) ▸ res_field w 8 4 (by omega)⟩
/-- The layout of cmpiEq, cmpiLtI, cmpiLtN. -/
theorem layout5 (w : W32) (s m x1 x2 t x4 : Nat) (h0 : m < 128) (h1 : x1 < 64) (h2 : x2 < 64) (h3 : t < 4) (h4 : x4 < 1024)
    (h : w.toNat = s * 2 ^ 31 + (((((m) * 64 + x1) * 64 + x2) * 4 + t * 1) * 1024 + x4)) :
    majorOf w = m ∧ w.toNat / 2 ^ 18 % 2 ^ 6 = x1 ∧ w.toNat / 2 ^ 12 % 2 ^ 6 = x2 ∧ (w.extractLsb' 10 2).toNat = t ∧ w.toNat / 2 ^ 0 % 2 ^ 10 = x4 ∧ w &&& 0x00000000 = 0 :=
  ⟨fieldN w 24 7 m (by omega), by omega, by omega, fieldN w 10 2 t (by omega), by omega, BitVec.and_zero⟩
/-- The layout of li, lih1, lih2, addpc and others. -/
theorem layout6 (w : W32) (s m x1 x2 : Nat) (h0 : m < 128) (h1 : x1 < 64) (h2 : x2 < 262144)
    (h : w.toNat = s * 2 ^ 31 + (((m) * 64 + x1) * 262144 + x2)) :
    majorOf w = m ∧ w.toNat / 2 ^ 18 % 2 ^ 6 = x1 ∧ w.toNat / 2 ^ 0 % 2 ^ 18 = x2 ∧ w &&& 0x00000000 = 0 :=
  ⟨fieldN w 24 7 m (by omega), by omega, by omega, BitVec.and_zero⟩
/-- The layout of lih3. -/
theorem layout7 (w : W32) (s m x1 x3 : Nat) (h0 : m < 128) (h1 : x1 < 64) (h2 : x3 < 1024)
    (h : w.toNat = s * 2 ^ 31 + ((((m) * 64 + x1) * 256 + 0) * 1024 + x3)) :
    majorOf w = m ∧ w.toNat / 2 ^ 18 % 2 ^ 6 = x1 ∧ w.toNat / 2 ^ 0 % 2 ^ 10 = x3 ∧ w &&& 0x0003FC00 = 0 :=
  ⟨fieldN w 24 7 m (by omega), by omega, by omega, (show (0x0003FC00 : W32) = maskBits 10 8 by decide) ▸ res_field w 10 8 (by omega)⟩
/-- The layout of gets. -/
theorem layout8 (w : W32) (s m x1 x3 : Nat) (h0 : m < 128) (h1 : x1 < 64) (h2 : x3 < 4096)
    (h : w.toNat = s * 2 ^ 31 + ((((m) * 64 + x1) * 64 + 0) * 4096 + x3)) :
    majorOf w = m ∧ w.toNat / 2 ^ 18 % 2 ^ 6 = x1 ∧ w.toNat / 2 ^ 0 % 2 ^ 12 = x3 ∧ w &&& 0x0003F000 = 0 :=
  ⟨fieldN w 24 7 m (by omega), by omega, by omega, (show (0x0003F000 : W32) = maskBits 12 6 by decide) ▸ res_field w 12 6 (by omega)⟩
/-- The layout of sets. -/
theorem layout9 (w : W32) (s m x2 x3 : Nat) (h0 : m < 128) (h1 : x2 < 64) (h2 : x3 < 4096)
    (h : w.toNat = s * 2 ^ 31 + ((((m) * 64 + 0) * 64 + x2) * 4096 + x3)) :
    majorOf w = m ∧ w.toNat / 2 ^ 12 % 2 ^ 6 = x2 ∧ w.toNat / 2 ^ 0 % 2 ^ 12 = x3 ∧ w &&& 0x00FC0000 = 0 :=
  ⟨fieldN w 24 7 m (by omega), by omega, by omega, (show (0x00FC0000 : W32) = maskBits 18 6 by decide) ▸ res_field w 18 6 (by omega)⟩
/-- The layout of vaddI32, vsubI32, vmulI32, vmulhI32 and others. -/
theorem layout10 (w : W32) (s m x1 x2 x3 x4 t : Nat) (h0 : m < 128) (h1 : x1 < 64) (h2 : x2 < 64) (h3 : x3 < 64) (h4 : x4 < 8) (h5 : t < 8)
    (h : w.toNat = s * 2 ^ 31 + ((((((m) * 64 + x1) * 64 + x2) * 64 + x3) * 8 + x4) * 8 + t * 1)) :
    majorOf w = m ∧ w.toNat / 2 ^ 18 % 2 ^ 6 = x1 ∧ w.toNat / 2 ^ 12 % 2 ^ 6 = x2 ∧ w.toNat / 2 ^ 6 % 2 ^ 6 = x3 ∧ w.toNat / 2 ^ 3 % 2 ^ 3 = x4 ∧ (w.extractLsb' 0 3).toNat = t ∧ w &&& 0x00000000 = 0 :=
  ⟨fieldN w 24 7 m (by omega), by omega, by omega, by omega, by omega, fieldN w 0 3 t (by omega), BitVec.and_zero⟩
/-- The layout of vrcpF32, vrsqF32, vexp2F32, vlog2F32 and others. -/
theorem layout11 (w : W32) (s m x1 x2 x4 t : Nat) (h0 : m < 128) (h1 : x1 < 64) (h2 : x2 < 64) (h3 : x4 < 8) (h4 : t < 8)
    (h : w.toNat = s * 2 ^ 31 + ((((((m) * 64 + x1) * 64 + x2) * 64 + 0) * 8 + x4) * 8 + t * 1)) :
    majorOf w = m ∧ w.toNat / 2 ^ 18 % 2 ^ 6 = x1 ∧ w.toNat / 2 ^ 12 % 2 ^ 6 = x2 ∧ w.toNat / 2 ^ 3 % 2 ^ 3 = x4 ∧ (w.extractLsb' 0 3).toNat = t ∧ w &&& 0x00000FC0 = 0 :=
  ⟨fieldN w 24 7 m (by omega), by omega, by omega, by omega, fieldN w 0 3 t (by omega), (show (0x00000FC0 : W32) = maskBits 6 6 by decide) ▸ res_field w 6 6 (by omega)⟩
/-- The layout of ldbI, ldbN, ldhI, ldhN and others. -/
theorem layout12 (w : W32) (s m x1 x2 x3 : Nat) (h0 : m < 128) (h1 : x1 < 64) (h2 : x2 < 64) (h3 : x3 < 512)
    (h : w.toNat = s * 2 ^ 31 + (((((m) * 64 + x1) * 64 + x2) * 512 + x3) * 8 + 0)) :
    majorOf w = m ∧ w.toNat / 2 ^ 18 % 2 ^ 6 = x1 ∧ w.toNat / 2 ^ 12 % 2 ^ 6 = x2 ∧ w.toNat / 2 ^ 3 % 2 ^ 9 = x3 ∧ w &&& 0x00000007 = 0 :=
  ⟨fieldN w 24 7 m (by omega), by omega, by omega, by omega, (show (0x00000007 : W32) = maskBits 0 3 by decide) ▸ res_field w 0 3 (by omega)⟩
/-- The layout of vld, vst. -/
theorem layout13 (w : W32) (s m x1 x2 x3 x4 : Nat) (h0 : m < 128) (h1 : x1 < 64) (h2 : x2 < 64) (h3 : x3 < 512) (h4 : x4 < 8)
    (h : w.toNat = s * 2 ^ 31 + (((((m) * 64 + x1) * 64 + x2) * 512 + x3) * 8 + x4)) :
    majorOf w = m ∧ w.toNat / 2 ^ 18 % 2 ^ 6 = x1 ∧ w.toNat / 2 ^ 12 % 2 ^ 6 = x2 ∧ w.toNat / 2 ^ 3 % 2 ^ 9 = x3 ∧ w.toNat / 2 ^ 0 % 2 ^ 3 = x4 ∧ w &&& 0x00000000 = 0 :=
  ⟨fieldN w 24 7 m (by omega), by omega, by omega, by omega, by omega, BitVec.and_zero⟩
/-- The layout of pref, drain, afree, jr and others. -/
theorem layout14 (w : W32) (s m x2 t : Nat) (h0 : m < 128) (h1 : x2 < 64) (h2 : t < 8)
    (h : w.toNat = s * 2 ^ 31 + ((((m) * 64 + 0) * 64 + x2) * 4096 + t * 1)) :
    majorOf w = m ∧ w.toNat / 2 ^ 12 % 2 ^ 6 = x2 ∧ (w.extractLsb' 0 3).toNat = t ∧ w &&& 0x00FC0FF8 = 0 :=
  ⟨fieldN w 24 7 m (by omega), by omega, fieldN w 0 3 t (by omega), (show (0x00FC0FF8 : W32) = maskBits 3 9 ||| maskBits 18 6 by decide) ▸ res_or w _ _ (res_field w 3 9 (by omega)) (res_field w 18 6 (by omega))⟩
/-- The layout of res, stt, tagw, ainit and others. -/
theorem layout15 (w : W32) (s m x2 x3 t : Nat) (h0 : m < 128) (h1 : x2 < 64) (h2 : x3 < 64) (h3 : t < 8)
    (h : w.toNat = s * 2 ^ 31 + (((((m) * 64 + 0) * 64 + x2) * 64 + x3) * 64 + t * 1)) :
    majorOf w = m ∧ w.toNat / 2 ^ 12 % 2 ^ 6 = x2 ∧ w.toNat / 2 ^ 6 % 2 ^ 6 = x3 ∧ (w.extractLsb' 0 3).toNat = t ∧ w &&& 0x00FC0038 = 0 :=
  ⟨fieldN w 24 7 m (by omega), by omega, by omega, fieldN w 0 3 t (by omega), (show (0x00FC0038 : W32) = maskBits 3 3 ||| maskBits 18 6 by decide) ▸ res_or w _ _ (res_field w 3 3 (by omega)) (res_field w 18 6 (by omega))⟩
/-- The layout of fenceAcq, fenceRel, fenceFull. -/
theorem layout16 (w : W32) (s m x2 t : Nat) (h0 : m < 128) (h1 : x2 < 64) (h2 : t < 8)
    (h : w.toNat = s * 2 ^ 31 + ((((m) * 4096 + 0) * 64 + x2) * 64 + t * 1)) :
    majorOf w = m ∧ w.toNat / 2 ^ 6 % 2 ^ 6 = x2 ∧ (w.extractLsb' 0 3).toNat = t ∧ w &&& 0x00FFF038 = 0 :=
  ⟨fieldN w 24 7 m (by omega), by omega, fieldN w 0 3 t (by omega), (show (0x00FFF038 : W32) = maskBits 3 3 ||| maskBits 12 12 by decide) ▸ res_or w _ _ (res_field w 3 3 (by omega)) (res_field w 12 12 (by omega))⟩
/-- The layout of barArrive, barWait. -/
theorem layout17 (w : W32) (s m x1 t : Nat) (h0 : m < 128) (h1 : x1 < 64) (h2 : t < 8)
    (h : w.toNat = s * 2 ^ 31 + (((m) * 64 + x1) * 262144 + t * 1)) :
    majorOf w = m ∧ w.toNat / 2 ^ 18 % 2 ^ 6 = x1 ∧ (w.extractLsb' 0 3).toNat = t ∧ w &&& 0x0003FFF8 = 0 :=
  ⟨fieldN w 24 7 m (by omega), by omega, fieldN w 0 3 t (by omega), (show (0x0003FFF8 : W32) = maskBits 3 15 by decide) ▸ res_field w 3 15 (by omega)⟩
/-- The layout of join. -/
theorem layout18 (w : W32) (s m : Nat) (h0 : m < 128)
    (h : w.toNat = s * 2 ^ 31 + ((m) * 16777216 + 0)) :
    majorOf w = m ∧ (w.extractLsb' 0 3).toNat = 0 ∧ (w.extractLsb' 6 6).toNat = 0 ∧ w &&& 0x00FFFFF8 = 0 :=
  ⟨fieldN w 24 7 m (by omega), fieldN w 0 3 0 (by omega), fieldN w 6 6 0 (by omega), (show (0x00FFFFF8 : W32) = maskBits 3 21 by decide) ▸ res_field w 3 21 (by omega)⟩
/-- The layout of joinAll. -/
theorem layout19 (w : W32) (s m : Nat) (h0 : m < 128)
    (h : w.toNat = s * 2 ^ 31 + ((m) * 16777216 + 64)) :
    majorOf w = m ∧ (w.extractLsb' 0 3).toNat = 0 ∧ (w.extractLsb' 6 6).toNat = 1 ∧ w &&& 0x00FFF038 = 0 :=
  ⟨fieldN w 24 7 m (by omega), fieldN w 0 3 0 (by omega), fieldN w 6 6 1 (by omega), (show (0x00FFF038 : W32) = maskBits 3 3 ||| maskBits 12 12 by decide) ▸ res_or w _ _ (res_field w 3 3 (by omega)) (res_field w 12 12 (by omega))⟩
/-- The layout of yield, exit, commit, abort. -/
theorem layout20 (w : W32) (s m t : Nat) (h0 : m < 128) (h1 : t < 8)
    (h : w.toNat = s * 2 ^ 31 + ((m) * 16777216 + t * 1)) :
    majorOf w = m ∧ (w.extractLsb' 0 3).toNat = t ∧ w &&& 0x00FFFFF8 = 0 :=
  ⟨fieldN w 24 7 m (by omega), fieldN w 0 3 t (by omega), (show (0x00FFFFF8 : W32) = maskBits 3 21 by decide) ▸ res_field w 3 21 (by omega)⟩
/-- The layout of trap. -/
theorem layout21 (w : W32) (s m x2 t : Nat) (h0 : m < 128) (h1 : x2 < 4096) (h2 : t < 8)
    (h : w.toNat = s * 2 ^ 31 + ((((m) * 64 + 0) * 4096 + x2) * 64 + t * 1)) :
    majorOf w = m ∧ w.toNat / 2 ^ 6 % 2 ^ 12 = x2 ∧ (w.extractLsb' 0 3).toNat = t ∧ w &&& 0x00FC0038 = 0 :=
  ⟨fieldN w 24 7 m (by omega), by omega, fieldN w 0 3 t (by omega), (show (0x00FC0038 : W32) = maskBits 3 3 ||| maskBits 18 6 by decide) ▸ res_or w _ _ (res_field w 3 3 (by omega)) (res_field w 18 6 (by omega))⟩
/-- The layout of fmt. -/
theorem layout22 (w : W32) (s m x2 : Nat) (h0 : m < 128) (h1 : x2 < 64)
    (h : w.toNat = s * 2 ^ 31 + ((((m) * 64 + 0) * 64 + x2) * 4096 + 0)) :
    majorOf w = m ∧ w.toNat / 2 ^ 12 % 2 ^ 6 = x2 ∧ w &&& 0x00FC0FFF = 0 :=
  ⟨fieldN w 24 7 m (by omega), by omega, (show (0x00FC0FFF : W32) = maskBits 0 12 ||| maskBits 18 6 by decide) ▸ res_or w _ _ (res_field w 0 12 (by omega)) (res_field w 18 6 (by omega))⟩
/-- The layout of mlatch. -/
theorem layout23 (w : W32) (s m x2 x3 : Nat) (h0 : m < 128) (h1 : x2 < 64) (h2 : x3 < 4)
    (h : w.toNat = s * 2 ^ 31 + (((((m) * 64 + 0) * 64 + x2) * 4 + x3) * 1024 + 0)) :
    majorOf w = m ∧ w.toNat / 2 ^ 12 % 2 ^ 6 = x2 ∧ w.toNat / 2 ^ 10 % 2 ^ 2 = x3 ∧ w &&& 0x00FC03FF = 0 :=
  ⟨fieldN w 24 7 m (by omega), by omega, by omega, (show (0x00FC03FF : W32) = maskBits 0 10 ||| maskBits 18 6 by decide) ▸ res_or w _ _ (res_field w 0 10 (by omega)) (res_field w 18 6 (by omega))⟩
/-- The layout of mgather. -/
theorem layout24 (w : W32) (s m x1 x2 x4 x6 : Nat) (h0 : m < 128) (h1 : x1 < 64) (h2 : x2 < 64) (h3 : x4 < 8) (h4 : x6 < 2)
    (h : w.toNat = s * 2 ^ 31 + (((((((m) * 64 + x1) * 64 + x2) * 64 + 0) * 8 + x4) * 4 + 0) * 2 + x6)) :
    majorOf w = m ∧ w.toNat / 2 ^ 18 % 2 ^ 6 = x1 ∧ w.toNat / 2 ^ 12 % 2 ^ 6 = x2 ∧ w.toNat / 2 ^ 3 % 2 ^ 3 = x4 ∧ w.toNat / 2 ^ 0 % 2 ^ 1 = x6 ∧ w &&& 0x00000FC6 = 0 :=
  ⟨fieldN w 24 7 m (by omega), by omega, by omega, by omega, by omega, (show (0x00000FC6 : W32) = maskBits 1 2 ||| maskBits 6 6 by decide) ▸ res_or w _ _ (res_field w 1 2 (by omega)) (res_field w 6 6 (by omega))⟩
/-- The layout of mma, mmas. -/
theorem layout25 (w : W32) (s m x2 x4 x6 x7 : Nat) (h0 : m < 128) (h1 : x2 < 4) (h2 : x4 < 2) (h3 : x6 < 2) (h4 : x7 < 2)
    (h : w.toNat = s * 2 ^ 31 + ((((((((m) * 4096 + 0) * 4 + x2) * 8 + 0) * 2 + x4) * 16 + 0) * 2 + x6) * 2 + x7)) :
    majorOf w = m ∧ w.toNat / 2 ^ 10 % 2 ^ 2 = x2 ∧ w.toNat / 2 ^ 6 % 2 ^ 1 = x4 ∧ w.toNat / 2 ^ 1 % 2 ^ 1 = x6 ∧ w.toNat / 2 ^ 0 % 2 ^ 1 = x7 ∧ w &&& 0x00FFF3BC = 0 :=
  ⟨fieldN w 24 7 m (by omega), by omega, by omega, by omega, by omega, (show (0x00FFF3BC : W32) = maskBits 2 4 ||| maskBits 7 3 ||| maskBits 12 12 by decide) ▸ res_or w _ _ (res_or w _ _ (res_field w 2 4 (by omega)) (res_field w 7 3 (by omega))) (res_field w 12 12 (by omega))⟩
/-- The layout of mst. -/
theorem layout26 (w : W32) (s m x2 x4 x6 : Nat) (h0 : m < 128) (h1 : x2 < 64) (h2 : x4 < 16) (h3 : x6 < 2)
    (h : w.toNat = s * 2 ^ 31 + ((((((((m) * 64 + 0) * 64 + x2) * 4 + 0) * 16 + x4) * 16 + 0) * 2 + x6) * 2 + 0)) :
    majorOf w = m ∧ w.toNat / 2 ^ 12 % 2 ^ 6 = x2 ∧ w.toNat / 2 ^ 6 % 2 ^ 4 = x4 ∧ w.toNat / 2 ^ 1 % 2 ^ 1 = x6 ∧ w &&& 0x00FC0C3D = 0 :=
  ⟨fieldN w 24 7 m (by omega), by omega, by omega, by omega, (show (0x00FC0C3D : W32) = maskBits 0 1 ||| maskBits 2 4 ||| maskBits 10 2 ||| maskBits 18 6 by decide) ▸ res_or w _ _ (res_or w _ _ (res_or w _ _ (res_field w 0 1 (by omega)) (res_field w 2 4 (by omega))) (res_field w 10 2 (by omega))) (res_field w 18 6 (by omega))⟩
/-- The layout of mkat. -/
theorem layout27 (w : W32) (s m x2 x4 : Nat) (h0 : m < 128) (h1 : x2 < 64) (h2 : x4 < 8)
    (h : w.toNat = s * 2 ^ 31 + ((((((m) * 64 + 0) * 64 + x2) * 8 + 0) * 8 + x4) * 64 + 0)) :
    majorOf w = m ∧ w.toNat / 2 ^ 12 % 2 ^ 6 = x2 ∧ w.toNat / 2 ^ 6 % 2 ^ 3 = x4 ∧ w &&& 0x00FC0E3F = 0 :=
  ⟨fieldN w 24 7 m (by omega), by omega, by omega, (show (0x00FC0E3F : W32) = maskBits 0 6 ||| maskBits 9 3 ||| maskBits 18 6 by decide) ▸ res_or w _ _ (res_or w _ _ (res_field w 0 6 (by omega)) (res_field w 9 3 (by omega))) (res_field w 18 6 (by omega))⟩
/-- The layout of cpSrc, cpDst, cpStatus, msLen and others. -/
theorem layout28 (w : W32) (s m x1 t : Nat) (h0 : m < 128) (h1 : x1 < 64) (h2 : t < 16)
    (h : w.toNat = s * 2 ^ 31 + (((m) * 64 + x1) * 262144 + t * 256)) :
    majorOf w = m ∧ w.toNat / 2 ^ 18 % 2 ^ 6 = x1 ∧ (w.extractLsb' 8 4).toNat = t ∧ w &&& 0x0003F0FF = 0 :=
  ⟨fieldN w 24 7 m (by omega), by omega, fieldN w 8 4 t (by omega), (show (0x0003F0FF : W32) = maskBits 0 8 ||| maskBits 12 6 by decide) ▸ res_or w _ _ (res_field w 0 8 (by omega)) (res_field w 12 6 (by omega))⟩
/-- The layout of cpDims, lkSend, lkRecv, lkRaddF32 and others. -/
theorem layout29 (w : W32) (s m x1 x2 t x4 : Nat) (h0 : m < 128) (h1 : x1 < 64) (h2 : x2 < 64) (h3 : t < 16) (h4 : x4 < 32)
    (h : w.toNat = s * 2 ^ 31 + ((((((m) * 64 + x1) * 64 + x2) * 16 + t * 1) * 32 + x4) * 8 + 0)) :
    majorOf w = m ∧ w.toNat / 2 ^ 18 % 2 ^ 6 = x1 ∧ w.toNat / 2 ^ 12 % 2 ^ 6 = x2 ∧ (w.extractLsb' 8 4).toNat = t ∧ w.toNat / 2 ^ 3 % 2 ^ 5 = x4 ∧ w &&& 0x00000007 = 0 :=
  ⟨fieldN w 24 7 m (by omega), by omega, by omega, fieldN w 8 4 t (by omega), by omega, (show (0x00000007 : W32) = maskBits 0 3 by decide) ▸ res_field w 0 3 (by omega)⟩
/-- The layout of cpDimd. -/
theorem layout30 (w : W32) (s m x2 t x4 : Nat) (h0 : m < 128) (h1 : x2 < 64) (h2 : t < 16) (h3 : x4 < 32)
    (h : w.toNat = s * 2 ^ 31 + ((((((m) * 64 + 0) * 64 + x2) * 16 + t * 1) * 32 + x4) * 8 + 0)) :
    majorOf w = m ∧ w.toNat / 2 ^ 12 % 2 ^ 6 = x2 ∧ (w.extractLsb' 8 4).toNat = t ∧ w.toNat / 2 ^ 3 % 2 ^ 5 = x4 ∧ w &&& 0x00FC0007 = 0 :=
  ⟨fieldN w 24 7 m (by omega), by omega, fieldN w 8 4 t (by omega), by omega, (show (0x00FC0007 : W32) = maskBits 0 3 ||| maskBits 18 6 by decide) ▸ res_or w _ _ (res_field w 0 3 (by omega)) (res_field w 18 6 (by omega))⟩
/-- The layout of cpGo, lkCw. -/
theorem layout31 (w : W32) (s m x1 t x3 : Nat) (h0 : m < 128) (h1 : x1 < 64) (h2 : t < 16) (h3 : x3 < 32)
    (h : w.toNat = s * 2 ^ 31 + (((((m) * 64 + x1) * 1024 + t * 1) * 32 + x3) * 8 + 0)) :
    majorOf w = m ∧ w.toNat / 2 ^ 18 % 2 ^ 6 = x1 ∧ (w.extractLsb' 8 4).toNat = t ∧ w.toNat / 2 ^ 3 % 2 ^ 5 = x3 ∧ w &&& 0x0003F007 = 0 :=
  ⟨fieldN w 24 7 m (by omega), by omega, fieldN w 8 4 t (by omega), by omega, (show (0x0003F007 : W32) = maskBits 0 3 ||| maskBits 12 6 by decide) ▸ res_or w _ _ (res_field w 0 3 (by omega)) (res_field w 12 6 (by omega))⟩
/-- The layout of cpQfence. -/
theorem layout32 (w : W32) (s m x2 t x4 : Nat) (h0 : m < 128) (h1 : x2 < 8) (h2 : t < 16) (h3 : x4 < 32)
    (h : w.toNat = s * 2 ^ 31 + ((((((m) * 512 + 0) * 8 + x2) * 16 + t * 1) * 32 + x4) * 8 + 0)) :
    majorOf w = m ∧ w.toNat / 2 ^ 12 % 2 ^ 3 = x2 ∧ (w.extractLsb' 8 4).toNat = t ∧ w.toNat / 2 ^ 3 % 2 ^ 5 = x4 ∧ w &&& 0x00FF8007 = 0 :=
  ⟨fieldN w 24 7 m (by omega), by omega, fieldN w 8 4 t (by omega), by omega, (show (0x00FF8007 : W32) = maskBits 0 3 ||| maskBits 15 9 by decide) ▸ res_or w _ _ (res_field w 0 3 (by omega)) (res_field w 15 9 (by omega))⟩
/-- The layout of cpWait. -/
theorem layout33 (w : W32) (s m t x2 : Nat) (h0 : m < 128) (h1 : t < 16) (h2 : x2 < 32)
    (h : w.toNat = s * 2 ^ 31 + ((((m) * 65536 + t * 1) * 32 + x2) * 8 + 0)) :
    majorOf w = m ∧ (w.extractLsb' 8 4).toNat = t ∧ w.toNat / 2 ^ 3 % 2 ^ 5 = x2 ∧ w &&& 0x00FFF007 = 0 :=
  ⟨fieldN w 24 7 m (by omega), fieldN w 8 4 t (by omega), by omega, (show (0x00FFF007 : W32) = maskBits 0 3 ||| maskBits 12 12 by decide) ▸ res_or w _ _ (res_field w 0 3 (by omega)) (res_field w 12 12 (by omega))⟩
/-- The layout of msCopy. -/
theorem layout34 (w : W32) (s m x1 x2 t : Nat) (h0 : m < 128) (h1 : x1 < 64) (h2 : x2 < 64) (h3 : t < 16)
    (h : w.toNat = s * 2 ^ 31 + ((((m) * 64 + x1) * 64 + x2) * 4096 + t * 256)) :
    majorOf w = m ∧ w.toNat / 2 ^ 18 % 2 ^ 6 = x1 ∧ w.toNat / 2 ^ 12 % 2 ^ 6 = x2 ∧ (w.extractLsb' 8 4).toNat = t ∧ w &&& 0x000000FF = 0 :=
  ⟨fieldN w 24 7 m (by omega), by omega, by omega, fieldN w 8 4 t (by omega), (show (0x000000FF : W32) = maskBits 0 8 by decide) ▸ res_field w 0 8 (by omega)⟩
/-- The layout of ckpt. -/
theorem layout35 (w : W32) (s m x2 : Nat) (h0 : m < 128) (h1 : x2 < 262144)
    (h : w.toNat = s * 2 ^ 31 + (((m) * 64 + 0) * 262144 + x2)) :
    majorOf w = m ∧ w.toNat / 2 ^ 0 % 2 ^ 18 = x2 ∧ w &&& 0x00FC0000 = 0 :=
  ⟨fieldN w 24 7 m (by omega), by omega, (show (0x00FC0000 : W32) = maskBits 18 6 by decide) ▸ res_field w 18 6 (by omega)⟩

end Sys2Proof.Laws
end

