-- ==== Sys2Proof/Laws/Lanes.lean ====
section
/-! SUPPORT. Lanes, elements and bits read back from what is built of them (10 R176, R187), and the generator's states (09 R167). -/

namespace Sys2Proof.Laws

open Sys2Proof.Machine

/-- The number that digits in base 2^w stand for. -/
theorem digits_lt (w : Nat) (f : Nat → Nat) (h : ∀ i, f i < 2 ^ w) (n k : Nat) :
    ((List.range' k n).foldr (fun i acc => f i + 2 ^ w * acc) 0) < 2 ^ (w * n) := by
  induction n generalizing k with
  | zero => simp
  | succ m ih =>
    rw [List.range'_succ, List.foldr_cons, Nat.mul_succ, Nat.pow_add]
    have a := ih (k + 1)
    have b := h k
    have c : 2 ^ w * ((List.range' (k + 1) m).foldr (fun i acc => f i + 2 ^ w * acc) 0 + 1) ≤ 2 ^ w * 2 ^ (w * m) :=
      Nat.mul_le_mul_left _ a
    rw [Nat.mul_add, Nat.mul_one] at c
    rw [Nat.mul_comm (2 ^ (w * m))]
    omega

/-- Digit j of such a number. -/
theorem digit_get (w : Nat) (f : Nat → Nat) (h : ∀ i, f i < 2 ^ w) (n k j : Nat) (hj : j < n) :
    ((List.range' k n).foldr (fun i acc => f i + 2 ^ w * acc) 0) / 2 ^ (w * j) % 2 ^ w = f (k + j) := by
  induction n generalizing k j with
  | zero => omega
  | succ m ih =>
    rw [List.range'_succ, List.foldr_cons]
    cases j with
    | zero => simp [Nat.add_mul_mod_self_left, Nat.mod_eq_of_lt (h k)]
    | succ i =>
      rw [Nat.mul_succ, Nat.add_comm (w * i), Nat.pow_add, ← Nat.div_div_eq_div_mul, Nat.add_mul_div_left _ _ (Nat.two_pow_pos w),
        Nat.div_eq_of_lt (h k), Nat.zero_add, ih (k + 1) i (by omega)]
      congr 1
      omega

/-- Lane j of a vector built from its lanes. -/
theorem lane_ofLanes (f : Nat → W32) (j : Nat) (hj : j < 64) : lane (ofLanes f) j = f j := by
  apply BitVec.eq_of_toNat_eq
  unfold lane ofLanes
  have a := digits_lt 32 (fun i => (f i).toNat) (fun i => (f i).isLt) 64 0
  have b := digit_get 32 (fun i => (f i).toNat) (fun i => (f i).isLt) 64 0 j hj
  rw [← List.range_eq_range'] at a b
  rw [BitVec.extractLsb'_toNat, BitVec.toNat_ofNat, Nat.mod_eq_of_lt a, Nat.shiftRight_eq_div_pow, b, Nat.zero_add]

/-- Element j of a vector built from its 16-bit elements. -/
theorem elem16_ofElems (f : Nat → BitVec 16) (j : Nat) (hj : j < 128) : elem16 (ofElems f) j = f j := by
  apply BitVec.eq_of_toNat_eq
  unfold elem16 ofElems
  have a := digits_lt 16 (fun i => (f i).toNat) (fun i => (f i).isLt) 128 0
  have b := digit_get 16 (fun i => (f i).toNat) (fun i => (f i).isLt) 128 0 j hj
  rw [← List.range_eq_range'] at a b
  rw [BitVec.extractLsb'_toNat, BitVec.toNat_ofNat, Nat.mod_eq_of_lt a, Nat.shiftRight_eq_div_pow, b, Nat.zero_add]

/-- Bit j of a predicate built from its bits. -/
theorem getLsbD_ofBits (f : Nat → Bool) (j : Nat) (hj : j < 64) : (ofBits f).getLsbD j = f j := by
  have a := digits_lt 1 (fun i => (f i).toNat) (fun i => Bool.toNat_lt (f i)) 64 0
  have b := digit_get 1 (fun i => (f i).toNat) (fun i => Bool.toNat_lt (f i)) 64 0 j hj
  rw [← List.range_eq_range'] at a b
  unfold ofBits
  rw [BitVec.getLsbD_ofNat, decide_eq_true hj, Bool.true_and, Nat.testBit_eq_decide_div_mod_eq]
  simp only [Nat.one_mul, Nat.pow_one, Nat.zero_add] at b
  rw [b]
  cases f j <;> rfl

/-- Narrow element j of packed elements. -/
theorem narrowElem_packNarrow (w : Nat) (hw : 64 * w ≤ 2048) (f : Nat → Nat) (j : Nat) (hj : j < 64) :
    narrowElem w (packNarrow w f) j = f j % 2 ^ w := by
  have h : ∀ i, f i % 2 ^ w < 2 ^ w := fun i => Nat.mod_lt _ (Nat.two_pow_pos w)
  have a := digits_lt w (fun i => f i % 2 ^ w) h 64 0
  have b := digit_get w (fun i => f i % 2 ^ w) h 64 0 j hj
  rw [← List.range_eq_range'] at a b
  have c : 2 ^ (w * 64) ≤ 2 ^ 2048 := Nat.pow_le_pow_right (by decide) (by omega)
  unfold narrowElem packNarrow
  rw [BitVec.extractLsb'_toNat, BitVec.toNat_ofNat, Nat.mod_eq_of_lt (Nat.lt_of_lt_of_le a c), Nat.shiftRight_eq_div_pow, b, Nat.zero_add]

/-- Packed elements leave the bits above them 0. -/
theorem packNarrow_lt (w : Nat) (hw : 64 * w ≤ 2048) (f : Nat → Nat) : (packNarrow w f).toNat < 2 ^ (64 * w) := by
  have h : ∀ i, f i % 2 ^ w < 2 ^ w := fun i => Nat.mod_lt _ (Nat.two_pow_pos w)
  have a := digits_lt w (fun i => f i % 2 ^ w) h 64 0
  rw [← List.range_eq_range'] at a
  have c : 2 ^ (w * 64) ≤ 2 ^ 2048 := Nat.pow_le_pow_right (by decide) (by omega)
  unfold packNarrow
  rw [BitVec.toNat_ofNat, Nat.mod_eq_of_lt (Nat.lt_of_lt_of_le a c), Nat.mul_comm 64 w]
  exact a

/-- A masked vector has its lanes under the predicate. -/
theorem lanes_maskLanes (q : W64) (f : Nat → W32) : Lanes q (maskLanes q f) f := fun j hj => lane_ofLanes _ j hj

/-- A masked packed vector has its elements under the predicate. -/
theorem narrow_packNarrow (q : W64) (w : Nat) (hw : 64 * w ≤ 2048) (f : Nat → Nat) :
    Narrow q w (packNarrow w fun j => if q.getLsbD j then f j else 0) f := by
  refine ⟨fun j hj => ?_, packNarrow_lt w hw _⟩
  rw [narrowElem_packNarrow w hw _ j hj]
  split
  · rfl
  · exact Nat.zero_mod _

/-- The generator's states are the successive steps. -/
theorem lfsrStates_getD (x : W32) (n i : Nat) (h : i < n) (d : W32) : (lfsrStates x n).getD i d = lfsrAfter x (i + 1) := by
  have step : ∀ m y, lfsrAfter (lfsrStep y) m = lfsrStep (lfsrAfter y m) := by
    intro m
    induction m with
    | zero => intro y; rfl
    | succ k ih => intro y; simp only [lfsrAfter, ih]
  induction n generalizing x i with
  | zero => omega
  | succ m ih =>
    cases i with
    | zero => rfl
    | succ k =>
      have e := ih (lfsrStep x) k (by omega)
      simp only [lfsrStates, List.getD_cons_succ]
      rw [e, step]
      rfl

end Sys2Proof.Laws
end

