-- ==== Sys2Proof/Laws/Tables.lean ====
section
/-! SUPPORT. Tables, sets and memory: what a read finds after a write, and that every operation over memory keeps its canonical
form. -/

namespace Sys2Proof.Laws

open Sys2Proof.Machine

/-! ## Tables -/

/-- A read of the key written finds the value. -/
@[simp] theorem tget_tset_self {α : Type} (t : Table α) (k : Nat) (v : α) : tget (tset t k v) k = some v := by
  induction t with
  | nil => simp [tset, tget]
  | cons x r ih =>
    obtain ⟨k', v'⟩ := x
    unfold tset
    split
    · simp [tget]
    · split
      · simp [tget]
      · rename_i h1 h2
        simp only [tget, if_neg (Ne.symm h2), ih]

/-- A read of another key finds what it found before. -/
theorem tget_tset_other {α : Type} (t : Table α) (k j : Nat) (v : α) (h : j ≠ k) : tget (tset t k v) j = tget t j := by
  induction t with
  | nil => simp [tset, tget, Ne.symm h]
  | cons x r ih =>
    obtain ⟨k', v'⟩ := x
    unfold tset
    split
    · simp [tget, Ne.symm h]
    · split
      · rename_i h2; subst h2; simp [tget, Ne.symm h]
      · simp [tget, ih]

/-- A read after a write, either way. -/
theorem tget_tset {α : Type} (t : Table α) (k j : Nat) (v : α) :
    tget (tset t k v) j = if j = k then some v else tget t j := by
  by_cases h : j = k
  · subst h; simp
  · rw [tget_tset_other t k j v h, if_neg h]

/-- A write over a write leaves the later one. -/
@[simp] theorem tset_tset {α : Type} (t : Table α) (k : Nat) (v w : α) : tset (tset t k v) k w = tset t k w := by
  induction t with
  | nil => simp [tset]
  | cons x r ih =>
    obtain ⟨k', v'⟩ := x
    by_cases h1 : k < k'
    · simp [tset, h1]
    · by_cases h2 : k = k'
      · subst h2; simp [tset]
      · simp [tset, h1, h2, ih]

/-! ## The canonical form of memory -/

/-- Every address listed lies above one, and the list is canonical. -/
theorem wf_cons (a : Nat) (b : Byte) (m : Memory) :
    Memory.wf ((a, b) :: m) = true ↔ b ≠ memDefault ∧ (∀ x ∈ m, a < x.1) ∧ Memory.wf m = true := by
  induction m generalizing a b with
  | nil => simp [Memory.wf]
  | cons x r ih =>
    obtain ⟨a', b'⟩ := x
    have e : Memory.wf ((a, b) :: (a', b') :: r) = (decide (a < a') && (b != memDefault) && Memory.wf ((a', b') :: r)) := rfl
    rw [e]
    simp only [Bool.and_eq_true, decide_eq_true_eq, bne_iff_ne, ne_eq, List.mem_cons, forall_eq_or_imp]
    constructor
    · rintro ⟨⟨h1, h2⟩, h3⟩
      exact ⟨h2, ⟨h1, fun x hx => Nat.lt_trans h1 (((ih a' b').1 h3).2.1 x hx)⟩, h3⟩
    · rintro ⟨h2, ⟨h1, -⟩, h3⟩
      exact ⟨⟨h1, h2⟩, h3⟩

/-- The addresses that a written table lists. -/
theorem mem_tset {α : Type} (t : Table α) (k : Nat) (v : α) (x : Nat × α) (h : x ∈ tset t k v) : x = (k, v) ∨ x ∈ t := by
  induction t with
  | nil => simpa [tset] using h
  | cons y r ih =>
    obtain ⟨k', v'⟩ := y
    unfold tset at h
    split at h
    · simpa using h
    · split at h
      · rcases List.mem_cons.1 h with h | h
        · exact .inl h
        · exact .inr (List.mem_cons_of_mem _ h)
      · rcases List.mem_cons.1 h with h | h
        · exact .inr (h ▸ List.mem_cons_self)
        · rcases ih h with h | h
          · exact .inl h
          · exact .inr (List.mem_cons_of_mem _ h)

/-- A listed byte written keeps the canonical form. -/
theorem wf_tset (m : Memory) (a : Nat) (b : Byte) (hb : b ≠ memDefault) (h : Memory.wf m = true) : Memory.wf (tset m a b) = true := by
  induction m with
  | nil => simpa [tset, Memory.wf] using hb
  | cons x r ih =>
    obtain ⟨a', b'⟩ := x
    obtain ⟨h1, h2, h3⟩ := (wf_cons a' b' r).1 h
    unfold tset
    split
    · rename_i hlt
      exact (wf_cons a b _).2 ⟨hb, fun x hx => by
        rcases List.mem_cons.1 hx with hx | hx
        · subst hx; exact hlt
        · exact Nat.lt_trans hlt (h2 x hx), h⟩
    · split
      · rename_i _ he; subst he
        exact (wf_cons a b r).2 ⟨hb, h2, h3⟩
      · rename_i h4 h5
        refine (wf_cons a' b' _).2 ⟨h1, fun x hx => ?_, ih h3⟩
        rcases mem_tset r a b x hx with hx | hx
        · subst hx; show a' < a; omega
        · exact h2 x hx

/-- A part of a canonical memory is canonical. -/
theorem wf_filter (p : Host.Cell → Bool) (m : Memory) (h : Memory.wf m = true) : Memory.wf (m.filter p) = true := by
  induction m with
  | nil => exact h
  | cons x r ih =>
    obtain ⟨a, b⟩ := x
    obtain ⟨h1, h2, h3⟩ := (wf_cons a b r).1 h
    simp only [List.filter_cons]
    split
    · exact (wf_cons a b _).2 ⟨h1, fun y hy => h2 y (List.mem_of_mem_filter hy), ih h3⟩
    · exact ih h3

/-- A byte removed keeps the canonical form. -/
theorem wf_terase (m : Memory) (a : Nat) (h : Memory.wf m = true) : Memory.wf (terase m a) = true := wf_filter _ m h

/-- Memory.wf is kept by a write of a byte. -/
theorem wf_memWrite (m : Memory) (a : Nat) (b : Byte) (h : Memory.wf m = true) : Memory.wf (memWrite m a b) = true := by
  unfold memWrite
  split
  · exact wf_terase m a h
  · rename_i hb; exact wf_tset m a b hb h

/-- Memory.wf is kept by a write of bytes. -/
theorem wf_memWriteBytes (bs : List Byte) (m : Memory) (a : Nat) (h : Memory.wf m = true) :
    Memory.wf (memWriteBytes m a bs) = true := by
  induction bs generalizing m a with
  | nil => exact h
  | cons b r ih => exact ih _ _ (wf_memWrite m a b h)

/-- Memory.wf is kept by a write of a word. -/
theorem wf_memSetWord (m : Memory) (a : Nat) (x : W64) (h : Memory.wf m = true) : Memory.wf (memSetWord m a x) = true :=
  wf_memWriteBytes _ m a h

/-- Memory.wf is kept by a write of words. -/
theorem wf_memSetWords (ws : List W64) (m : Memory) (a : Nat) (h : Memory.wf m = true) :
    Memory.wf (memSetWords m a ws) = true := by
  induction ws generalizing m a with
  | nil => exact h
  | cons w r ih => exact ih _ _ (wf_memSetWord m a w h)

/-! ## What memory reads -/

/-- A removed key is not found, any other as before. -/
theorem tget_terase {α : Type} (t : Table α) (k j : Nat) : tget (terase t k) j = if j = k then none else tget t j := by
  induction t with
  | nil => simp [terase, tget]
  | cons x r ih =>
    obtain ⟨n, v⟩ := x
    unfold terase at ih ⊢
    rw [List.filter_cons]
    by_cases hn : n = k
    · subst hn
      rw [if_neg (by simp), ih]
      by_cases hj : j = n
      · simp [hj]
      · simp [tget, hj, Ne.symm hj]
    · rw [if_pos (by simpa using hn)]
      by_cases hj : j = k
      · subst hj; simp only [tget, if_neg hn, ih]
      · simp only [tget, ih, if_neg hj]

/-- A byte read after a byte written: the byte at its address, what stood there at every other (00 R8). -/
theorem memRead_memWrite (m : Memory) (a c : Nat) (b : Byte) :
    memRead (memWrite m a b) c = if c = a then b else memRead m c := by
  unfold memWrite memRead
  split
  · rename_i hb; subst hb
    rw [tget_terase m a c]
    split <;> simp_all
  · rw [tget_tset]
    split <;> simp_all

/-- Bytes read after bytes written. -/
theorem memRead_memWriteBytes (bs : List Byte) (m : Memory) (a c : Nat) :
    memRead (memWriteBytes m a bs) c = if a ≤ c ∧ c < a + bs.length then bs.getD (c - a) 0 else memRead m c := by
  induction bs generalizing m a with
  | nil =>
    rw [if_neg (by simp)]; rfl
  | cons b r ih =>
    rw [memWriteBytes, ih, memRead_memWrite m a c b]
    by_cases hc : c = a
    · subst hc
      rw [if_neg (by omega), if_pos rfl, if_pos (by simp)]; simp
    · by_cases h2 : a + 1 ≤ c ∧ c < a + 1 + r.length
      · rw [if_pos h2, if_pos (by simp; omega)]
        have : c - a = c - (a + 1) + 1 := by omega
        simp [this]
      · rw [if_neg h2, if_neg hc, if_neg (by simp; omega)]

/-- A number read back from its bytes (00 R8). -/
theorem leNat_leBytes (n v : Nat) : leNat (leBytes n v) = v % 256 ^ n := by
  induction n generalizing v with
  | zero => simp [leBytes, leNat, Nat.mod_one]
  | succ k ih =>
    rw [leBytes, leNat, ih, BitVec.toNat_ofNat, show 256 ^ (k + 1) = 256 * 256 ^ k by rw [Nat.pow_succ, Nat.mul_comm], Nat.mod_mul]

/-- How many bytes a number is given. -/
@[simp] theorem length_leBytes (n v : Nat) : (leBytes n v).length = n := by
  induction n generalizing v with
  | zero => rfl
  | succ k ih => simp [leBytes, ih]

/-- The bytes of a range just written. -/
theorem memBytes_memWriteBytes (bs : List Byte) (m : Memory) (a : Nat) :
    memBytes (memWriteBytes m a bs) a bs.length = bs := by
  apply List.ext_getElem
  · simp [memBytes]
  · intro i h1 h2
    simp only [memBytes, List.getElem_map, List.getElem_range]
    rw [memRead_memWriteBytes bs m a _, if_pos (by omega)]
    simp [List.getD_eq_getElem?_getD, List.getElem?_eq_getElem h2]

/-- A word read back where it was written (00 R8). -/
theorem memWord_memSetWord (m : Memory) (a : Nat) (x : W64) : memWord (memSetWord m a x) a = x := by
  unfold memWord memSetWord
  have e := memBytes_memWriteBytes (leBytes 8 x.toNat) m a
  rw [length_leBytes] at e
  rw [e, leNat_leBytes]
  apply BitVec.eq_of_toNat_eq
  have := x.isLt
  simp; omega

/-- A byte outside a word written reads as before. -/
theorem memRead_memSetWord (m : Memory) (a c : Nat) (x : W64) (hc : c < a ∨ a + 8 ≤ c) :
    memRead (memSetWord m a x) c = memRead m c := by
  unfold memSetWord
  rw [memRead_memWriteBytes _ m a c, if_neg (by simp; omega)]

/-- A word beside a word written reads as before. -/
theorem memWord_memSetWord_other (m : Memory) (a c : Nat) (x : W64) (hc : c + 8 ≤ a ∨ a + 8 ≤ c) :
    memWord (memSetWord m a x) c = memWord m c := by
  unfold memWord
  congr 2
  apply List.map_congr_left
  intro i hi
  have := List.mem_range.1 hi
  exact memRead_memSetWord m a (c + i) x (by omega)

end Sys2Proof.Laws
end

