-- ==== Sys2Proof/Laws/State.lean ====
section
/-! SUPPORT. The parts of State after an update of one of them: one lemma per field and update, so that no proof unfolds a record
update; what a strand, a context, a core, a cluster, a die reads after a write of one; the shared operations as the updates that
claims name. -/

namespace Sys2Proof.Laws

open Sys2Proof.Machine

/-! ## One field per update -/

@[simp] theorem setStrand_ctxs (s : State) (t : StrandId) (x : Strand) : (s.setStrand t x).ctxs = s.ctxs := rfl
@[simp] theorem setStrand_cores (s : State) (t : StrandId) (x : Strand) : (s.setStrand t x).cores = s.cores := rfl
@[simp] theorem setStrand_clusters (s : State) (t : StrandId) (x : Strand) : (s.setStrand t x).clusters = s.clusters := rfl
@[simp] theorem setStrand_dies (s : State) (t : StrandId) (x : Strand) : (s.setStrand t x).dies = s.dies := rfl
@[simp] theorem setStrand_mem (s : State) (t : StrandId) (x : Strand) : (s.setStrand t x).mem = s.mem := rfl
@[simp] theorem setStrand_hbmPoison (s : State) (t : StrandId) (x : Strand) : (s.setStrand t x).hbmPoison = s.hbmPoison := rfl
@[simp] theorem setStrand_msTags (s : State) (t : StrandId) (x : Strand) : (s.setStrand t x).msTags = s.msTags := rfl
@[simp] theorem setStrand_writes (s : State) (t : StrandId) (x : Strand) : (s.setStrand t x).writes = s.writes := rfl
@[simp] theorem setStrand_msgs (s : State) (t : StrandId) (x : Strand) : (s.setStrand t x).msgs = s.msgs := rfl
@[simp] theorem setStrand_amsgs (s : State) (t : StrandId) (x : Strand) : (s.setStrand t x).amsgs = s.amsgs := rfl
@[simp] theorem setStrand_gangs (s : State) (t : StrandId) (x : Strand) : (s.setStrand t x).gangs = s.gangs := rfl
@[simp] theorem setStrand_ports (s : State) (t : StrandId) (x : Strand) : (s.setStrand t x).ports = s.ports := rfl
@[simp] theorem setStrand_asids (s : State) (t : StrandId) (x : Strand) : (s.setStrand t x).asids = s.asids := rfl
@[simp] theorem setStrand_reports (s : State) (t : StrandId) (x : Strand) : (s.setStrand t x).reports = s.reports := rfl
@[simp] theorem setStrand_window (s : State) (t : StrandId) (x : Strand) : (s.setStrand t x).window = s.window := rfl
@[simp] theorem setStrand_ready (s : State) (t : StrandId) (x : Strand) : (s.setStrand t x).ready = s.ready := rfl
@[simp] theorem setStrand_phase (s : State) (t : StrandId) (x : Strand) : (s.setStrand t x).phase = s.phase := rfl
@[simp] theorem setStrand_failStep (s : State) (t : StrandId) (x : Strand) : (s.setStrand t x).failStep = s.failStep := rfl
@[simp] theorem setStrand_tamper (s : State) (t : StrandId) (x : Strand) : (s.setStrand t x).tamper = s.tamper := rfl
@[simp] theorem setStrand_halted (s : State) (t : StrandId) (x : Strand) : (s.setStrand t x).halted = s.halted := rfl
@[simp] theorem setStrand_dielost (s : State) (t : StrandId) (x : Strand) : (s.setStrand t x).dielost = s.dielost := rfl
@[simp] theorem setStrand_key (s : State) (t : StrandId) (x : Strand) : (s.setStrand t x).key = s.key := rfl
@[simp] theorem setStrand_booted (s : State) (t : StrandId) (x : Strand) : (s.setStrand t x).booted = s.booted := rfl
@[simp] theorem setStrand_cmdacc (s : State) (t : StrandId) (x : Strand) : (s.setStrand t x).cmdacc = s.cmdacc := rfl
@[simp] theorem setStrand_cmddone (s : State) (t : StrandId) (x : Strand) : (s.setStrand t x).cmddone = s.cmddone := rfl
@[simp] theorem setStrand_cmds (s : State) (t : StrandId) (x : Strand) : (s.setStrand t x).cmds = s.cmds := rfl
@[simp] theorem setStrand_journal (s : State) (t : StrandId) (x : Strand) : (s.setStrand t x).journal = s.journal := rfl
@[simp] theorem setStrand_returned (s : State) (t : StrandId) (x : Strand) : (s.setStrand t x).returned = s.returned := rfl
@[simp] theorem setStrand_graphs (s : State) (t : StrandId) (x : Strand) : (s.setStrand t x).graphs = s.graphs := rfl
@[simp] theorem setStrand_meas (s : State) (t : StrandId) (x : Strand) : (s.setStrand t x).meas = s.meas := rfl
@[simp] theorem setStrand_hbmLogs (s : State) (t : StrandId) (x : Strand) : (s.setStrand t x).hbmLogs = s.hbmLogs := rfl
@[simp] theorem setStrand_scrhbm (s : State) (t : StrandId) (x : Strand) : (s.setStrand t x).scrhbm = s.scrhbm := rfl
@[simp] theorem setStrand_latent (s : State) (t : StrandId) (x : Strand) : (s.setStrand t x).latent = s.latent := rfl
@[simp] theorem setStrand_power (s : State) (t : StrandId) (x : Strand) : (s.setStrand t x).power = s.power := rfl
@[simp] theorem setStrand_now (s : State) (t : StrandId) (x : Strand) : (s.setStrand t x).now = s.now := rfl
@[simp] theorem setStrand_tick (s : State) (t : StrandId) (x : Strand) : (s.setStrand t x).tick = s.tick := rfl
@[simp] theorem setStrand_ticked (s : State) (t : StrandId) (x : Strand) : (s.setStrand t x).ticked = s.ticked := rfl
@[simp] theorem setStrand_seq (s : State) (t : StrandId) (x : Strand) : (s.setStrand t x).seq = s.seq := rfl
@[simp] theorem setStrand_turn (s : State) (t : StrandId) (x : Strand) : (s.setStrand t x).turn = s.turn := rfl
@[simp] theorem setStrand_pass (s : State) (t : StrandId) (x : Strand) : (s.setStrand t x).pass = s.pass := rfl
@[simp] theorem setStrand_agenda (s : State) (t : StrandId) (x : Strand) : (s.setStrand t x).agenda = s.agenda := rfl
@[simp] theorem setStrand_iss (s : State) (t : StrandId) (x : Strand) : (s.setStrand t x).iss = s.iss := rfl
@[simp] theorem setCtx_strands (s : State) (c : CtxId) (x : Context) : (s.setCtx c x).strands = s.strands := rfl
@[simp] theorem setCtx_cores (s : State) (c : CtxId) (x : Context) : (s.setCtx c x).cores = s.cores := rfl
@[simp] theorem setCtx_clusters (s : State) (c : CtxId) (x : Context) : (s.setCtx c x).clusters = s.clusters := rfl
@[simp] theorem setCtx_dies (s : State) (c : CtxId) (x : Context) : (s.setCtx c x).dies = s.dies := rfl
@[simp] theorem setCtx_mem (s : State) (c : CtxId) (x : Context) : (s.setCtx c x).mem = s.mem := rfl
@[simp] theorem setCtx_hbmPoison (s : State) (c : CtxId) (x : Context) : (s.setCtx c x).hbmPoison = s.hbmPoison := rfl
@[simp] theorem setCtx_msTags (s : State) (c : CtxId) (x : Context) : (s.setCtx c x).msTags = s.msTags := rfl
@[simp] theorem setCtx_writes (s : State) (c : CtxId) (x : Context) : (s.setCtx c x).writes = s.writes := rfl
@[simp] theorem setCtx_msgs (s : State) (c : CtxId) (x : Context) : (s.setCtx c x).msgs = s.msgs := rfl
@[simp] theorem setCtx_amsgs (s : State) (c : CtxId) (x : Context) : (s.setCtx c x).amsgs = s.amsgs := rfl
@[simp] theorem setCtx_gangs (s : State) (c : CtxId) (x : Context) : (s.setCtx c x).gangs = s.gangs := rfl
@[simp] theorem setCtx_ports (s : State) (c : CtxId) (x : Context) : (s.setCtx c x).ports = s.ports := rfl
@[simp] theorem setCtx_asids (s : State) (c : CtxId) (x : Context) : (s.setCtx c x).asids = s.asids := rfl
@[simp] theorem setCtx_reports (s : State) (c : CtxId) (x : Context) : (s.setCtx c x).reports = s.reports := rfl
@[simp] theorem setCtx_window (s : State) (c : CtxId) (x : Context) : (s.setCtx c x).window = s.window := rfl
@[simp] theorem setCtx_ready (s : State) (c : CtxId) (x : Context) : (s.setCtx c x).ready = s.ready := rfl
@[simp] theorem setCtx_phase (s : State) (c : CtxId) (x : Context) : (s.setCtx c x).phase = s.phase := rfl
@[simp] theorem setCtx_failStep (s : State) (c : CtxId) (x : Context) : (s.setCtx c x).failStep = s.failStep := rfl
@[simp] theorem setCtx_tamper (s : State) (c : CtxId) (x : Context) : (s.setCtx c x).tamper = s.tamper := rfl
@[simp] theorem setCtx_halted (s : State) (c : CtxId) (x : Context) : (s.setCtx c x).halted = s.halted := rfl
@[simp] theorem setCtx_dielost (s : State) (c : CtxId) (x : Context) : (s.setCtx c x).dielost = s.dielost := rfl
@[simp] theorem setCtx_key (s : State) (c : CtxId) (x : Context) : (s.setCtx c x).key = s.key := rfl
@[simp] theorem setCtx_booted (s : State) (c : CtxId) (x : Context) : (s.setCtx c x).booted = s.booted := rfl
@[simp] theorem setCtx_cmdacc (s : State) (c : CtxId) (x : Context) : (s.setCtx c x).cmdacc = s.cmdacc := rfl
@[simp] theorem setCtx_cmddone (s : State) (c : CtxId) (x : Context) : (s.setCtx c x).cmddone = s.cmddone := rfl
@[simp] theorem setCtx_cmds (s : State) (c : CtxId) (x : Context) : (s.setCtx c x).cmds = s.cmds := rfl
@[simp] theorem setCtx_journal (s : State) (c : CtxId) (x : Context) : (s.setCtx c x).journal = s.journal := rfl
@[simp] theorem setCtx_returned (s : State) (c : CtxId) (x : Context) : (s.setCtx c x).returned = s.returned := rfl
@[simp] theorem setCtx_graphs (s : State) (c : CtxId) (x : Context) : (s.setCtx c x).graphs = s.graphs := rfl
@[simp] theorem setCtx_meas (s : State) (c : CtxId) (x : Context) : (s.setCtx c x).meas = s.meas := rfl
@[simp] theorem setCtx_hbmLogs (s : State) (c : CtxId) (x : Context) : (s.setCtx c x).hbmLogs = s.hbmLogs := rfl
@[simp] theorem setCtx_scrhbm (s : State) (c : CtxId) (x : Context) : (s.setCtx c x).scrhbm = s.scrhbm := rfl
@[simp] theorem setCtx_latent (s : State) (c : CtxId) (x : Context) : (s.setCtx c x).latent = s.latent := rfl
@[simp] theorem setCtx_power (s : State) (c : CtxId) (x : Context) : (s.setCtx c x).power = s.power := rfl
@[simp] theorem setCtx_now (s : State) (c : CtxId) (x : Context) : (s.setCtx c x).now = s.now := rfl
@[simp] theorem setCtx_tick (s : State) (c : CtxId) (x : Context) : (s.setCtx c x).tick = s.tick := rfl
@[simp] theorem setCtx_ticked (s : State) (c : CtxId) (x : Context) : (s.setCtx c x).ticked = s.ticked := rfl
@[simp] theorem setCtx_seq (s : State) (c : CtxId) (x : Context) : (s.setCtx c x).seq = s.seq := rfl
@[simp] theorem setCtx_turn (s : State) (c : CtxId) (x : Context) : (s.setCtx c x).turn = s.turn := rfl
@[simp] theorem setCtx_pass (s : State) (c : CtxId) (x : Context) : (s.setCtx c x).pass = s.pass := rfl
@[simp] theorem setCtx_agenda (s : State) (c : CtxId) (x : Context) : (s.setCtx c x).agenda = s.agenda := rfl
@[simp] theorem setCtx_iss (s : State) (c : CtxId) (x : Context) : (s.setCtx c x).iss = s.iss := rfl
@[simp] theorem setCore_strands (s : State) (o : CoreId) (x : Core) : (s.setCore o x).strands = s.strands := rfl
@[simp] theorem setCore_ctxs (s : State) (o : CoreId) (x : Core) : (s.setCore o x).ctxs = s.ctxs := rfl
@[simp] theorem setCore_clusters (s : State) (o : CoreId) (x : Core) : (s.setCore o x).clusters = s.clusters := rfl
@[simp] theorem setCore_dies (s : State) (o : CoreId) (x : Core) : (s.setCore o x).dies = s.dies := rfl
@[simp] theorem setCore_mem (s : State) (o : CoreId) (x : Core) : (s.setCore o x).mem = s.mem := rfl
@[simp] theorem setCore_hbmPoison (s : State) (o : CoreId) (x : Core) : (s.setCore o x).hbmPoison = s.hbmPoison := rfl
@[simp] theorem setCore_msTags (s : State) (o : CoreId) (x : Core) : (s.setCore o x).msTags = s.msTags := rfl
@[simp] theorem setCore_writes (s : State) (o : CoreId) (x : Core) : (s.setCore o x).writes = s.writes := rfl
@[simp] theorem setCore_msgs (s : State) (o : CoreId) (x : Core) : (s.setCore o x).msgs = s.msgs := rfl
@[simp] theorem setCore_amsgs (s : State) (o : CoreId) (x : Core) : (s.setCore o x).amsgs = s.amsgs := rfl
@[simp] theorem setCore_gangs (s : State) (o : CoreId) (x : Core) : (s.setCore o x).gangs = s.gangs := rfl
@[simp] theorem setCore_ports (s : State) (o : CoreId) (x : Core) : (s.setCore o x).ports = s.ports := rfl
@[simp] theorem setCore_asids (s : State) (o : CoreId) (x : Core) : (s.setCore o x).asids = s.asids := rfl
@[simp] theorem setCore_reports (s : State) (o : CoreId) (x : Core) : (s.setCore o x).reports = s.reports := rfl
@[simp] theorem setCore_window (s : State) (o : CoreId) (x : Core) : (s.setCore o x).window = s.window := rfl
@[simp] theorem setCore_ready (s : State) (o : CoreId) (x : Core) : (s.setCore o x).ready = s.ready := rfl
@[simp] theorem setCore_phase (s : State) (o : CoreId) (x : Core) : (s.setCore o x).phase = s.phase := rfl
@[simp] theorem setCore_failStep (s : State) (o : CoreId) (x : Core) : (s.setCore o x).failStep = s.failStep := rfl
@[simp] theorem setCore_tamper (s : State) (o : CoreId) (x : Core) : (s.setCore o x).tamper = s.tamper := rfl
@[simp] theorem setCore_halted (s : State) (o : CoreId) (x : Core) : (s.setCore o x).halted = s.halted := rfl
@[simp] theorem setCore_dielost (s : State) (o : CoreId) (x : Core) : (s.setCore o x).dielost = s.dielost := rfl
@[simp] theorem setCore_key (s : State) (o : CoreId) (x : Core) : (s.setCore o x).key = s.key := rfl
@[simp] theorem setCore_booted (s : State) (o : CoreId) (x : Core) : (s.setCore o x).booted = s.booted := rfl
@[simp] theorem setCore_cmdacc (s : State) (o : CoreId) (x : Core) : (s.setCore o x).cmdacc = s.cmdacc := rfl
@[simp] theorem setCore_cmddone (s : State) (o : CoreId) (x : Core) : (s.setCore o x).cmddone = s.cmddone := rfl
@[simp] theorem setCore_cmds (s : State) (o : CoreId) (x : Core) : (s.setCore o x).cmds = s.cmds := rfl
@[simp] theorem setCore_journal (s : State) (o : CoreId) (x : Core) : (s.setCore o x).journal = s.journal := rfl
@[simp] theorem setCore_returned (s : State) (o : CoreId) (x : Core) : (s.setCore o x).returned = s.returned := rfl
@[simp] theorem setCore_graphs (s : State) (o : CoreId) (x : Core) : (s.setCore o x).graphs = s.graphs := rfl
@[simp] theorem setCore_meas (s : State) (o : CoreId) (x : Core) : (s.setCore o x).meas = s.meas := rfl
@[simp] theorem setCore_hbmLogs (s : State) (o : CoreId) (x : Core) : (s.setCore o x).hbmLogs = s.hbmLogs := rfl
@[simp] theorem setCore_scrhbm (s : State) (o : CoreId) (x : Core) : (s.setCore o x).scrhbm = s.scrhbm := rfl
@[simp] theorem setCore_latent (s : State) (o : CoreId) (x : Core) : (s.setCore o x).latent = s.latent := rfl
@[simp] theorem setCore_power (s : State) (o : CoreId) (x : Core) : (s.setCore o x).power = s.power := rfl
@[simp] theorem setCore_now (s : State) (o : CoreId) (x : Core) : (s.setCore o x).now = s.now := rfl
@[simp] theorem setCore_tick (s : State) (o : CoreId) (x : Core) : (s.setCore o x).tick = s.tick := rfl
@[simp] theorem setCore_ticked (s : State) (o : CoreId) (x : Core) : (s.setCore o x).ticked = s.ticked := rfl
@[simp] theorem setCore_seq (s : State) (o : CoreId) (x : Core) : (s.setCore o x).seq = s.seq := rfl
@[simp] theorem setCore_turn (s : State) (o : CoreId) (x : Core) : (s.setCore o x).turn = s.turn := rfl
@[simp] theorem setCore_pass (s : State) (o : CoreId) (x : Core) : (s.setCore o x).pass = s.pass := rfl
@[simp] theorem setCore_agenda (s : State) (o : CoreId) (x : Core) : (s.setCore o x).agenda = s.agenda := rfl
@[simp] theorem setCore_iss (s : State) (o : CoreId) (x : Core) : (s.setCore o x).iss = s.iss := rfl
@[simp] theorem setCluster_strands (s : State) (l : ClusterId) (x : Cluster) : (s.setCluster l x).strands = s.strands := rfl
@[simp] theorem setCluster_ctxs (s : State) (l : ClusterId) (x : Cluster) : (s.setCluster l x).ctxs = s.ctxs := rfl
@[simp] theorem setCluster_cores (s : State) (l : ClusterId) (x : Cluster) : (s.setCluster l x).cores = s.cores := rfl
@[simp] theorem setCluster_dies (s : State) (l : ClusterId) (x : Cluster) : (s.setCluster l x).dies = s.dies := rfl
@[simp] theorem setCluster_mem (s : State) (l : ClusterId) (x : Cluster) : (s.setCluster l x).mem = s.mem := rfl
@[simp] theorem setCluster_hbmPoison (s : State) (l : ClusterId) (x : Cluster) : (s.setCluster l x).hbmPoison = s.hbmPoison := rfl
@[simp] theorem setCluster_msTags (s : State) (l : ClusterId) (x : Cluster) : (s.setCluster l x).msTags = s.msTags := rfl
@[simp] theorem setCluster_writes (s : State) (l : ClusterId) (x : Cluster) : (s.setCluster l x).writes = s.writes := rfl
@[simp] theorem setCluster_msgs (s : State) (l : ClusterId) (x : Cluster) : (s.setCluster l x).msgs = s.msgs := rfl
@[simp] theorem setCluster_amsgs (s : State) (l : ClusterId) (x : Cluster) : (s.setCluster l x).amsgs = s.amsgs := rfl
@[simp] theorem setCluster_gangs (s : State) (l : ClusterId) (x : Cluster) : (s.setCluster l x).gangs = s.gangs := rfl
@[simp] theorem setCluster_ports (s : State) (l : ClusterId) (x : Cluster) : (s.setCluster l x).ports = s.ports := rfl
@[simp] theorem setCluster_asids (s : State) (l : ClusterId) (x : Cluster) : (s.setCluster l x).asids = s.asids := rfl
@[simp] theorem setCluster_reports (s : State) (l : ClusterId) (x : Cluster) : (s.setCluster l x).reports = s.reports := rfl
@[simp] theorem setCluster_window (s : State) (l : ClusterId) (x : Cluster) : (s.setCluster l x).window = s.window := rfl
@[simp] theorem setCluster_ready (s : State) (l : ClusterId) (x : Cluster) : (s.setCluster l x).ready = s.ready := rfl
@[simp] theorem setCluster_phase (s : State) (l : ClusterId) (x : Cluster) : (s.setCluster l x).phase = s.phase := rfl
@[simp] theorem setCluster_failStep (s : State) (l : ClusterId) (x : Cluster) : (s.setCluster l x).failStep = s.failStep := rfl
@[simp] theorem setCluster_tamper (s : State) (l : ClusterId) (x : Cluster) : (s.setCluster l x).tamper = s.tamper := rfl
@[simp] theorem setCluster_halted (s : State) (l : ClusterId) (x : Cluster) : (s.setCluster l x).halted = s.halted := rfl
@[simp] theorem setCluster_dielost (s : State) (l : ClusterId) (x : Cluster) : (s.setCluster l x).dielost = s.dielost := rfl
@[simp] theorem setCluster_key (s : State) (l : ClusterId) (x : Cluster) : (s.setCluster l x).key = s.key := rfl
@[simp] theorem setCluster_booted (s : State) (l : ClusterId) (x : Cluster) : (s.setCluster l x).booted = s.booted := rfl
@[simp] theorem setCluster_cmdacc (s : State) (l : ClusterId) (x : Cluster) : (s.setCluster l x).cmdacc = s.cmdacc := rfl
@[simp] theorem setCluster_cmddone (s : State) (l : ClusterId) (x : Cluster) : (s.setCluster l x).cmddone = s.cmddone := rfl
@[simp] theorem setCluster_cmds (s : State) (l : ClusterId) (x : Cluster) : (s.setCluster l x).cmds = s.cmds := rfl
@[simp] theorem setCluster_journal (s : State) (l : ClusterId) (x : Cluster) : (s.setCluster l x).journal = s.journal := rfl
@[simp] theorem setCluster_returned (s : State) (l : ClusterId) (x : Cluster) : (s.setCluster l x).returned = s.returned := rfl
@[simp] theorem setCluster_graphs (s : State) (l : ClusterId) (x : Cluster) : (s.setCluster l x).graphs = s.graphs := rfl
@[simp] theorem setCluster_meas (s : State) (l : ClusterId) (x : Cluster) : (s.setCluster l x).meas = s.meas := rfl
@[simp] theorem setCluster_hbmLogs (s : State) (l : ClusterId) (x : Cluster) : (s.setCluster l x).hbmLogs = s.hbmLogs := rfl
@[simp] theorem setCluster_scrhbm (s : State) (l : ClusterId) (x : Cluster) : (s.setCluster l x).scrhbm = s.scrhbm := rfl
@[simp] theorem setCluster_latent (s : State) (l : ClusterId) (x : Cluster) : (s.setCluster l x).latent = s.latent := rfl
@[simp] theorem setCluster_power (s : State) (l : ClusterId) (x : Cluster) : (s.setCluster l x).power = s.power := rfl
@[simp] theorem setCluster_now (s : State) (l : ClusterId) (x : Cluster) : (s.setCluster l x).now = s.now := rfl
@[simp] theorem setCluster_tick (s : State) (l : ClusterId) (x : Cluster) : (s.setCluster l x).tick = s.tick := rfl
@[simp] theorem setCluster_ticked (s : State) (l : ClusterId) (x : Cluster) : (s.setCluster l x).ticked = s.ticked := rfl
@[simp] theorem setCluster_seq (s : State) (l : ClusterId) (x : Cluster) : (s.setCluster l x).seq = s.seq := rfl
@[simp] theorem setCluster_turn (s : State) (l : ClusterId) (x : Cluster) : (s.setCluster l x).turn = s.turn := rfl
@[simp] theorem setCluster_pass (s : State) (l : ClusterId) (x : Cluster) : (s.setCluster l x).pass = s.pass := rfl
@[simp] theorem setCluster_agenda (s : State) (l : ClusterId) (x : Cluster) : (s.setCluster l x).agenda = s.agenda := rfl
@[simp] theorem setCluster_iss (s : State) (l : ClusterId) (x : Cluster) : (s.setCluster l x).iss = s.iss := rfl
@[simp] theorem setDie_strands (s : State) (d : DieId) (x : Die) : (s.setDie d x).strands = s.strands := rfl
@[simp] theorem setDie_ctxs (s : State) (d : DieId) (x : Die) : (s.setDie d x).ctxs = s.ctxs := rfl
@[simp] theorem setDie_cores (s : State) (d : DieId) (x : Die) : (s.setDie d x).cores = s.cores := rfl
@[simp] theorem setDie_clusters (s : State) (d : DieId) (x : Die) : (s.setDie d x).clusters = s.clusters := rfl
@[simp] theorem setDie_mem (s : State) (d : DieId) (x : Die) : (s.setDie d x).mem = s.mem := rfl
@[simp] theorem setDie_hbmPoison (s : State) (d : DieId) (x : Die) : (s.setDie d x).hbmPoison = s.hbmPoison := rfl
@[simp] theorem setDie_msTags (s : State) (d : DieId) (x : Die) : (s.setDie d x).msTags = s.msTags := rfl
@[simp] theorem setDie_writes (s : State) (d : DieId) (x : Die) : (s.setDie d x).writes = s.writes := rfl
@[simp] theorem setDie_msgs (s : State) (d : DieId) (x : Die) : (s.setDie d x).msgs = s.msgs := rfl
@[simp] theorem setDie_amsgs (s : State) (d : DieId) (x : Die) : (s.setDie d x).amsgs = s.amsgs := rfl
@[simp] theorem setDie_gangs (s : State) (d : DieId) (x : Die) : (s.setDie d x).gangs = s.gangs := rfl
@[simp] theorem setDie_ports (s : State) (d : DieId) (x : Die) : (s.setDie d x).ports = s.ports := rfl
@[simp] theorem setDie_asids (s : State) (d : DieId) (x : Die) : (s.setDie d x).asids = s.asids := rfl
@[simp] theorem setDie_reports (s : State) (d : DieId) (x : Die) : (s.setDie d x).reports = s.reports := rfl
@[simp] theorem setDie_window (s : State) (d : DieId) (x : Die) : (s.setDie d x).window = s.window := rfl
@[simp] theorem setDie_ready (s : State) (d : DieId) (x : Die) : (s.setDie d x).ready = s.ready := rfl
@[simp] theorem setDie_phase (s : State) (d : DieId) (x : Die) : (s.setDie d x).phase = s.phase := rfl
@[simp] theorem setDie_failStep (s : State) (d : DieId) (x : Die) : (s.setDie d x).failStep = s.failStep := rfl
@[simp] theorem setDie_tamper (s : State) (d : DieId) (x : Die) : (s.setDie d x).tamper = s.tamper := rfl
@[simp] theorem setDie_halted (s : State) (d : DieId) (x : Die) : (s.setDie d x).halted = s.halted := rfl
@[simp] theorem setDie_dielost (s : State) (d : DieId) (x : Die) : (s.setDie d x).dielost = s.dielost := rfl
@[simp] theorem setDie_key (s : State) (d : DieId) (x : Die) : (s.setDie d x).key = s.key := rfl
@[simp] theorem setDie_booted (s : State) (d : DieId) (x : Die) : (s.setDie d x).booted = s.booted := rfl
@[simp] theorem setDie_cmdacc (s : State) (d : DieId) (x : Die) : (s.setDie d x).cmdacc = s.cmdacc := rfl
@[simp] theorem setDie_cmddone (s : State) (d : DieId) (x : Die) : (s.setDie d x).cmddone = s.cmddone := rfl
@[simp] theorem setDie_cmds (s : State) (d : DieId) (x : Die) : (s.setDie d x).cmds = s.cmds := rfl
@[simp] theorem setDie_journal (s : State) (d : DieId) (x : Die) : (s.setDie d x).journal = s.journal := rfl
@[simp] theorem setDie_returned (s : State) (d : DieId) (x : Die) : (s.setDie d x).returned = s.returned := rfl
@[simp] theorem setDie_graphs (s : State) (d : DieId) (x : Die) : (s.setDie d x).graphs = s.graphs := rfl
@[simp] theorem setDie_meas (s : State) (d : DieId) (x : Die) : (s.setDie d x).meas = s.meas := rfl
@[simp] theorem setDie_hbmLogs (s : State) (d : DieId) (x : Die) : (s.setDie d x).hbmLogs = s.hbmLogs := rfl
@[simp] theorem setDie_scrhbm (s : State) (d : DieId) (x : Die) : (s.setDie d x).scrhbm = s.scrhbm := rfl
@[simp] theorem setDie_latent (s : State) (d : DieId) (x : Die) : (s.setDie d x).latent = s.latent := rfl
@[simp] theorem setDie_power (s : State) (d : DieId) (x : Die) : (s.setDie d x).power = s.power := rfl
@[simp] theorem setDie_now (s : State) (d : DieId) (x : Die) : (s.setDie d x).now = s.now := rfl
@[simp] theorem setDie_tick (s : State) (d : DieId) (x : Die) : (s.setDie d x).tick = s.tick := rfl
@[simp] theorem setDie_ticked (s : State) (d : DieId) (x : Die) : (s.setDie d x).ticked = s.ticked := rfl
@[simp] theorem setDie_seq (s : State) (d : DieId) (x : Die) : (s.setDie d x).seq = s.seq := rfl
@[simp] theorem setDie_turn (s : State) (d : DieId) (x : Die) : (s.setDie d x).turn = s.turn := rfl
@[simp] theorem setDie_pass (s : State) (d : DieId) (x : Die) : (s.setDie d x).pass = s.pass := rfl
@[simp] theorem setDie_agenda (s : State) (d : DieId) (x : Die) : (s.setDie d x).agenda = s.agenda := rfl
@[simp] theorem setDie_iss (s : State) (d : DieId) (x : Die) : (s.setDie d x).iss = s.iss := rfl
@[simp] theorem setIss_strands (s : State) (x : Issue) : (s.setIss x).strands = s.strands := rfl
@[simp] theorem setIss_ctxs (s : State) (x : Issue) : (s.setIss x).ctxs = s.ctxs := rfl
@[simp] theorem setIss_cores (s : State) (x : Issue) : (s.setIss x).cores = s.cores := rfl
@[simp] theorem setIss_clusters (s : State) (x : Issue) : (s.setIss x).clusters = s.clusters := rfl
@[simp] theorem setIss_dies (s : State) (x : Issue) : (s.setIss x).dies = s.dies := rfl
@[simp] theorem setIss_mem (s : State) (x : Issue) : (s.setIss x).mem = s.mem := rfl
@[simp] theorem setIss_hbmPoison (s : State) (x : Issue) : (s.setIss x).hbmPoison = s.hbmPoison := rfl
@[simp] theorem setIss_msTags (s : State) (x : Issue) : (s.setIss x).msTags = s.msTags := rfl
@[simp] theorem setIss_writes (s : State) (x : Issue) : (s.setIss x).writes = s.writes := rfl
@[simp] theorem setIss_msgs (s : State) (x : Issue) : (s.setIss x).msgs = s.msgs := rfl
@[simp] theorem setIss_amsgs (s : State) (x : Issue) : (s.setIss x).amsgs = s.amsgs := rfl
@[simp] theorem setIss_gangs (s : State) (x : Issue) : (s.setIss x).gangs = s.gangs := rfl
@[simp] theorem setIss_ports (s : State) (x : Issue) : (s.setIss x).ports = s.ports := rfl
@[simp] theorem setIss_asids (s : State) (x : Issue) : (s.setIss x).asids = s.asids := rfl
@[simp] theorem setIss_reports (s : State) (x : Issue) : (s.setIss x).reports = s.reports := rfl
@[simp] theorem setIss_window (s : State) (x : Issue) : (s.setIss x).window = s.window := rfl
@[simp] theorem setIss_ready (s : State) (x : Issue) : (s.setIss x).ready = s.ready := rfl
@[simp] theorem setIss_phase (s : State) (x : Issue) : (s.setIss x).phase = s.phase := rfl
@[simp] theorem setIss_failStep (s : State) (x : Issue) : (s.setIss x).failStep = s.failStep := rfl
@[simp] theorem setIss_tamper (s : State) (x : Issue) : (s.setIss x).tamper = s.tamper := rfl
@[simp] theorem setIss_halted (s : State) (x : Issue) : (s.setIss x).halted = s.halted := rfl
@[simp] theorem setIss_dielost (s : State) (x : Issue) : (s.setIss x).dielost = s.dielost := rfl
@[simp] theorem setIss_key (s : State) (x : Issue) : (s.setIss x).key = s.key := rfl
@[simp] theorem setIss_booted (s : State) (x : Issue) : (s.setIss x).booted = s.booted := rfl
@[simp] theorem setIss_cmdacc (s : State) (x : Issue) : (s.setIss x).cmdacc = s.cmdacc := rfl
@[simp] theorem setIss_cmddone (s : State) (x : Issue) : (s.setIss x).cmddone = s.cmddone := rfl
@[simp] theorem setIss_cmds (s : State) (x : Issue) : (s.setIss x).cmds = s.cmds := rfl
@[simp] theorem setIss_journal (s : State) (x : Issue) : (s.setIss x).journal = s.journal := rfl
@[simp] theorem setIss_returned (s : State) (x : Issue) : (s.setIss x).returned = s.returned := rfl
@[simp] theorem setIss_graphs (s : State) (x : Issue) : (s.setIss x).graphs = s.graphs := rfl
@[simp] theorem setIss_meas (s : State) (x : Issue) : (s.setIss x).meas = s.meas := rfl
@[simp] theorem setIss_hbmLogs (s : State) (x : Issue) : (s.setIss x).hbmLogs = s.hbmLogs := rfl
@[simp] theorem setIss_scrhbm (s : State) (x : Issue) : (s.setIss x).scrhbm = s.scrhbm := rfl
@[simp] theorem setIss_latent (s : State) (x : Issue) : (s.setIss x).latent = s.latent := rfl
@[simp] theorem setIss_power (s : State) (x : Issue) : (s.setIss x).power = s.power := rfl
@[simp] theorem setIss_now (s : State) (x : Issue) : (s.setIss x).now = s.now := rfl
@[simp] theorem setIss_tick (s : State) (x : Issue) : (s.setIss x).tick = s.tick := rfl
@[simp] theorem setIss_ticked (s : State) (x : Issue) : (s.setIss x).ticked = s.ticked := rfl
@[simp] theorem setIss_seq (s : State) (x : Issue) : (s.setIss x).seq = s.seq := rfl
@[simp] theorem setIss_turn (s : State) (x : Issue) : (s.setIss x).turn = s.turn := rfl
@[simp] theorem setIss_pass (s : State) (x : Issue) : (s.setIss x).pass = s.pass := rfl
@[simp] theorem setIss_agenda (s : State) (x : Issue) : (s.setIss x).agenda = s.agenda := rfl
@[simp] theorem setIss_iss (s : State) (x : Issue) : (s.setIss x).iss = x := rfl

/-! ## Parts after a write of one -/

/-- Reading a strand after a write of one. -/
theorem strand_setStrand (s : State) (t u : StrandId) (x : Strand) :
    (s.setStrand t x).strand u = if u.key = t.key then x else s.strand u := by
  unfold State.strand State.setStrand
  rw [tget_tset]
  split <;> simp_all
@[simp] theorem strand_setStrand_self (s : State) (t : StrandId) (x : Strand) : (s.setStrand t x).strand t = x := by
  rw [strand_setStrand, if_pos rfl]
theorem strand_setStrand_other (s : State) (t u : StrandId) (x : Strand) (h : u.key ≠ t.key) : (s.setStrand t x).strand u = s.strand u := by
  rw [strand_setStrand, if_neg h]
/-- Reading a ctx after a write of one. -/
theorem ctx_setCtx (s : State) (c e : CtxId) (x : Context) :
    (s.setCtx c x).ctx e = if e.key = c.key then x else s.ctx e := by
  unfold State.ctx State.setCtx
  rw [tget_tset]
  split <;> simp_all
@[simp] theorem ctx_setCtx_self (s : State) (c : CtxId) (x : Context) : (s.setCtx c x).ctx c = x := by
  rw [ctx_setCtx, if_pos rfl]
theorem ctx_setCtx_other (s : State) (c e : CtxId) (x : Context) (h : e.key ≠ c.key) : (s.setCtx c x).ctx e = s.ctx e := by
  rw [ctx_setCtx, if_neg h]
/-- Reading a core after a write of one. -/
theorem core_setCore (s : State) (o q : CoreId) (x : Core) :
    (s.setCore o x).core q = if q.key = o.key then x else s.core q := by
  unfold State.core State.setCore
  rw [tget_tset]
  split <;> simp_all
@[simp] theorem core_setCore_self (s : State) (o : CoreId) (x : Core) : (s.setCore o x).core o = x := by
  rw [core_setCore, if_pos rfl]
theorem core_setCore_other (s : State) (o q : CoreId) (x : Core) (h : q.key ≠ o.key) : (s.setCore o x).core q = s.core q := by
  rw [core_setCore, if_neg h]
/-- Reading a cluster after a write of one. -/
theorem cluster_setCluster (s : State) (l m : ClusterId) (x : Cluster) :
    (s.setCluster l x).cluster m = if m.key = l.key then x else s.cluster m := by
  unfold State.cluster State.setCluster
  rw [tget_tset]
  split <;> simp_all
@[simp] theorem cluster_setCluster_self (s : State) (l : ClusterId) (x : Cluster) : (s.setCluster l x).cluster l = x := by
  rw [cluster_setCluster, if_pos rfl]
theorem cluster_setCluster_other (s : State) (l m : ClusterId) (x : Cluster) (h : m.key ≠ l.key) : (s.setCluster l x).cluster m = s.cluster m := by
  rw [cluster_setCluster, if_neg h]
/-- Reading a die after a write of one. -/
theorem die_setDie (s : State) (d e : DieId) (x : Die) : (s.setDie d x).die e = if e.val = d.val then x else s.die e := by
  unfold State.die State.setDie
  rw [tget_tset]
  split <;> simp_all
@[simp] theorem die_setDie_self (s : State) (d : DieId) (x : Die) : (s.setDie d x).die d = x := by rw [die_setDie, if_pos rfl]
theorem die_setDie_other (s : State) (d e : DieId) (x : Die) (h : e ≠ d) : (s.setDie d x).die e = s.die e := by
  rw [die_setDie, if_neg fun h' => h (Fin.ext h')]

@[simp] theorem ctx_setStrand (s : State) (t : StrandId) (x : Strand) (c' : CtxId) : (s.setStrand t x).ctx c' = s.ctx c' := rfl
@[simp] theorem core_setStrand (s : State) (t : StrandId) (x : Strand) (o' : CoreId) : (s.setStrand t x).core o' = s.core o' := rfl
@[simp] theorem cluster_setStrand (s : State) (t : StrandId) (x : Strand) (l' : ClusterId) : (s.setStrand t x).cluster l' = s.cluster l' := rfl
@[simp] theorem die_setStrand (s : State) (t : StrandId) (x : Strand) (d' : DieId) : (s.setStrand t x).die d' = s.die d' := rfl
@[simp] theorem bindOf_setStrand (s : State) (t : StrandId) (x : Strand) (k : CtxId) : (s.setStrand t x).bindOf k = s.bindOf k := rfl
@[simp] theorem strand_setCtx (s : State) (c : CtxId) (x : Context) (t' : StrandId) : (s.setCtx c x).strand t' = s.strand t' := rfl
@[simp] theorem core_setCtx (s : State) (c : CtxId) (x : Context) (o' : CoreId) : (s.setCtx c x).core o' = s.core o' := rfl
@[simp] theorem cluster_setCtx (s : State) (c : CtxId) (x : Context) (l' : ClusterId) : (s.setCtx c x).cluster l' = s.cluster l' := rfl
@[simp] theorem die_setCtx (s : State) (c : CtxId) (x : Context) (d' : DieId) : (s.setCtx c x).die d' = s.die d' := rfl
@[simp] theorem bindOf_setCtx (s : State) (c : CtxId) (x : Context) (k : CtxId) : (s.setCtx c x).bindOf k = s.bindOf k := rfl
@[simp] theorem strand_setCore (s : State) (o : CoreId) (x : Core) (t' : StrandId) : (s.setCore o x).strand t' = s.strand t' := rfl
@[simp] theorem ctx_setCore (s : State) (o : CoreId) (x : Core) (c' : CtxId) : (s.setCore o x).ctx c' = s.ctx c' := rfl
@[simp] theorem cluster_setCore (s : State) (o : CoreId) (x : Core) (l' : ClusterId) : (s.setCore o x).cluster l' = s.cluster l' := rfl
@[simp] theorem die_setCore (s : State) (o : CoreId) (x : Core) (d' : DieId) : (s.setCore o x).die d' = s.die d' := rfl
@[simp] theorem bindOf_setCore (s : State) (o : CoreId) (x : Core) (k : CtxId) : (s.setCore o x).bindOf k = s.bindOf k := rfl
@[simp] theorem strand_setCluster (s : State) (l : ClusterId) (x : Cluster) (t' : StrandId) : (s.setCluster l x).strand t' = s.strand t' := rfl
@[simp] theorem ctx_setCluster (s : State) (l : ClusterId) (x : Cluster) (c' : CtxId) : (s.setCluster l x).ctx c' = s.ctx c' := rfl
@[simp] theorem core_setCluster (s : State) (l : ClusterId) (x : Cluster) (o' : CoreId) : (s.setCluster l x).core o' = s.core o' := rfl
@[simp] theorem die_setCluster (s : State) (l : ClusterId) (x : Cluster) (d' : DieId) : (s.setCluster l x).die d' = s.die d' := rfl
@[simp] theorem bindOf_setCluster (s : State) (l : ClusterId) (x : Cluster) (k : CtxId) : (s.setCluster l x).bindOf k = s.bindOf k := rfl
@[simp] theorem strand_setDie (s : State) (d : DieId) (x : Die) (t' : StrandId) : (s.setDie d x).strand t' = s.strand t' := rfl
@[simp] theorem ctx_setDie (s : State) (d : DieId) (x : Die) (c' : CtxId) : (s.setDie d x).ctx c' = s.ctx c' := rfl
@[simp] theorem core_setDie (s : State) (d : DieId) (x : Die) (o' : CoreId) : (s.setDie d x).core o' = s.core o' := rfl
@[simp] theorem cluster_setDie (s : State) (d : DieId) (x : Die) (l' : ClusterId) : (s.setDie d x).cluster l' = s.cluster l' := rfl
@[simp] theorem strand_setIss (s : State) (x : Issue) (t' : StrandId) : (s.setIss x).strand t' = s.strand t' := rfl
@[simp] theorem ctx_setIss (s : State) (x : Issue) (c' : CtxId) : (s.setIss x).ctx c' = s.ctx c' := rfl
@[simp] theorem core_setIss (s : State) (x : Issue) (o' : CoreId) : (s.setIss x).core o' = s.core o' := rfl
@[simp] theorem cluster_setIss (s : State) (x : Issue) (l' : ClusterId) : (s.setIss x).cluster l' = s.cluster l' := rfl
@[simp] theorem die_setIss (s : State) (x : Issue) (d' : DieId) : (s.setIss x).die d' = s.die d' := rfl
@[simp] theorem bindOf_setIss (s : State) (x : Issue) (k : CtxId) : (s.setIss x).bindOf k = s.bindOf k := rfl

/-! ## The strand that issues -/

@[simp] theorem cur_setIss (s : State) (x : Issue) : (s.setIss x).cur = s.cur := rfl
@[simp] theorem cur_setCtx (s : State) (c : CtxId) (x : Context) : (s.setCtx c x).cur = s.cur := rfl
@[simp] theorem cur_setCore (s : State) (o : CoreId) (x : Core) : (s.setCore o x).cur = s.cur := rfl
@[simp] theorem cur_setDie (s : State) (d : DieId) (x : Die) : (s.setDie d x).cur = s.cur := rfl
@[simp] theorem cur_setCur (s : State) (x : Strand) : (s.setCur x).cur = x := by
  unfold State.cur State.setCur
  simp

/-! ## Keys -/

/-- Strands with one key are one strand. -/
theorem strand_key_inj (t u : StrandId) (h : t.key = u.key) : t = u := by
  obtain ⟨⟨d, hd⟩, ⟨l, hl⟩, ⟨c, hc⟩, ⟨o, ho⟩⟩ := t
  obtain ⟨⟨d', hd'⟩, ⟨l', hl'⟩, ⟨c', hc'⟩, ⟨o', ho'⟩⟩ := u
  simp only [StrandId.key] at h
  have e1 : d = d' := by omega
  have e2 : l = l' := by omega
  have e3 : c = c' := by omega
  have e4 : o = o' := by omega
  subst e1 e2 e3 e4
  rfl

/-! ## The shared operations as the updates that claims name -/

/-- A result of a syllable is an exposed result in flight. -/
theorem resultP_eq (s : State) (tg : Tgt) (x : Dat) (lat : Nat) (p : Bool) : s.resultP tg x lat p = s.inFlightP tg x lat p := rfl
theorem result_eq (s : State) (tg : Tgt) (x : Dat) (lat : Nat) : s.result tg x lat = s.inFlight tg x lat := rfl
theorem resultG_eq (s : State) (d : Reg) (x : W64) (lat : Nat) : s.resultG d x lat = s.inFlight (.g d) (.w x) lat := rfl
theorem resultV_eq (s : State) (d : Reg) (x : VReg) (lat : Nat) : s.resultV d x lat = s.inFlight (.v d) (.v x) lat := rfl
theorem resultK_eq (s : State) (d : Reg) (x : W64) (lat : Nat) : s.resultK d x lat = s.inFlight (.k d) (.w x) lat := rfl
/-- A pending operation of a syllable is an interlocked result awaited. -/
theorem pending_eq (s : State) (tg : Tgt) (op : POp) (v : Option (Dat × Bool)) (acq : Bool) :
    s.pending tg op v acq = s.awaiting tg op v acq := rfl
/-- What a syllable gathers is an update of the bundle's record. -/
theorem setIss_eq (s : State) (b : Issue) : s.setIss b = s.gathering b := rfl

@[simp] theorem inFlightP_mem (s : State) (tg : Tgt) (x : Dat) (lat : Nat) (p : Bool) : (s.inFlightP tg x lat p).mem = s.mem := rfl
@[simp] theorem inFlightP_iss (s : State) (tg : Tgt) (x : Dat) (lat : Nat) (p : Bool) : (s.inFlightP tg x lat p).iss = s.iss := rfl
@[simp] theorem inFlightP_writes (s : State) (tg : Tgt) (x : Dat) (lat : Nat) (p : Bool) :
    (s.inFlightP tg x lat p).writes = s.writes := rfl
@[simp] theorem gathering_mem (s : State) (b : Issue) : (s.gathering b).mem = s.mem := rfl
@[simp] theorem gathering_iss (s : State) (b : Issue) : (s.gathering b).iss = b := rfl
@[simp] theorem gathering_strands (s : State) (b : Issue) : (s.gathering b).strands = s.strands := rfl
@[simp] theorem awaiting_mem (s : State) (tg : Tgt) (op : POp) (v : Option (Dat × Bool)) (acq : Bool) :
    (s.awaiting tg op v acq).mem = s.mem := rfl
@[simp] theorem awaiting_iss (s : State) (tg : Tgt) (op : POp) (v : Option (Dat × Bool)) (acq : Bool) :
    (s.awaiting tg op v acq).iss = s.iss := rfl

/-! ## Outside and inside a region -/

/-- Outside a region a syllable that is excluded there does its work. -/
theorem outsideRegion_none (s : State) (f : State → State) (h : s.cur.region = none) : s.outsideRegion f = f s := by
  unfold State.outsideRegion State.inRegion
  rw [h]; rfl
/-- In a region it asks for EXCLUDED, with what its own checks find. -/
theorem outsideRegion_some (s : State) (f : State → State) (h : s.cur.region ≠ none) :
    s.outsideRegion f = s.gathering { s.iss with
      illegal := (f s).iss.illegal, faults := (f s).iss.faults, poisoned := (f s).iss.poisoned
      rollbacks := s.iss.rollbacks ++ [(s.iss.pos, 4)] } := by
  unfold State.outsideRegion State.inRegion
  cases hr : s.cur.region with
  | none => exact absurd hr h
  | some r => rfl
/-- A matrix or engine syllable of a matrix-using context outside a region does its work. -/
theorem matrixOnly_bound (s : State) (f : State → State) (h : s.matrix s.turn = true) : s.matrixOnly f = s.outsideRegion f := by
  unfold State.matrixOnly
  rw [h]; rfl
/-- In a context that is not bound as matrix-using it is ILLEGAL. -/
theorem matrixOnly_unbound (s : State) (f : State → State) (h : s.matrix s.turn = false) : s.matrixOnly f = s.illegalEncoding := by
  unfold State.matrixOnly
  rw [h]; rfl

end Sys2Proof.Laws
end

