-- ==== Sys2Proof/Laws/Operations.lean ====
section
/-! SUPPORT. What the shared operations of Machine/Ops do: landing, rollback, taking a trap, the trap record in memory and the return
from a trap. -/

namespace Sys2Proof.Laws

open Sys2Proof Sys2Proof.Machine

/-! ## Landing -/

/-- A result that lands changes no memory, no write path and no other strand. -/
@[simp] theorem landOne_mem (s : State) (t : StrandId) (tg : Tgt) (d : Dat) (p : Bool) (n : W64) : (s.landOne t tg d p n).mem = s.mem := by
  cases tg <;> rfl
@[simp] theorem landOne_writes (s : State) (t : StrandId) (tg : Tgt) (d : Dat) (p : Bool) (n : W64) :
    (s.landOne t tg d p n).writes = s.writes := by cases tg <;> rfl
@[simp] theorem landOne_dies (s : State) (t : StrandId) (tg : Tgt) (d : Dat) (p : Bool) (n : W64) :
    (s.landOne t tg d p n).dies = s.dies := by cases tg <;> rfl
@[simp] theorem landOne_ctxs (s : State) (t : StrandId) (tg : Tgt) (d : Dat) (p : Bool) (n : W64) :
    (s.landOne t tg d p n).ctxs = s.ctxs := by cases tg <;> rfl
theorem landOne_other (s : State) (t u : StrandId) (tg : Tgt) (d : Dat) (p : Bool) (n : W64) (h : u.key ≠ t.key) :
    (s.landOne t tg d p n).strand u = s.strand u := by
  cases tg <;> simp [State.landOne, strand_setStrand_other, h]

@[simp] theorem landAll_mem (xs : List Exposed) (s : State) (t : StrandId) : (s.landAll t xs).mem = s.mem := by
  induction xs generalizing s with
  | nil => rfl
  | cons x r ih => simp [State.landAll, ih]
@[simp] theorem landAll_writes (xs : List Exposed) (s : State) (t : StrandId) : (s.landAll t xs).writes = s.writes := by
  induction xs generalizing s with
  | nil => rfl
  | cons x r ih => simp [State.landAll, ih]
@[simp] theorem landAll_dies (xs : List Exposed) (s : State) (t : StrandId) : (s.landAll t xs).dies = s.dies := by
  induction xs generalizing s with
  | nil => rfl
  | cons x r ih => simp [State.landAll, ih]
@[simp] theorem landAll_ctxs (xs : List Exposed) (s : State) (t : StrandId) : (s.landAll t xs).ctxs = s.ctxs := by
  induction xs generalizing s with
  | nil => rfl
  | cons x r ih => simp [State.landAll, ih]
theorem landAll_other (xs : List Exposed) (s : State) (t u : StrandId) (h : u.key ≠ t.key) : (s.landAll t xs).strand u = s.strand u := by
  induction xs generalizing s with
  | nil => rfl
  | cons x r ih => simp [State.landAll, ih, landOne_other, h]

@[simp] theorem landDue_mem (s : State) (t : StrandId) : (s.landDue t).mem = s.mem := by simp [State.landDue]
@[simp] theorem landDue_writes (s : State) (t : StrandId) : (s.landDue t).writes = s.writes := by simp [State.landDue]
@[simp] theorem landDue_dies (s : State) (t : StrandId) : (s.landDue t).dies = s.dies := by simp [State.landDue]
@[simp] theorem landDue_ctxs (s : State) (t : StrandId) : (s.landDue t).ctxs = s.ctxs := by simp [State.landDue]
theorem landDue_other (s : State) (t u : StrandId) (h : u.key ≠ t.key) : (s.landDue t).strand u = s.strand u := by
  simp [State.landDue, landAll_other, strand_setStrand_other, h]

/-- With nothing in flight nothing lands. -/
theorem landDue_nil (s : State) (t : StrandId) (h : (s.strand t).inflight = []) :
    s.landDue t = s.setStrand t { s.strand t with inflight := [] } := by
  simp [State.landDue, h, State.landAll]

@[simp] theorem idleOnce_mem (s : State) (t : StrandId) : (s.idleOnce t).mem = s.mem := by simp [State.idleOnce]
@[simp] theorem idleOnce_writes (s : State) (t : StrandId) : (s.idleOnce t).writes = s.writes := by simp [State.idleOnce]

/-! ## Rollback -/

/-- Without a region open a rollback does nothing. -/
theorem rollback_none (s : State) (t : StrandId) (cause : Nat) (bundle : W64) (h : (s.strand t).region = none) :
    s.rollback t cause bundle = s := by
  unfold State.rollback State.rollbackAt; dsimp only; rw [h]

/-- Under FREEZE the items of the region are restored, in the trailing copy too, and nothing else happens. -/
theorem rollback_freeze (s : State) (t : StrandId) (bundle : W64) (r : Region) (h : (s.strand t).region = some r) :
    s.rollback t 8 bundle = (s.setStrand t ((s.strand t).restored r 8 bundle r.bundle)).rollbackCopy t 8 bundle r.bundle := by
  unfold State.rollback State.rollbackAt; dsimp only; rw [h]; rfl

/-- Under another cause the rollback bundle counts as a step, at whose end results land. -/
theorem rollback_some (s : State) (t : StrandId) (cause : Nat) (bundle : W64) (r : Region) (h : (s.strand t).region = some r)
    (hc : cause ≠ 8) :
    s.rollback t cause bundle =
      ((s.setStrand t { (s.strand t).restored r cause bundle (if cause ≤ 6 then r.recovery else r.bundle) with
        step := (s.strand t).step + 1 }).landDue t).rollbackCopy t cause bundle (if cause ≤ 6 then r.recovery else r.bundle) := by
  unfold State.rollback State.rollbackAt; dsimp only; rw [h]; simp [hc, bne, Strand.restored]

/-- The trailing copy's rollback changes that strand alone. -/
theorem rollbackCopy_eq (s : State) (t : StrandId) (cause : Nat) (bundle next : W64) :
    s.rollbackCopy t cause bundle next = s ∨ ∃ x, s.rollbackCopy t cause bundle next = s.setStrand (s.mateStrand t) x := by
  unfold State.rollbackCopy; dsimp only; split
  · exact .inr ⟨_, rfl⟩
  · exact .inl rfl

@[simp] theorem rollbackCopy_mem (s : State) (t : StrandId) (cause : Nat) (bundle next : W64) :
    (s.rollbackCopy t cause bundle next).mem = s.mem := by
  obtain h | ⟨x, h⟩ := rollbackCopy_eq s t cause bundle next <;> rw [h] <;> rfl
@[simp] theorem rollback_mem (s : State) (t : StrandId) (cause : Nat) (bundle : W64) : (s.rollback t cause bundle).mem = s.mem := by
  unfold State.rollback State.rollbackAt; dsimp only; split
  · rfl
  · split <;> simp
@[simp] theorem rollbackCopy_writes (s : State) (t : StrandId) (cause : Nat) (bundle next : W64) :
    (s.rollbackCopy t cause bundle next).writes = s.writes := by
  obtain h | ⟨x, h⟩ := rollbackCopy_eq s t cause bundle next <;> rw [h] <;> rfl
@[simp] theorem rollback_writes (s : State) (t : StrandId) (cause : Nat) (bundle : W64) :
    (s.rollback t cause bundle).writes = s.writes := by
  unfold State.rollback State.rollbackAt; dsimp only; split
  · rfl
  · split <;> simp
@[simp] theorem rollbackCopy_dies (s : State) (t : StrandId) (cause : Nat) (bundle next : W64) :
    (s.rollbackCopy t cause bundle next).dies = s.dies := by
  obtain h | ⟨x, h⟩ := rollbackCopy_eq s t cause bundle next <;> rw [h] <;> rfl
@[simp] theorem rollback_dies (s : State) (t : StrandId) (cause : Nat) (bundle : W64) : (s.rollback t cause bundle).dies = s.dies := by
  unfold State.rollback State.rollbackAt; dsimp only; split
  · rfl
  · split <;> simp
@[simp] theorem rollbackCopy_ctxs (s : State) (t : StrandId) (cause : Nat) (bundle next : W64) :
    (s.rollbackCopy t cause bundle next).ctxs = s.ctxs := by
  obtain h | ⟨x, h⟩ := rollbackCopy_eq s t cause bundle next <;> rw [h] <;> rfl
@[simp] theorem rollback_ctxs (s : State) (t : StrandId) (cause : Nat) (bundle : W64) : (s.rollback t cause bundle).ctxs = s.ctxs := by
  unfold State.rollback State.rollbackAt; dsimp only; split
  · rfl
  · split <;> simp
/-- A strand other than it and its copy. -/
theorem rollbackCopy_other (s : State) (t u : StrandId) (cause : Nat) (bundle next : W64) (h : u.key ≠ (s.mateStrand t).key) :
    (s.rollbackCopy t cause bundle next).strand u = s.strand u := by
  obtain e | ⟨x, e⟩ := rollbackCopy_eq s t cause bundle next <;> rw [e]
  exact strand_setStrand_other _ _ _ _ h
/-- Which strand is the other copy rests on the bindings alone. -/
theorem mateStrand_congr (s s' : State) (t : StrandId) (h : s'.dies = s.dies) : s'.mateStrand t = s.mateStrand t := by
  simp [State.mateStrand, State.mateOf, State.bindOf, State.die, h]
/-- A rollback changes the strand and its copy alone. -/
theorem rollback_other (s : State) (t u : StrandId) (cause : Nat) (bundle : W64) (h : u.key ≠ t.key) (hm : u.key ≠ (s.mateStrand t).key) :
    (s.rollback t cause bundle).strand u = s.strand u := by
  unfold State.rollback State.rollbackAt; dsimp only; split
  · rfl
  · rw [rollbackCopy_other]
    · split <;> simp [strand_setStrand_other, landDue_other, h]
    · rw [mateStrand_congr s]
      · exact hm
      · split <;> simp

/-! ## Taking a trap -/

@[simp] theorem trapRecord_mem (s : State) (t : StrandId) (cause mask : BitVec 8) (sub : BitVec 4) (faddr bundle n : W64) (region : W32)
    (restart : W64) : (s.trapRecord t cause mask sub faddr bundle n region restart).mem = s.mem := rfl
@[simp] theorem trapRecord_writes (s : State) (t : StrandId) (cause mask : BitVec 8) (sub : BitVec 4) (faddr bundle n : W64)
    (region : W32) (restart : W64) : (s.trapRecord t cause mask sub faddr bundle n region restart).writes = s.writes := rfl
@[simp] theorem trapRecord_dies (s : State) (t : StrandId) (cause mask : BitVec 8) (sub : BitVec 4) (faddr bundle n : W64)
    (region : W32) (restart : W64) : (s.trapRecord t cause mask sub faddr bundle n region restart).dies = s.dies := rfl
theorem trapRecord_other (s : State) (t u : StrandId) (cause mask : BitVec 8) (sub : BitVec 4) (faddr bundle n : W64) (region : W32)
    (restart : W64) (h : u.key ≠ t.key) : (s.trapRecord t cause mask sub faddr bundle n region restart).strand u = s.strand u := by
  simp [State.trapRecord, strand_setStrand_other, h]

/-- What a trap leaves of its strand: its registers and its results in flight stay, it stops at the restart address with the record made
ready. -/
theorem trapRecord_strand (s : State) (t : StrandId) (cause mask : BitVec 8) (sub : BitVec 4) (faddr bundle n : W64) (region : W32)
    (restart : W64) :
    let x := (s.trapRecord t cause mask sub faddr bundle n region restart).strand t
    x.g = (s.strand t).g ∧ x.v = (s.strand t).v ∧ x.k = (s.strand t).k ∧ x.step = (s.strand t).step ∧
      x.inflight = (s.strand t).inflight ∧ x.pc = restart ∧ x.trapping = true ∧ x.attached = false ∧
      x.trap.mask = mask ∧ x.trap.sub = sub ∧ x.trap.faddr = faddr ∧ x.trap.bundle = bundle ∧ x.trap.restart = restart := by
  simp [State.trapRecord]

/-- The cause is the fault's own unless the same fault has been taken fifteen times in a row before. -/
theorem trapRecord_cause (s : State) (t : StrandId) (cause mask : BitVec 8) (sub : BitVec 4) (faddr bundle n : W64) (region : W32)
    (restart : W64) (h : (s.strand t).lastFault ≠ some (bundle, cause, sub, faddr) ∨ (s.strand t).repeats < 15) :
    ((s.trapRecord t cause mask sub faddr bundle n region restart).strand t).trap.cause = cause := by
  simp only [State.trapRecord, strand_setCtx, strand_setStrand_self]
  by_cases hl : (s.strand t).lastFault = some (bundle, cause, sub, faddr)
  · have hr : (s.strand t).repeats < 15 := h.resolve_left fun n => n hl
    rw [if_pos hl, if_neg (by omega)]
  · rw [if_neg hl]; rfl

/-- A trap outside a region. -/
theorem takeTrap_none (s : State) (t : StrandId) (cause mask : BitVec 8) (sub : BitVec 4) (faddr : W64)
    (h : (s.strand t).region = none) :
    s.takeTrap t cause mask sub faddr = s.trapRecord t cause mask sub faddr (s.strand t).pc ((s.strand t).step + 1) 0 (s.strand t).pc := by
  unfold State.takeTrap; dsimp only; rw [h]

/-- A trap in a region rolls back with TRAP first and restarts at the ckpt bundle. -/
theorem takeTrap_some (s : State) (t : StrandId) (cause mask : BitVec 8) (sub : BitVec 4) (faddr : W64) (r : Region)
    (h : (s.strand t).region = some r) :
    s.takeTrap t cause mask sub faddr = (s.rollback t 7 (s.strand t).pc).trapRecord t cause mask sub faddr (s.strand t).pc
      ((s.strand t).step + 1) ((s.strand t).regionWord ((s.strand t).step + 1)) r.bundle := by
  unfold State.takeTrap; dsimp only; rw [h]

@[simp] theorem takeTrap_mem (s : State) (t : StrandId) (cause mask : BitVec 8) (sub : BitVec 4) (faddr : W64) :
    (s.takeTrap t cause mask sub faddr).mem = s.mem := by
  unfold State.takeTrap; dsimp only; split <;> simp
@[simp] theorem takeTrap_writes (s : State) (t : StrandId) (cause mask : BitVec 8) (sub : BitVec 4) (faddr : W64) :
    (s.takeTrap t cause mask sub faddr).writes = s.writes := by
  unfold State.takeTrap; dsimp only; split <;> simp
theorem takeTrap_other (s : State) (t u : StrandId) (cause mask : BitVec 8) (sub : BitVec 4) (faddr : W64) (h : u.key ≠ t.key)
    (hm : u.key ≠ (s.mateStrand t).key) : (s.takeTrap t cause mask sub faddr).strand u = s.strand u := by
  unfold State.takeTrap; dsimp only; split
  · exact trapRecord_other _ _ _ _ _ _ _ _ _ _ _ h
  · rw [trapRecord_other _ _ _ _ _ _ _ _ _ _ _ h, rollback_other _ _ _ _ _ h hm]

/-! ## Suspension and the return -/

/-- Changes of the dies one by one that keep their slots keep every binding. -/
theorem slots_map (f : Nat × Die → Nat × Die) (hf : ∀ x, (f x).1 = x.1 ∧ (f x).2.slots = x.2.slots) (m : Table Die) (k : Nat) :
    ((tget (m.map f) k).getD Die.reset).slots = ((tget m k).getD Die.reset).slots := by
  induction m with
  | nil => rfl
  | cons x r ih =>
    obtain ⟨h1, h2⟩ := hf x
    simp only [List.map_cons, tget, h1]
    split
    · exact h2
    · exact ih

@[simp] theorem clearHbm_strands (s : State) (pa : Nat) (b : Bool) : (s.clearHbm pa b).strands = s.strands := by
  unfold State.clearHbm; split <;> rfl
@[simp] theorem clearHbm_ctxs (s : State) (pa : Nat) (b : Bool) : (s.clearHbm pa b).ctxs = s.ctxs := by
  unfold State.clearHbm; split <;> rfl
@[simp] theorem clearHbm_dies (s : State) (pa : Nat) (b : Bool) : (s.clearHbm pa b).dies = s.dies := by
  unfold State.clearHbm; split <;> rfl
@[simp] theorem clearHbm_mem (s : State) (pa : Nat) (b : Bool) : (s.clearHbm pa b).mem = s.mem := by
  unfold State.clearHbm; split <;> rfl
@[simp] theorem patchCopies_strands (s : State) (pa : Nat) (bs : List (Nat × Byte)) (n : Nat) :
    (s.patchCopies pa bs n).strands = s.strands := rfl
@[simp] theorem patchCopies_ctxs (s : State) (pa : Nat) (bs : List (Nat × Byte)) (n : Nat) :
    (s.patchCopies pa bs n).ctxs = s.ctxs := rfl
@[simp] theorem patchCopies_mem (s : State) (pa : Nat) (bs : List (Nat × Byte)) (n : Nat) : (s.patchCopies pa bs n).mem = s.mem := rfl
/-- The contexts of a die are bound as before. -/
@[simp] theorem patchCopies_bindOf (s : State) (pa : Nat) (bs : List (Nat × Byte)) (n : Nat) (c : CtxId) :
    (s.patchCopies pa bs n).bindOf c = s.bindOf c := by
  unfold State.bindOf State.die State.patchCopies State.mapCopies
  dsimp only
  rw [slots_map _ ?_ s.dies c.die.val]
  exact fun _ => ⟨rfl, rfl⟩

/-- A write at its bytes' home is in memory. -/
@[simp] theorem homeWrite_mem (s : State) (pa : Nat) (bs : List (Nat × Byte)) (n : Nat) :
    (s.homeWrite pa bs n).mem = memApply s.mem pa bs := by simp [State.homeWrite]
@[simp] theorem homeWrite_strands (s : State) (pa : Nat) (bs : List (Nat × Byte)) (n : Nat) :
    (s.homeWrite pa bs n).strands = s.strands := by simp [State.homeWrite]
@[simp] theorem homeWrite_ctxs (s : State) (pa : Nat) (bs : List (Nat × Byte)) (n : Nat) :
    (s.homeWrite pa bs n).ctxs = s.ctxs := by simp [State.homeWrite]
@[simp] theorem homeWrite_bindOf (s : State) (pa : Nat) (bs : List (Nat × Byte)) (n : Nat) (c : CtxId) :
    (s.homeWrite pa bs n).bindOf c = s.bindOf c := by
  unfold State.homeWrite
  rw [patchCopies_bindOf]; unfold State.bindOf State.die; rw [clearHbm_dies]

/-- The record in memory changes no register, no context and no binding. -/
@[simp] theorem storeTrap_strands (s : State) (t : StrandId) : (s.storeTrap t).strands = s.strands := homeWrite_strands _ _ _ _
@[simp] theorem storeTrap_ctxs (s : State) (t : StrandId) : (s.storeTrap t).ctxs = s.ctxs := homeWrite_ctxs _ _ _ _
@[simp] theorem storeTrap_strand (s : State) (t u : StrandId) : (s.storeTrap t).strand u = s.strand u := by simp [State.strand]
@[simp] theorem storeTrap_ctx (s : State) (t : StrandId) (c : CtxId) : (s.storeTrap t).ctx c = s.ctx c := by simp [State.ctx]
@[simp] theorem storeTrap_bindOf (s : State) (t : StrandId) (c : CtxId) : (s.storeTrap t).bindOf c = s.bindOf c :=
  homeWrite_bindOf _ _ _ _ _

theorem suspendStrand_other (s : State) (t u : StrandId) (h : u.key ≠ t.key) : (s.suspendStrand t).strand u = s.strand u := by
  unfold State.suspendStrand; dsimp only; split <;> simp [strand_setStrand_other, h]
theorem resumeStrand_other (s : State) (t u : StrandId) (h : u.key ≠ t.key) : (s.resumeStrand t).strand u = s.strand u := by
  unfold State.resumeStrand; dsimp only; split <;> simp [strand_setStrand_other, h]

/-- A strand whose trap record is not valid is not changed by a resume. -/
theorem resumeStrand_idle (s : State) (t : StrandId) (h : (s.strand t).trap.valid = false) : s.resumeStrand t = s := by
  unfold State.resumeStrand; simp [h]

/-- The return from a trap: the strand goes on detached at RESTART of its record in memory, with its registers as they were. -/
theorem resumeStrand_valid (s : State) (t : StrandId) (h : (s.strand t).trap.valid = true) :
    let a := s.deviceWord ((s.bindOf t.ctxId).save.toNat + 64 * t.core.val + 40)
    let x := (s.resumeStrand t).strand t
    x.pc = a ∧ x.attached = false ∧ x.trap.valid = false ∧ x.g = (s.strand t).g ∧ x.v = (s.strand t).v ∧ x.k = (s.strand t).k ∧
      x.step = (s.strand t).step ∧ x.inflight = (s.strand t).inflight := by
  unfold State.resumeStrand; simp [h]

end Sys2Proof.Laws
end

