-- ==== Sys2Proof/Laws/Memory.lean ====
section
/-! SUPPORT. The operations of the machine that write memory keep its canonical form: stores, lines written back, trap records,
completion words, the journal. -/

namespace Sys2Proof.Laws

open Sys2Proof Sys2Proof.Machine

/-- A fold keeps what each of its steps keeps. -/
theorem foldl_keeps {α β : Type} (P : α → Prop) (f : α → β → α) (hf : ∀ s x, P s → P (f s x)) (xs : List β) (s : α) (h : P s) :
    P (xs.foldl f s) := by
  induction xs generalizing s with
  | nil => exact h
  | cons x r ih => exact ih _ (hf _ _ h)

/-- A fold that may give up keeps what each of its steps keeps. -/
theorem foldl_bind_keeps {α β : Type} (P : α → Prop) (f : β → α → Option α) (hf : ∀ x s t, P s → f x s = some t → P t) (xs : List β)
    (s : Option α) (h : ∀ t, s = some t → P t) : ∀ t, xs.foldl (fun acc x => acc.bind (f x)) s = some t → P t := by
  induction xs generalizing s with
  | nil => exact h
  | cons x r ih =>
    refine ih _ fun t ht => ?_
    cases s with
    | none => cases ht
    | some u => exact hf x u t (h u rfl) ht

/-! ## Stores -/

theorem wf_memApply (bs : List (Nat × Byte)) (m : Memory) (pa : Nat) (h : Memory.wf m = true) : Memory.wf (memApply m pa bs) = true := by
  induction bs generalizing m with
  | nil => exact h
  | cons x r ih => exact ih _ (wf_memWrite _ _ _ h)

/-- A byte of memory after a store: the store's own byte, or what it was. -/
theorem memRead_memApply (bs : List (Nat × Byte)) (m : Memory) (pa a : Nat) (h : ∀ x ∈ bs, pa + x.1 ≠ a) :
    memRead (memApply m pa bs) a = memRead m a := by
  induction bs generalizing m with
  | nil => rfl
  | cons x r ih =>
    rw [memApply, ih _ fun y hy => h y (List.mem_cons_of_mem _ hy), memRead_memWrite, if_neg]
    exact fun e => h x List.mem_cons_self e.symm

@[simp] theorem spadApply_mem (s : State) (o off : Nat) (bs : List (Nat × Byte)) : (s.spadApply o off bs).mem = s.mem := rfl
@[simp] theorem cleanSpad_mem (s : State) (o off : Nat) (b : Bool) : (s.cleanSpad o off b).mem = s.mem := by cases b <;> rfl
@[simp] theorem cleanWhole_mem (s : State) (pa n : Nat) : (s.cleanWhole pa n).mem = s.mem := rfl
@[simp] theorem setLine_mem (s : State) (d : DieId) (line : Nat) (x : L2Line) : (s.setLine d line x).mem = s.mem := rfl
@[simp] theorem setTag_mem (s : State) (w : TagWord) (b : Bool) : (s.setTag w b).mem = s.mem := by cases w <;> rfl

theorem wf_homeWrite (s : State) (pa : Nat) (bs : List (Nat × Byte)) (n : Nat) (h : Memory.wf s.mem = true) :
    Memory.wf (s.homeWrite pa bs n).mem = true := by rw [homeWrite_mem]; exact wf_memApply _ _ _ h

theorem wf_performAt (s : State) (p : Place) (bs : List (Nat × Byte)) (n : Nat) (h : Memory.wf s.mem = true) :
    Memory.wf (s.performAt p bs n).mem = true := by
  unfold State.performAt
  split
  · rw [cleanSpad_mem]; exact h
  · exact wf_homeWrite _ _ _ _ h

@[simp] theorem dropCopy_mem (s : State) (l : ClusterId) (line : Nat) : (s.dropCopy l line).mem = s.mem := by
  unfold State.dropCopy
  dsimp only
  split
  · split
    · split <;> split <;> simp
    · split <;> split <;> simp
  · split <;> split <;> simp

@[simp] theorem acceptWrite_mem (s : State) (w : PWrite) : (s.acceptWrite w).mem = s.mem := by
  unfold State.acceptWrite; split
  · rfl
  · rw [dropCopy_mem]

@[simp] theorem putWrite_mem (s : State) (w : PWrite) : (s.putWrite w).mem = s.mem := by
  unfold State.putWrite; dsimp only; split
  · rw [acceptWrite_mem]
  · rfl

@[simp] theorem acceptWrites_mem (s : State) : s.acceptWrites.mem = s.mem := by
  unfold State.acceptWrites
  refine foldl_keeps (fun t : State => t.mem = s.mem) _ (fun t w ht => ?_) _ _ rfl
  split
  · rw [acceptWrite_mem, ht]
  · exact ht

theorem wf_issueStore (s : State) (t : StrandId) (x : StoreAt) (h : Memory.wf s.mem = true) :
    Memory.wf (s.issueStore t x).mem = true := by
  unfold State.issueStore
  split
  · dsimp only; split
    · exact wf_performAt _ _ _ _ h
    · exact h
  · dsimp only [State.fresh]; rw [putWrite_mem]; exact h

theorem wf_issueStores (xs : List StoreAt) (s : State) (t : StrandId) (h : Memory.wf s.mem = true) :
    Memory.wf (s.issueStores t xs).mem = true := by
  induction xs generalizing s with
  | nil => exact h
  | cons x r ih => exact ih _ (wf_issueStore _ _ _ h)

/-! ## Lines -/

theorem wf_lineToHbm (s : State) (line : Nat) (data : List Byte) (poison : BitVec 4) (h : Memory.wf s.mem = true) :
    Memory.wf (s.lineToHbm line data poison).mem = true := wf_memWriteBytes _ _ _ h

theorem wf_purgeLine (s t : State) (line : Nat) (h : Memory.wf s.mem = true) (ht : s.purgeLine line = some t) :
    Memory.wf t.mem = true := by
  unfold State.purgeLine at ht
  split at ht
  · cases ht
  · dsimp only at ht
    obtain ⟨u, hu, rfl⟩ := Option.map_eq_some_iff.mp ht
    refine foldl_bind_keeps (fun s : State => Memory.wf s.mem = true) _ (fun d v w hv hw => ?_) _ _ (fun v hv => ?_) u hu
    · split at hw
      · cases hw; exact hv
      · split at hw
        · cases hw
        · cases hw
          dsimp only [State.setDie]
          split
          · exact wf_lineToHbm _ _ _ _ hv
          · exact hv
    · cases hv; exact h

theorem wf_purgeLines (lines : List Nat) (s t : State) (h : Memory.wf s.mem = true) (ht : s.purgeLines lines = some t) :
    Memory.wf t.mem = true :=
  foldl_bind_keeps (fun s : State => Memory.wf s.mem = true) (fun (l : Nat) (s : State) => s.purgeLine l)
    (fun l v w hv hw => wf_purgeLine v w l hv hw) lines (some s) (fun v hv => by cases hv; exact h) t ht

theorem wf_cleanLine (s : State) (line : Nat) (h : Memory.wf s.mem = true) : Memory.wf (s.cleanLine line).mem = true := by
  unfold State.cleanLine
  refine foldl_keeps (fun s : State => Memory.wf s.mem = true) _ (fun s d hs => ?_) _ _ h
  split
  · rename_i x _
    split
    · rw [setLine_mem]; exact wf_lineToHbm _ line x.data x.poison hs
    · exact hs
  · exact hs

/-! ## Traps -/

theorem wf_storeTrap (s : State) (t : StrandId) (h : Memory.wf s.mem = true) : Memory.wf (s.storeTrap t).mem = true := by
  exact wf_homeWrite _ _ _ _ h

theorem wf_suspendStrand (s : State) (t : StrandId) (h : Memory.wf s.mem = true) : Memory.wf (s.suspendStrand t).mem = true := by
  unfold State.suspendStrand; dsimp only; split
  · exact wf_storeTrap _ _ h
  · exact h

theorem wf_suspend (s : State) (c : CtxId) (h : Memory.wf s.mem = true) : Memory.wf (s.suspend c).mem = true :=
  foldl_keeps (fun s : State => Memory.wf s.mem = true) State.suspendStrand (fun s t hs => wf_suspendStrand s t hs) c.strands s h

theorem wf_resumeStrand (s : State) (t : StrandId) (h : Memory.wf s.mem = true) : Memory.wf (s.resumeStrand t).mem = true := by
  unfold State.resumeStrand; dsimp only; split
  · exact wf_storeTrap _ _ h
  · exact h

theorem wf_resumeCtx (s : State) (c : CtxId) (unpark : Bool) (h : Memory.wf s.mem = true) :
    Memory.wf (s.resumeCtx c unpark).mem = true := by
  have h1 : Memory.wf (c.strands.foldl State.resumeStrand s).mem = true :=
    foldl_keeps (fun s : State => Memory.wf s.mem = true) State.resumeStrand (fun s t hs => wf_resumeStrand s t hs) c.strands s h
  unfold State.resumeCtx
  rw [setCtx_mem]
  generalize c.strands.foldl State.resumeStrand s = s1 at h1 ⊢
  split
  · exact foldl_keeps (fun s : State => Memory.wf s.mem = true)
      (fun s t => s.setStrand t { s.strand t with lastFault := none, repeats := 0 }) (fun s t hs => by rw [setStrand_mem]; exact hs)
      c.strands s1 h1
  · exact h1

@[simp] theorem freezeCtx_mem (s : State) (c : CtxId) : (s.freezeCtx c).mem = s.mem := by
  unfold State.freezeCtx
  exact foldl_keeps (fun t : State => t.mem = s.mem) _ (fun u t hu => by rw [rollback_mem, hu]) _ _ rfl

/-! ## Completion words, the journal, dwords of the engines -/

theorem wf_fillWord (s : State) (w : Option CWord) (status : Nat) (h : Memory.wf s.mem = true) :
    Memory.wf (s.fillWord w status).mem = true := by
  unfold State.fillWord
  split
  · exact h
  · rw [setTag_mem]; exact wf_performAt _ _ _ _ h
  · split
    · exact h
    · rw [setTag_mem]; exact wf_performAt _ _ _ _ h

theorem wf_writeJournal (s : State) (n : Nat) (j : Journal) (h : Memory.wf s.mem = true) :
    Memory.wf (s.writeJournal n j).mem = true := by
  unfold State.writeJournal; dsimp only; split
  · exact h
  · exact wf_memSetWords _ _ _ h

theorem wf_journalState (s : State) (n state status : Nat) (h : Memory.wf s.mem = true) :
    Memory.wf (s.journalState n state status).mem = true := by
  unfold State.journalState; split
  · exact wf_writeJournal _ _ _ h
  · exact h

theorem wf_engineStore (s t : State) (pa : Nat) (w : W64) (h : Memory.wf s.mem = true) (ht : s.engineStore pa w = .ok t) :
    Memory.wf t.mem = true := by
  unfold State.engineStore at ht
  split at ht
  · cases ht
  · rename_i s1 h1
    cases ht
    exact wf_memSetWord _ _ _ (wf_purgeLines _ _ _ h h1)

end Sys2Proof.Laws
end

