-- ==== Sys2Proof/Laws/PerInstr.lean ====
section
/-! SUPPORT. The family RoundTrip, instruction by instruction (LAWS.json): a well-formed syllable decodes to the instruction it
was encoded from, whatever its stop bit; an event has no syllable. -/

namespace Sys2Proof.Laws

/-- The word of a well-formed instruction decodes to it. -/
def RoundTrip.Statement (i : Instr) : Prop :=
  ∀ (stop : Bool) (w : W32), i.wellFormed = true → encode stop i = some w → decodeWord w = .ok i

theorem RoundTrip.nop (i) : RoundTrip.Statement (.nop i) := by
  intro S W hwf hW
  have hw : W.toNat = S.toNat * 2 ^ 31 + (((0) * 4096 + 0) * 4096 + i.toNat) :=
    (word_nat S _ _ W rfl hW).trans (congrArg _ ((app_nat (0x0#7 ++ 0x0#12) i).trans (by rw [app_nat]; rfl)))
  obtain ⟨hm, h2, hr⟩ := layout0 W _ 0 i.toNat (by decide) i.isLt hw
  unfold decodeWord
  rw [hm, field W 0 i h2]
  exact syllable_ok W _ _ hr hwf

theorem RoundTrip.add (d a b) : RoundTrip.Statement (.add d a b) := by
  intro S W hwf hW
  have hw : W.toNat = S.toNat * 2 ^ 31 + (((((1) * 64 + d.toNat) * 64 + a.toNat) * 64 + b.toNat) * 64 + 0 * 1) :=
    (word_nat S _ _ W rfl hW).trans (congrArg _ ((app_nat (0x1#7 ++ d ++ a ++ b) 0x0#6).trans (by rw [app_nat, app_nat, app_nat]; rfl)))
  obtain ⟨hm, h1, h2, h3, ht, hr⟩ := layout1 W _ 1 d.toNat a.toNat b.toNat 0 (by decide) d.isLt a.isLt b.isLt (by decide) hw
  unfold decodeWord
  rw [hm, ht, field W 18 d h1, field W 12 a h2, field W 6 b h3]
  exact syllable_ok W _ _ hr hwf

theorem RoundTrip.sub (d a b) : RoundTrip.Statement (.sub d a b) := by
  intro S W hwf hW
  have hw : W.toNat = S.toNat * 2 ^ 31 + (((((1) * 64 + d.toNat) * 64 + a.toNat) * 64 + b.toNat) * 64 + 1 * 1) :=
    (word_nat S _ _ W rfl hW).trans (congrArg _ ((app_nat (0x1#7 ++ d ++ a ++ b) 0x1#6).trans (by rw [app_nat, app_nat, app_nat]; rfl)))
  obtain ⟨hm, h1, h2, h3, ht, hr⟩ := layout1 W _ 1 d.toNat a.toNat b.toNat 1 (by decide) d.isLt a.isLt b.isLt (by decide) hw
  unfold decodeWord
  rw [hm, ht, field W 18 d h1, field W 12 a h2, field W 6 b h3]
  exact syllable_ok W _ _ hr hwf

theorem RoundTrip.and (d a b) : RoundTrip.Statement (.and d a b) := by
  intro S W hwf hW
  have hw : W.toNat = S.toNat * 2 ^ 31 + (((((1) * 64 + d.toNat) * 64 + a.toNat) * 64 + b.toNat) * 64 + 2 * 1) :=
    (word_nat S _ _ W rfl hW).trans (congrArg _ ((app_nat (0x1#7 ++ d ++ a ++ b) 0x2#6).trans (by rw [app_nat, app_nat, app_nat]; rfl)))
  obtain ⟨hm, h1, h2, h3, ht, hr⟩ := layout1 W _ 1 d.toNat a.toNat b.toNat 2 (by decide) d.isLt a.isLt b.isLt (by decide) hw
  unfold decodeWord
  rw [hm, ht, field W 18 d h1, field W 12 a h2, field W 6 b h3]
  exact syllable_ok W _ _ hr hwf

theorem RoundTrip.or (d a b) : RoundTrip.Statement (.or d a b) := by
  intro S W hwf hW
  have hw : W.toNat = S.toNat * 2 ^ 31 + (((((1) * 64 + d.toNat) * 64 + a.toNat) * 64 + b.toNat) * 64 + 3 * 1) :=
    (word_nat S _ _ W rfl hW).trans (congrArg _ ((app_nat (0x1#7 ++ d ++ a ++ b) 0x3#6).trans (by rw [app_nat, app_nat, app_nat]; rfl)))
  obtain ⟨hm, h1, h2, h3, ht, hr⟩ := layout1 W _ 1 d.toNat a.toNat b.toNat 3 (by decide) d.isLt a.isLt b.isLt (by decide) hw
  unfold decodeWord
  rw [hm, ht, field W 18 d h1, field W 12 a h2, field W 6 b h3]
  exact syllable_ok W _ _ hr hwf

theorem RoundTrip.xor (d a b) : RoundTrip.Statement (.xor d a b) := by
  intro S W hwf hW
  have hw : W.toNat = S.toNat * 2 ^ 31 + (((((1) * 64 + d.toNat) * 64 + a.toNat) * 64 + b.toNat) * 64 + 4 * 1) :=
    (word_nat S _ _ W rfl hW).trans (congrArg _ ((app_nat (0x1#7 ++ d ++ a ++ b) 0x4#6).trans (by rw [app_nat, app_nat, app_nat]; rfl)))
  obtain ⟨hm, h1, h2, h3, ht, hr⟩ := layout1 W _ 1 d.toNat a.toNat b.toNat 4 (by decide) d.isLt a.isLt b.isLt (by decide) hw
  unfold decodeWord
  rw [hm, ht, field W 18 d h1, field W 12 a h2, field W 6 b h3]
  exact syllable_ok W _ _ hr hwf

theorem RoundTrip.andn (d a b) : RoundTrip.Statement (.andn d a b) := by
  intro S W hwf hW
  have hw : W.toNat = S.toNat * 2 ^ 31 + (((((1) * 64 + d.toNat) * 64 + a.toNat) * 64 + b.toNat) * 64 + 5 * 1) :=
    (word_nat S _ _ W rfl hW).trans (congrArg _ ((app_nat (0x1#7 ++ d ++ a ++ b) 0x5#6).trans (by rw [app_nat, app_nat, app_nat]; rfl)))
  obtain ⟨hm, h1, h2, h3, ht, hr⟩ := layout1 W _ 1 d.toNat a.toNat b.toNat 5 (by decide) d.isLt a.isLt b.isLt (by decide) hw
  unfold decodeWord
  rw [hm, ht, field W 18 d h1, field W 12 a h2, field W 6 b h3]
  exact syllable_ok W _ _ hr hwf

theorem RoundTrip.shl (d a b) : RoundTrip.Statement (.shl d a b) := by
  intro S W hwf hW
  have hw : W.toNat = S.toNat * 2 ^ 31 + (((((2) * 64 + d.toNat) * 64 + a.toNat) * 64 + b.toNat) * 64 + 0 * 1) :=
    (word_nat S _ _ W rfl hW).trans (congrArg _ ((app_nat (0x2#7 ++ d ++ a ++ b) 0x0#6).trans (by rw [app_nat, app_nat, app_nat]; rfl)))
  obtain ⟨hm, h1, h2, h3, ht, hr⟩ := layout1 W _ 2 d.toNat a.toNat b.toNat 0 (by decide) d.isLt a.isLt b.isLt (by decide) hw
  unfold decodeWord
  rw [hm, ht, field W 18 d h1, field W 12 a h2, field W 6 b h3]
  exact syllable_ok W _ _ hr hwf

theorem RoundTrip.shr (d a b) : RoundTrip.Statement (.shr d a b) := by
  intro S W hwf hW
  have hw : W.toNat = S.toNat * 2 ^ 31 + (((((2) * 64 + d.toNat) * 64 + a.toNat) * 64 + b.toNat) * 64 + 1 * 1) :=
    (word_nat S _ _ W rfl hW).trans (congrArg _ ((app_nat (0x2#7 ++ d ++ a ++ b) 0x1#6).trans (by rw [app_nat, app_nat, app_nat]; rfl)))
  obtain ⟨hm, h1, h2, h3, ht, hr⟩ := layout1 W _ 2 d.toNat a.toNat b.toNat 1 (by decide) d.isLt a.isLt b.isLt (by decide) hw
  unfold decodeWord
  rw [hm, ht, field W 18 d h1, field W 12 a h2, field W 6 b h3]
  exact syllable_ok W _ _ hr hwf

theorem RoundTrip.sra (d a b) : RoundTrip.Statement (.sra d a b) := by
  intro S W hwf hW
  have hw : W.toNat = S.toNat * 2 ^ 31 + (((((2) * 64 + d.toNat) * 64 + a.toNat) * 64 + b.toNat) * 64 + 2 * 1) :=
    (word_nat S _ _ W rfl hW).trans (congrArg _ ((app_nat (0x2#7 ++ d ++ a ++ b) 0x2#6).trans (by rw [app_nat, app_nat, app_nat]; rfl)))
  obtain ⟨hm, h1, h2, h3, ht, hr⟩ := layout1 W _ 2 d.toNat a.toNat b.toNat 2 (by decide) d.isLt a.isLt b.isLt (by decide) hw
  unfold decodeWord
  rw [hm, ht, field W 18 d h1, field W 12 a h2, field W 6 b h3]
  exact syllable_ok W _ _ hr hwf

theorem RoundTrip.ror (d a b) : RoundTrip.Statement (.ror d a b) := by
  intro S W hwf hW
  have hw : W.toNat = S.toNat * 2 ^ 31 + (((((2) * 64 + d.toNat) * 64 + a.toNat) * 64 + b.toNat) * 64 + 3 * 1) :=
    (word_nat S _ _ W rfl hW).trans (congrArg _ ((app_nat (0x2#7 ++ d ++ a ++ b) 0x3#6).trans (by rw [app_nat, app_nat, app_nat]; rfl)))
  obtain ⟨hm, h1, h2, h3, ht, hr⟩ := layout1 W _ 2 d.toNat a.toNat b.toNat 3 (by decide) d.isLt a.isLt b.isLt (by decide) hw
  unfold decodeWord
  rw [hm, ht, field W 18 d h1, field W 12 a h2, field W 6 b h3]
  exact syllable_ok W _ _ hr hwf

theorem RoundTrip.mul (d a b) : RoundTrip.Statement (.mul d a b) := by
  intro S W hwf hW
  have hw : W.toNat = S.toNat * 2 ^ 31 + (((((3) * 64 + d.toNat) * 64 + a.toNat) * 64 + b.toNat) * 64 + 0 * 1) :=
    (word_nat S _ _ W rfl hW).trans (congrArg _ ((app_nat (0x3#7 ++ d ++ a ++ b) 0x0#6).trans (by rw [app_nat, app_nat, app_nat]; rfl)))
  obtain ⟨hm, h1, h2, h3, ht, hr⟩ := layout1 W _ 3 d.toNat a.toNat b.toNat 0 (by decide) d.isLt a.isLt b.isLt (by decide) hw
  unfold decodeWord
  rw [hm, ht, field W 18 d h1, field W 12 a h2, field W 6 b h3]
  exact syllable_ok W _ _ hr hwf

theorem RoundTrip.mulhI (d a b) : RoundTrip.Statement (.mulhI d a b) := by
  intro S W hwf hW
  have hw : W.toNat = S.toNat * 2 ^ 31 + (((((3) * 64 + d.toNat) * 64 + a.toNat) * 64 + b.toNat) * 64 + 1 * 1) :=
    (word_nat S _ _ W rfl hW).trans (congrArg _ ((app_nat (0x3#7 ++ d ++ a ++ b) 0x1#6).trans (by rw [app_nat, app_nat, app_nat]; rfl)))
  obtain ⟨hm, h1, h2, h3, ht, hr⟩ := layout1 W _ 3 d.toNat a.toNat b.toNat 1 (by decide) d.isLt a.isLt b.isLt (by decide) hw
  unfold decodeWord
  rw [hm, ht, field W 18 d h1, field W 12 a h2, field W 6 b h3]
  exact syllable_ok W _ _ hr hwf

theorem RoundTrip.mulhN (d a b) : RoundTrip.Statement (.mulhN d a b) := by
  intro S W hwf hW
  have hw : W.toNat = S.toNat * 2 ^ 31 + (((((3) * 64 + d.toNat) * 64 + a.toNat) * 64 + b.toNat) * 64 + 2 * 1) :=
    (word_nat S _ _ W rfl hW).trans (congrArg _ ((app_nat (0x3#7 ++ d ++ a ++ b) 0x2#6).trans (by rw [app_nat, app_nat, app_nat]; rfl)))
  obtain ⟨hm, h1, h2, h3, ht, hr⟩ := layout1 W _ 3 d.toNat a.toNat b.toNat 2 (by decide) d.isLt a.isLt b.isLt (by decide) hw
  unfold decodeWord
  rw [hm, ht, field W 18 d h1, field W 12 a h2, field W 6 b h3]
  exact syllable_ok W _ _ hr hwf

theorem RoundTrip.divI (d a b) : RoundTrip.Statement (.divI d a b) := by
  intro S W hwf hW
  have hw : W.toNat = S.toNat * 2 ^ 31 + (((((3) * 64 + d.toNat) * 64 + a.toNat) * 64 + b.toNat) * 64 + 3 * 1) :=
    (word_nat S _ _ W rfl hW).trans (congrArg _ ((app_nat (0x3#7 ++ d ++ a ++ b) 0x3#6).trans (by rw [app_nat, app_nat, app_nat]; rfl)))
  obtain ⟨hm, h1, h2, h3, ht, hr⟩ := layout1 W _ 3 d.toNat a.toNat b.toNat 3 (by decide) d.isLt a.isLt b.isLt (by decide) hw
  unfold decodeWord
  rw [hm, ht, field W 18 d h1, field W 12 a h2, field W 6 b h3]
  exact syllable_ok W _ _ hr hwf

theorem RoundTrip.divN (d a b) : RoundTrip.Statement (.divN d a b) := by
  intro S W hwf hW
  have hw : W.toNat = S.toNat * 2 ^ 31 + (((((3) * 64 + d.toNat) * 64 + a.toNat) * 64 + b.toNat) * 64 + 4 * 1) :=
    (word_nat S _ _ W rfl hW).trans (congrArg _ ((app_nat (0x3#7 ++ d ++ a ++ b) 0x4#6).trans (by rw [app_nat, app_nat, app_nat]; rfl)))
  obtain ⟨hm, h1, h2, h3, ht, hr⟩ := layout1 W _ 3 d.toNat a.toNat b.toNat 4 (by decide) d.isLt a.isLt b.isLt (by decide) hw
  unfold decodeWord
  rw [hm, ht, field W 18 d h1, field W 12 a h2, field W 6 b h3]
  exact syllable_ok W _ _ hr hwf

theorem RoundTrip.remI (d a b) : RoundTrip.Statement (.remI d a b) := by
  intro S W hwf hW
  have hw : W.toNat = S.toNat * 2 ^ 31 + (((((3) * 64 + d.toNat) * 64 + a.toNat) * 64 + b.toNat) * 64 + 5 * 1) :=
    (word_nat S _ _ W rfl hW).trans (congrArg _ ((app_nat (0x3#7 ++ d ++ a ++ b) 0x5#6).trans (by rw [app_nat, app_nat, app_nat]; rfl)))
  obtain ⟨hm, h1, h2, h3, ht, hr⟩ := layout1 W _ 3 d.toNat a.toNat b.toNat 5 (by decide) d.isLt a.isLt b.isLt (by decide) hw
  unfold decodeWord
  rw [hm, ht, field W 18 d h1, field W 12 a h2, field W 6 b h3]
  exact syllable_ok W _ _ hr hwf

theorem RoundTrip.remN (d a b) : RoundTrip.Statement (.remN d a b) := by
  intro S W hwf hW
  have hw : W.toNat = S.toNat * 2 ^ 31 + (((((3) * 64 + d.toNat) * 64 + a.toNat) * 64 + b.toNat) * 64 + 6 * 1) :=
    (word_nat S _ _ W rfl hW).trans (congrArg _ ((app_nat (0x3#7 ++ d ++ a ++ b) 0x6#6).trans (by rw [app_nat, app_nat, app_nat]; rfl)))
  obtain ⟨hm, h1, h2, h3, ht, hr⟩ := layout1 W _ 3 d.toNat a.toNat b.toNat 6 (by decide) d.isLt a.isLt b.isLt (by decide) hw
  unfold decodeWord
  rw [hm, ht, field W 18 d h1, field W 12 a h2, field W 6 b h3]
  exact syllable_ok W _ _ hr hwf

theorem RoundTrip.minI (d a b) : RoundTrip.Statement (.minI d a b) := by
  intro S W hwf hW
  have hw : W.toNat = S.toNat * 2 ^ 31 + (((((4) * 64 + d.toNat) * 64 + a.toNat) * 64 + b.toNat) * 64 + 0 * 1) :=
    (word_nat S _ _ W rfl hW).trans (congrArg _ ((app_nat (0x4#7 ++ d ++ a ++ b) 0x0#6).trans (by rw [app_nat, app_nat, app_nat]; rfl)))
  obtain ⟨hm, h1, h2, h3, ht, hr⟩ := layout1 W _ 4 d.toNat a.toNat b.toNat 0 (by decide) d.isLt a.isLt b.isLt (by decide) hw
  unfold decodeWord
  rw [hm, ht, field W 18 d h1, field W 12 a h2, field W 6 b h3]
  exact syllable_ok W _ _ hr hwf

theorem RoundTrip.maxI (d a b) : RoundTrip.Statement (.maxI d a b) := by
  intro S W hwf hW
  have hw : W.toNat = S.toNat * 2 ^ 31 + (((((4) * 64 + d.toNat) * 64 + a.toNat) * 64 + b.toNat) * 64 + 1 * 1) :=
    (word_nat S _ _ W rfl hW).trans (congrArg _ ((app_nat (0x4#7 ++ d ++ a ++ b) 0x1#6).trans (by rw [app_nat, app_nat, app_nat]; rfl)))
  obtain ⟨hm, h1, h2, h3, ht, hr⟩ := layout1 W _ 4 d.toNat a.toNat b.toNat 1 (by decide) d.isLt a.isLt b.isLt (by decide) hw
  unfold decodeWord
  rw [hm, ht, field W 18 d h1, field W 12 a h2, field W 6 b h3]
  exact syllable_ok W _ _ hr hwf

theorem RoundTrip.minN (d a b) : RoundTrip.Statement (.minN d a b) := by
  intro S W hwf hW
  have hw : W.toNat = S.toNat * 2 ^ 31 + (((((4) * 64 + d.toNat) * 64 + a.toNat) * 64 + b.toNat) * 64 + 2 * 1) :=
    (word_nat S _ _ W rfl hW).trans (congrArg _ ((app_nat (0x4#7 ++ d ++ a ++ b) 0x2#6).trans (by rw [app_nat, app_nat, app_nat]; rfl)))
  obtain ⟨hm, h1, h2, h3, ht, hr⟩ := layout1 W _ 4 d.toNat a.toNat b.toNat 2 (by decide) d.isLt a.isLt b.isLt (by decide) hw
  unfold decodeWord
  rw [hm, ht, field W 18 d h1, field W 12 a h2, field W 6 b h3]
  exact syllable_ok W _ _ hr hwf

theorem RoundTrip.maxN (d a b) : RoundTrip.Statement (.maxN d a b) := by
  intro S W hwf hW
  have hw : W.toNat = S.toNat * 2 ^ 31 + (((((4) * 64 + d.toNat) * 64 + a.toNat) * 64 + b.toNat) * 64 + 3 * 1) :=
    (word_nat S _ _ W rfl hW).trans (congrArg _ ((app_nat (0x4#7 ++ d ++ a ++ b) 0x3#6).trans (by rw [app_nat, app_nat, app_nat]; rfl)))
  obtain ⟨hm, h1, h2, h3, ht, hr⟩ := layout1 W _ 4 d.toNat a.toNat b.toNat 3 (by decide) d.isLt a.isLt b.isLt (by decide) hw
  unfold decodeWord
  rw [hm, ht, field W 18 d h1, field W 12 a h2, field W 6 b h3]
  exact syllable_ok W _ _ hr hwf

theorem RoundTrip.sext (d a w) : RoundTrip.Statement (.sext d a w) := by
  intro S W hwf hW
  have hw : W.toNat = S.toNat * 2 ^ 31 + (((((5) * 64 + d.toNat) * 64 + a.toNat) * 64 + w.toNat) * 64 + 2 * 1) :=
    (word_nat S _ _ W rfl hW).trans (congrArg _ ((app_nat (0x5#7 ++ d ++ a ++ w) 0x2#6).trans (by rw [app_nat, app_nat, app_nat]; rfl)))
  obtain ⟨hm, h1, h2, h3, ht, hr⟩ := layout1 W _ 5 d.toNat a.toNat w.toNat 2 (by decide) d.isLt a.isLt w.isLt (by decide) hw
  unfold decodeWord
  rw [hm, ht, field W 18 d h1, field W 12 a h2, field W 6 w h3]
  exact syllable_ok W _ _ hr hwf

theorem RoundTrip.zext (d a w) : RoundTrip.Statement (.zext d a w) := by
  intro S W hwf hW
  have hw : W.toNat = S.toNat * 2 ^ 31 + (((((5) * 64 + d.toNat) * 64 + a.toNat) * 64 + w.toNat) * 64 + 3 * 1) :=
    (word_nat S _ _ W rfl hW).trans (congrArg _ ((app_nat (0x5#7 ++ d ++ a ++ w) 0x3#6).trans (by rw [app_nat, app_nat, app_nat]; rfl)))
  obtain ⟨hm, h1, h2, h3, ht, hr⟩ := layout1 W _ 5 d.toNat a.toNat w.toNat 3 (by decide) d.isLt a.isLt w.isLt (by decide) hw
  unfold decodeWord
  rw [hm, ht, field W 18 d h1, field W 12 a h2, field W 6 w h3]
  exact syllable_ok W _ _ hr hwf

theorem RoundTrip.cmpEq (d a b) : RoundTrip.Statement (.cmpEq d a b) := by
  intro S W hwf hW
  have hw : W.toNat = S.toNat * 2 ^ 31 + (((((6) * 64 + d.toNat) * 64 + a.toNat) * 64 + b.toNat) * 64 + 0 * 1) :=
    (word_nat S _ _ W rfl hW).trans (congrArg _ ((app_nat (0x6#7 ++ d ++ a ++ b) 0x0#6).trans (by rw [app_nat, app_nat, app_nat]; rfl)))
  obtain ⟨hm, h1, h2, h3, ht, hr⟩ := layout1 W _ 6 d.toNat a.toNat b.toNat 0 (by decide) d.isLt a.isLt b.isLt (by decide) hw
  unfold decodeWord
  rw [hm, ht, field W 18 d h1, field W 12 a h2, field W 6 b h3]
  exact syllable_ok W _ _ hr hwf

theorem RoundTrip.cmpLtI (d a b) : RoundTrip.Statement (.cmpLtI d a b) := by
  intro S W hwf hW
  have hw : W.toNat = S.toNat * 2 ^ 31 + (((((6) * 64 + d.toNat) * 64 + a.toNat) * 64 + b.toNat) * 64 + 1 * 1) :=
    (word_nat S _ _ W rfl hW).trans (congrArg _ ((app_nat (0x6#7 ++ d ++ a ++ b) 0x1#6).trans (by rw [app_nat, app_nat, app_nat]; rfl)))
  obtain ⟨hm, h1, h2, h3, ht, hr⟩ := layout1 W _ 6 d.toNat a.toNat b.toNat 1 (by decide) d.isLt a.isLt b.isLt (by decide) hw
  unfold decodeWord
  rw [hm, ht, field W 18 d h1, field W 12 a h2, field W 6 b h3]
  exact syllable_ok W _ _ hr hwf

theorem RoundTrip.cmpLeI (d a b) : RoundTrip.Statement (.cmpLeI d a b) := by
  intro S W hwf hW
  have hw : W.toNat = S.toNat * 2 ^ 31 + (((((6) * 64 + d.toNat) * 64 + a.toNat) * 64 + b.toNat) * 64 + 2 * 1) :=
    (word_nat S _ _ W rfl hW).trans (congrArg _ ((app_nat (0x6#7 ++ d ++ a ++ b) 0x2#6).trans (by rw [app_nat, app_nat, app_nat]; rfl)))
  obtain ⟨hm, h1, h2, h3, ht, hr⟩ := layout1 W _ 6 d.toNat a.toNat b.toNat 2 (by decide) d.isLt a.isLt b.isLt (by decide) hw
  unfold decodeWord
  rw [hm, ht, field W 18 d h1, field W 12 a h2, field W 6 b h3]
  exact syllable_ok W _ _ hr hwf

theorem RoundTrip.cmpLtN (d a b) : RoundTrip.Statement (.cmpLtN d a b) := by
  intro S W hwf hW
  have hw : W.toNat = S.toNat * 2 ^ 31 + (((((6) * 64 + d.toNat) * 64 + a.toNat) * 64 + b.toNat) * 64 + 3 * 1) :=
    (word_nat S _ _ W rfl hW).trans (congrArg _ ((app_nat (0x6#7 ++ d ++ a ++ b) 0x3#6).trans (by rw [app_nat, app_nat, app_nat]; rfl)))
  obtain ⟨hm, h1, h2, h3, ht, hr⟩ := layout1 W _ 6 d.toNat a.toNat b.toNat 3 (by decide) d.isLt a.isLt b.isLt (by decide) hw
  unfold decodeWord
  rw [hm, ht, field W 18 d h1, field W 12 a h2, field W 6 b h3]
  exact syllable_ok W _ _ hr hwf

theorem RoundTrip.cmpLeN (d a b) : RoundTrip.Statement (.cmpLeN d a b) := by
  intro S W hwf hW
  have hw : W.toNat = S.toNat * 2 ^ 31 + (((((6) * 64 + d.toNat) * 64 + a.toNat) * 64 + b.toNat) * 64 + 4 * 1) :=
    (word_nat S _ _ W rfl hW).trans (congrArg _ ((app_nat (0x6#7 ++ d ++ a ++ b) 0x4#6).trans (by rw [app_nat, app_nat, app_nat]; rfl)))
  obtain ⟨hm, h1, h2, h3, ht, hr⟩ := layout1 W _ 6 d.toNat a.toNat b.toNat 4 (by decide) d.isLt a.isLt b.isLt (by decide) hw
  unfold decodeWord
  rw [hm, ht, field W 18 d h1, field W 12 a h2, field W 6 b h3]
  exact syllable_ok W _ _ hr hwf

theorem RoundTrip.sel (d a b) : RoundTrip.Statement (.sel d a b) := by
  intro S W hwf hW
  have hw : W.toNat = S.toNat * 2 ^ 31 + (((((7) * 64 + d.toNat) * 64 + a.toNat) * 64 + b.toNat) * 64 + 0 * 1) :=
    (word_nat S _ _ W rfl hW).trans (congrArg _ ((app_nat (0x7#7 ++ d ++ a ++ b) 0x0#6).trans (by rw [app_nat, app_nat, app_nat]; rfl)))
  obtain ⟨hm, h1, h2, h3, ht, hr⟩ := layout1 W _ 7 d.toNat a.toNat b.toNat 0 (by decide) d.isLt a.isLt b.isLt (by decide) hw
  unfold decodeWord
  rw [hm, ht, field W 18 d h1, field W 12 a h2, field W 6 b h3]
  exact syllable_ok W _ _ hr hwf

theorem RoundTrip.vext (d a b) : RoundTrip.Statement (.vext d a b) := by
  intro S W hwf hW
  have hw : W.toNat = S.toNat * 2 ^ 31 + (((((43) * 64 + d.toNat) * 64 + a.toNat) * 64 + b.toNat) * 64 + 3 * 1) :=
    (word_nat S _ _ W rfl hW).trans (congrArg _ ((app_nat (0x2B#7 ++ d ++ a ++ b) 0x3#6).trans (by rw [app_nat, app_nat, app_nat]; rfl)))
  obtain ⟨hm, h1, h2, h3, ht, hr⟩ := layout1 W _ 43 d.toNat a.toNat b.toNat 3 (by decide) d.isLt a.isLt b.isLt (by decide) hw
  unfold decodeWord
  rw [hm, ht, field W 18 d h1, field W 12 a h2, field W 6 b h3]
  exact syllable_ok W _ _ hr hwf

theorem RoundTrip.vins (d a b) : RoundTrip.Statement (.vins d a b) := by
  intro S W hwf hW
  have hw : W.toNat = S.toNat * 2 ^ 31 + (((((43) * 64 + d.toNat) * 64 + a.toNat) * 64 + b.toNat) * 64 + 4 * 1) :=
    (word_nat S _ _ W rfl hW).trans (congrArg _ ((app_nat (0x2B#7 ++ d ++ a ++ b) 0x4#6).trans (by rw [app_nat, app_nat, app_nat]; rfl)))
  obtain ⟨hm, h1, h2, h3, ht, hr⟩ := layout1 W _ 43 d.toNat a.toNat b.toNat 4 (by decide) d.isLt a.isLt b.isLt (by decide) hw
  unfold decodeWord
  rw [hm, ht, field W 18 d h1, field W 12 a h2, field W 6 b h3]
  exact syllable_ok W _ _ hr hwf

theorem RoundTrip.pand (d a b) : RoundTrip.Statement (.pand d a b) := by
  intro S W hwf hW
  have hw : W.toNat = S.toNat * 2 ^ 31 + (((((48) * 64 + d.toNat) * 64 + a.toNat) * 64 + b.toNat) * 64 + 0 * 1) :=
    (word_nat S _ _ W rfl hW).trans (congrArg _ ((app_nat (0x30#7 ++ d ++ a ++ b) 0x0#6).trans (by rw [app_nat, app_nat, app_nat]; rfl)))
  obtain ⟨hm, h1, h2, h3, ht, hr⟩ := layout1 W _ 48 d.toNat a.toNat b.toNat 0 (by decide) d.isLt a.isLt b.isLt (by decide) hw
  unfold decodeWord
  rw [hm, ht, field W 18 d h1, field W 12 a h2, field W 6 b h3]
  exact syllable_ok W _ _ hr hwf

theorem RoundTrip.por (d a b) : RoundTrip.Statement (.por d a b) := by
  intro S W hwf hW
  have hw : W.toNat = S.toNat * 2 ^ 31 + (((((48) * 64 + d.toNat) * 64 + a.toNat) * 64 + b.toNat) * 64 + 1 * 1) :=
    (word_nat S _ _ W rfl hW).trans (congrArg _ ((app_nat (0x30#7 ++ d ++ a ++ b) 0x1#6).trans (by rw [app_nat, app_nat, app_nat]; rfl)))
  obtain ⟨hm, h1, h2, h3, ht, hr⟩ := layout1 W _ 48 d.toNat a.toNat b.toNat 1 (by decide) d.isLt a.isLt b.isLt (by decide) hw
  unfold decodeWord
  rw [hm, ht, field W 18 d h1, field W 12 a h2, field W 6 b h3]
  exact syllable_ok W _ _ hr hwf

theorem RoundTrip.pxor (d a b) : RoundTrip.Statement (.pxor d a b) := by
  intro S W hwf hW
  have hw : W.toNat = S.toNat * 2 ^ 31 + (((((48) * 64 + d.toNat) * 64 + a.toNat) * 64 + b.toNat) * 64 + 2 * 1) :=
    (word_nat S _ _ W rfl hW).trans (congrArg _ ((app_nat (0x30#7 ++ d ++ a ++ b) 0x2#6).trans (by rw [app_nat, app_nat, app_nat]; rfl)))
  obtain ⟨hm, h1, h2, h3, ht, hr⟩ := layout1 W _ 48 d.toNat a.toNat b.toNat 2 (by decide) d.isLt a.isLt b.isLt (by decide) hw
  unfold decodeWord
  rw [hm, ht, field W 18 d h1, field W 12 a h2, field W 6 b h3]
  exact syllable_ok W _ _ hr hwf

theorem RoundTrip.sttn (d a b) : RoundTrip.Statement (.sttn d a b) := by
  intro S W hwf hW
  have hw : W.toNat = S.toNat * 2 ^ 31 + (((((80) * 64 + d.toNat) * 64 + a.toNat) * 64 + b.toNat) * 64 + 3 * 1) :=
    (word_nat S _ _ W rfl hW).trans (congrArg _ ((app_nat (0x50#7 ++ d ++ a ++ b) 0x3#6).trans (by rw [app_nat, app_nat, app_nat]; rfl)))
  obtain ⟨hm, h1, h2, h3, ht, hr⟩ := layout1 W _ 80 d.toNat a.toNat b.toNat 3 (by decide) d.isLt a.isLt b.isLt (by decide) hw
  unfold decodeWord
  rw [hm, ht, field W 18 d h1, field W 12 a h2, field W 6 b h3]
  exact syllable_ok W _ _ hr hwf

theorem RoundTrip.bind (d a b) : RoundTrip.Statement (.bind d a b) := by
  intro S W hwf hW
  have hw : W.toNat = S.toNat * 2 ^ 31 + (((((81) * 64 + d.toNat) * 64 + a.toNat) * 64 + b.toNat) * 64 + 0 * 1) :=
    (word_nat S _ _ W rfl hW).trans (congrArg _ ((app_nat (0x51#7 ++ d ++ a ++ b) 0x0#6).trans (by rw [app_nat, app_nat, app_nat]; rfl)))
  obtain ⟨hm, h1, h2, h3, ht, hr⟩ := layout1 W _ 81 d.toNat a.toNat b.toNat 0 (by decide) d.isLt a.isLt b.isLt (by decide) hw
  unfold decodeWord
  rw [hm, ht, field W 18 d h1, field W 12 a h2, field W 6 b h3]
  exact syllable_ok W _ _ hr hwf

theorem RoundTrip.amoAdd (d a b) : RoundTrip.Statement (.amoAdd d a b) := by
  intro S W hwf hW
  have hw : W.toNat = S.toNat * 2 ^ 31 + (((((84) * 64 + d.toNat) * 64 + a.toNat) * 64 + b.toNat) * 64 + 0 * 1) :=
    (word_nat S _ _ W rfl hW).trans (congrArg _ ((app_nat (0x54#7 ++ d ++ a ++ b) 0x0#6).trans (by rw [app_nat, app_nat, app_nat]; rfl)))
  obtain ⟨hm, h1, h2, h3, ht, hr⟩ := layout1 W _ 84 d.toNat a.toNat b.toNat 0 (by decide) d.isLt a.isLt b.isLt (by decide) hw
  unfold decodeWord
  rw [hm, ht, field W 18 d h1, field W 12 a h2, field W 6 b h3]
  exact syllable_ok W _ _ hr hwf

theorem RoundTrip.amoMinI (d a b) : RoundTrip.Statement (.amoMinI d a b) := by
  intro S W hwf hW
  have hw : W.toNat = S.toNat * 2 ^ 31 + (((((84) * 64 + d.toNat) * 64 + a.toNat) * 64 + b.toNat) * 64 + 1 * 1) :=
    (word_nat S _ _ W rfl hW).trans (congrArg _ ((app_nat (0x54#7 ++ d ++ a ++ b) 0x1#6).trans (by rw [app_nat, app_nat, app_nat]; rfl)))
  obtain ⟨hm, h1, h2, h3, ht, hr⟩ := layout1 W _ 84 d.toNat a.toNat b.toNat 1 (by decide) d.isLt a.isLt b.isLt (by decide) hw
  unfold decodeWord
  rw [hm, ht, field W 18 d h1, field W 12 a h2, field W 6 b h3]
  exact syllable_ok W _ _ hr hwf

theorem RoundTrip.amoMaxI (d a b) : RoundTrip.Statement (.amoMaxI d a b) := by
  intro S W hwf hW
  have hw : W.toNat = S.toNat * 2 ^ 31 + (((((84) * 64 + d.toNat) * 64 + a.toNat) * 64 + b.toNat) * 64 + 2 * 1) :=
    (word_nat S _ _ W rfl hW).trans (congrArg _ ((app_nat (0x54#7 ++ d ++ a ++ b) 0x2#6).trans (by rw [app_nat, app_nat, app_nat]; rfl)))
  obtain ⟨hm, h1, h2, h3, ht, hr⟩ := layout1 W _ 84 d.toNat a.toNat b.toNat 2 (by decide) d.isLt a.isLt b.isLt (by decide) hw
  unfold decodeWord
  rw [hm, ht, field W 18 d h1, field W 12 a h2, field W 6 b h3]
  exact syllable_ok W _ _ hr hwf

theorem RoundTrip.amoAnd (d a b) : RoundTrip.Statement (.amoAnd d a b) := by
  intro S W hwf hW
  have hw : W.toNat = S.toNat * 2 ^ 31 + (((((84) * 64 + d.toNat) * 64 + a.toNat) * 64 + b.toNat) * 64 + 3 * 1) :=
    (word_nat S _ _ W rfl hW).trans (congrArg _ ((app_nat (0x54#7 ++ d ++ a ++ b) 0x3#6).trans (by rw [app_nat, app_nat, app_nat]; rfl)))
  obtain ⟨hm, h1, h2, h3, ht, hr⟩ := layout1 W _ 84 d.toNat a.toNat b.toNat 3 (by decide) d.isLt a.isLt b.isLt (by decide) hw
  unfold decodeWord
  rw [hm, ht, field W 18 d h1, field W 12 a h2, field W 6 b h3]
  exact syllable_ok W _ _ hr hwf

theorem RoundTrip.amoOr (d a b) : RoundTrip.Statement (.amoOr d a b) := by
  intro S W hwf hW
  have hw : W.toNat = S.toNat * 2 ^ 31 + (((((84) * 64 + d.toNat) * 64 + a.toNat) * 64 + b.toNat) * 64 + 4 * 1) :=
    (word_nat S _ _ W rfl hW).trans (congrArg _ ((app_nat (0x54#7 ++ d ++ a ++ b) 0x4#6).trans (by rw [app_nat, app_nat, app_nat]; rfl)))
  obtain ⟨hm, h1, h2, h3, ht, hr⟩ := layout1 W _ 84 d.toNat a.toNat b.toNat 4 (by decide) d.isLt a.isLt b.isLt (by decide) hw
  unfold decodeWord
  rw [hm, ht, field W 18 d h1, field W 12 a h2, field W 6 b h3]
  exact syllable_ok W _ _ hr hwf

theorem RoundTrip.amoSwap (d a b) : RoundTrip.Statement (.amoSwap d a b) := by
  intro S W hwf hW
  have hw : W.toNat = S.toNat * 2 ^ 31 + (((((84) * 64 + d.toNat) * 64 + a.toNat) * 64 + b.toNat) * 64 + 5 * 1) :=
    (word_nat S _ _ W rfl hW).trans (congrArg _ ((app_nat (0x54#7 ++ d ++ a ++ b) 0x5#6).trans (by rw [app_nat, app_nat, app_nat]; rfl)))
  obtain ⟨hm, h1, h2, h3, ht, hr⟩ := layout1 W _ 84 d.toNat a.toNat b.toNat 5 (by decide) d.isLt a.isLt b.isLt (by decide) hw
  unfold decodeWord
  rw [hm, ht, field W 18 d h1, field W 12 a h2, field W 6 b h3]
  exact syllable_ok W _ _ hr hwf

theorem RoundTrip.amoCas (d a b) : RoundTrip.Statement (.amoCas d a b) := by
  intro S W hwf hW
  have hw : W.toNat = S.toNat * 2 ^ 31 + (((((84) * 64 + d.toNat) * 64 + a.toNat) * 64 + b.toNat) * 64 + 6 * 1) :=
    (word_nat S _ _ W rfl hW).trans (congrArg _ ((app_nat (0x54#7 ++ d ++ a ++ b) 0x6#6).trans (by rw [app_nat, app_nat, app_nat]; rfl)))
  obtain ⟨hm, h1, h2, h3, ht, hr⟩ := layout1 W _ 84 d.toNat a.toNat b.toNat 6 (by decide) d.isLt a.isLt b.isLt (by decide) hw
  unfold decodeWord
  rw [hm, ht, field W 18 d h1, field W 12 a h2, field W 6 b h3]
  exact syllable_ok W _ _ hr hwf

theorem RoundTrip.adec (d a b) : RoundTrip.Statement (.adec d a b) := by
  intro S W hwf hW
  have hw : W.toNat = S.toNat * 2 ^ 31 + (((((85) * 64 + d.toNat) * 64 + a.toNat) * 64 + b.toNat) * 64 + 1 * 1) :=
    (word_nat S _ _ W rfl hW).trans (congrArg _ ((app_nat (0x55#7 ++ d ++ a ++ b) 0x1#6).trans (by rw [app_nat, app_nat, app_nat]; rfl)))
  obtain ⟨hm, h1, h2, h3, ht, hr⟩ := layout1 W _ 85 d.toNat a.toNat b.toNat 1 (by decide) d.isLt a.isLt b.isLt (by decide) hw
  unfold decodeWord
  rw [hm, ht, field W 18 d h1, field W 12 a h2, field W 6 b h3]
  exact syllable_ok W _ _ hr hwf

theorem RoundTrip.clz (d a) : RoundTrip.Statement (.clz d a) := by
  intro S W hwf hW
  have hw : W.toNat = S.toNat * 2 ^ 31 + ((((5) * 64 + d.toNat) * 64 + a.toNat) * 4096 + 0 * 1) :=
    (word_nat S _ _ W rfl hW).trans (congrArg _ ((app_nat (0x5#7 ++ d ++ a) 0x0#12).trans (by rw [app_nat, app_nat]; rfl)))
  obtain ⟨hm, h1, h2, ht, hr⟩ := layout2 W _ 5 d.toNat a.toNat 0 (by decide) d.isLt a.isLt (by decide) hw
  unfold decodeWord
  rw [hm, ht, field W 18 d h1, field W 12 a h2]
  exact syllable_ok W _ _ hr hwf

theorem RoundTrip.popc (d a) : RoundTrip.Statement (.popc d a) := by
  intro S W hwf hW
  have hw : W.toNat = S.toNat * 2 ^ 31 + ((((5) * 64 + d.toNat) * 64 + a.toNat) * 4096 + 1 * 1) :=
    (word_nat S _ _ W rfl hW).trans (congrArg _ ((app_nat (0x5#7 ++ d ++ a) 0x1#12).trans (by rw [app_nat, app_nat]; rfl)))
  obtain ⟨hm, h1, h2, ht, hr⟩ := layout2 W _ 5 d.toNat a.toNat 1 (by decide) d.isLt a.isLt (by decide) hw
  unfold decodeWord
  rw [hm, ht, field W 18 d h1, field W 12 a h2]
  exact syllable_ok W _ _ hr hwf

theorem RoundTrip.pnot (d a) : RoundTrip.Statement (.pnot d a) := by
  intro S W hwf hW
  have hw : W.toNat = S.toNat * 2 ^ 31 + ((((48) * 64 + d.toNat) * 64 + a.toNat) * 4096 + 3 * 1) :=
    (word_nat S _ _ W rfl hW).trans (congrArg _ ((app_nat (0x30#7 ++ d ++ a) 0x3#12).trans (by rw [app_nat, app_nat]; rfl)))
  obtain ⟨hm, h1, h2, ht, hr⟩ := layout2 W _ 48 d.toNat a.toNat 3 (by decide) d.isLt a.isLt (by decide) hw
  unfold decodeWord
  rw [hm, ht, field W 18 d h1, field W 12 a h2]
  exact syllable_ok W _ _ hr hwf

theorem RoundTrip.pset (d a) : RoundTrip.Statement (.pset d a) := by
  intro S W hwf hW
  have hw : W.toNat = S.toNat * 2 ^ 31 + ((((48) * 64 + d.toNat) * 64 + a.toNat) * 4096 + 4 * 1) :=
    (word_nat S _ _ W rfl hW).trans (congrArg _ ((app_nat (0x30#7 ++ d ++ a) 0x4#12).trans (by rw [app_nat, app_nat]; rfl)))
  obtain ⟨hm, h1, h2, ht, hr⟩ := layout2 W _ 48 d.toNat a.toNat 4 (by decide) d.isLt a.isLt (by decide) hw
  unfold decodeWord
  rw [hm, ht, field W 18 d h1, field W 12 a h2]
  exact syllable_ok W _ _ hr hwf

theorem RoundTrip.pany (d a) : RoundTrip.Statement (.pany d a) := by
  intro S W hwf hW
  have hw : W.toNat = S.toNat * 2 ^ 31 + ((((49) * 64 + d.toNat) * 64 + a.toNat) * 4096 + 0 * 1) :=
    (word_nat S _ _ W rfl hW).trans (congrArg _ ((app_nat (0x31#7 ++ d ++ a) 0x0#12).trans (by rw [app_nat, app_nat]; rfl)))
  obtain ⟨hm, h1, h2, ht, hr⟩ := layout2 W _ 49 d.toNat a.toNat 0 (by decide) d.isLt a.isLt (by decide) hw
  unfold decodeWord
  rw [hm, ht, field W 18 d h1, field W 12 a h2]
  exact syllable_ok W _ _ hr hwf

theorem RoundTrip.pall (d a) : RoundTrip.Statement (.pall d a) := by
  intro S W hwf hW
  have hw : W.toNat = S.toNat * 2 ^ 31 + ((((49) * 64 + d.toNat) * 64 + a.toNat) * 4096 + 1 * 1) :=
    (word_nat S _ _ W rfl hW).trans (congrArg _ ((app_nat (0x31#7 ++ d ++ a) 0x1#12).trans (by rw [app_nat, app_nat]; rfl)))
  obtain ⟨hm, h1, h2, ht, hr⟩ := layout2 W _ 49 d.toNat a.toNat 1 (by decide) d.isLt a.isLt (by decide) hw
  unfold decodeWord
  rw [hm, ht, field W 18 d h1, field W 12 a h2]
  exact syllable_ok W _ _ hr hwf

theorem RoundTrip.ppop (d a) : RoundTrip.Statement (.ppop d a) := by
  intro S W hwf hW
  have hw : W.toNat = S.toNat * 2 ^ 31 + ((((49) * 64 + d.toNat) * 64 + a.toNat) * 4096 + 2 * 1) :=
    (word_nat S _ _ W rfl hW).trans (congrArg _ ((app_nat (0x31#7 ++ d ++ a) 0x2#12).trans (by rw [app_nat, app_nat]; rfl)))
  obtain ⟨hm, h1, h2, ht, hr⟩ := layout2 W _ 49 d.toNat a.toNat 2 (by decide) d.isLt a.isLt (by decide) hw
  unfold decodeWord
  rw [hm, ht, field W 18 d h1, field W 12 a h2]
  exact syllable_ok W _ _ hr hwf

theorem RoundTrip.ldt (d a) : RoundTrip.Statement (.ldt d a) := by
  intro S W hwf hW
  have hw : W.toNat = S.toNat * 2 ^ 31 + ((((80) * 64 + d.toNat) * 64 + a.toNat) * 4096 + 0 * 1) :=
    (word_nat S _ _ W rfl hW).trans (congrArg _ ((app_nat (0x50#7 ++ d ++ a) 0x0#12).trans (by rw [app_nat, app_nat]; rfl)))
  obtain ⟨hm, h1, h2, ht, hr⟩ := layout2 W _ 80 d.toNat a.toNat 0 (by decide) d.isLt a.isLt (by decide) hw
  unfold decodeWord
  rw [hm, ht, field W 18 d h1, field W 12 a h2]
  exact syllable_ok W _ _ hr hwf

theorem RoundTrip.ldtp (d a) : RoundTrip.Statement (.ldtp d a) := by
  intro S W hwf hW
  have hw : W.toNat = S.toNat * 2 ^ 31 + ((((80) * 64 + d.toNat) * 64 + a.toNat) * 4096 + 1 * 1) :=
    (word_nat S _ _ W rfl hW).trans (congrArg _ ((app_nat (0x50#7 ++ d ++ a) 0x1#12).trans (by rw [app_nat, app_nat]; rfl)))
  obtain ⟨hm, h1, h2, ht, hr⟩ := layout2 W _ 80 d.toNat a.toNat 1 (by decide) d.isLt a.isLt (by decide) hw
  unfold decodeWord
  rw [hm, ht, field W 18 d h1, field W 12 a h2]
  exact syllable_ok W _ _ hr hwf

theorem RoundTrip.tagr (d a) : RoundTrip.Statement (.tagr d a) := by
  intro S W hwf hW
  have hw : W.toNat = S.toNat * 2 ^ 31 + ((((80) * 64 + d.toNat) * 64 + a.toNat) * 4096 + 4 * 1) :=
    (word_nat S _ _ W rfl hW).trans (congrArg _ ((app_nat (0x50#7 ++ d ++ a) 0x4#12).trans (by rw [app_nat, app_nat]; rfl)))
  obtain ⟨hm, h1, h2, ht, hr⟩ := layout2 W _ 80 d.toNat a.toNat 4 (by decide) d.isLt a.isLt (by decide) hw
  unfold decodeWord
  rw [hm, ht, field W 18 d h1, field W 12 a h2]
  exact syllable_ok W _ _ hr hwf

theorem RoundTrip.barInit (j a) : RoundTrip.Statement (.barInit j a) := by
  intro S W hwf hW
  have hw : W.toNat = S.toNat * 2 ^ 31 + ((((83) * 64 + j.toNat) * 64 + a.toNat) * 4096 + 0 * 1) :=
    (word_nat S _ _ W rfl hW).trans (congrArg _ ((app_nat (0x53#7 ++ j ++ a) 0x0#12).trans (by rw [app_nat, app_nat]; rfl)))
  obtain ⟨hm, h1, h2, ht, hr⟩ := layout2 W _ 83 j.toNat a.toNat 0 (by decide) j.isLt a.isLt (by decide) hw
  unfold decodeWord
  rw [hm, ht, field W 18 j h1, field W 12 a h2]
  exact syllable_ok W _ _ hr hwf

theorem RoundTrip.aread (d a) : RoundTrip.Statement (.aread d a) := by
  intro S W hwf hW
  have hw : W.toNat = S.toNat * 2 ^ 31 + ((((85) * 64 + d.toNat) * 64 + a.toNat) * 4096 + 3 * 1) :=
    (word_nat S _ _ W rfl hW).trans (congrArg _ ((app_nat (0x55#7 ++ d ++ a) 0x3#12).trans (by rw [app_nat, app_nat]; rfl)))
  obtain ⟨hm, h1, h2, ht, hr⟩ := layout2 W _ 85 d.toNat a.toNat 3 (by decide) d.isLt a.isLt (by decide) hw
  unfold decodeWord
  rw [hm, ht, field W 18 d h1, field W 12 a h2]
  exact syllable_ok W _ _ hr hwf

theorem RoundTrip.axread (d a) : RoundTrip.Statement (.axread d a) := by
  intro S W hwf hW
  have hw : W.toNat = S.toNat * 2 ^ 31 + ((((85) * 64 + d.toNat) * 64 + a.toNat) * 4096 + 4 * 1) :=
    (word_nat S _ _ W rfl hW).trans (congrArg _ ((app_nat (0x55#7 ++ d ++ a) 0x4#12).trans (by rw [app_nat, app_nat]; rfl)))
  obtain ⟨hm, h1, h2, ht, hr⟩ := layout2 W _ 85 d.toNat a.toNat 4 (by decide) d.isLt a.isLt (by decide) hw
  unfold decodeWord
  rw [hm, ht, field W 18 d h1, field W 12 a h2]
  exact syllable_ok W _ _ hr hwf

theorem RoundTrip.addi (d a i) : RoundTrip.Statement (.addi d a i) := by
  intro S W hwf hW
  have hw : W.toNat = S.toNat * 2 ^ 31 + ((((8) * 64 + d.toNat) * 64 + a.toNat) * 4096 + i.toNat) :=
    (word_nat S _ _ W rfl hW).trans (congrArg _ ((app_nat (0x8#7 ++ d ++ a) i).trans (by rw [app_nat, app_nat]; rfl)))
  obtain ⟨hm, h1, h2, h3, hr⟩ := layout3 W _ 8 d.toNat a.toNat i.toNat (by decide) d.isLt a.isLt i.isLt hw
  unfold decodeWord
  rw [hm, field W 18 d h1, field W 12 a h2, field W 0 i h3]
  exact syllable_ok W _ _ hr hwf

theorem RoundTrip.andi (d a i) : RoundTrip.Statement (.andi d a i) := by
  intro S W hwf hW
  have hw : W.toNat = S.toNat * 2 ^ 31 + ((((9) * 64 + d.toNat) * 64 + a.toNat) * 4096 + i.toNat) :=
    (word_nat S _ _ W rfl hW).trans (congrArg _ ((app_nat (0x9#7 ++ d ++ a) i).trans (by rw [app_nat, app_nat]; rfl)))
  obtain ⟨hm, h1, h2, h3, hr⟩ := layout3 W _ 9 d.toNat a.toNat i.toNat (by decide) d.isLt a.isLt i.isLt hw
  unfold decodeWord
  rw [hm, field W 18 d h1, field W 12 a h2, field W 0 i h3]
  exact syllable_ok W _ _ hr hwf

theorem RoundTrip.ori (d a i) : RoundTrip.Statement (.ori d a i) := by
  intro S W hwf hW
  have hw : W.toNat = S.toNat * 2 ^ 31 + ((((10) * 64 + d.toNat) * 64 + a.toNat) * 4096 + i.toNat) :=
    (word_nat S _ _ W rfl hW).trans (congrArg _ ((app_nat (0xA#7 ++ d ++ a) i).trans (by rw [app_nat, app_nat]; rfl)))
  obtain ⟨hm, h1, h2, h3, hr⟩ := layout3 W _ 10 d.toNat a.toNat i.toNat (by decide) d.isLt a.isLt i.isLt hw
  unfold decodeWord
  rw [hm, field W 18 d h1, field W 12 a h2, field W 0 i h3]
  exact syllable_ok W _ _ hr hwf

theorem RoundTrip.xori (d a i) : RoundTrip.Statement (.xori d a i) := by
  intro S W hwf hW
  have hw : W.toNat = S.toNat * 2 ^ 31 + ((((11) * 64 + d.toNat) * 64 + a.toNat) * 4096 + i.toNat) :=
    (word_nat S _ _ W rfl hW).trans (congrArg _ ((app_nat (0xB#7 ++ d ++ a) i).trans (by rw [app_nat, app_nat]; rfl)))
  obtain ⟨hm, h1, h2, h3, hr⟩ := layout3 W _ 11 d.toNat a.toNat i.toNat (by decide) d.isLt a.isLt i.isLt hw
  unfold decodeWord
  rw [hm, field W 18 d h1, field W 12 a h2, field W 0 i h3]
  exact syllable_ok W _ _ hr hwf

theorem RoundTrip.shli (d a h) : RoundTrip.Statement (.shli d a h) := by
  intro S W hwf hW
  have hw : W.toNat = S.toNat * 2 ^ 31 + (((((12) * 64 + d.toNat) * 64 + a.toNat) * 64 + 0 * 1) * 64 + h.toNat) :=
    (word_nat S _ _ W rfl hW).trans (congrArg _ ((app_nat (0xC#7 ++ d ++ a ++ 0x0#6) h).trans (by rw [app_nat, app_nat, app_nat]; rfl)))
  obtain ⟨hm, h1, h2, ht, h4, hr⟩ := layout4 W _ 12 d.toNat a.toNat 0 h.toNat (by decide) d.isLt a.isLt (by decide) h.isLt hw
  unfold decodeWord
  rw [hm, ht, field W 18 d h1, field W 12 a h2, field W 0 h h4]
  exact syllable_ok W _ _ hr hwf

theorem RoundTrip.shri (d a h) : RoundTrip.Statement (.shri d a h) := by
  intro S W hwf hW
  have hw : W.toNat = S.toNat * 2 ^ 31 + (((((12) * 64 + d.toNat) * 64 + a.toNat) * 64 + 1 * 1) * 64 + h.toNat) :=
    (word_nat S _ _ W rfl hW).trans (congrArg _ ((app_nat (0xC#7 ++ d ++ a ++ 0x1#6) h).trans (by rw [app_nat, app_nat, app_nat]; rfl)))
  obtain ⟨hm, h1, h2, ht, h4, hr⟩ := layout4 W _ 12 d.toNat a.toNat 1 h.toNat (by decide) d.isLt a.isLt (by decide) h.isLt hw
  unfold decodeWord
  rw [hm, ht, field W 18 d h1, field W 12 a h2, field W 0 h h4]
  exact syllable_ok W _ _ hr hwf

theorem RoundTrip.srai (d a h) : RoundTrip.Statement (.srai d a h) := by
  intro S W hwf hW
  have hw : W.toNat = S.toNat * 2 ^ 31 + (((((12) * 64 + d.toNat) * 64 + a.toNat) * 64 + 2 * 1) * 64 + h.toNat) :=
    (word_nat S _ _ W rfl hW).trans (congrArg _ ((app_nat (0xC#7 ++ d ++ a ++ 0x2#6) h).trans (by rw [app_nat, app_nat, app_nat]; rfl)))
  obtain ⟨hm, h1, h2, ht, h4, hr⟩ := layout4 W _ 12 d.toNat a.toNat 2 h.toNat (by decide) d.isLt a.isLt (by decide) h.isLt hw
  unfold decodeWord
  rw [hm, ht, field W 18 d h1, field W 12 a h2, field W 0 h h4]
  exact syllable_ok W _ _ hr hwf

theorem RoundTrip.cmpiEq (d a i) : RoundTrip.Statement (.cmpiEq d a i) := by
  intro S W hwf hW
  have hw : W.toNat = S.toNat * 2 ^ 31 + (((((13) * 64 + d.toNat) * 64 + a.toNat) * 4 + 0 * 1) * 1024 + i.toNat) :=
    (word_nat S _ _ W rfl hW).trans (congrArg _ ((app_nat (0xD#7 ++ d ++ a ++ 0x0#2) i).trans (by rw [app_nat, app_nat, app_nat]; rfl)))
  obtain ⟨hm, h1, h2, ht, h4, hr⟩ := layout5 W _ 13 d.toNat a.toNat 0 i.toNat (by decide) d.isLt a.isLt (by decide) i.isLt hw
  unfold decodeWord
  rw [hm, ht, field W 18 d h1, field W 12 a h2, field W 0 i h4]
  exact syllable_ok W _ _ hr hwf

theorem RoundTrip.cmpiLtI (d a i) : RoundTrip.Statement (.cmpiLtI d a i) := by
  intro S W hwf hW
  have hw : W.toNat = S.toNat * 2 ^ 31 + (((((13) * 64 + d.toNat) * 64 + a.toNat) * 4 + 1 * 1) * 1024 + i.toNat) :=
    (word_nat S _ _ W rfl hW).trans (congrArg _ ((app_nat (0xD#7 ++ d ++ a ++ 0x1#2) i).trans (by rw [app_nat, app_nat, app_nat]; rfl)))
  obtain ⟨hm, h1, h2, ht, h4, hr⟩ := layout5 W _ 13 d.toNat a.toNat 1 i.toNat (by decide) d.isLt a.isLt (by decide) i.isLt hw
  unfold decodeWord
  rw [hm, ht, field W 18 d h1, field W 12 a h2, field W 0 i h4]
  exact syllable_ok W _ _ hr hwf

theorem RoundTrip.cmpiLtN (d a i) : RoundTrip.Statement (.cmpiLtN d a i) := by
  intro S W hwf hW
  have hw : W.toNat = S.toNat * 2 ^ 31 + (((((13) * 64 + d.toNat) * 64 + a.toNat) * 4 + 2 * 1) * 1024 + i.toNat) :=
    (word_nat S _ _ W rfl hW).trans (congrArg _ ((app_nat (0xD#7 ++ d ++ a ++ 0x2#2) i).trans (by rw [app_nat, app_nat, app_nat]; rfl)))
  obtain ⟨hm, h1, h2, ht, h4, hr⟩ := layout5 W _ 13 d.toNat a.toNat 2 i.toNat (by decide) d.isLt a.isLt (by decide) i.isLt hw
  unfold decodeWord
  rw [hm, ht, field W 18 d h1, field W 12 a h2, field W 0 i h4]
  exact syllable_ok W _ _ hr hwf

theorem RoundTrip.li (d i) : RoundTrip.Statement (.li d i) := by
  intro S W hwf hW
  have hw : W.toNat = S.toNat * 2 ^ 31 + (((14) * 64 + d.toNat) * 262144 + i.toNat) :=
    (word_nat S _ _ W rfl hW).trans (congrArg _ ((app_nat (0xE#7 ++ d) i).trans (by rw [app_nat]; rfl)))
  obtain ⟨hm, h1, h2, hr⟩ := layout6 W _ 14 d.toNat i.toNat (by decide) d.isLt i.isLt hw
  unfold decodeWord
  rw [hm, field W 18 d h1, field W 0 i h2]
  exact syllable_ok W _ _ hr hwf

theorem RoundTrip.lih1 (d i) : RoundTrip.Statement (.lih1 d i) := by
  intro S W hwf hW
  have hw : W.toNat = S.toNat * 2 ^ 31 + (((15) * 64 + d.toNat) * 262144 + i.toNat) :=
    (word_nat S _ _ W rfl hW).trans (congrArg _ ((app_nat (0xF#7 ++ d) i).trans (by rw [app_nat]; rfl)))
  obtain ⟨hm, h1, h2, hr⟩ := layout6 W _ 15 d.toNat i.toNat (by decide) d.isLt i.isLt hw
  unfold decodeWord
  rw [hm, field W 18 d h1, field W 0 i h2]
  exact syllable_ok W _ _ hr hwf

theorem RoundTrip.lih2 (d i) : RoundTrip.Statement (.lih2 d i) := by
  intro S W hwf hW
  have hw : W.toNat = S.toNat * 2 ^ 31 + (((16) * 64 + d.toNat) * 262144 + i.toNat) :=
    (word_nat S _ _ W rfl hW).trans (congrArg _ ((app_nat (0x10#7 ++ d) i).trans (by rw [app_nat]; rfl)))
  obtain ⟨hm, h1, h2, hr⟩ := layout6 W _ 16 d.toNat i.toNat (by decide) d.isLt i.isLt hw
  unfold decodeWord
  rw [hm, field W 18 d h1, field W 0 i h2]
  exact syllable_ok W _ _ hr hwf

theorem RoundTrip.addpc (d i) : RoundTrip.Statement (.addpc d i) := by
  intro S W hwf hW
  have hw : W.toNat = S.toNat * 2 ^ 31 + (((18) * 64 + d.toNat) * 262144 + i.toNat) :=
    (word_nat S _ _ W rfl hW).trans (congrArg _ ((app_nat (0x12#7 ++ d) i).trans (by rw [app_nat]; rfl)))
  obtain ⟨hm, h1, h2, hr⟩ := layout6 W _ 18 d.toNat i.toNat (by decide) d.isLt i.isLt hw
  unfold decodeWord
  rw [hm, field W 18 d h1, field W 0 i h2]
  exact syllable_ok W _ _ hr hwf

theorem RoundTrip.vli (d i) : RoundTrip.Statement (.vli d i) := by
  intro S W hwf hW
  have hw : W.toNat = S.toNat * 2 ^ 31 + (((45) * 64 + d.toNat) * 262144 + i.toNat) :=
    (word_nat S _ _ W rfl hW).trans (congrArg _ ((app_nat (0x2D#7 ++ d) i).trans (by rw [app_nat]; rfl)))
  obtain ⟨hm, h1, h2, hr⟩ := layout6 W _ 45 d.toNat i.toNat (by decide) d.isLt i.isLt hw
  unfold decodeWord
  rw [hm, field W 18 d h1, field W 0 i h2]
  exact syllable_ok W _ _ hr hwf

theorem RoundTrip.brNz (c i) : RoundTrip.Statement (.brNz c i) := by
  intro S W hwf hW
  have hw : W.toNat = S.toNat * 2 ^ 31 + (((88) * 64 + c.toNat) * 262144 + i.toNat) :=
    (word_nat S _ _ W rfl hW).trans (congrArg _ ((app_nat (0x58#7 ++ c) i).trans (by rw [app_nat]; rfl)))
  obtain ⟨hm, h1, h2, hr⟩ := layout6 W _ 88 c.toNat i.toNat (by decide) c.isLt i.isLt hw
  unfold decodeWord
  rw [hm, field W 18 c h1, field W 0 i h2]
  exact syllable_ok W _ _ hr hwf

theorem RoundTrip.brZ (c i) : RoundTrip.Statement (.brZ c i) := by
  intro S W hwf hW
  have hw : W.toNat = S.toNat * 2 ^ 31 + (((89) * 64 + c.toNat) * 262144 + i.toNat) :=
    (word_nat S _ _ W rfl hW).trans (congrArg _ ((app_nat (0x59#7 ++ c) i).trans (by rw [app_nat]; rfl)))
  obtain ⟨hm, h1, h2, hr⟩ := layout6 W _ 89 c.toNat i.toNat (by decide) c.isLt i.isLt hw
  unfold decodeWord
  rw [hm, field W 18 c h1, field W 0 i h2]
  exact syllable_ok W _ _ hr hwf

theorem RoundTrip.brq (c i) : RoundTrip.Statement (.brq c i) := by
  intro S W hwf hW
  have hw : W.toNat = S.toNat * 2 ^ 31 + (((90) * 64 + c.toNat) * 262144 + i.toNat) :=
    (word_nat S _ _ W rfl hW).trans (congrArg _ ((app_nat (0x5A#7 ++ c) i).trans (by rw [app_nat]; rfl)))
  obtain ⟨hm, h1, h2, hr⟩ := layout6 W _ 90 c.toNat i.toNat (by decide) c.isLt i.isLt hw
  unfold decodeWord
  rw [hm, field W 18 c h1, field W 0 i h2]
  exact syllable_ok W _ _ hr hwf

theorem RoundTrip.jal (d i) : RoundTrip.Statement (.jal d i) := by
  intro S W hwf hW
  have hw : W.toNat = S.toNat * 2 ^ 31 + (((91) * 64 + d.toNat) * 262144 + i.toNat) :=
    (word_nat S _ _ W rfl hW).trans (congrArg _ ((app_nat (0x5B#7 ++ d) i).trans (by rw [app_nat]; rfl)))
  obtain ⟨hm, h1, h2, hr⟩ := layout6 W _ 91 d.toNat i.toNat (by decide) d.isLt i.isLt hw
  unfold decodeWord
  rw [hm, field W 18 d h1, field W 0 i h2]
  exact syllable_ok W _ _ hr hwf

theorem RoundTrip.loop (c i) : RoundTrip.Statement (.loop c i) := by
  intro S W hwf hW
  have hw : W.toNat = S.toNat * 2 ^ 31 + (((93) * 64 + c.toNat) * 262144 + i.toNat) :=
    (word_nat S _ _ W rfl hW).trans (congrArg _ ((app_nat (0x5D#7 ++ c) i).trans (by rw [app_nat]; rfl)))
  obtain ⟨hm, h1, h2, hr⟩ := layout6 W _ 93 c.toNat i.toNat (by decide) c.isLt i.isLt hw
  unfold decodeWord
  rw [hm, field W 18 c h1, field W 0 i h2]
  exact syllable_ok W _ _ hr hwf

theorem RoundTrip.lih3 (d i) : RoundTrip.Statement (.lih3 d i) := by
  intro S W hwf hW
  have hw : W.toNat = S.toNat * 2 ^ 31 + ((((17) * 64 + d.toNat) * 256 + 0) * 1024 + i.toNat) :=
    (word_nat S _ _ W rfl hW).trans (congrArg _ ((app_nat (0x11#7 ++ d ++ 0x0#8) i).trans (by rw [app_nat, app_nat]; rfl)))
  obtain ⟨hm, h1, h3, hr⟩ := layout7 W _ 17 d.toNat i.toNat (by decide) d.isLt i.isLt hw
  unfold decodeWord
  rw [hm, field W 18 d h1, field W 0 i h3]
  exact syllable_ok W _ _ hr hwf

theorem RoundTrip.gets (d i) : RoundTrip.Statement (.gets d i) := by
  intro S W hwf hW
  have hw : W.toNat = S.toNat * 2 ^ 31 + ((((19) * 64 + d.toNat) * 64 + 0) * 4096 + i.toNat) :=
    (word_nat S _ _ W rfl hW).trans (congrArg _ ((app_nat (0x13#7 ++ d ++ 0x0#6) i).trans (by rw [app_nat, app_nat]; rfl)))
  obtain ⟨hm, h1, h3, hr⟩ := layout8 W _ 19 d.toNat i.toNat (by decide) d.isLt i.isLt hw
  unfold decodeWord
  rw [hm, field W 18 d h1, field W 0 i h3]
  exact syllable_ok W _ _ hr hwf

theorem RoundTrip.sets (a i) : RoundTrip.Statement (.sets a i) := by
  intro S W hwf hW
  have hw : W.toNat = S.toNat * 2 ^ 31 + ((((20) * 64 + 0) * 64 + a.toNat) * 4096 + i.toNat) :=
    (word_nat S _ _ W rfl hW).trans (congrArg _ ((app_nat (0x14#7 ++ 0x0#6 ++ a) i).trans (by rw [app_nat, app_nat]; rfl)))
  obtain ⟨hm, h2, h3, hr⟩ := layout9 W _ 20 a.toNat i.toNat (by decide) a.isLt i.isLt hw
  unfold decodeWord
  rw [hm, field W 12 a h2, field W 0 i h3]
  exact syllable_ok W _ _ hr hwf

theorem RoundTrip.vaddI32 (d a b q) : RoundTrip.Statement (.vaddI32 d a b q) := by
  intro S W hwf hW
  have hw : W.toNat = S.toNat * 2 ^ 31 + ((((((32) * 64 + d.toNat) * 64 + a.toNat) * 64 + b.toNat) * 8 + q.toNat) * 8 + 0 * 1) :=
    (word_nat S _ _ W rfl hW).trans (congrArg _ ((app_nat (0x20#7 ++ d ++ a ++ b ++ q) 0x0#3).trans (by rw [app_nat, app_nat, app_nat, app_nat]; rfl)))
  obtain ⟨hm, h1, h2, h3, h4, ht, hr⟩ := layout10 W _ 32 d.toNat a.toNat b.toNat q.toNat 0 (by decide) d.isLt a.isLt b.isLt q.isLt (by decide) hw
  unfold decodeWord
  rw [hm, ht, field W 18 d h1, field W 12 a h2, field W 6 b h3, field W 3 q h4]
  exact syllable_ok W _ _ hr hwf

theorem RoundTrip.vsubI32 (d a b q) : RoundTrip.Statement (.vsubI32 d a b q) := by
  intro S W hwf hW
  have hw : W.toNat = S.toNat * 2 ^ 31 + ((((((32) * 64 + d.toNat) * 64 + a.toNat) * 64 + b.toNat) * 8 + q.toNat) * 8 + 1 * 1) :=
    (word_nat S _ _ W rfl hW).trans (congrArg _ ((app_nat (0x20#7 ++ d ++ a ++ b ++ q) 0x1#3).trans (by rw [app_nat, app_nat, app_nat, app_nat]; rfl)))
  obtain ⟨hm, h1, h2, h3, h4, ht, hr⟩ := layout10 W _ 32 d.toNat a.toNat b.toNat q.toNat 1 (by decide) d.isLt a.isLt b.isLt q.isLt (by decide) hw
  unfold decodeWord
  rw [hm, ht, field W 18 d h1, field W 12 a h2, field W 6 b h3, field W 3 q h4]
  exact syllable_ok W _ _ hr hwf

theorem RoundTrip.vmulI32 (d a b q) : RoundTrip.Statement (.vmulI32 d a b q) := by
  intro S W hwf hW
  have hw : W.toNat = S.toNat * 2 ^ 31 + ((((((32) * 64 + d.toNat) * 64 + a.toNat) * 64 + b.toNat) * 8 + q.toNat) * 8 + 2 * 1) :=
    (word_nat S _ _ W rfl hW).trans (congrArg _ ((app_nat (0x20#7 ++ d ++ a ++ b ++ q) 0x2#3).trans (by rw [app_nat, app_nat, app_nat, app_nat]; rfl)))
  obtain ⟨hm, h1, h2, h3, h4, ht, hr⟩ := layout10 W _ 32 d.toNat a.toNat b.toNat q.toNat 2 (by decide) d.isLt a.isLt b.isLt q.isLt (by decide) hw
  unfold decodeWord
  rw [hm, ht, field W 18 d h1, field W 12 a h2, field W 6 b h3, field W 3 q h4]
  exact syllable_ok W _ _ hr hwf

theorem RoundTrip.vmulhI32 (d a b q) : RoundTrip.Statement (.vmulhI32 d a b q) := by
  intro S W hwf hW
  have hw : W.toNat = S.toNat * 2 ^ 31 + ((((((32) * 64 + d.toNat) * 64 + a.toNat) * 64 + b.toNat) * 8 + q.toNat) * 8 + 3 * 1) :=
    (word_nat S _ _ W rfl hW).trans (congrArg _ ((app_nat (0x20#7 ++ d ++ a ++ b ++ q) 0x3#3).trans (by rw [app_nat, app_nat, app_nat, app_nat]; rfl)))
  obtain ⟨hm, h1, h2, h3, h4, ht, hr⟩ := layout10 W _ 32 d.toNat a.toNat b.toNat q.toNat 3 (by decide) d.isLt a.isLt b.isLt q.isLt (by decide) hw
  unfold decodeWord
  rw [hm, ht, field W 18 d h1, field W 12 a h2, field W 6 b h3, field W 3 q h4]
  exact syllable_ok W _ _ hr hwf

theorem RoundTrip.vmulhN32 (d a b q) : RoundTrip.Statement (.vmulhN32 d a b q) := by
  intro S W hwf hW
  have hw : W.toNat = S.toNat * 2 ^ 31 + ((((((32) * 64 + d.toNat) * 64 + a.toNat) * 64 + b.toNat) * 8 + q.toNat) * 8 + 4 * 1) :=
    (word_nat S _ _ W rfl hW).trans (congrArg _ ((app_nat (0x20#7 ++ d ++ a ++ b ++ q) 0x4#3).trans (by rw [app_nat, app_nat, app_nat, app_nat]; rfl)))
  obtain ⟨hm, h1, h2, h3, h4, ht, hr⟩ := layout10 W _ 32 d.toNat a.toNat b.toNat q.toNat 4 (by decide) d.isLt a.isLt b.isLt q.isLt (by decide) hw
  unfold decodeWord
  rw [hm, ht, field W 18 d h1, field W 12 a h2, field W 6 b h3, field W 3 q h4]
  exact syllable_ok W _ _ hr hwf

theorem RoundTrip.vand (d a b q) : RoundTrip.Statement (.vand d a b q) := by
  intro S W hwf hW
  have hw : W.toNat = S.toNat * 2 ^ 31 + ((((((32) * 64 + d.toNat) * 64 + a.toNat) * 64 + b.toNat) * 8 + q.toNat) * 8 + 5 * 1) :=
    (word_nat S _ _ W rfl hW).trans (congrArg _ ((app_nat (0x20#7 ++ d ++ a ++ b ++ q) 0x5#3).trans (by rw [app_nat, app_nat, app_nat, app_nat]; rfl)))
  obtain ⟨hm, h1, h2, h3, h4, ht, hr⟩ := layout10 W _ 32 d.toNat a.toNat b.toNat q.toNat 5 (by decide) d.isLt a.isLt b.isLt q.isLt (by decide) hw
  unfold decodeWord
  rw [hm, ht, field W 18 d h1, field W 12 a h2, field W 6 b h3, field W 3 q h4]
  exact syllable_ok W _ _ hr hwf

theorem RoundTrip.vor (d a b q) : RoundTrip.Statement (.vor d a b q) := by
  intro S W hwf hW
  have hw : W.toNat = S.toNat * 2 ^ 31 + ((((((32) * 64 + d.toNat) * 64 + a.toNat) * 64 + b.toNat) * 8 + q.toNat) * 8 + 6 * 1) :=
    (word_nat S _ _ W rfl hW).trans (congrArg _ ((app_nat (0x20#7 ++ d ++ a ++ b ++ q) 0x6#3).trans (by rw [app_nat, app_nat, app_nat, app_nat]; rfl)))
  obtain ⟨hm, h1, h2, h3, h4, ht, hr⟩ := layout10 W _ 32 d.toNat a.toNat b.toNat q.toNat 6 (by decide) d.isLt a.isLt b.isLt q.isLt (by decide) hw
  unfold decodeWord
  rw [hm, ht, field W 18 d h1, field W 12 a h2, field W 6 b h3, field W 3 q h4]
  exact syllable_ok W _ _ hr hwf

theorem RoundTrip.vxor (d a b q) : RoundTrip.Statement (.vxor d a b q) := by
  intro S W hwf hW
  have hw : W.toNat = S.toNat * 2 ^ 31 + ((((((32) * 64 + d.toNat) * 64 + a.toNat) * 64 + b.toNat) * 8 + q.toNat) * 8 + 7 * 1) :=
    (word_nat S _ _ W rfl hW).trans (congrArg _ ((app_nat (0x20#7 ++ d ++ a ++ b ++ q) 0x7#3).trans (by rw [app_nat, app_nat, app_nat, app_nat]; rfl)))
  obtain ⟨hm, h1, h2, h3, h4, ht, hr⟩ := layout10 W _ 32 d.toNat a.toNat b.toNat q.toNat 7 (by decide) d.isLt a.isLt b.isLt q.isLt (by decide) hw
  unfold decodeWord
  rw [hm, ht, field W 18 d h1, field W 12 a h2, field W 6 b h3, field W 3 q h4]
  exact syllable_ok W _ _ hr hwf

theorem RoundTrip.vshlI32 (d a b q) : RoundTrip.Statement (.vshlI32 d a b q) := by
  intro S W hwf hW
  have hw : W.toNat = S.toNat * 2 ^ 31 + ((((((33) * 64 + d.toNat) * 64 + a.toNat) * 64 + b.toNat) * 8 + q.toNat) * 8 + 0 * 1) :=
    (word_nat S _ _ W rfl hW).trans (congrArg _ ((app_nat (0x21#7 ++ d ++ a ++ b ++ q) 0x0#3).trans (by rw [app_nat, app_nat, app_nat, app_nat]; rfl)))
  obtain ⟨hm, h1, h2, h3, h4, ht, hr⟩ := layout10 W _ 33 d.toNat a.toNat b.toNat q.toNat 0 (by decide) d.isLt a.isLt b.isLt q.isLt (by decide) hw
  unfold decodeWord
  rw [hm, ht, field W 18 d h1, field W 12 a h2, field W 6 b h3, field W 3 q h4]
  exact syllable_ok W _ _ hr hwf

theorem RoundTrip.vshrI32 (d a b q) : RoundTrip.Statement (.vshrI32 d a b q) := by
  intro S W hwf hW
  have hw : W.toNat = S.toNat * 2 ^ 31 + ((((((33) * 64 + d.toNat) * 64 + a.toNat) * 64 + b.toNat) * 8 + q.toNat) * 8 + 1 * 1) :=
    (word_nat S _ _ W rfl hW).trans (congrArg _ ((app_nat (0x21#7 ++ d ++ a ++ b ++ q) 0x1#3).trans (by rw [app_nat, app_nat, app_nat, app_nat]; rfl)))
  obtain ⟨hm, h1, h2, h3, h4, ht, hr⟩ := layout10 W _ 33 d.toNat a.toNat b.toNat q.toNat 1 (by decide) d.isLt a.isLt b.isLt q.isLt (by decide) hw
  unfold decodeWord
  rw [hm, ht, field W 18 d h1, field W 12 a h2, field W 6 b h3, field W 3 q h4]
  exact syllable_ok W _ _ hr hwf

theorem RoundTrip.vsraI32 (d a b q) : RoundTrip.Statement (.vsraI32 d a b q) := by
  intro S W hwf hW
  have hw : W.toNat = S.toNat * 2 ^ 31 + ((((((33) * 64 + d.toNat) * 64 + a.toNat) * 64 + b.toNat) * 8 + q.toNat) * 8 + 2 * 1) :=
    (word_nat S _ _ W rfl hW).trans (congrArg _ ((app_nat (0x21#7 ++ d ++ a ++ b ++ q) 0x2#3).trans (by rw [app_nat, app_nat, app_nat, app_nat]; rfl)))
  obtain ⟨hm, h1, h2, h3, h4, ht, hr⟩ := layout10 W _ 33 d.toNat a.toNat b.toNat q.toNat 2 (by decide) d.isLt a.isLt b.isLt q.isLt (by decide) hw
  unfold decodeWord
  rw [hm, ht, field W 18 d h1, field W 12 a h2, field W 6 b h3, field W 3 q h4]
  exact syllable_ok W _ _ hr hwf

theorem RoundTrip.vminI32 (d a b q) : RoundTrip.Statement (.vminI32 d a b q) := by
  intro S W hwf hW
  have hw : W.toNat = S.toNat * 2 ^ 31 + ((((((33) * 64 + d.toNat) * 64 + a.toNat) * 64 + b.toNat) * 8 + q.toNat) * 8 + 3 * 1) :=
    (word_nat S _ _ W rfl hW).trans (congrArg _ ((app_nat (0x21#7 ++ d ++ a ++ b ++ q) 0x3#3).trans (by rw [app_nat, app_nat, app_nat, app_nat]; rfl)))
  obtain ⟨hm, h1, h2, h3, h4, ht, hr⟩ := layout10 W _ 33 d.toNat a.toNat b.toNat q.toNat 3 (by decide) d.isLt a.isLt b.isLt q.isLt (by decide) hw
  unfold decodeWord
  rw [hm, ht, field W 18 d h1, field W 12 a h2, field W 6 b h3, field W 3 q h4]
  exact syllable_ok W _ _ hr hwf

theorem RoundTrip.vmaxI32 (d a b q) : RoundTrip.Statement (.vmaxI32 d a b q) := by
  intro S W hwf hW
  have hw : W.toNat = S.toNat * 2 ^ 31 + ((((((33) * 64 + d.toNat) * 64 + a.toNat) * 64 + b.toNat) * 8 + q.toNat) * 8 + 4 * 1) :=
    (word_nat S _ _ W rfl hW).trans (congrArg _ ((app_nat (0x21#7 ++ d ++ a ++ b ++ q) 0x4#3).trans (by rw [app_nat, app_nat, app_nat, app_nat]; rfl)))
  obtain ⟨hm, h1, h2, h3, h4, ht, hr⟩ := layout10 W _ 33 d.toNat a.toNat b.toNat q.toNat 4 (by decide) d.isLt a.isLt b.isLt q.isLt (by decide) hw
  unfold decodeWord
  rw [hm, ht, field W 18 d h1, field W 12 a h2, field W 6 b h3, field W 3 q h4]
  exact syllable_ok W _ _ hr hwf

theorem RoundTrip.vminN32 (d a b q) : RoundTrip.Statement (.vminN32 d a b q) := by
  intro S W hwf hW
  have hw : W.toNat = S.toNat * 2 ^ 31 + ((((((33) * 64 + d.toNat) * 64 + a.toNat) * 64 + b.toNat) * 8 + q.toNat) * 8 + 5 * 1) :=
    (word_nat S _ _ W rfl hW).trans (congrArg _ ((app_nat (0x21#7 ++ d ++ a ++ b ++ q) 0x5#3).trans (by rw [app_nat, app_nat, app_nat, app_nat]; rfl)))
  obtain ⟨hm, h1, h2, h3, h4, ht, hr⟩ := layout10 W _ 33 d.toNat a.toNat b.toNat q.toNat 5 (by decide) d.isLt a.isLt b.isLt q.isLt (by decide) hw
  unfold decodeWord
  rw [hm, ht, field W 18 d h1, field W 12 a h2, field W 6 b h3, field W 3 q h4]
  exact syllable_ok W _ _ hr hwf

theorem RoundTrip.vmaxN32 (d a b q) : RoundTrip.Statement (.vmaxN32 d a b q) := by
  intro S W hwf hW
  have hw : W.toNat = S.toNat * 2 ^ 31 + ((((((33) * 64 + d.toNat) * 64 + a.toNat) * 64 + b.toNat) * 8 + q.toNat) * 8 + 6 * 1) :=
    (word_nat S _ _ W rfl hW).trans (congrArg _ ((app_nat (0x21#7 ++ d ++ a ++ b ++ q) 0x6#3).trans (by rw [app_nat, app_nat, app_nat, app_nat]; rfl)))
  obtain ⟨hm, h1, h2, h3, h4, ht, hr⟩ := layout10 W _ 33 d.toNat a.toNat b.toNat q.toNat 6 (by decide) d.isLt a.isLt b.isLt q.isLt (by decide) hw
  unfold decodeWord
  rw [hm, ht, field W 18 d h1, field W 12 a h2, field W 6 b h3, field W 3 q h4]
  exact syllable_ok W _ _ hr hwf

theorem RoundTrip.vaddI16 (d a b q) : RoundTrip.Statement (.vaddI16 d a b q) := by
  intro S W hwf hW
  have hw : W.toNat = S.toNat * 2 ^ 31 + ((((((34) * 64 + d.toNat) * 64 + a.toNat) * 64 + b.toNat) * 8 + q.toNat) * 8 + 0 * 1) :=
    (word_nat S _ _ W rfl hW).trans (congrArg _ ((app_nat (0x22#7 ++ d ++ a ++ b ++ q) 0x0#3).trans (by rw [app_nat, app_nat, app_nat, app_nat]; rfl)))
  obtain ⟨hm, h1, h2, h3, h4, ht, hr⟩ := layout10 W _ 34 d.toNat a.toNat b.toNat q.toNat 0 (by decide) d.isLt a.isLt b.isLt q.isLt (by decide) hw
  unfold decodeWord
  rw [hm, ht, field W 18 d h1, field W 12 a h2, field W 6 b h3, field W 3 q h4]
  exact syllable_ok W _ _ hr hwf

theorem RoundTrip.vsubI16 (d a b q) : RoundTrip.Statement (.vsubI16 d a b q) := by
  intro S W hwf hW
  have hw : W.toNat = S.toNat * 2 ^ 31 + ((((((34) * 64 + d.toNat) * 64 + a.toNat) * 64 + b.toNat) * 8 + q.toNat) * 8 + 1 * 1) :=
    (word_nat S _ _ W rfl hW).trans (congrArg _ ((app_nat (0x22#7 ++ d ++ a ++ b ++ q) 0x1#3).trans (by rw [app_nat, app_nat, app_nat, app_nat]; rfl)))
  obtain ⟨hm, h1, h2, h3, h4, ht, hr⟩ := layout10 W _ 34 d.toNat a.toNat b.toNat q.toNat 1 (by decide) d.isLt a.isLt b.isLt q.isLt (by decide) hw
  unfold decodeWord
  rw [hm, ht, field W 18 d h1, field W 12 a h2, field W 6 b h3, field W 3 q h4]
  exact syllable_ok W _ _ hr hwf

theorem RoundTrip.vaddsI16 (d a b q) : RoundTrip.Statement (.vaddsI16 d a b q) := by
  intro S W hwf hW
  have hw : W.toNat = S.toNat * 2 ^ 31 + ((((((34) * 64 + d.toNat) * 64 + a.toNat) * 64 + b.toNat) * 8 + q.toNat) * 8 + 2 * 1) :=
    (word_nat S _ _ W rfl hW).trans (congrArg _ ((app_nat (0x22#7 ++ d ++ a ++ b ++ q) 0x2#3).trans (by rw [app_nat, app_nat, app_nat, app_nat]; rfl)))
  obtain ⟨hm, h1, h2, h3, h4, ht, hr⟩ := layout10 W _ 34 d.toNat a.toNat b.toNat q.toNat 2 (by decide) d.isLt a.isLt b.isLt q.isLt (by decide) hw
  unfold decodeWord
  rw [hm, ht, field W 18 d h1, field W 12 a h2, field W 6 b h3, field W 3 q h4]
  exact syllable_ok W _ _ hr hwf

theorem RoundTrip.vsubsI16 (d a b q) : RoundTrip.Statement (.vsubsI16 d a b q) := by
  intro S W hwf hW
  have hw : W.toNat = S.toNat * 2 ^ 31 + ((((((34) * 64 + d.toNat) * 64 + a.toNat) * 64 + b.toNat) * 8 + q.toNat) * 8 + 3 * 1) :=
    (word_nat S _ _ W rfl hW).trans (congrArg _ ((app_nat (0x22#7 ++ d ++ a ++ b ++ q) 0x3#3).trans (by rw [app_nat, app_nat, app_nat, app_nat]; rfl)))
  obtain ⟨hm, h1, h2, h3, h4, ht, hr⟩ := layout10 W _ 34 d.toNat a.toNat b.toNat q.toNat 3 (by decide) d.isLt a.isLt b.isLt q.isLt (by decide) hw
  unfold decodeWord
  rw [hm, ht, field W 18 d h1, field W 12 a h2, field W 6 b h3, field W 3 q h4]
  exact syllable_ok W _ _ hr hwf

theorem RoundTrip.vcmpEqI32 (d a b q) : RoundTrip.Statement (.vcmpEqI32 d a b q) := by
  intro S W hwf hW
  have hw : W.toNat = S.toNat * 2 ^ 31 + ((((((35) * 64 + d.toNat) * 64 + a.toNat) * 64 + b.toNat) * 8 + q.toNat) * 8 + 0 * 1) :=
    (word_nat S _ _ W rfl hW).trans (congrArg _ ((app_nat (0x23#7 ++ d ++ a ++ b ++ q) 0x0#3).trans (by rw [app_nat, app_nat, app_nat, app_nat]; rfl)))
  obtain ⟨hm, h1, h2, h3, h4, ht, hr⟩ := layout10 W _ 35 d.toNat a.toNat b.toNat q.toNat 0 (by decide) d.isLt a.isLt b.isLt q.isLt (by decide) hw
  unfold decodeWord
  rw [hm, ht, field W 18 d h1, field W 12 a h2, field W 6 b h3, field W 3 q h4]
  exact syllable_ok W _ _ hr hwf

theorem RoundTrip.vcmpLtI32 (d a b q) : RoundTrip.Statement (.vcmpLtI32 d a b q) := by
  intro S W hwf hW
  have hw : W.toNat = S.toNat * 2 ^ 31 + ((((((35) * 64 + d.toNat) * 64 + a.toNat) * 64 + b.toNat) * 8 + q.toNat) * 8 + 1 * 1) :=
    (word_nat S _ _ W rfl hW).trans (congrArg _ ((app_nat (0x23#7 ++ d ++ a ++ b ++ q) 0x1#3).trans (by rw [app_nat, app_nat, app_nat, app_nat]; rfl)))
  obtain ⟨hm, h1, h2, h3, h4, ht, hr⟩ := layout10 W _ 35 d.toNat a.toNat b.toNat q.toNat 1 (by decide) d.isLt a.isLt b.isLt q.isLt (by decide) hw
  unfold decodeWord
  rw [hm, ht, field W 18 d h1, field W 12 a h2, field W 6 b h3, field W 3 q h4]
  exact syllable_ok W _ _ hr hwf

theorem RoundTrip.vcmpLeI32 (d a b q) : RoundTrip.Statement (.vcmpLeI32 d a b q) := by
  intro S W hwf hW
  have hw : W.toNat = S.toNat * 2 ^ 31 + ((((((35) * 64 + d.toNat) * 64 + a.toNat) * 64 + b.toNat) * 8 + q.toNat) * 8 + 2 * 1) :=
    (word_nat S _ _ W rfl hW).trans (congrArg _ ((app_nat (0x23#7 ++ d ++ a ++ b ++ q) 0x2#3).trans (by rw [app_nat, app_nat, app_nat, app_nat]; rfl)))
  obtain ⟨hm, h1, h2, h3, h4, ht, hr⟩ := layout10 W _ 35 d.toNat a.toNat b.toNat q.toNat 2 (by decide) d.isLt a.isLt b.isLt q.isLt (by decide) hw
  unfold decodeWord
  rw [hm, ht, field W 18 d h1, field W 12 a h2, field W 6 b h3, field W 3 q h4]
  exact syllable_ok W _ _ hr hwf

theorem RoundTrip.vcmpLtN32 (d a b q) : RoundTrip.Statement (.vcmpLtN32 d a b q) := by
  intro S W hwf hW
  have hw : W.toNat = S.toNat * 2 ^ 31 + ((((((35) * 64 + d.toNat) * 64 + a.toNat) * 64 + b.toNat) * 8 + q.toNat) * 8 + 3 * 1) :=
    (word_nat S _ _ W rfl hW).trans (congrArg _ ((app_nat (0x23#7 ++ d ++ a ++ b ++ q) 0x3#3).trans (by rw [app_nat, app_nat, app_nat, app_nat]; rfl)))
  obtain ⟨hm, h1, h2, h3, h4, ht, hr⟩ := layout10 W _ 35 d.toNat a.toNat b.toNat q.toNat 3 (by decide) d.isLt a.isLt b.isLt q.isLt (by decide) hw
  unfold decodeWord
  rw [hm, ht, field W 18 d h1, field W 12 a h2, field W 6 b h3, field W 3 q h4]
  exact syllable_ok W _ _ hr hwf

theorem RoundTrip.vcmpLeN32 (d a b q) : RoundTrip.Statement (.vcmpLeN32 d a b q) := by
  intro S W hwf hW
  have hw : W.toNat = S.toNat * 2 ^ 31 + ((((((35) * 64 + d.toNat) * 64 + a.toNat) * 64 + b.toNat) * 8 + q.toNat) * 8 + 4 * 1) :=
    (word_nat S _ _ W rfl hW).trans (congrArg _ ((app_nat (0x23#7 ++ d ++ a ++ b ++ q) 0x4#3).trans (by rw [app_nat, app_nat, app_nat, app_nat]; rfl)))
  obtain ⟨hm, h1, h2, h3, h4, ht, hr⟩ := layout10 W _ 35 d.toNat a.toNat b.toNat q.toNat 4 (by decide) d.isLt a.isLt b.isLt q.isLt (by decide) hw
  unfold decodeWord
  rw [hm, ht, field W 18 d h1, field W 12 a h2, field W 6 b h3, field W 3 q h4]
  exact syllable_ok W _ _ hr hwf

theorem RoundTrip.vaddF32 (d a b q) : RoundTrip.Statement (.vaddF32 d a b q) := by
  intro S W hwf hW
  have hw : W.toNat = S.toNat * 2 ^ 31 + ((((((36) * 64 + d.toNat) * 64 + a.toNat) * 64 + b.toNat) * 8 + q.toNat) * 8 + 0 * 1) :=
    (word_nat S _ _ W rfl hW).trans (congrArg _ ((app_nat (0x24#7 ++ d ++ a ++ b ++ q) 0x0#3).trans (by rw [app_nat, app_nat, app_nat, app_nat]; rfl)))
  obtain ⟨hm, h1, h2, h3, h4, ht, hr⟩ := layout10 W _ 36 d.toNat a.toNat b.toNat q.toNat 0 (by decide) d.isLt a.isLt b.isLt q.isLt (by decide) hw
  unfold decodeWord
  rw [hm, ht, field W 18 d h1, field W 12 a h2, field W 6 b h3, field W 3 q h4]
  exact syllable_ok W _ _ hr hwf

theorem RoundTrip.vsubF32 (d a b q) : RoundTrip.Statement (.vsubF32 d a b q) := by
  intro S W hwf hW
  have hw : W.toNat = S.toNat * 2 ^ 31 + ((((((36) * 64 + d.toNat) * 64 + a.toNat) * 64 + b.toNat) * 8 + q.toNat) * 8 + 1 * 1) :=
    (word_nat S _ _ W rfl hW).trans (congrArg _ ((app_nat (0x24#7 ++ d ++ a ++ b ++ q) 0x1#3).trans (by rw [app_nat, app_nat, app_nat, app_nat]; rfl)))
  obtain ⟨hm, h1, h2, h3, h4, ht, hr⟩ := layout10 W _ 36 d.toNat a.toNat b.toNat q.toNat 1 (by decide) d.isLt a.isLt b.isLt q.isLt (by decide) hw
  unfold decodeWord
  rw [hm, ht, field W 18 d h1, field W 12 a h2, field W 6 b h3, field W 3 q h4]
  exact syllable_ok W _ _ hr hwf

theorem RoundTrip.vmulF32 (d a b q) : RoundTrip.Statement (.vmulF32 d a b q) := by
  intro S W hwf hW
  have hw : W.toNat = S.toNat * 2 ^ 31 + ((((((36) * 64 + d.toNat) * 64 + a.toNat) * 64 + b.toNat) * 8 + q.toNat) * 8 + 2 * 1) :=
    (word_nat S _ _ W rfl hW).trans (congrArg _ ((app_nat (0x24#7 ++ d ++ a ++ b ++ q) 0x2#3).trans (by rw [app_nat, app_nat, app_nat, app_nat]; rfl)))
  obtain ⟨hm, h1, h2, h3, h4, ht, hr⟩ := layout10 W _ 36 d.toNat a.toNat b.toNat q.toNat 2 (by decide) d.isLt a.isLt b.isLt q.isLt (by decide) hw
  unfold decodeWord
  rw [hm, ht, field W 18 d h1, field W 12 a h2, field W 6 b h3, field W 3 q h4]
  exact syllable_ok W _ _ hr hwf

theorem RoundTrip.vminF32 (d a b q) : RoundTrip.Statement (.vminF32 d a b q) := by
  intro S W hwf hW
  have hw : W.toNat = S.toNat * 2 ^ 31 + ((((((36) * 64 + d.toNat) * 64 + a.toNat) * 64 + b.toNat) * 8 + q.toNat) * 8 + 3 * 1) :=
    (word_nat S _ _ W rfl hW).trans (congrArg _ ((app_nat (0x24#7 ++ d ++ a ++ b ++ q) 0x3#3).trans (by rw [app_nat, app_nat, app_nat, app_nat]; rfl)))
  obtain ⟨hm, h1, h2, h3, h4, ht, hr⟩ := layout10 W _ 36 d.toNat a.toNat b.toNat q.toNat 3 (by decide) d.isLt a.isLt b.isLt q.isLt (by decide) hw
  unfold decodeWord
  rw [hm, ht, field W 18 d h1, field W 12 a h2, field W 6 b h3, field W 3 q h4]
  exact syllable_ok W _ _ hr hwf

theorem RoundTrip.vmaxF32 (d a b q) : RoundTrip.Statement (.vmaxF32 d a b q) := by
  intro S W hwf hW
  have hw : W.toNat = S.toNat * 2 ^ 31 + ((((((36) * 64 + d.toNat) * 64 + a.toNat) * 64 + b.toNat) * 8 + q.toNat) * 8 + 4 * 1) :=
    (word_nat S _ _ W rfl hW).trans (congrArg _ ((app_nat (0x24#7 ++ d ++ a ++ b ++ q) 0x4#3).trans (by rw [app_nat, app_nat, app_nat, app_nat]; rfl)))
  obtain ⟨hm, h1, h2, h3, h4, ht, hr⟩ := layout10 W _ 36 d.toNat a.toNat b.toNat q.toNat 4 (by decide) d.isLt a.isLt b.isLt q.isLt (by decide) hw
  unfold decodeWord
  rw [hm, ht, field W 18 d h1, field W 12 a h2, field W 6 b h3, field W 3 q h4]
  exact syllable_ok W _ _ hr hwf

theorem RoundTrip.vfmaF32 (d a b q) : RoundTrip.Statement (.vfmaF32 d a b q) := by
  intro S W hwf hW
  have hw : W.toNat = S.toNat * 2 ^ 31 + ((((((37) * 64 + d.toNat) * 64 + a.toNat) * 64 + b.toNat) * 8 + q.toNat) * 8 + 0 * 1) :=
    (word_nat S _ _ W rfl hW).trans (congrArg _ ((app_nat (0x25#7 ++ d ++ a ++ b ++ q) 0x0#3).trans (by rw [app_nat, app_nat, app_nat, app_nat]; rfl)))
  obtain ⟨hm, h1, h2, h3, h4, ht, hr⟩ := layout10 W _ 37 d.toNat a.toNat b.toNat q.toNat 0 (by decide) d.isLt a.isLt b.isLt q.isLt (by decide) hw
  unfold decodeWord
  rw [hm, ht, field W 18 d h1, field W 12 a h2, field W 6 b h3, field W 3 q h4]
  exact syllable_ok W _ _ hr hwf

theorem RoundTrip.vfmsF32 (d a b q) : RoundTrip.Statement (.vfmsF32 d a b q) := by
  intro S W hwf hW
  have hw : W.toNat = S.toNat * 2 ^ 31 + ((((((37) * 64 + d.toNat) * 64 + a.toNat) * 64 + b.toNat) * 8 + q.toNat) * 8 + 1 * 1) :=
    (word_nat S _ _ W rfl hW).trans (congrArg _ ((app_nat (0x25#7 ++ d ++ a ++ b ++ q) 0x1#3).trans (by rw [app_nat, app_nat, app_nat, app_nat]; rfl)))
  obtain ⟨hm, h1, h2, h3, h4, ht, hr⟩ := layout10 W _ 37 d.toNat a.toNat b.toNat q.toNat 1 (by decide) d.isLt a.isLt b.isLt q.isLt (by decide) hw
  unfold decodeWord
  rw [hm, ht, field W 18 d h1, field W 12 a h2, field W 6 b h3, field W 3 q h4]
  exact syllable_ok W _ _ hr hwf

theorem RoundTrip.vcmpEqF32 (d a b q) : RoundTrip.Statement (.vcmpEqF32 d a b q) := by
  intro S W hwf hW
  have hw : W.toNat = S.toNat * 2 ^ 31 + ((((((38) * 64 + d.toNat) * 64 + a.toNat) * 64 + b.toNat) * 8 + q.toNat) * 8 + 0 * 1) :=
    (word_nat S _ _ W rfl hW).trans (congrArg _ ((app_nat (0x26#7 ++ d ++ a ++ b ++ q) 0x0#3).trans (by rw [app_nat, app_nat, app_nat, app_nat]; rfl)))
  obtain ⟨hm, h1, h2, h3, h4, ht, hr⟩ := layout10 W _ 38 d.toNat a.toNat b.toNat q.toNat 0 (by decide) d.isLt a.isLt b.isLt q.isLt (by decide) hw
  unfold decodeWord
  rw [hm, ht, field W 18 d h1, field W 12 a h2, field W 6 b h3, field W 3 q h4]
  exact syllable_ok W _ _ hr hwf

theorem RoundTrip.vcmpLtF32 (d a b q) : RoundTrip.Statement (.vcmpLtF32 d a b q) := by
  intro S W hwf hW
  have hw : W.toNat = S.toNat * 2 ^ 31 + ((((((38) * 64 + d.toNat) * 64 + a.toNat) * 64 + b.toNat) * 8 + q.toNat) * 8 + 1 * 1) :=
    (word_nat S _ _ W rfl hW).trans (congrArg _ ((app_nat (0x26#7 ++ d ++ a ++ b ++ q) 0x1#3).trans (by rw [app_nat, app_nat, app_nat, app_nat]; rfl)))
  obtain ⟨hm, h1, h2, h3, h4, ht, hr⟩ := layout10 W _ 38 d.toNat a.toNat b.toNat q.toNat 1 (by decide) d.isLt a.isLt b.isLt q.isLt (by decide) hw
  unfold decodeWord
  rw [hm, ht, field W 18 d h1, field W 12 a h2, field W 6 b h3, field W 3 q h4]
  exact syllable_ok W _ _ hr hwf

theorem RoundTrip.vcmpLeF32 (d a b q) : RoundTrip.Statement (.vcmpLeF32 d a b q) := by
  intro S W hwf hW
  have hw : W.toNat = S.toNat * 2 ^ 31 + ((((((38) * 64 + d.toNat) * 64 + a.toNat) * 64 + b.toNat) * 8 + q.toNat) * 8 + 2 * 1) :=
    (word_nat S _ _ W rfl hW).trans (congrArg _ ((app_nat (0x26#7 ++ d ++ a ++ b ++ q) 0x2#3).trans (by rw [app_nat, app_nat, app_nat, app_nat]; rfl)))
  obtain ⟨hm, h1, h2, h3, h4, ht, hr⟩ := layout10 W _ 38 d.toNat a.toNat b.toNat q.toNat 2 (by decide) d.isLt a.isLt b.isLt q.isLt (by decide) hw
  unfold decodeWord
  rw [hm, ht, field W 18 d h1, field W 12 a h2, field W 6 b h3, field W 3 q h4]
  exact syllable_ok W _ _ hr hwf

theorem RoundTrip.vperm (d a b q) : RoundTrip.Statement (.vperm d a b q) := by
  intro S W hwf hW
  have hw : W.toNat = S.toNat * 2 ^ 31 + ((((((43) * 64 + d.toNat) * 64 + a.toNat) * 64 + b.toNat) * 8 + q.toNat) * 8 + 0 * 1) :=
    (word_nat S _ _ W rfl hW).trans (congrArg _ ((app_nat (0x2B#7 ++ d ++ a ++ b ++ q) 0x0#3).trans (by rw [app_nat, app_nat, app_nat, app_nat]; rfl)))
  obtain ⟨hm, h1, h2, h3, h4, ht, hr⟩ := layout10 W _ 43 d.toNat a.toNat b.toNat q.toNat 0 (by decide) d.isLt a.isLt b.isLt q.isLt (by decide) hw
  unfold decodeWord
  rw [hm, ht, field W 18 d h1, field W 12 a h2, field W 6 b h3, field W 3 q h4]
  exact syllable_ok W _ _ hr hwf

theorem RoundTrip.vrot (d a b q) : RoundTrip.Statement (.vrot d a b q) := by
  intro S W hwf hW
  have hw : W.toNat = S.toNat * 2 ^ 31 + ((((((43) * 64 + d.toNat) * 64 + a.toNat) * 64 + b.toNat) * 8 + q.toNat) * 8 + 1 * 1) :=
    (word_nat S _ _ W rfl hW).trans (congrArg _ ((app_nat (0x2B#7 ++ d ++ a ++ b ++ q) 0x1#3).trans (by rw [app_nat, app_nat, app_nat, app_nat]; rfl)))
  obtain ⟨hm, h1, h2, h3, h4, ht, hr⟩ := layout10 W _ 43 d.toNat a.toNat b.toNat q.toNat 1 (by decide) d.isLt a.isLt b.isLt q.isLt (by decide) hw
  unfold decodeWord
  rw [hm, ht, field W 18 d h1, field W 12 a h2, field W 6 b h3, field W 3 q h4]
  exact syllable_ok W _ _ hr hwf

theorem RoundTrip.vsel (d a b k) : RoundTrip.Statement (.vsel d a b k) := by
  intro S W hwf hW
  have hw : W.toNat = S.toNat * 2 ^ 31 + ((((((44) * 64 + d.toNat) * 64 + a.toNat) * 64 + b.toNat) * 8 + k.toNat) * 8 + 0 * 1) :=
    (word_nat S _ _ W rfl hW).trans (congrArg _ ((app_nat (0x2C#7 ++ d ++ a ++ b ++ k) 0x0#3).trans (by rw [app_nat, app_nat, app_nat, app_nat]; rfl)))
  obtain ⟨hm, h1, h2, h3, h4, ht, hr⟩ := layout10 W _ 44 d.toNat a.toNat b.toNat k.toNat 0 (by decide) d.isLt a.isLt b.isLt k.isLt (by decide) hw
  unfold decodeWord
  rw [hm, ht, field W 18 d h1, field W 12 a h2, field W 6 b h3, field W 3 k h4]
  exact syllable_ok W _ _ hr hwf

theorem RoundTrip.vldg (d a b q) : RoundTrip.Statement (.vldg d a b q) := by
  intro S W hwf hW
  have hw : W.toNat = S.toNat * 2 ^ 31 + ((((((77) * 64 + d.toNat) * 64 + a.toNat) * 64 + b.toNat) * 8 + q.toNat) * 8 + 0 * 1) :=
    (word_nat S _ _ W rfl hW).trans (congrArg _ ((app_nat (0x4D#7 ++ d ++ a ++ b ++ q) 0x0#3).trans (by rw [app_nat, app_nat, app_nat, app_nat]; rfl)))
  obtain ⟨hm, h1, h2, h3, h4, ht, hr⟩ := layout10 W _ 77 d.toNat a.toNat b.toNat q.toNat 0 (by decide) d.isLt a.isLt b.isLt q.isLt (by decide) hw
  unfold decodeWord
  rw [hm, ht, field W 18 d h1, field W 12 a h2, field W 6 b h3, field W 3 q h4]
  exact syllable_ok W _ _ hr hwf

theorem RoundTrip.vsts (d a b q) : RoundTrip.Statement (.vsts d a b q) := by
  intro S W hwf hW
  have hw : W.toNat = S.toNat * 2 ^ 31 + ((((((78) * 64 + d.toNat) * 64 + a.toNat) * 64 + b.toNat) * 8 + q.toNat) * 8 + 0 * 1) :=
    (word_nat S _ _ W rfl hW).trans (congrArg _ ((app_nat (0x4E#7 ++ d ++ a ++ b ++ q) 0x0#3).trans (by rw [app_nat, app_nat, app_nat, app_nat]; rfl)))
  obtain ⟨hm, h1, h2, h3, h4, ht, hr⟩ := layout10 W _ 78 d.toNat a.toNat b.toNat q.toNat 0 (by decide) d.isLt a.isLt b.isLt q.isLt (by decide) hw
  unfold decodeWord
  rw [hm, ht, field W 18 d h1, field W 12 a h2, field W 6 b h3, field W 3 q h4]
  exact syllable_ok W _ _ hr hwf

theorem RoundTrip.vrcpF32 (d a q) : RoundTrip.Statement (.vrcpF32 d a q) := by
  intro S W hwf hW
  have hw : W.toNat = S.toNat * 2 ^ 31 + ((((((39) * 64 + d.toNat) * 64 + a.toNat) * 64 + 0) * 8 + q.toNat) * 8 + 0 * 1) :=
    (word_nat S _ _ W rfl hW).trans (congrArg _ ((app_nat (0x27#7 ++ d ++ a ++ 0x0#6 ++ q) 0x0#3).trans (by rw [app_nat, app_nat, app_nat, app_nat]; rfl)))
  obtain ⟨hm, h1, h2, h4, ht, hr⟩ := layout11 W _ 39 d.toNat a.toNat q.toNat 0 (by decide) d.isLt a.isLt q.isLt (by decide) hw
  unfold decodeWord
  rw [hm, ht, field W 18 d h1, field W 12 a h2, field W 3 q h4]
  exact syllable_ok W _ _ hr hwf

theorem RoundTrip.vrsqF32 (d a q) : RoundTrip.Statement (.vrsqF32 d a q) := by
  intro S W hwf hW
  have hw : W.toNat = S.toNat * 2 ^ 31 + ((((((39) * 64 + d.toNat) * 64 + a.toNat) * 64 + 0) * 8 + q.toNat) * 8 + 1 * 1) :=
    (word_nat S _ _ W rfl hW).trans (congrArg _ ((app_nat (0x27#7 ++ d ++ a ++ 0x0#6 ++ q) 0x1#3).trans (by rw [app_nat, app_nat, app_nat, app_nat]; rfl)))
  obtain ⟨hm, h1, h2, h4, ht, hr⟩ := layout11 W _ 39 d.toNat a.toNat q.toNat 1 (by decide) d.isLt a.isLt q.isLt (by decide) hw
  unfold decodeWord
  rw [hm, ht, field W 18 d h1, field W 12 a h2, field W 3 q h4]
  exact syllable_ok W _ _ hr hwf

theorem RoundTrip.vexp2F32 (d a q) : RoundTrip.Statement (.vexp2F32 d a q) := by
  intro S W hwf hW
  have hw : W.toNat = S.toNat * 2 ^ 31 + ((((((39) * 64 + d.toNat) * 64 + a.toNat) * 64 + 0) * 8 + q.toNat) * 8 + 2 * 1) :=
    (word_nat S _ _ W rfl hW).trans (congrArg _ ((app_nat (0x27#7 ++ d ++ a ++ 0x0#6 ++ q) 0x2#3).trans (by rw [app_nat, app_nat, app_nat, app_nat]; rfl)))
  obtain ⟨hm, h1, h2, h4, ht, hr⟩ := layout11 W _ 39 d.toNat a.toNat q.toNat 2 (by decide) d.isLt a.isLt q.isLt (by decide) hw
  unfold decodeWord
  rw [hm, ht, field W 18 d h1, field W 12 a h2, field W 3 q h4]
  exact syllable_ok W _ _ hr hwf

theorem RoundTrip.vlog2F32 (d a q) : RoundTrip.Statement (.vlog2F32 d a q) := by
  intro S W hwf hW
  have hw : W.toNat = S.toNat * 2 ^ 31 + ((((((39) * 64 + d.toNat) * 64 + a.toNat) * 64 + 0) * 8 + q.toNat) * 8 + 3 * 1) :=
    (word_nat S _ _ W rfl hW).trans (congrArg _ ((app_nat (0x27#7 ++ d ++ a ++ 0x0#6 ++ q) 0x3#3).trans (by rw [app_nat, app_nat, app_nat, app_nat]; rfl)))
  obtain ⟨hm, h1, h2, h4, ht, hr⟩ := layout11 W _ 39 d.toNat a.toNat q.toNat 3 (by decide) d.isLt a.isLt q.isLt (by decide) hw
  unfold decodeWord
  rw [hm, ht, field W 18 d h1, field W 12 a h2, field W 3 q h4]
  exact syllable_ok W _ _ hr hwf

theorem RoundTrip.vsqrtF32 (d a q) : RoundTrip.Statement (.vsqrtF32 d a q) := by
  intro S W hwf hW
  have hw : W.toNat = S.toNat * 2 ^ 31 + ((((((39) * 64 + d.toNat) * 64 + a.toNat) * 64 + 0) * 8 + q.toNat) * 8 + 4 * 1) :=
    (word_nat S _ _ W rfl hW).trans (congrArg _ ((app_nat (0x27#7 ++ d ++ a ++ 0x0#6 ++ q) 0x4#3).trans (by rw [app_nat, app_nat, app_nat, app_nat]; rfl)))
  obtain ⟨hm, h1, h2, h4, ht, hr⟩ := layout11 W _ 39 d.toNat a.toNat q.toNat 4 (by decide) d.isLt a.isLt q.isLt (by decide) hw
  unfold decodeWord
  rw [hm, ht, field W 18 d h1, field W 12 a h2, field W 3 q h4]
  exact syllable_ok W _ _ hr hwf

theorem RoundTrip.vcvtBf16F32 (d a q) : RoundTrip.Statement (.vcvtBf16F32 d a q) := by
  intro S W hwf hW
  have hw : W.toNat = S.toNat * 2 ^ 31 + ((((((40) * 64 + d.toNat) * 64 + a.toNat) * 64 + 0) * 8 + q.toNat) * 8 + 0 * 1) :=
    (word_nat S _ _ W rfl hW).trans (congrArg _ ((app_nat (0x28#7 ++ d ++ a ++ 0x0#6 ++ q) 0x0#3).trans (by rw [app_nat, app_nat, app_nat, app_nat]; rfl)))
  obtain ⟨hm, h1, h2, h4, ht, hr⟩ := layout11 W _ 40 d.toNat a.toNat q.toNat 0 (by decide) d.isLt a.isLt q.isLt (by decide) hw
  unfold decodeWord
  rw [hm, ht, field W 18 d h1, field W 12 a h2, field W 3 q h4]
  exact syllable_ok W _ _ hr hwf

theorem RoundTrip.vcvtF32Bf16 (d a q) : RoundTrip.Statement (.vcvtF32Bf16 d a q) := by
  intro S W hwf hW
  have hw : W.toNat = S.toNat * 2 ^ 31 + ((((((40) * 64 + d.toNat) * 64 + a.toNat) * 64 + 0) * 8 + q.toNat) * 8 + 1 * 1) :=
    (word_nat S _ _ W rfl hW).trans (congrArg _ ((app_nat (0x28#7 ++ d ++ a ++ 0x0#6 ++ q) 0x1#3).trans (by rw [app_nat, app_nat, app_nat, app_nat]; rfl)))
  obtain ⟨hm, h1, h2, h4, ht, hr⟩ := layout11 W _ 40 d.toNat a.toNat q.toNat 1 (by decide) d.isLt a.isLt q.isLt (by decide) hw
  unfold decodeWord
  rw [hm, ht, field W 18 d h1, field W 12 a h2, field W 3 q h4]
  exact syllable_ok W _ _ hr hwf

theorem RoundTrip.vcvtF16F32 (d a q) : RoundTrip.Statement (.vcvtF16F32 d a q) := by
  intro S W hwf hW
  have hw : W.toNat = S.toNat * 2 ^ 31 + ((((((40) * 64 + d.toNat) * 64 + a.toNat) * 64 + 0) * 8 + q.toNat) * 8 + 2 * 1) :=
    (word_nat S _ _ W rfl hW).trans (congrArg _ ((app_nat (0x28#7 ++ d ++ a ++ 0x0#6 ++ q) 0x2#3).trans (by rw [app_nat, app_nat, app_nat, app_nat]; rfl)))
  obtain ⟨hm, h1, h2, h4, ht, hr⟩ := layout11 W _ 40 d.toNat a.toNat q.toNat 2 (by decide) d.isLt a.isLt q.isLt (by decide) hw
  unfold decodeWord
  rw [hm, ht, field W 18 d h1, field W 12 a h2, field W 3 q h4]
  exact syllable_ok W _ _ hr hwf

theorem RoundTrip.vcvtF32F16 (d a q) : RoundTrip.Statement (.vcvtF32F16 d a q) := by
  intro S W hwf hW
  have hw : W.toNat = S.toNat * 2 ^ 31 + ((((((40) * 64 + d.toNat) * 64 + a.toNat) * 64 + 0) * 8 + q.toNat) * 8 + 3 * 1) :=
    (word_nat S _ _ W rfl hW).trans (congrArg _ ((app_nat (0x28#7 ++ d ++ a ++ 0x0#6 ++ q) 0x3#3).trans (by rw [app_nat, app_nat, app_nat, app_nat]; rfl)))
  obtain ⟨hm, h1, h2, h4, ht, hr⟩ := layout11 W _ 40 d.toNat a.toNat q.toNat 3 (by decide) d.isLt a.isLt q.isLt (by decide) hw
  unfold decodeWord
  rw [hm, ht, field W 18 d h1, field W 12 a h2, field W 3 q h4]
  exact syllable_ok W _ _ hr hwf

theorem RoundTrip.vcvtE4m3F32 (d a q) : RoundTrip.Statement (.vcvtE4m3F32 d a q) := by
  intro S W hwf hW
  have hw : W.toNat = S.toNat * 2 ^ 31 + ((((((40) * 64 + d.toNat) * 64 + a.toNat) * 64 + 0) * 8 + q.toNat) * 8 + 4 * 1) :=
    (word_nat S _ _ W rfl hW).trans (congrArg _ ((app_nat (0x28#7 ++ d ++ a ++ 0x0#6 ++ q) 0x4#3).trans (by rw [app_nat, app_nat, app_nat, app_nat]; rfl)))
  obtain ⟨hm, h1, h2, h4, ht, hr⟩ := layout11 W _ 40 d.toNat a.toNat q.toNat 4 (by decide) d.isLt a.isLt q.isLt (by decide) hw
  unfold decodeWord
  rw [hm, ht, field W 18 d h1, field W 12 a h2, field W 3 q h4]
  exact syllable_ok W _ _ hr hwf

theorem RoundTrip.vcvtE5m2F32 (d a q) : RoundTrip.Statement (.vcvtE5m2F32 d a q) := by
  intro S W hwf hW
  have hw : W.toNat = S.toNat * 2 ^ 31 + ((((((40) * 64 + d.toNat) * 64 + a.toNat) * 64 + 0) * 8 + q.toNat) * 8 + 5 * 1) :=
    (word_nat S _ _ W rfl hW).trans (congrArg _ ((app_nat (0x28#7 ++ d ++ a ++ 0x0#6 ++ q) 0x5#3).trans (by rw [app_nat, app_nat, app_nat, app_nat]; rfl)))
  obtain ⟨hm, h1, h2, h4, ht, hr⟩ := layout11 W _ 40 d.toNat a.toNat q.toNat 5 (by decide) d.isLt a.isLt q.isLt (by decide) hw
  unfold decodeWord
  rw [hm, ht, field W 18 d h1, field W 12 a h2, field W 3 q h4]
  exact syllable_ok W _ _ hr hwf

theorem RoundTrip.vcvtF32E4m3 (d a q) : RoundTrip.Statement (.vcvtF32E4m3 d a q) := by
  intro S W hwf hW
  have hw : W.toNat = S.toNat * 2 ^ 31 + ((((((40) * 64 + d.toNat) * 64 + a.toNat) * 64 + 0) * 8 + q.toNat) * 8 + 6 * 1) :=
    (word_nat S _ _ W rfl hW).trans (congrArg _ ((app_nat (0x28#7 ++ d ++ a ++ 0x0#6 ++ q) 0x6#3).trans (by rw [app_nat, app_nat, app_nat, app_nat]; rfl)))
  obtain ⟨hm, h1, h2, h4, ht, hr⟩ := layout11 W _ 40 d.toNat a.toNat q.toNat 6 (by decide) d.isLt a.isLt q.isLt (by decide) hw
  unfold decodeWord
  rw [hm, ht, field W 18 d h1, field W 12 a h2, field W 3 q h4]
  exact syllable_ok W _ _ hr hwf

theorem RoundTrip.vcvtF32E5m2 (d a q) : RoundTrip.Statement (.vcvtF32E5m2 d a q) := by
  intro S W hwf hW
  have hw : W.toNat = S.toNat * 2 ^ 31 + ((((((40) * 64 + d.toNat) * 64 + a.toNat) * 64 + 0) * 8 + q.toNat) * 8 + 7 * 1) :=
    (word_nat S _ _ W rfl hW).trans (congrArg _ ((app_nat (0x28#7 ++ d ++ a ++ 0x0#6 ++ q) 0x7#3).trans (by rw [app_nat, app_nat, app_nat, app_nat]; rfl)))
  obtain ⟨hm, h1, h2, h4, ht, hr⟩ := layout11 W _ 40 d.toNat a.toNat q.toNat 7 (by decide) d.isLt a.isLt q.isLt (by decide) hw
  unfold decodeWord
  rw [hm, ht, field W 18 d h1, field W 12 a h2, field W 3 q h4]
  exact syllable_ok W _ _ hr hwf

theorem RoundTrip.vcvtF4xF32 (d a q) : RoundTrip.Statement (.vcvtF4xF32 d a q) := by
  intro S W hwf hW
  have hw : W.toNat = S.toNat * 2 ^ 31 + ((((((41) * 64 + d.toNat) * 64 + a.toNat) * 64 + 0) * 8 + q.toNat) * 8 + 0 * 1) :=
    (word_nat S _ _ W rfl hW).trans (congrArg _ ((app_nat (0x29#7 ++ d ++ a ++ 0x0#6 ++ q) 0x0#3).trans (by rw [app_nat, app_nat, app_nat, app_nat]; rfl)))
  obtain ⟨hm, h1, h2, h4, ht, hr⟩ := layout11 W _ 41 d.toNat a.toNat q.toNat 0 (by decide) d.isLt a.isLt q.isLt (by decide) hw
  unfold decodeWord
  rw [hm, ht, field W 18 d h1, field W 12 a h2, field W 3 q h4]
  exact syllable_ok W _ _ hr hwf

theorem RoundTrip.vcvtF32F4x (d a q) : RoundTrip.Statement (.vcvtF32F4x d a q) := by
  intro S W hwf hW
  have hw : W.toNat = S.toNat * 2 ^ 31 + ((((((41) * 64 + d.toNat) * 64 + a.toNat) * 64 + 0) * 8 + q.toNat) * 8 + 1 * 1) :=
    (word_nat S _ _ W rfl hW).trans (congrArg _ ((app_nat (0x29#7 ++ d ++ a ++ 0x0#6 ++ q) 0x1#3).trans (by rw [app_nat, app_nat, app_nat, app_nat]; rfl)))
  obtain ⟨hm, h1, h2, h4, ht, hr⟩ := layout11 W _ 41 d.toNat a.toNat q.toNat 1 (by decide) d.isLt a.isLt q.isLt (by decide) hw
  unfold decodeWord
  rw [hm, ht, field W 18 d h1, field W 12 a h2, field W 3 q h4]
  exact syllable_ok W _ _ hr hwf

theorem RoundTrip.vcvtI32F32 (d a q) : RoundTrip.Statement (.vcvtI32F32 d a q) := by
  intro S W hwf hW
  have hw : W.toNat = S.toNat * 2 ^ 31 + ((((((41) * 64 + d.toNat) * 64 + a.toNat) * 64 + 0) * 8 + q.toNat) * 8 + 2 * 1) :=
    (word_nat S _ _ W rfl hW).trans (congrArg _ ((app_nat (0x29#7 ++ d ++ a ++ 0x0#6 ++ q) 0x2#3).trans (by rw [app_nat, app_nat, app_nat, app_nat]; rfl)))
  obtain ⟨hm, h1, h2, h4, ht, hr⟩ := layout11 W _ 41 d.toNat a.toNat q.toNat 2 (by decide) d.isLt a.isLt q.isLt (by decide) hw
  unfold decodeWord
  rw [hm, ht, field W 18 d h1, field W 12 a h2, field W 3 q h4]
  exact syllable_ok W _ _ hr hwf

theorem RoundTrip.vcvtF32I32 (d a q) : RoundTrip.Statement (.vcvtF32I32 d a q) := by
  intro S W hwf hW
  have hw : W.toNat = S.toNat * 2 ^ 31 + ((((((41) * 64 + d.toNat) * 64 + a.toNat) * 64 + 0) * 8 + q.toNat) * 8 + 3 * 1) :=
    (word_nat S _ _ W rfl hW).trans (congrArg _ ((app_nat (0x29#7 ++ d ++ a ++ 0x0#6 ++ q) 0x3#3).trans (by rw [app_nat, app_nat, app_nat, app_nat]; rfl)))
  obtain ⟨hm, h1, h2, h4, ht, hr⟩ := layout11 W _ 41 d.toNat a.toNat q.toNat 3 (by decide) d.isLt a.isLt q.isLt (by decide) hw
  unfold decodeWord
  rw [hm, ht, field W 18 d h1, field W 12 a h2, field W 3 q h4]
  exact syllable_ok W _ _ hr hwf

theorem RoundTrip.vcvtQF32 (d a q) : RoundTrip.Statement (.vcvtQF32 d a q) := by
  intro S W hwf hW
  have hw : W.toNat = S.toNat * 2 ^ 31 + ((((((41) * 64 + d.toNat) * 64 + a.toNat) * 64 + 0) * 8 + q.toNat) * 8 + 4 * 1) :=
    (word_nat S _ _ W rfl hW).trans (congrArg _ ((app_nat (0x29#7 ++ d ++ a ++ 0x0#6 ++ q) 0x4#3).trans (by rw [app_nat, app_nat, app_nat, app_nat]; rfl)))
  obtain ⟨hm, h1, h2, h4, ht, hr⟩ := layout11 W _ 41 d.toNat a.toNat q.toNat 4 (by decide) d.isLt a.isLt q.isLt (by decide) hw
  unfold decodeWord
  rw [hm, ht, field W 18 d h1, field W 12 a h2, field W 3 q h4]
  exact syllable_ok W _ _ hr hwf

theorem RoundTrip.vcvtF32Q (d a q) : RoundTrip.Statement (.vcvtF32Q d a q) := by
  intro S W hwf hW
  have hw : W.toNat = S.toNat * 2 ^ 31 + ((((((41) * 64 + d.toNat) * 64 + a.toNat) * 64 + 0) * 8 + q.toNat) * 8 + 5 * 1) :=
    (word_nat S _ _ W rfl hW).trans (congrArg _ ((app_nat (0x29#7 ++ d ++ a ++ 0x0#6 ++ q) 0x5#3).trans (by rw [app_nat, app_nat, app_nat, app_nat]; rfl)))
  obtain ⟨hm, h1, h2, h4, ht, hr⟩ := layout11 W _ 41 d.toNat a.toNat q.toNat 5 (by decide) d.isLt a.isLt q.isLt (by decide) hw
  unfold decodeWord
  rw [hm, ht, field W 18 d h1, field W 12 a h2, field W 3 q h4]
  exact syllable_ok W _ _ hr hwf

theorem RoundTrip.vredaddI32 (d a q) : RoundTrip.Statement (.vredaddI32 d a q) := by
  intro S W hwf hW
  have hw : W.toNat = S.toNat * 2 ^ 31 + ((((((42) * 64 + d.toNat) * 64 + a.toNat) * 64 + 0) * 8 + q.toNat) * 8 + 0 * 1) :=
    (word_nat S _ _ W rfl hW).trans (congrArg _ ((app_nat (0x2A#7 ++ d ++ a ++ 0x0#6 ++ q) 0x0#3).trans (by rw [app_nat, app_nat, app_nat, app_nat]; rfl)))
  obtain ⟨hm, h1, h2, h4, ht, hr⟩ := layout11 W _ 42 d.toNat a.toNat q.toNat 0 (by decide) d.isLt a.isLt q.isLt (by decide) hw
  unfold decodeWord
  rw [hm, ht, field W 18 d h1, field W 12 a h2, field W 3 q h4]
  exact syllable_ok W _ _ hr hwf

theorem RoundTrip.vredaddF32 (d a q) : RoundTrip.Statement (.vredaddF32 d a q) := by
  intro S W hwf hW
  have hw : W.toNat = S.toNat * 2 ^ 31 + ((((((42) * 64 + d.toNat) * 64 + a.toNat) * 64 + 0) * 8 + q.toNat) * 8 + 1 * 1) :=
    (word_nat S _ _ W rfl hW).trans (congrArg _ ((app_nat (0x2A#7 ++ d ++ a ++ 0x0#6 ++ q) 0x1#3).trans (by rw [app_nat, app_nat, app_nat, app_nat]; rfl)))
  obtain ⟨hm, h1, h2, h4, ht, hr⟩ := layout11 W _ 42 d.toNat a.toNat q.toNat 1 (by decide) d.isLt a.isLt q.isLt (by decide) hw
  unfold decodeWord
  rw [hm, ht, field W 18 d h1, field W 12 a h2, field W 3 q h4]
  exact syllable_ok W _ _ hr hwf

theorem RoundTrip.vredmaxF32 (d a q) : RoundTrip.Statement (.vredmaxF32 d a q) := by
  intro S W hwf hW
  have hw : W.toNat = S.toNat * 2 ^ 31 + ((((((42) * 64 + d.toNat) * 64 + a.toNat) * 64 + 0) * 8 + q.toNat) * 8 + 2 * 1) :=
    (word_nat S _ _ W rfl hW).trans (congrArg _ ((app_nat (0x2A#7 ++ d ++ a ++ 0x0#6 ++ q) 0x2#3).trans (by rw [app_nat, app_nat, app_nat, app_nat]; rfl)))
  obtain ⟨hm, h1, h2, h4, ht, hr⟩ := layout11 W _ 42 d.toNat a.toNat q.toNat 2 (by decide) d.isLt a.isLt q.isLt (by decide) hw
  unfold decodeWord
  rw [hm, ht, field W 18 d h1, field W 12 a h2, field W 3 q h4]
  exact syllable_ok W _ _ hr hwf

theorem RoundTrip.vredmaxI32 (d a q) : RoundTrip.Statement (.vredmaxI32 d a q) := by
  intro S W hwf hW
  have hw : W.toNat = S.toNat * 2 ^ 31 + ((((((42) * 64 + d.toNat) * 64 + a.toNat) * 64 + 0) * 8 + q.toNat) * 8 + 3 * 1) :=
    (word_nat S _ _ W rfl hW).trans (congrArg _ ((app_nat (0x2A#7 ++ d ++ a ++ 0x0#6 ++ q) 0x3#3).trans (by rw [app_nat, app_nat, app_nat, app_nat]; rfl)))
  obtain ⟨hm, h1, h2, h4, ht, hr⟩ := layout11 W _ 42 d.toNat a.toNat q.toNat 3 (by decide) d.isLt a.isLt q.isLt (by decide) hw
  unfold decodeWord
  rw [hm, ht, field W 18 d h1, field W 12 a h2, field W 3 q h4]
  exact syllable_ok W _ _ hr hwf

theorem RoundTrip.vbcast (d a q) : RoundTrip.Statement (.vbcast d a q) := by
  intro S W hwf hW
  have hw : W.toNat = S.toNat * 2 ^ 31 + ((((((43) * 64 + d.toNat) * 64 + a.toNat) * 64 + 0) * 8 + q.toNat) * 8 + 2 * 1) :=
    (word_nat S _ _ W rfl hW).trans (congrArg _ ((app_nat (0x2B#7 ++ d ++ a ++ 0x0#6 ++ q) 0x2#3).trans (by rw [app_nat, app_nat, app_nat, app_nat]; rfl)))
  obtain ⟨hm, h1, h2, h4, ht, hr⟩ := layout11 W _ 43 d.toNat a.toNat q.toNat 2 (by decide) d.isLt a.isLt q.isLt (by decide) hw
  unfold decodeWord
  rw [hm, ht, field W 18 d h1, field W 12 a h2, field W 3 q h4]
  exact syllable_ok W _ _ hr hwf

theorem RoundTrip.ldbI (d a i) : RoundTrip.Statement (.ldbI d a i) := by
  intro S W hwf hW
  have hw : W.toNat = S.toNat * 2 ^ 31 + (((((64) * 64 + d.toNat) * 64 + a.toNat) * 512 + i.toNat) * 8 + 0) :=
    (word_nat S _ _ W rfl hW).trans (congrArg _ ((app_nat (0x40#7 ++ d ++ a ++ i) 0x0#3).trans (by rw [app_nat, app_nat, app_nat]; rfl)))
  obtain ⟨hm, h1, h2, h3, hr⟩ := layout12 W _ 64 d.toNat a.toNat i.toNat (by decide) d.isLt a.isLt i.isLt hw
  unfold decodeWord
  rw [hm, field W 18 d h1, field W 12 a h2, field W 3 i h3]
  exact syllable_ok W _ _ hr hwf

theorem RoundTrip.ldbN (d a i) : RoundTrip.Statement (.ldbN d a i) := by
  intro S W hwf hW
  have hw : W.toNat = S.toNat * 2 ^ 31 + (((((65) * 64 + d.toNat) * 64 + a.toNat) * 512 + i.toNat) * 8 + 0) :=
    (word_nat S _ _ W rfl hW).trans (congrArg _ ((app_nat (0x41#7 ++ d ++ a ++ i) 0x0#3).trans (by rw [app_nat, app_nat, app_nat]; rfl)))
  obtain ⟨hm, h1, h2, h3, hr⟩ := layout12 W _ 65 d.toNat a.toNat i.toNat (by decide) d.isLt a.isLt i.isLt hw
  unfold decodeWord
  rw [hm, field W 18 d h1, field W 12 a h2, field W 3 i h3]
  exact syllable_ok W _ _ hr hwf

theorem RoundTrip.ldhI (d a i) : RoundTrip.Statement (.ldhI d a i) := by
  intro S W hwf hW
  have hw : W.toNat = S.toNat * 2 ^ 31 + (((((66) * 64 + d.toNat) * 64 + a.toNat) * 512 + i.toNat) * 8 + 0) :=
    (word_nat S _ _ W rfl hW).trans (congrArg _ ((app_nat (0x42#7 ++ d ++ a ++ i) 0x0#3).trans (by rw [app_nat, app_nat, app_nat]; rfl)))
  obtain ⟨hm, h1, h2, h3, hr⟩ := layout12 W _ 66 d.toNat a.toNat i.toNat (by decide) d.isLt a.isLt i.isLt hw
  unfold decodeWord
  rw [hm, field W 18 d h1, field W 12 a h2, field W 3 i h3]
  exact syllable_ok W _ _ hr hwf

theorem RoundTrip.ldhN (d a i) : RoundTrip.Statement (.ldhN d a i) := by
  intro S W hwf hW
  have hw : W.toNat = S.toNat * 2 ^ 31 + (((((67) * 64 + d.toNat) * 64 + a.toNat) * 512 + i.toNat) * 8 + 0) :=
    (word_nat S _ _ W rfl hW).trans (congrArg _ ((app_nat (0x43#7 ++ d ++ a ++ i) 0x0#3).trans (by rw [app_nat, app_nat, app_nat]; rfl)))
  obtain ⟨hm, h1, h2, h3, hr⟩ := layout12 W _ 67 d.toNat a.toNat i.toNat (by decide) d.isLt a.isLt i.isLt hw
  unfold decodeWord
  rw [hm, field W 18 d h1, field W 12 a h2, field W 3 i h3]
  exact syllable_ok W _ _ hr hwf

theorem RoundTrip.ldwI (d a i) : RoundTrip.Statement (.ldwI d a i) := by
  intro S W hwf hW
  have hw : W.toNat = S.toNat * 2 ^ 31 + (((((68) * 64 + d.toNat) * 64 + a.toNat) * 512 + i.toNat) * 8 + 0) :=
    (word_nat S _ _ W rfl hW).trans (congrArg _ ((app_nat (0x44#7 ++ d ++ a ++ i) 0x0#3).trans (by rw [app_nat, app_nat, app_nat]; rfl)))
  obtain ⟨hm, h1, h2, h3, hr⟩ := layout12 W _ 68 d.toNat a.toNat i.toNat (by decide) d.isLt a.isLt i.isLt hw
  unfold decodeWord
  rw [hm, field W 18 d h1, field W 12 a h2, field W 3 i h3]
  exact syllable_ok W _ _ hr hwf

theorem RoundTrip.ldwN (d a i) : RoundTrip.Statement (.ldwN d a i) := by
  intro S W hwf hW
  have hw : W.toNat = S.toNat * 2 ^ 31 + (((((69) * 64 + d.toNat) * 64 + a.toNat) * 512 + i.toNat) * 8 + 0) :=
    (word_nat S _ _ W rfl hW).trans (congrArg _ ((app_nat (0x45#7 ++ d ++ a ++ i) 0x0#3).trans (by rw [app_nat, app_nat, app_nat]; rfl)))
  obtain ⟨hm, h1, h2, h3, hr⟩ := layout12 W _ 69 d.toNat a.toNat i.toNat (by decide) d.isLt a.isLt i.isLt hw
  unfold decodeWord
  rw [hm, field W 18 d h1, field W 12 a h2, field W 3 i h3]
  exact syllable_ok W _ _ hr hwf

theorem RoundTrip.ldd (d a i) : RoundTrip.Statement (.ldd d a i) := by
  intro S W hwf hW
  have hw : W.toNat = S.toNat * 2 ^ 31 + (((((70) * 64 + d.toNat) * 64 + a.toNat) * 512 + i.toNat) * 8 + 0) :=
    (word_nat S _ _ W rfl hW).trans (congrArg _ ((app_nat (0x46#7 ++ d ++ a ++ i) 0x0#3).trans (by rw [app_nat, app_nat, app_nat]; rfl)))
  obtain ⟨hm, h1, h2, h3, hr⟩ := layout12 W _ 70 d.toNat a.toNat i.toNat (by decide) d.isLt a.isLt i.isLt hw
  unfold decodeWord
  rw [hm, field W 18 d h1, field W 12 a h2, field W 3 i h3]
  exact syllable_ok W _ _ hr hwf

theorem RoundTrip.stb (d a i) : RoundTrip.Statement (.stb d a i) := by
  intro S W hwf hW
  have hw : W.toNat = S.toNat * 2 ^ 31 + (((((71) * 64 + d.toNat) * 64 + a.toNat) * 512 + i.toNat) * 8 + 0) :=
    (word_nat S _ _ W rfl hW).trans (congrArg _ ((app_nat (0x47#7 ++ d ++ a ++ i) 0x0#3).trans (by rw [app_nat, app_nat, app_nat]; rfl)))
  obtain ⟨hm, h1, h2, h3, hr⟩ := layout12 W _ 71 d.toNat a.toNat i.toNat (by decide) d.isLt a.isLt i.isLt hw
  unfold decodeWord
  rw [hm, field W 18 d h1, field W 12 a h2, field W 3 i h3]
  exact syllable_ok W _ _ hr hwf

theorem RoundTrip.sth (d a i) : RoundTrip.Statement (.sth d a i) := by
  intro S W hwf hW
  have hw : W.toNat = S.toNat * 2 ^ 31 + (((((72) * 64 + d.toNat) * 64 + a.toNat) * 512 + i.toNat) * 8 + 0) :=
    (word_nat S _ _ W rfl hW).trans (congrArg _ ((app_nat (0x48#7 ++ d ++ a ++ i) 0x0#3).trans (by rw [app_nat, app_nat, app_nat]; rfl)))
  obtain ⟨hm, h1, h2, h3, hr⟩ := layout12 W _ 72 d.toNat a.toNat i.toNat (by decide) d.isLt a.isLt i.isLt hw
  unfold decodeWord
  rw [hm, field W 18 d h1, field W 12 a h2, field W 3 i h3]
  exact syllable_ok W _ _ hr hwf

theorem RoundTrip.stw (d a i) : RoundTrip.Statement (.stw d a i) := by
  intro S W hwf hW
  have hw : W.toNat = S.toNat * 2 ^ 31 + (((((73) * 64 + d.toNat) * 64 + a.toNat) * 512 + i.toNat) * 8 + 0) :=
    (word_nat S _ _ W rfl hW).trans (congrArg _ ((app_nat (0x49#7 ++ d ++ a ++ i) 0x0#3).trans (by rw [app_nat, app_nat, app_nat]; rfl)))
  obtain ⟨hm, h1, h2, h3, hr⟩ := layout12 W _ 73 d.toNat a.toNat i.toNat (by decide) d.isLt a.isLt i.isLt hw
  unfold decodeWord
  rw [hm, field W 18 d h1, field W 12 a h2, field W 3 i h3]
  exact syllable_ok W _ _ hr hwf

theorem RoundTrip.std (d a i) : RoundTrip.Statement (.std d a i) := by
  intro S W hwf hW
  have hw : W.toNat = S.toNat * 2 ^ 31 + (((((74) * 64 + d.toNat) * 64 + a.toNat) * 512 + i.toNat) * 8 + 0) :=
    (word_nat S _ _ W rfl hW).trans (congrArg _ ((app_nat (0x4A#7 ++ d ++ a ++ i) 0x0#3).trans (by rw [app_nat, app_nat, app_nat]; rfl)))
  obtain ⟨hm, h1, h2, h3, hr⟩ := layout12 W _ 74 d.toNat a.toNat i.toNat (by decide) d.isLt a.isLt i.isLt hw
  unfold decodeWord
  rw [hm, field W 18 d h1, field W 12 a h2, field W 3 i h3]
  exact syllable_ok W _ _ hr hwf

theorem RoundTrip.vld (d a i q) : RoundTrip.Statement (.vld d a i q) := by
  intro S W hwf hW
  have hw : W.toNat = S.toNat * 2 ^ 31 + (((((75) * 64 + d.toNat) * 64 + a.toNat) * 512 + i.toNat) * 8 + q.toNat) :=
    (word_nat S _ _ W rfl hW).trans (congrArg _ ((app_nat (0x4B#7 ++ d ++ a ++ i) q).trans (by rw [app_nat, app_nat, app_nat]; rfl)))
  obtain ⟨hm, h1, h2, h3, h4, hr⟩ := layout13 W _ 75 d.toNat a.toNat i.toNat q.toNat (by decide) d.isLt a.isLt i.isLt q.isLt hw
  unfold decodeWord
  rw [hm, field W 18 d h1, field W 12 a h2, field W 3 i h3, field W 0 q h4]
  exact syllable_ok W _ _ hr hwf

theorem RoundTrip.vst (d a i q) : RoundTrip.Statement (.vst d a i q) := by
  intro S W hwf hW
  have hw : W.toNat = S.toNat * 2 ^ 31 + (((((76) * 64 + d.toNat) * 64 + a.toNat) * 512 + i.toNat) * 8 + q.toNat) :=
    (word_nat S _ _ W rfl hW).trans (congrArg _ ((app_nat (0x4C#7 ++ d ++ a ++ i) q).trans (by rw [app_nat, app_nat, app_nat]; rfl)))
  obtain ⟨hm, h1, h2, h3, h4, hr⟩ := layout13 W _ 76 d.toNat a.toNat i.toNat q.toNat (by decide) d.isLt a.isLt i.isLt q.isLt hw
  unfold decodeWord
  rw [hm, field W 18 d h1, field W 12 a h2, field W 3 i h3, field W 0 q h4]
  exact syllable_ok W _ _ hr hwf

theorem RoundTrip.pref (a) : RoundTrip.Statement (.pref a) := by
  intro S W hwf hW
  have hw : W.toNat = S.toNat * 2 ^ 31 + ((((79) * 64 + 0) * 64 + a.toNat) * 4096 + 0 * 1) :=
    (word_nat S _ _ W rfl hW).trans (congrArg _ ((app_nat (0x4F#7 ++ 0x0#6 ++ a) 0x0#12).trans (by rw [app_nat, app_nat]; rfl)))
  obtain ⟨hm, h2, ht, hr⟩ := layout14 W _ 79 a.toNat 0 (by decide) a.isLt (by decide) hw
  unfold decodeWord
  rw [hm, ht, field W 12 a h2]
  exact syllable_ok W _ _ hr hwf

theorem RoundTrip.drain (a) : RoundTrip.Statement (.drain a) := by
  intro S W hwf hW
  have hw : W.toNat = S.toNat * 2 ^ 31 + ((((81) * 64 + 0) * 64 + a.toNat) * 4096 + 1 * 1) :=
    (word_nat S _ _ W rfl hW).trans (congrArg _ ((app_nat (0x51#7 ++ 0x0#6 ++ a) 0x1#12).trans (by rw [app_nat, app_nat]; rfl)))
  obtain ⟨hm, h2, ht, hr⟩ := layout14 W _ 81 a.toNat 1 (by decide) a.isLt (by decide) hw
  unfold decodeWord
  rw [hm, ht, field W 12 a h2]
  exact syllable_ok W _ _ hr hwf

theorem RoundTrip.afree (a) : RoundTrip.Statement (.afree a) := by
  intro S W hwf hW
  have hw : W.toNat = S.toNat * 2 ^ 31 + ((((85) * 64 + 0) * 64 + a.toNat) * 4096 + 5 * 1) :=
    (word_nat S _ _ W rfl hW).trans (congrArg _ ((app_nat (0x55#7 ++ 0x0#6 ++ a) 0x5#12).trans (by rw [app_nat, app_nat]; rfl)))
  obtain ⟨hm, h2, ht, hr⟩ := layout14 W _ 85 a.toNat 5 (by decide) a.isLt (by decide) hw
  unfold decodeWord
  rw [hm, ht, field W 12 a h2]
  exact syllable_ok W _ _ hr hwf

theorem RoundTrip.jr (a) : RoundTrip.Statement (.jr a) := by
  intro S W hwf hW
  have hw : W.toNat = S.toNat * 2 ^ 31 + ((((92) * 64 + 0) * 64 + a.toNat) * 4096 + 0 * 1) :=
    (word_nat S _ _ W rfl hW).trans (congrArg _ ((app_nat (0x5C#7 ++ 0x0#6 ++ a) 0x0#12).trans (by rw [app_nat, app_nat]; rfl)))
  obtain ⟨hm, h2, ht, hr⟩ := layout14 W _ 92 a.toNat 0 (by decide) a.isLt (by decide) hw
  unfold decodeWord
  rw [hm, ht, field W 12 a h2]
  exact syllable_ok W _ _ hr hwf

theorem RoundTrip.assert (a) : RoundTrip.Statement (.assert a) := by
  intro S W hwf hW
  have hw : W.toNat = S.toNat * 2 ^ 31 + ((((115) * 64 + 0) * 64 + a.toNat) * 4096 + 0 * 1) :=
    (word_nat S _ _ W rfl hW).trans (congrArg _ ((app_nat (0x73#7 ++ 0x0#6 ++ a) 0x0#12).trans (by rw [app_nat, app_nat]; rfl)))
  obtain ⟨hm, h2, ht, hr⟩ := layout14 W _ 115 a.toNat 0 (by decide) a.isLt (by decide) hw
  unfold decodeWord
  rw [hm, ht, field W 12 a h2]
  exact syllable_ok W _ _ hr hwf

theorem RoundTrip.res (a b) : RoundTrip.Statement (.res a b) := by
  intro S W hwf hW
  have hw : W.toNat = S.toNat * 2 ^ 31 + (((((79) * 64 + 0) * 64 + a.toNat) * 64 + b.toNat) * 64 + 1 * 1) :=
    (word_nat S _ _ W rfl hW).trans (congrArg _ ((app_nat (0x4F#7 ++ 0x0#6 ++ a ++ b) 0x1#6).trans (by rw [app_nat, app_nat, app_nat]; rfl)))
  obtain ⟨hm, h2, h3, ht, hr⟩ := layout15 W _ 79 a.toNat b.toNat 1 (by decide) a.isLt b.isLt (by decide) hw
  unfold decodeWord
  rw [hm, ht, field W 12 a h2, field W 6 b h3]
  exact syllable_ok W _ _ hr hwf

theorem RoundTrip.stt (a b) : RoundTrip.Statement (.stt a b) := by
  intro S W hwf hW
  have hw : W.toNat = S.toNat * 2 ^ 31 + (((((80) * 64 + 0) * 64 + a.toNat) * 64 + b.toNat) * 64 + 2 * 1) :=
    (word_nat S _ _ W rfl hW).trans (congrArg _ ((app_nat (0x50#7 ++ 0x0#6 ++ a ++ b) 0x2#6).trans (by rw [app_nat, app_nat, app_nat]; rfl)))
  obtain ⟨hm, h2, h3, ht, hr⟩ := layout15 W _ 80 a.toNat b.toNat 2 (by decide) a.isLt b.isLt (by decide) hw
  unfold decodeWord
  rw [hm, ht, field W 12 a h2, field W 6 b h3]
  exact syllable_ok W _ _ hr hwf

theorem RoundTrip.tagw (a b) : RoundTrip.Statement (.tagw a b) := by
  intro S W hwf hW
  have hw : W.toNat = S.toNat * 2 ^ 31 + (((((80) * 64 + 0) * 64 + a.toNat) * 64 + b.toNat) * 64 + 5 * 1) :=
    (word_nat S _ _ W rfl hW).trans (congrArg _ ((app_nat (0x50#7 ++ 0x0#6 ++ a ++ b) 0x5#6).trans (by rw [app_nat, app_nat, app_nat]; rfl)))
  obtain ⟨hm, h2, h3, ht, hr⟩ := layout15 W _ 80 a.toNat b.toNat 5 (by decide) a.isLt b.isLt (by decide) hw
  unfold decodeWord
  rw [hm, ht, field W 12 a h2, field W 6 b h3]
  exact syllable_ok W _ _ hr hwf

theorem RoundTrip.ainit (a b) : RoundTrip.Statement (.ainit a b) := by
  intro S W hwf hW
  have hw : W.toNat = S.toNat * 2 ^ 31 + (((((85) * 64 + 0) * 64 + a.toNat) * 64 + b.toNat) * 64 + 0 * 1) :=
    (word_nat S _ _ W rfl hW).trans (congrArg _ ((app_nat (0x55#7 ++ 0x0#6 ++ a ++ b) 0x0#6).trans (by rw [app_nat, app_nat, app_nat]; rfl)))
  obtain ⟨hm, h2, h3, ht, hr⟩ := layout15 W _ 85 a.toNat b.toNat 0 (by decide) a.isLt b.isLt (by decide) hw
  unfold decodeWord
  rw [hm, ht, field W 12 a h2, field W 6 b h3]
  exact syllable_ok W _ _ hr hwf

theorem RoundTrip.ainc (a b) : RoundTrip.Statement (.ainc a b) := by
  intro S W hwf hW
  have hw : W.toNat = S.toNat * 2 ^ 31 + (((((85) * 64 + 0) * 64 + a.toNat) * 64 + b.toNat) * 64 + 2 * 1) :=
    (word_nat S _ _ W rfl hW).trans (congrArg _ ((app_nat (0x55#7 ++ 0x0#6 ++ a ++ b) 0x2#6).trans (by rw [app_nat, app_nat, app_nat]; rfl)))
  obtain ⟨hm, h2, h3, ht, hr⟩ := layout15 W _ 85 a.toNat b.toNat 2 (by decide) a.isLt b.isLt (by decide) hw
  unfold decodeWord
  rw [hm, ht, field W 12 a h2, field W 6 b h3]
  exact syllable_ok W _ _ hr hwf

theorem RoundTrip.guard (a b) : RoundTrip.Statement (.guard a b) := by
  intro S W hwf hW
  have hw : W.toNat = S.toNat * 2 ^ 31 + (((((114) * 64 + 0) * 64 + a.toNat) * 64 + b.toNat) * 64 + 0 * 1) :=
    (word_nat S _ _ W rfl hW).trans (congrArg _ ((app_nat (0x72#7 ++ 0x0#6 ++ a ++ b) 0x0#6).trans (by rw [app_nat, app_nat, app_nat]; rfl)))
  obtain ⟨hm, h2, h3, ht, hr⟩ := layout15 W _ 114 a.toNat b.toNat 0 (by decide) a.isLt b.isLt (by decide) hw
  unfold decodeWord
  rw [hm, ht, field W 12 a h2, field W 6 b h3]
  exact syllable_ok W _ _ hr hwf

theorem RoundTrip.copWb (a b) : RoundTrip.Statement (.copWb a b) := by
  intro S W hwf hW
  have hw : W.toNat = S.toNat * 2 ^ 31 + (((((120) * 64 + 0) * 64 + a.toNat) * 64 + b.toNat) * 64 + 0 * 1) :=
    (word_nat S _ _ W rfl hW).trans (congrArg _ ((app_nat (0x78#7 ++ 0x0#6 ++ a ++ b) 0x0#6).trans (by rw [app_nat, app_nat, app_nat]; rfl)))
  obtain ⟨hm, h2, h3, ht, hr⟩ := layout15 W _ 120 a.toNat b.toNat 0 (by decide) a.isLt b.isLt (by decide) hw
  unfold decodeWord
  rw [hm, ht, field W 12 a h2, field W 6 b h3]
  exact syllable_ok W _ _ hr hwf

theorem RoundTrip.copInv (a b) : RoundTrip.Statement (.copInv a b) := by
  intro S W hwf hW
  have hw : W.toNat = S.toNat * 2 ^ 31 + (((((120) * 64 + 0) * 64 + a.toNat) * 64 + b.toNat) * 64 + 1 * 1) :=
    (word_nat S _ _ W rfl hW).trans (congrArg _ ((app_nat (0x78#7 ++ 0x0#6 ++ a ++ b) 0x1#6).trans (by rw [app_nat, app_nat, app_nat]; rfl)))
  obtain ⟨hm, h2, h3, ht, hr⟩ := layout15 W _ 120 a.toNat b.toNat 1 (by decide) a.isLt b.isLt (by decide) hw
  unfold decodeWord
  rw [hm, ht, field W 12 a h2, field W 6 b h3]
  exact syllable_ok W _ _ hr hwf

theorem RoundTrip.fenceAcq (b) : RoundTrip.Statement (.fenceAcq b) := by
  intro S W hwf hW
  have hw : W.toNat = S.toNat * 2 ^ 31 + ((((81) * 4096 + 0) * 64 + b.toNat) * 64 + 2 * 1) :=
    (word_nat S _ _ W rfl hW).trans (congrArg _ ((app_nat (0x51#7 ++ 0x0#12 ++ b) 0x2#6).trans (by rw [app_nat, app_nat]; rfl)))
  obtain ⟨hm, h2, ht, hr⟩ := layout16 W _ 81 b.toNat 2 (by decide) b.isLt (by decide) hw
  unfold decodeWord
  rw [hm, ht, field W 6 b h2]
  exact syllable_ok W _ _ hr hwf

theorem RoundTrip.fenceRel (b) : RoundTrip.Statement (.fenceRel b) := by
  intro S W hwf hW
  have hw : W.toNat = S.toNat * 2 ^ 31 + ((((81) * 4096 + 0) * 64 + b.toNat) * 64 + 3 * 1) :=
    (word_nat S _ _ W rfl hW).trans (congrArg _ ((app_nat (0x51#7 ++ 0x0#12 ++ b) 0x3#6).trans (by rw [app_nat, app_nat]; rfl)))
  obtain ⟨hm, h2, ht, hr⟩ := layout16 W _ 81 b.toNat 3 (by decide) b.isLt (by decide) hw
  unfold decodeWord
  rw [hm, ht, field W 6 b h2]
  exact syllable_ok W _ _ hr hwf

theorem RoundTrip.fenceFull (b) : RoundTrip.Statement (.fenceFull b) := by
  intro S W hwf hW
  have hw : W.toNat = S.toNat * 2 ^ 31 + ((((81) * 4096 + 0) * 64 + b.toNat) * 64 + 4 * 1) :=
    (word_nat S _ _ W rfl hW).trans (congrArg _ ((app_nat (0x51#7 ++ 0x0#12 ++ b) 0x4#6).trans (by rw [app_nat, app_nat]; rfl)))
  obtain ⟨hm, h2, ht, hr⟩ := layout16 W _ 81 b.toNat 4 (by decide) b.isLt (by decide) hw
  unfold decodeWord
  rw [hm, ht, field W 6 b h2]
  exact syllable_ok W _ _ hr hwf

theorem RoundTrip.barArrive (j) : RoundTrip.Statement (.barArrive j) := by
  intro S W hwf hW
  have hw : W.toNat = S.toNat * 2 ^ 31 + (((83) * 64 + j.toNat) * 262144 + 1 * 1) :=
    (word_nat S _ _ W rfl hW).trans (congrArg _ ((app_nat (0x53#7 ++ j) 0x1#18).trans (by rw [app_nat]; rfl)))
  obtain ⟨hm, h1, ht, hr⟩ := layout17 W _ 83 j.toNat 1 (by decide) j.isLt (by decide) hw
  unfold decodeWord
  rw [hm, ht, field W 18 j h1]
  exact syllable_ok W _ _ hr hwf

theorem RoundTrip.barWait (j) : RoundTrip.Statement (.barWait j) := by
  intro S W hwf hW
  have hw : W.toNat = S.toNat * 2 ^ 31 + (((83) * 64 + j.toNat) * 262144 + 2 * 1) :=
    (word_nat S _ _ W rfl hW).trans (congrArg _ ((app_nat (0x53#7 ++ j) 0x2#18).trans (by rw [app_nat]; rfl)))
  obtain ⟨hm, h1, ht, hr⟩ := layout17 W _ 83 j.toNat 2 (by decide) j.isLt (by decide) hw
  unfold decodeWord
  rw [hm, ht, field W 18 j h1]
  exact syllable_ok W _ _ hr hwf

theorem RoundTrip.join : RoundTrip.Statement (.join) := by
  intro S W hwf hW
  have hw : W.toNat = S.toNat * 2 ^ 31 + ((94) * 16777216 + 0) :=
    (word_nat S _ _ W rfl hW).trans (congrArg _ ((app_nat (0x5E#7) 0x0#24).trans (rfl)))
  obtain ⟨hm, ht, hj, hr⟩ := layout18 W _ 94 (by decide) hw
  unfold decodeWord
  rw [hm, ht]
  rw [if_neg (fun h => by rw [h] at hj; exact absurd hj (by decide))]
  exact syllable_ok W _ _ hr hwf

theorem RoundTrip.joinAll : RoundTrip.Statement (.joinAll) := by
  intro S W hwf hW
  have hw : W.toNat = S.toNat * 2 ^ 31 + ((94) * 16777216 + 64) :=
    (word_nat S _ _ W rfl hW).trans (congrArg _ ((app_nat (0x5E#7) 0x40#24).trans (rfl)))
  obtain ⟨hm, ht, hj, hr⟩ := layout19 W _ 94 (by decide) hw
  unfold decodeWord
  rw [hm, ht]
  rw [if_pos (BitVec.eq_of_toNat_eq hj)]
  exact syllable_ok W _ _ hr hwf

theorem RoundTrip.yield : RoundTrip.Statement (.yield) := by
  intro S W hwf hW
  have hw : W.toNat = S.toNat * 2 ^ 31 + ((94) * 16777216 + 1 * 1) :=
    (word_nat S _ _ W rfl hW).trans (congrArg _ ((app_nat (0x5E#7) 0x1#24).trans (rfl)))
  obtain ⟨hm, ht, hr⟩ := layout20 W _ 94 1 (by decide) (by decide) hw
  unfold decodeWord
  rw [hm, ht]
  exact syllable_ok W _ _ hr hwf

theorem RoundTrip.exit : RoundTrip.Statement (.exit) := by
  intro S W hwf hW
  have hw : W.toNat = S.toNat * 2 ^ 31 + ((94) * 16777216 + 2 * 1) :=
    (word_nat S _ _ W rfl hW).trans (congrArg _ ((app_nat (0x5E#7) 0x2#24).trans (rfl)))
  obtain ⟨hm, ht, hr⟩ := layout20 W _ 94 2 (by decide) (by decide) hw
  unfold decodeWord
  rw [hm, ht]
  exact syllable_ok W _ _ hr hwf

theorem RoundTrip.commit : RoundTrip.Statement (.commit) := by
  intro S W hwf hW
  have hw : W.toNat = S.toNat * 2 ^ 31 + ((113) * 16777216 + 0 * 1) :=
    (word_nat S _ _ W rfl hW).trans (congrArg _ ((app_nat (0x71#7) 0x0#24).trans (rfl)))
  obtain ⟨hm, ht, hr⟩ := layout20 W _ 113 0 (by decide) (by decide) hw
  unfold decodeWord
  rw [hm, ht]
  exact syllable_ok W _ _ hr hwf

theorem RoundTrip.abort : RoundTrip.Statement (.abort) := by
  intro S W hwf hW
  have hw : W.toNat = S.toNat * 2 ^ 31 + ((116) * 16777216 + 0 * 1) :=
    (word_nat S _ _ W rfl hW).trans (congrArg _ ((app_nat (0x74#7) 0x0#24).trans (rfl)))
  obtain ⟨hm, ht, hr⟩ := layout20 W _ 116 0 (by decide) (by decide) hw
  unfold decodeWord
  rw [hm, ht]
  exact syllable_ok W _ _ hr hwf

theorem RoundTrip.trap (c) : RoundTrip.Statement (.trap c) := by
  intro S W hwf hW
  have hw : W.toNat = S.toNat * 2 ^ 31 + ((((94) * 64 + 0) * 4096 + c.toNat) * 64 + 3 * 1) :=
    (word_nat S _ _ W rfl hW).trans (congrArg _ ((app_nat (0x5E#7 ++ 0x0#6 ++ c) 0x3#6).trans (by rw [app_nat, app_nat]; rfl)))
  obtain ⟨hm, h2, ht, hr⟩ := layout21 W _ 94 c.toNat 3 (by decide) c.isLt (by decide) hw
  unfold decodeWord
  rw [hm, ht, field W 6 c h2]
  exact syllable_ok W _ _ hr hwf

theorem RoundTrip.fmt (a) : RoundTrip.Statement (.fmt a) := by
  intro S W hwf hW
  have hw : W.toNat = S.toNat * 2 ^ 31 + ((((96) * 64 + 0) * 64 + a.toNat) * 4096 + 0) :=
    (word_nat S _ _ W rfl hW).trans (congrArg _ ((app_nat (0x60#7 ++ 0x0#6 ++ a) 0x0#12).trans (by rw [app_nat, app_nat]; rfl)))
  obtain ⟨hm, h2, hr⟩ := layout22 W _ 96 a.toNat (by decide) a.isLt hw
  unfold decodeWord
  rw [hm, field W 12 a h2]
  exact syllable_ok W _ _ hr hwf

theorem RoundTrip.mlatch (a w) : RoundTrip.Statement (.mlatch a w) := by
  intro S W hwf hW
  have hw : W.toNat = S.toNat * 2 ^ 31 + (((((97) * 64 + 0) * 64 + a.toNat) * 4 + w.toNat) * 1024 + 0) :=
    (word_nat S _ _ W rfl hW).trans (congrArg _ ((app_nat (0x61#7 ++ 0x0#6 ++ a ++ w) 0x0#10).trans (by rw [app_nat, app_nat, app_nat]; rfl)))
  obtain ⟨hm, h2, h3, hr⟩ := layout23 W _ 97 a.toNat w.toNat (by decide) a.isLt w.isLt hw
  unfold decodeWord
  rw [hm, field W 12 a h2, field W 10 w h3]
  exact syllable_ok W _ _ hr hwf

theorem RoundTrip.mgather (c a q t) : RoundTrip.Statement (.mgather c a q t) := by
  intro S W hwf hW
  have hw : W.toNat = S.toNat * 2 ^ 31 + (((((((98) * 64 + c.toNat) * 64 + a.toNat) * 64 + 0) * 8 + q.toNat) * 4 + 0) * 2 + t.toNat) :=
    (word_nat S _ _ W rfl hW).trans (congrArg _ ((app_nat (0x62#7 ++ c ++ a ++ 0x0#6 ++ q ++ 0x0#2) t).trans (by rw [app_nat, app_nat, app_nat, app_nat, app_nat]; rfl)))
  obtain ⟨hm, h1, h2, h4, h6, hr⟩ := layout24 W _ 98 c.toNat a.toNat q.toNat t.toNat (by decide) c.isLt a.isLt q.isLt t.isLt hw
  unfold decodeWord
  rw [hm, field W 18 c h1, field W 12 a h2, field W 3 q h4, field W 0 t h6]
  exact syllable_ok W _ _ hr hwf

theorem RoundTrip.mma (w z c t) : RoundTrip.Statement (.mma w z c t) := by
  intro S W hwf hW
  have hw : W.toNat = S.toNat * 2 ^ 31 + ((((((((99) * 4096 + 0) * 4 + w.toNat) * 8 + 0) * 2 + z.toNat) * 16 + 0) * 2 + c.toNat) * 2 + t.toNat) :=
    (word_nat S _ _ W rfl hW).trans (congrArg _ ((app_nat (0x63#7 ++ 0x0#12 ++ w ++ 0x0#3 ++ z ++ 0x0#4 ++ c) t).trans (by rw [app_nat, app_nat, app_nat, app_nat, app_nat, app_nat]; rfl)))
  obtain ⟨hm, h2, h4, h6, h7, hr⟩ := layout25 W _ 99 w.toNat z.toNat c.toNat t.toNat (by decide) w.isLt z.isLt c.isLt t.isLt hw
  unfold decodeWord
  rw [hm, field W 10 w h2, field W 6 z h4, field W 1 c h6, field W 0 t h7]
  exact syllable_ok W _ _ hr hwf

theorem RoundTrip.mmas (w z c t) : RoundTrip.Statement (.mmas w z c t) := by
  intro S W hwf hW
  have hw : W.toNat = S.toNat * 2 ^ 31 + ((((((((100) * 4096 + 0) * 4 + w.toNat) * 8 + 0) * 2 + z.toNat) * 16 + 0) * 2 + c.toNat) * 2 + t.toNat) :=
    (word_nat S _ _ W rfl hW).trans (congrArg _ ((app_nat (0x64#7 ++ 0x0#12 ++ w ++ 0x0#3 ++ z ++ 0x0#4 ++ c) t).trans (by rw [app_nat, app_nat, app_nat, app_nat, app_nat, app_nat]; rfl)))
  obtain ⟨hm, h2, h4, h6, h7, hr⟩ := layout25 W _ 100 w.toNat z.toNat c.toNat t.toNat (by decide) w.isLt z.isLt c.isLt t.isLt hw
  unfold decodeWord
  rw [hm, field W 10 w h2, field W 6 z h4, field W 1 c h6, field W 0 t h7]
  exact syllable_ok W _ _ hr hwf

theorem RoundTrip.mst (a f c) : RoundTrip.Statement (.mst a f c) := by
  intro S W hwf hW
  have hw : W.toNat = S.toNat * 2 ^ 31 + ((((((((101) * 64 + 0) * 64 + a.toNat) * 4 + 0) * 16 + f.toNat) * 16 + 0) * 2 + c.toNat) * 2 + 0) :=
    (word_nat S _ _ W rfl hW).trans (congrArg _ ((app_nat (0x65#7 ++ 0x0#6 ++ a ++ 0x0#2 ++ f ++ 0x0#4 ++ c) 0x0#1).trans (by rw [app_nat, app_nat, app_nat, app_nat, app_nat, app_nat]; rfl)))
  obtain ⟨hm, h2, h4, h6, hr⟩ := layout26 W _ 101 a.toNat f.toNat c.toNat (by decide) a.isLt f.isLt c.isLt hw
  unfold decodeWord
  rw [hm, field W 12 a h2, field W 6 f h4, field W 1 c h6]
  exact syllable_ok W _ _ hr hwf

theorem RoundTrip.mkat (a n) : RoundTrip.Statement (.mkat a n) := by
  intro S W hwf hW
  have hw : W.toNat = S.toNat * 2 ^ 31 + ((((((102) * 64 + 0) * 64 + a.toNat) * 8 + 0) * 8 + n.toNat) * 64 + 0) :=
    (word_nat S _ _ W rfl hW).trans (congrArg _ ((app_nat (0x66#7 ++ 0x0#6 ++ a ++ 0x0#3 ++ n) 0x0#6).trans (by rw [app_nat, app_nat, app_nat, app_nat]; rfl)))
  obtain ⟨hm, h2, h4, hr⟩ := layout27 W _ 102 a.toNat n.toNat (by decide) a.isLt n.isLt hw
  unfold decodeWord
  rw [hm, field W 12 a h2, field W 6 n h4]
  exact syllable_ok W _ _ hr hwf

theorem RoundTrip.cpSrc (a) : RoundTrip.Statement (.cpSrc a) := by
  intro S W hwf hW
  have hw : W.toNat = S.toNat * 2 ^ 31 + (((104) * 64 + a.toNat) * 262144 + 0 * 256) :=
    (word_nat S _ _ W rfl hW).trans (congrArg _ ((app_nat (0x68#7 ++ a) 0x0#18).trans (by rw [app_nat]; rfl)))
  obtain ⟨hm, h1, ht, hr⟩ := layout28 W _ 104 a.toNat 0 (by decide) a.isLt (by decide) hw
  unfold decodeWord
  rw [hm, ht, field W 18 a h1]
  exact syllable_ok W _ _ hr hwf

theorem RoundTrip.cpDst (a) : RoundTrip.Statement (.cpDst a) := by
  intro S W hwf hW
  have hw : W.toNat = S.toNat * 2 ^ 31 + (((104) * 64 + a.toNat) * 262144 + 1 * 256) :=
    (word_nat S _ _ W rfl hW).trans (congrArg _ ((app_nat (0x68#7 ++ a) 0x100#18).trans (by rw [app_nat]; rfl)))
  obtain ⟨hm, h1, ht, hr⟩ := layout28 W _ 104 a.toNat 1 (by decide) a.isLt (by decide) hw
  unfold decodeWord
  rw [hm, ht, field W 18 a h1]
  exact syllable_ok W _ _ hr hwf

theorem RoundTrip.cpStatus (d) : RoundTrip.Statement (.cpStatus d) := by
  intro S W hwf hW
  have hw : W.toNat = S.toNat * 2 ^ 31 + (((104) * 64 + d.toNat) * 262144 + 6 * 256) :=
    (word_nat S _ _ W rfl hW).trans (congrArg _ ((app_nat (0x68#7 ++ d) 0x600#18).trans (by rw [app_nat]; rfl)))
  obtain ⟨hm, h1, ht, hr⟩ := layout28 W _ 104 d.toNat 6 (by decide) d.isLt (by decide) hw
  unfold decodeWord
  rw [hm, ht, field W 18 d h1]
  exact syllable_ok W _ _ hr hwf

theorem RoundTrip.msLen (a) : RoundTrip.Statement (.msLen a) := by
  intro S W hwf hW
  have hw : W.toNat = S.toNat * 2 ^ 31 + (((105) * 64 + a.toNat) * 262144 + 0 * 256) :=
    (word_nat S _ _ W rfl hW).trans (congrArg _ ((app_nat (0x69#7 ++ a) 0x0#18).trans (by rw [app_nat]; rfl)))
  obtain ⟨hm, h1, ht, hr⟩ := layout28 W _ 105 a.toNat 0 (by decide) a.isLt (by decide) hw
  unfold decodeWord
  rw [hm, ht, field W 18 a h1]
  exact syllable_ok W _ _ hr hwf

theorem RoundTrip.msCw (a) : RoundTrip.Statement (.msCw a) := by
  intro S W hwf hW
  have hw : W.toNat = S.toNat * 2 ^ 31 + (((105) * 64 + a.toNat) * 262144 + 1 * 256) :=
    (word_nat S _ _ W rfl hW).trans (congrArg _ ((app_nat (0x69#7 ++ a) 0x100#18).trans (by rw [app_nat]; rfl)))
  obtain ⟨hm, h1, ht, hr⟩ := layout28 W _ 105 a.toNat 1 (by decide) a.isLt (by decide) hw
  unfold decodeWord
  rw [hm, ht, field W 18 a h1]
  exact syllable_ok W _ _ hr hwf

theorem RoundTrip.msZero (a) : RoundTrip.Statement (.msZero a) := by
  intro S W hwf hW
  have hw : W.toNat = S.toNat * 2 ^ 31 + (((105) * 64 + a.toNat) * 262144 + 2 * 256) :=
    (word_nat S _ _ W rfl hW).trans (congrArg _ ((app_nat (0x69#7 ++ a) 0x200#18).trans (by rw [app_nat]; rfl)))
  obtain ⟨hm, h1, ht, hr⟩ := layout28 W _ 105 a.toNat 2 (by decide) a.isLt (by decide) hw
  unfold decodeWord
  rw [hm, ht, field W 18 a h1]
  exact syllable_ok W _ _ hr hwf

theorem RoundTrip.cpDims (a b n) : RoundTrip.Statement (.cpDims a b n) := by
  intro S W hwf hW
  have hw : W.toNat = S.toNat * 2 ^ 31 + ((((((104) * 64 + a.toNat) * 64 + b.toNat) * 16 + 2 * 1) * 32 + n.toNat) * 8 + 0) :=
    (word_nat S _ _ W rfl hW).trans (congrArg _ ((app_nat (0x68#7 ++ a ++ b ++ 0x2#4 ++ n) 0x0#3).trans (by rw [app_nat, app_nat, app_nat, app_nat]; rfl)))
  obtain ⟨hm, h1, h2, ht, h4, hr⟩ := layout29 W _ 104 a.toNat b.toNat 2 n.toNat (by decide) a.isLt b.isLt (by decide) n.isLt hw
  unfold decodeWord
  rw [hm, ht, field W 18 a h1, field W 12 b h2, field W 3 n h4]
  exact syllable_ok W _ _ hr hwf

theorem RoundTrip.lkSend (a b p) : RoundTrip.Statement (.lkSend a b p) := by
  intro S W hwf hW
  have hw : W.toNat = S.toNat * 2 ^ 31 + ((((((106) * 64 + a.toNat) * 64 + b.toNat) * 16 + 1 * 1) * 32 + p.toNat) * 8 + 0) :=
    (word_nat S _ _ W rfl hW).trans (congrArg _ ((app_nat (0x6A#7 ++ a ++ b ++ 0x1#4 ++ p) 0x0#3).trans (by rw [app_nat, app_nat, app_nat, app_nat]; rfl)))
  obtain ⟨hm, h1, h2, ht, h4, hr⟩ := layout29 W _ 106 a.toNat b.toNat 1 p.toNat (by decide) a.isLt b.isLt (by decide) p.isLt hw
  unfold decodeWord
  rw [hm, ht, field W 18 a h1, field W 12 b h2, field W 3 p h4]
  exact syllable_ok W _ _ hr hwf

theorem RoundTrip.lkRecv (a b p) : RoundTrip.Statement (.lkRecv a b p) := by
  intro S W hwf hW
  have hw : W.toNat = S.toNat * 2 ^ 31 + ((((((106) * 64 + a.toNat) * 64 + b.toNat) * 16 + 2 * 1) * 32 + p.toNat) * 8 + 0) :=
    (word_nat S _ _ W rfl hW).trans (congrArg _ ((app_nat (0x6A#7 ++ a ++ b ++ 0x2#4 ++ p) 0x0#3).trans (by rw [app_nat, app_nat, app_nat, app_nat]; rfl)))
  obtain ⟨hm, h1, h2, ht, h4, hr⟩ := layout29 W _ 106 a.toNat b.toNat 2 p.toNat (by decide) a.isLt b.isLt (by decide) p.isLt hw
  unfold decodeWord
  rw [hm, ht, field W 18 a h1, field W 12 b h2, field W 3 p h4]
  exact syllable_ok W _ _ hr hwf

theorem RoundTrip.lkRaddF32 (a b p) : RoundTrip.Statement (.lkRaddF32 a b p) := by
  intro S W hwf hW
  have hw : W.toNat = S.toNat * 2 ^ 31 + ((((((106) * 64 + a.toNat) * 64 + b.toNat) * 16 + 3 * 1) * 32 + p.toNat) * 8 + 0) :=
    (word_nat S _ _ W rfl hW).trans (congrArg _ ((app_nat (0x6A#7 ++ a ++ b ++ 0x3#4 ++ p) 0x0#3).trans (by rw [app_nat, app_nat, app_nat, app_nat]; rfl)))
  obtain ⟨hm, h1, h2, ht, h4, hr⟩ := layout29 W _ 106 a.toNat b.toNat 3 p.toNat (by decide) a.isLt b.isLt (by decide) p.isLt hw
  unfold decodeWord
  rw [hm, ht, field W 18 a h1, field W 12 b h2, field W 3 p h4]
  exact syllable_ok W _ _ hr hwf

theorem RoundTrip.lkRaddBf16 (a b p) : RoundTrip.Statement (.lkRaddBf16 a b p) := by
  intro S W hwf hW
  have hw : W.toNat = S.toNat * 2 ^ 31 + ((((((106) * 64 + a.toNat) * 64 + b.toNat) * 16 + 4 * 1) * 32 + p.toNat) * 8 + 0) :=
    (word_nat S _ _ W rfl hW).trans (congrArg _ ((app_nat (0x6A#7 ++ a ++ b ++ 0x4#4 ++ p) 0x0#3).trans (by rw [app_nat, app_nat, app_nat, app_nat]; rfl)))
  obtain ⟨hm, h1, h2, ht, h4, hr⟩ := layout29 W _ 106 a.toNat b.toNat 4 p.toNat (by decide) a.isLt b.isLt (by decide) p.isLt hw
  unfold decodeWord
  rw [hm, ht, field W 18 a h1, field W 12 b h2, field W 3 p h4]
  exact syllable_ok W _ _ hr hwf

theorem RoundTrip.lkRaddI32 (a b p) : RoundTrip.Statement (.lkRaddI32 a b p) := by
  intro S W hwf hW
  have hw : W.toNat = S.toNat * 2 ^ 31 + ((((((106) * 64 + a.toNat) * 64 + b.toNat) * 16 + 5 * 1) * 32 + p.toNat) * 8 + 0) :=
    (word_nat S _ _ W rfl hW).trans (congrArg _ ((app_nat (0x6A#7 ++ a ++ b ++ 0x5#4 ++ p) 0x0#3).trans (by rw [app_nat, app_nat, app_nat, app_nat]; rfl)))
  obtain ⟨hm, h1, h2, ht, h4, hr⟩ := layout29 W _ 106 a.toNat b.toNat 5 p.toNat (by decide) a.isLt b.isLt (by decide) p.isLt hw
  unfold decodeWord
  rw [hm, ht, field W 18 a h1, field W 12 b h2, field W 3 p h4]
  exact syllable_ok W _ _ hr hwf

theorem RoundTrip.cpDimd (b n) : RoundTrip.Statement (.cpDimd b n) := by
  intro S W hwf hW
  have hw : W.toNat = S.toNat * 2 ^ 31 + ((((((104) * 64 + 0) * 64 + b.toNat) * 16 + 3 * 1) * 32 + n.toNat) * 8 + 0) :=
    (word_nat S _ _ W rfl hW).trans (congrArg _ ((app_nat (0x68#7 ++ 0x0#6 ++ b ++ 0x3#4 ++ n) 0x0#3).trans (by rw [app_nat, app_nat, app_nat, app_nat]; rfl)))
  obtain ⟨hm, h2, ht, h4, hr⟩ := layout30 W _ 104 b.toNat 3 n.toNat (by decide) b.isLt (by decide) n.isLt hw
  unfold decodeWord
  rw [hm, ht, field W 12 b h2, field W 3 n h4]
  exact syllable_ok W _ _ hr hwf

theorem RoundTrip.cpGo (a n) : RoundTrip.Statement (.cpGo a n) := by
  intro S W hwf hW
  have hw : W.toNat = S.toNat * 2 ^ 31 + (((((104) * 64 + a.toNat) * 1024 + 4 * 1) * 32 + n.toNat) * 8 + 0) :=
    (word_nat S _ _ W rfl hW).trans (congrArg _ ((app_nat (0x68#7 ++ a ++ 0x4#10 ++ n) 0x0#3).trans (by rw [app_nat, app_nat, app_nat]; rfl)))
  obtain ⟨hm, h1, ht, h3, hr⟩ := layout31 W _ 104 a.toNat 4 n.toNat (by decide) a.isLt (by decide) n.isLt hw
  unfold decodeWord
  rw [hm, ht, field W 18 a h1, field W 3 n h3]
  exact syllable_ok W _ _ hr hwf

theorem RoundTrip.lkCw (a p) : RoundTrip.Statement (.lkCw a p) := by
  intro S W hwf hW
  have hw : W.toNat = S.toNat * 2 ^ 31 + (((((106) * 64 + a.toNat) * 1024 + 0 * 1) * 32 + p.toNat) * 8 + 0) :=
    (word_nat S _ _ W rfl hW).trans (congrArg _ ((app_nat (0x6A#7 ++ a ++ 0x0#10 ++ p) 0x0#3).trans (by rw [app_nat, app_nat, app_nat]; rfl)))
  obtain ⟨hm, h1, ht, h3, hr⟩ := layout31 W _ 106 a.toNat 0 p.toNat (by decide) a.isLt (by decide) p.isLt hw
  unfold decodeWord
  rw [hm, ht, field W 18 a h1, field W 3 p h3]
  exact syllable_ok W _ _ hr hwf

theorem RoundTrip.cpQfence (m) : RoundTrip.Statement (.cpQfence m) := by
  intro S W hwf hW
  have hw : W.toNat = S.toNat * 2 ^ 31 + ((((((104) * 512 + 0) * 8 + (m.extractLsb' 5 3).toNat) * 16 + 5 * 1) * 32 + (m.extractLsb' 0 5).toNat) * 8 + 0) :=
    (word_nat S _ _ W rfl hW).trans (congrArg _ ((app_nat (0x68#7 ++ 0x0#9 ++ (m.extractLsb' 5 3) ++ 0x5#4 ++ (m.extractLsb' 0 5)) 0x0#3).trans (by rw [app_nat, app_nat, app_nat, app_nat]; rfl)))
  obtain ⟨hm, h2, ht, h4, hr⟩ := layout32 W _ 104 ((m.extractLsb' 5 3).toNat) 5 ((m.extractLsb' 0 5).toNat) (by decide) (m.extractLsb' 5 3).isLt (by decide) (m.extractLsb' 0 5).isLt hw
  unfold decodeWord
  rw [hm, ht, field W 12 (m.extractLsb' 5 3) h2, field W 3 (m.extractLsb' 0 5) h4]
  rw [mask_halves]
  exact syllable_ok W _ _ hr hwf

theorem RoundTrip.cpWait (n) : RoundTrip.Statement (.cpWait n) := by
  intro S W hwf hW
  have hw : W.toNat = S.toNat * 2 ^ 31 + ((((104) * 65536 + 7 * 1) * 32 + n.toNat) * 8 + 0) :=
    (word_nat S _ _ W rfl hW).trans (congrArg _ ((app_nat (0x68#7 ++ 0x7#16 ++ n) 0x0#3).trans (by rw [app_nat, app_nat]; rfl)))
  obtain ⟨hm, ht, h2, hr⟩ := layout33 W _ 104 7 n.toNat (by decide) (by decide) n.isLt hw
  unfold decodeWord
  rw [hm, ht, field W 3 n h2]
  exact syllable_ok W _ _ hr hwf

theorem RoundTrip.msCopy (a b) : RoundTrip.Statement (.msCopy a b) := by
  intro S W hwf hW
  have hw : W.toNat = S.toNat * 2 ^ 31 + ((((105) * 64 + a.toNat) * 64 + b.toNat) * 4096 + 3 * 256) :=
    (word_nat S _ _ W rfl hW).trans (congrArg _ ((app_nat (0x69#7 ++ a ++ b) 0x300#12).trans (by rw [app_nat, app_nat]; rfl)))
  obtain ⟨hm, h1, h2, ht, hr⟩ := layout34 W _ 105 a.toNat b.toNat 3 (by decide) a.isLt b.isLt (by decide) hw
  unfold decodeWord
  rw [hm, ht, field W 18 a h1, field W 12 b h2]
  exact syllable_ok W _ _ hr hwf

theorem RoundTrip.ckpt (i) : RoundTrip.Statement (.ckpt i) := by
  intro S W hwf hW
  have hw : W.toNat = S.toNat * 2 ^ 31 + (((112) * 64 + 0) * 262144 + i.toNat) :=
    (word_nat S _ _ W rfl hW).trans (congrArg _ ((app_nat (0x70#7 ++ 0x0#6) i).trans (by rw [app_nat]; rfl)))
  obtain ⟨hm, h2, hr⟩ := layout35 W _ 112 i.toNat (by decide) i.isLt hw
  unfold decodeWord
  rw [hm, field W 0 i h2]
  exact syllable_ok W _ _ hr hwf

theorem RoundTrip.suspensionComplete (x0) : RoundTrip.Statement (.suspensionComplete x0) := fun _ _ _ h => nomatch h
theorem RoundTrip.exposedResultLands (x0) : RoundTrip.Statement (.exposedResultLands x0) := fun _ _ _ h => nomatch h
theorem RoundTrip.interlockedResultArrives (x0 x1) : RoundTrip.Statement (.interlockedResultArrives x0 x1) := fun _ _ _ h => nomatch h
theorem RoundTrip.idleStep (x0) : RoundTrip.Statement (.idleStep x0) := fun _ _ _ h => nomatch h
theorem RoundTrip.pipelineError (x0) : RoundTrip.Statement (.pipelineError x0) := fun _ _ _ h => nomatch h
theorem RoundTrip.bankReservationEnd (x0 x1) : RoundTrip.Statement (.bankReservationEnd x0 x1) := fun _ _ _ h => nomatch h
theorem RoundTrip.arrayWorkComplete (x0) : RoundTrip.Statement (.arrayWorkComplete x0) := fun _ _ _ h => nomatch h
theorem RoundTrip.fetchDecode (x0 x1) : RoundTrip.Statement (.fetchDecode x0 x1) := fun _ _ _ h => nomatch h
theorem RoundTrip.ibufFill (x0 x1) : RoundTrip.Statement (.ibufFill x0 x1) := fun _ _ _ h => nomatch h
theorem RoundTrip.joinBudgetExpiry (x0 x1) : RoundTrip.Statement (.joinBudgetExpiry x0 x1) := fun _ _ _ h => nomatch h
theorem RoundTrip.tagWaitTimeout (x0) : RoundTrip.Statement (.tagWaitTimeout x0) := fun _ _ _ h => nomatch h
theorem RoundTrip.waitHoldTimeout (x0) : RoundTrip.Statement (.waitHoldTimeout x0) := fun _ _ _ h => nomatch h
theorem RoundTrip.tagChangeWake (x0) : RoundTrip.Statement (.tagChangeWake x0) := fun _ _ _ h => nomatch h
theorem RoundTrip.barrierArrivalCounted (x0 x1) : RoundTrip.Statement (.barrierArrivalCounted x0 x1) := fun _ _ _ h => nomatch h
theorem RoundTrip.pickerSwitch (x0) : RoundTrip.Statement (.pickerSwitch x0) := fun _ _ _ h => nomatch h
theorem RoundTrip.epAging (x0) : RoundTrip.Statement (.epAging x0) := fun _ _ _ h => nomatch h
theorem RoundTrip.contextWake (x0) : RoundTrip.Statement (.contextWake x0) := fun _ _ _ h => nomatch h
theorem RoundTrip.budgetPeriod (x0) : RoundTrip.Statement (.budgetPeriod x0) := fun _ _ _ h => nomatch h
theorem RoundTrip.pageWalk (x0 x1 x2) : RoundTrip.Statement (.pageWalk x0 x1 x2) := fun _ _ _ h => nomatch h
theorem RoundTrip.copyOperationStart (x0 x1 x2) : RoundTrip.Statement (.copyOperationStart x0 x1 x2) := fun _ _ _ h => nomatch h
theorem RoundTrip.copyOperationComplete (x0 x1) : RoundTrip.Statement (.copyOperationComplete x0 x1) := fun _ _ _ h => nomatch h
theorem RoundTrip.msOperationStart (x0 x1) : RoundTrip.Statement (.msOperationStart x0 x1) := fun _ _ _ h => nomatch h
theorem RoundTrip.msOperationComplete (x0) : RoundTrip.Statement (.msOperationComplete x0) := fun _ _ _ h => nomatch h
theorem RoundTrip.linkFlitArrival (x0 x1 x2) : RoundTrip.Statement (.linkFlitArrival x0 x1 x2) := fun _ _ _ h => nomatch h
theorem RoundTrip.linkSendComplete (x0 x1) : RoundTrip.Statement (.linkSendComplete x0 x1) := fun _ _ _ h => nomatch h
theorem RoundTrip.linkReceiveComplete (x0 x1) : RoundTrip.Statement (.linkReceiveComplete x0 x1) := fun _ _ _ h => nomatch h
theorem RoundTrip.linkdown (x0) : RoundTrip.Statement (.linkdown x0) := fun _ _ _ h => nomatch h
theorem RoundTrip.linkCancel (x0) : RoundTrip.Statement (.linkCancel x0) := fun _ _ _ h => nomatch h
theorem RoundTrip.linkUp (x0 x1) : RoundTrip.Statement (.linkUp x0 x1) := fun _ _ _ h => nomatch h
theorem RoundTrip.timeBeacon (x0 x1) : RoundTrip.Statement (.timeBeacon x0 x1) := fun _ _ _ h => nomatch h
theorem RoundTrip.clusterCounterStop (x0) : RoundTrip.Statement (.clusterCounterStop x0) := fun _ _ _ h => nomatch h
theorem RoundTrip.clusterCounterResume (x0) : RoundTrip.Statement (.clusterCounterResume x0) := fun _ _ _ h => nomatch h
theorem RoundTrip.clusterFill (x0 x1 x2) : RoundTrip.Statement (.clusterFill x0 x1 x2) := fun _ _ _ h => nomatch h
theorem RoundTrip.leaseReturn (x0 x1) : RoundTrip.Statement (.leaseReturn x0 x1) := fun _ _ _ h => nomatch h
theorem RoundTrip.sliceWritePerformed (x0) : RoundTrip.Statement (.sliceWritePerformed x0) := fun _ _ _ h => nomatch h
theorem RoundTrip.deferredAck (x0 x1) : RoundTrip.Statement (.deferredAck x0 x1) := fun _ _ _ h => nomatch h
theorem RoundTrip.readshared (x0 x1) : RoundTrip.Statement (.readshared x0 x1) := fun _ _ _ h => nomatch h
theorem RoundTrip.readown (x0 x1) : RoundTrip.Statement (.readown x0 x1) := fun _ _ _ h => nomatch h
theorem RoundTrip.upgrade (x0 x1) : RoundTrip.Statement (.upgrade x0 x1) := fun _ _ _ h => nomatch h
theorem RoundTrip.fwdshared (x0 x1) : RoundTrip.Statement (.fwdshared x0 x1) := fun _ _ _ h => nomatch h
theorem RoundTrip.fwdown (x0 x1) : RoundTrip.Statement (.fwdown x0 x1) := fun _ _ _ h => nomatch h
theorem RoundTrip.inv (x0 x1) : RoundTrip.Statement (.inv x0 x1) := fun _ _ _ h => nomatch h
theorem RoundTrip.backinv (x0 x1) : RoundTrip.Statement (.backinv x0 x1) := fun _ _ _ h => nomatch h
theorem RoundTrip.wbdirty (x0 x1) : RoundTrip.Statement (.wbdirty x0 x1) := fun _ _ _ h => nomatch h
theorem RoundTrip.ack (x0 x1) : RoundTrip.Statement (.ack x0 x1) := fun _ _ _ h => nomatch h
theorem RoundTrip.data (x0 x1) : RoundTrip.Statement (.data x0 x1) := fun _ _ _ h => nomatch h
theorem RoundTrip.allowanceRequest (x0 x1) : RoundTrip.Statement (.allowanceRequest x0 x1) := fun _ _ _ h => nomatch h
theorem RoundTrip.serve (x0) : RoundTrip.Statement (.serve x0) := fun _ _ _ h => nomatch h
theorem RoundTrip.grant (x0 x1) : RoundTrip.Statement (.grant x0 x1) := fun _ _ _ h => nomatch h
theorem RoundTrip.recall (x0 x1) : RoundTrip.Statement (.recall x0 x1) := fun _ _ _ h => nomatch h
theorem RoundTrip.recallAnswer (x0 x1) : RoundTrip.Statement (.recallAnswer x0 x1) := fun _ _ _ h => nomatch h
theorem RoundTrip.holdingZeroReport (x0 x1) : RoundTrip.Statement (.holdingZeroReport x0 x1) := fun _ _ _ h => nomatch h
theorem RoundTrip.allowanceLeaseEnd (x0 x1) : RoundTrip.Statement (.allowanceLeaseEnd x0 x1) := fun _ _ _ h => nomatch h
theorem RoundTrip.reclamation (x0 x1) : RoundTrip.Statement (.reclamation x0 x1) := fun _ _ _ h => nomatch h
theorem RoundTrip.kernelNodeEval (x0) : RoundTrip.Statement (.kernelNodeEval x0) := fun _ _ _ h => nomatch h
theorem RoundTrip.condNodeEval (x0) : RoundTrip.Statement (.condNodeEval x0) := fun _ _ _ h => nomatch h
theorem RoundTrip.switchNodeEval (x0) : RoundTrip.Statement (.switchNodeEval x0) := fun _ _ _ h => nomatch h
theorem RoundTrip.loopNodeEval (x0) : RoundTrip.Statement (.loopNodeEval x0) := fun _ _ _ h => nomatch h
theorem RoundTrip.joinNodeEval (x0) : RoundTrip.Statement (.joinNodeEval x0) := fun _ _ _ h => nomatch h
theorem RoundTrip.gangRetirement (x0 x1) : RoundTrip.Statement (.gangRetirement x0 x1) := fun _ _ _ h => nomatch h
theorem RoundTrip.heldRetirementProceeds (x0) : RoundTrip.Statement (.heldRetirementProceeds x0) := fun _ _ _ h => nomatch h
theorem RoundTrip.gcommit (x0 x1) : RoundTrip.Statement (.gcommit x0 x1) := fun _ _ _ h => nomatch h
theorem RoundTrip.placementRetry (x0 x1 x2) : RoundTrip.Statement (.placementRetry x0 x1 x2) := fun _ _ _ h => nomatch h
theorem RoundTrip.grstatFaultClear (x0) : RoundTrip.Statement (.grstatFaultClear x0) := fun _ _ _ h => nomatch h
theorem RoundTrip.registerWrite (x0 x1) : RoundTrip.Statement (.registerWrite x0 x1) := fun _ _ _ h => nomatch h
theorem RoundTrip.freeze (x0) : RoundTrip.Statement (.freeze x0) := fun _ _ _ h => nomatch h
theorem RoundTrip.controlCoreResume (x0) : RoundTrip.Statement (.controlCoreResume x0) := fun _ _ _ h => nomatch h
theorem RoundTrip.restoration (x0 x1 x2 x3) : RoundTrip.Statement (.restoration x0 x1 x2 x3) := fun _ _ _ h => nomatch h
theorem RoundTrip.katfailPolicy (x0) : RoundTrip.Statement (.katfailPolicy x0) := fun _ _ _ h => nomatch h
theorem RoundTrip.regionMachineResume (x0) : RoundTrip.Statement (.regionMachineResume x0) := fun _ _ _ h => nomatch h
theorem RoundTrip.lockstepConfirm (x0 x1) : RoundTrip.Statement (.lockstepConfirm x0 x1) := fun _ _ _ h => nomatch h
theorem RoundTrip.patrolScrub (x0) : RoundTrip.Statement (.patrolScrub x0) := fun _ _ _ h => nomatch h
theorem RoundTrip.dieFailureDeclaration (x0) : RoundTrip.Statement (.dieFailureDeclaration x0) := fun _ _ _ h => nomatch h
theorem RoundTrip.declarationAtHome (x0 x1) : RoundTrip.Statement (.declarationAtHome x0 x1) := fun _ _ _ h => nomatch h
theorem RoundTrip.salvage (x0 x1) : RoundTrip.Statement (.salvage x0 x1) := fun _ _ _ h => nomatch h
theorem RoundTrip.declarationAtTundish (x0 x1) : RoundTrip.Statement (.declarationAtTundish x0 x1) := fun _ _ _ h => nomatch h
theorem RoundTrip.powerGood (x0) : RoundTrip.Statement (.powerGood x0) := fun _ _ _ h => nomatch h
theorem RoundTrip.powerOff : RoundTrip.Statement (.powerOff) := fun _ _ _ h => nomatch h
theorem RoundTrip.deviceReset (x0) : RoundTrip.Statement (.deviceReset x0) := fun _ _ _ h => nomatch h
theorem RoundTrip.tamperAlarm (x0 x1) : RoundTrip.Statement (.tamperAlarm x0 x1) := fun _ _ _ h => nomatch h
theorem RoundTrip.junctionTemperature (x0 x1) : RoundTrip.Statement (.junctionTemperature x0 x1) := fun _ _ _ h => nomatch h
theorem RoundTrip.packagePowerLimit : RoundTrip.Statement (.packagePowerLimit) := fun _ _ _ h => nomatch h
theorem RoundTrip.loadGraph : RoundTrip.Statement (.loadGraph) := fun _ _ _ h => nomatch h
theorem RoundTrip.launch : RoundTrip.Statement (.launch) := fun _ _ _ h => nomatch h
theorem RoundTrip.map : RoundTrip.Statement (.map) := fun _ _ _ h => nomatch h
theorem RoundTrip.unmap : RoundTrip.Statement (.unmap) := fun _ _ _ h => nomatch h
theorem RoundTrip.asidAlloc : RoundTrip.Statement (.asidAlloc) := fun _ _ _ h => nomatch h
theorem RoundTrip.asidRetire : RoundTrip.Statement (.asidRetire) := fun _ _ _ h => nomatch h
theorem RoundTrip.ptsync : RoundTrip.Statement (.ptsync) := fun _ _ _ h => nomatch h
theorem RoundTrip.resume : RoundTrip.Statement (.resume) := fun _ _ _ h => nomatch h
theorem RoundTrip.evict : RoundTrip.Statement (.evict) := fun _ _ _ h => nomatch h
theorem RoundTrip.query : RoundTrip.Statement (.query) := fun _ _ _ h => nomatch h
theorem RoundTrip.scrubSet : RoundTrip.Statement (.scrubSet) := fun _ _ _ h => nomatch h
theorem RoundTrip.attest : RoundTrip.Statement (.attest) := fun _ _ _ h => nomatch h
theorem RoundTrip.writeMem : RoundTrip.Statement (.writeMem) := fun _ _ _ h => nomatch h
theorem RoundTrip.readMem : RoundTrip.Statement (.readMem) := fun _ _ _ h => nomatch h
theorem RoundTrip.illegalSyllable (x0) : RoundTrip.Statement (.illegalSyllable x0) := fun _ _ _ h => nomatch h
theorem RoundTrip.softError (x0 x1) : RoundTrip.Statement (.softError x0 x1) := fun _ _ _ h => nomatch h
theorem RoundTrip.writePerformed (x0) : RoundTrip.Statement (.writePerformed x0) := fun _ _ _ h => nomatch h
theorem RoundTrip.cacheRangeOperationComplete (x0) : RoundTrip.Statement (.cacheRangeOperationComplete x0) := fun _ _ _ h => nomatch h

end Sys2Proof.Laws
end

