-- ==== Sys2Proof/Laws/Turn.lean ====
section
/-! SUPPORT. What the shared operations around a bundle do: the meters of a budget, the issue of a bundle, the turn of either copy of a
lockstep pair, the accesses of tag operations, and the graph engine after a failed access. -/

namespace Sys2Proof.Laws

open Sys2Proof Sys2Proof.Machine

/-! ## Budgets (18 R314) -/

/-- A meter changes a die and nothing else. -/
theorem charge_eq (s : State) (d : DieId) (cls meter limit amount bit who : Nat) :
    ∃ x, (s.charge d cls meter limit amount bit who).2 = s.setDie d x ∨ (s.charge d cls meter limit amount bit who).2 = s := by
  unfold State.charge
  dsimp only
  split
  · exact ⟨_, .inl rfl⟩
  · split
    · exact ⟨s.die d, .inr rfl⟩
    · split <;> exact ⟨_, .inl rfl⟩
@[simp] theorem charge_mem (s : State) (d : DieId) (cls meter limit amount bit who : Nat) :
    (s.charge d cls meter limit amount bit who).2.mem = s.mem := by
  obtain ⟨x, h | h⟩ := charge_eq s d cls meter limit amount bit who <;> rw [h]; rfl
@[simp] theorem charge_strands (s : State) (d : DieId) (cls meter limit amount bit who : Nat) :
    (s.charge d cls meter limit amount bit who).2.strands = s.strands := by
  obtain ⟨x, h | h⟩ := charge_eq s d cls meter limit amount bit who <;> rw [h]; rfl
@[simp] theorem charge_writes (s : State) (d : DieId) (cls meter limit amount bit who : Nat) :
    (s.charge d cls meter limit amount bit who).2.writes = s.writes := by
  obtain ⟨x, h | h⟩ := charge_eq s d cls meter limit amount bit who <;> rw [h]; rfl
@[simp] theorem charge_ctxs (s : State) (d : DieId) (cls meter limit amount bit who : Nat) :
    (s.charge d cls meter limit amount bit who).2.ctxs = s.ctxs := by
  obtain ⟨x, h | h⟩ := charge_eq s d cls meter limit amount bit who <;> rw [h]; rfl
/-- A class without a limit is admitted at once. -/
theorem charge_unlimited (s : State) (d : DieId) (cls meter amount bit who : Nat) (hd : (s.die d).deferredOf meter = [])
    (ha : (s.die d).admittedOf meter = []) : (s.charge d cls meter 0 amount bit who).1 = true := by
  simp [State.charge, hd, ha]
@[simp] theorem chargeMem_mem (s : State) (cls pa bytes who : Nat) : (s.chargeMem cls pa bytes who).2.mem = s.mem := by
  unfold State.chargeMem; split <;> simp
@[simp] theorem chargeMem_strands (s : State) (cls pa bytes who : Nat) : (s.chargeMem cls pa bytes who).2.strands = s.strands := by
  unfold State.chargeMem; split <;> simp
@[simp] theorem chargeMem_writes (s : State) (cls pa bytes who : Nat) : (s.chargeMem cls pa bytes who).2.writes = s.writes := by
  unfold State.chargeMem; split <;> simp
@[simp] theorem chargeMem_ctxs (s : State) (cls pa bytes who : Nat) : (s.chargeMem cls pa bytes who).2.ctxs = s.ctxs := by
  unfold State.chargeMem; split <;> simp
@[simp] theorem chargeIssue_mem (s : State) (t : StrandId) : (s.chargeIssue t).2.mem = s.mem := by simp [State.chargeIssue]
@[simp] theorem chargeIssue_strands (s : State) (t : StrandId) : (s.chargeIssue t).2.strands = s.strands := by simp [State.chargeIssue]
@[simp] theorem chargeIssue_writes (s : State) (t : StrandId) : (s.chargeIssue t).2.writes = s.writes := by simp [State.chargeIssue]
@[simp] theorem chargeIssue_ctxs (s : State) (t : StrandId) : (s.chargeIssue t).2.ctxs = s.ctxs := by simp [State.chargeIssue]
@[simp] theorem issueOnce_mem (s : State) (t : StrandId) : (s.issueOnce t).mem = s.mem := by simp [State.issueOnce]
@[simp] theorem issueOnce_strands (s : State) (t : StrandId) : (s.issueOnce t).strands = s.strands := by simp [State.issueOnce]
@[simp] theorem issueOnce_writes (s : State) (t : StrandId) : (s.issueOnce t).writes = s.writes := by simp [State.issueOnce]
@[simp] theorem issueOnce_strand (s : State) (t u : StrandId) : (s.issueOnce t).strand u = s.strand u := by simp [State.strand]

/-! ## The accesses of tag operations -/

@[simp] theorem metered_spad (s : State) (k : CoreId) (off : Nat) (f : State → State) : s.metered (.spad k off) f = f s := rfl
/-- A sync word is accessed once the budget of the class admits it, and else the bundle is held. -/
theorem metered_eq (s : State) (w : TagWord) (f : State → State) (u : State) (h : s.admitsTag w = some u) : s.metered w f = f u := by
  cases w with
  | spad k off => cases h; rfl
  | sync pa =>
    simp only [State.admitsTag] at h
    split at h
    · cases h; simp [State.metered, *]
    · cases h
theorem metered_held (s : State) (pa : Nat) (f : State → State) (h : s.admitsTag (.sync pa) = none) :
    ∃ u : State, s.metered (.sync pa) f = u.holdFor .budget ∧ u.mem = s.mem ∧ u.strands = s.strands ∧ u.writes = s.writes := by
  simp only [State.admitsTag] at h
  split at h
  · cases h
  · refine ⟨(s.chargeMem (s.bindOf s.turn.ctxId).bclass.toNat pa 8 (tagAccess + bundleKey s.turn.key s.cur.pc)).2, ?_, by simp⟩
    simp [State.metered, *]

/-! ## The turn of either copy of a pair (22 R362) -/

theorem openTurn_plain (s : State) (hp : s.pass = false) (h : s.trails s.turn.ctxId = false) : s.openTurn = s.openBundle := by
  simp [State.openTurn, hp, h]
theorem openTurn_trailing (s : State) (hp : s.pass = false) (h : s.trails s.turn.ctxId = true) : s.openTurn = s.openCopy := by
  simp [State.openTurn, hp, h]
theorem closeTurn_plain (before after_ : State) (h : before.trails before.turn.ctxId = false) :
    before.closeTurn after_ = before.closeBundle after_ := by simp [State.closeTurn, h]
theorem closeTurn_trailing (before after_ : State) (h : before.trails before.turn.ctxId = true) :
    before.closeTurn after_ = before.closeCopy after_ := by simp [State.closeTurn, h]
@[simp] theorem alignTo_mem (s : State) (t : StrandId) (n : W64) (fuel : Nat) : (s.alignTo t n fuel).mem = s.mem := by
  induction fuel generalizing s with
  | zero => rfl
  | succ k ih => unfold State.alignTo; split <;> simp_all
@[simp] theorem alignTo_writes (s : State) (t : StrandId) (n : W64) (fuel : Nat) : (s.alignTo t n fuel).writes = s.writes := by
  induction fuel generalizing s with
  | zero => rfl
  | succ k ih => unfold State.alignTo; split <;> simp_all
@[simp] theorem alignTo_dies (s : State) (t : StrandId) (n : W64) (fuel : Nat) : (s.alignTo t n fuel).dies = s.dies := by
  induction fuel generalizing s with
  | zero => rfl
  | succ k ih => unfold State.alignTo; split <;> simp_all
@[simp] theorem alignTo_ctxs (s : State) (t : StrandId) (n : W64) (fuel : Nat) : (s.alignTo t n fuel).ctxs = s.ctxs := by
  induction fuel generalizing s with
  | zero => rfl
  | succ k ih => unfold State.alignTo; split <;> simp_all
theorem alignTo_other (s : State) (t u : StrandId) (n : W64) (fuel : Nat) (h : u.key ≠ t.key) : (s.alignTo t n fuel).strand u = s.strand u := by
  induction fuel generalizing s with
  | zero => exact strand_setStrand_other _ _ _ _ h
  | succ k ih =>
    unfold State.alignTo
    split
    · rename_i hk _
      cases hk
      rw [ih, landDue_other _ _ _ h, strand_setStrand_other _ _ _ _ h]
    · exact strand_setStrand_other _ _ _ _ h
/-- With nothing in flight the step counter is all that changes. -/
theorem alignTo_nil (s : State) (t : StrandId) (n : W64) (fuel : Nat) (h : (s.strand t).inflight = []) :
    s.alignTo t n fuel = s.setStrand t { s.strand t with step := n } := by
  cases fuel with
  | zero => rfl
  | succ k =>
    unfold State.alignTo
    have : (s.strand t).nextDue n = none := by simp [Strand.nextDue, h]
    rw [this]

/-! ## The graph engine after a failed access (18 R306) -/

theorem refillOnce_stopped (s : State) (e : DieId) (h : (s.die e).engine.fault = true) : s.refillOnce e = s := by
  rw [State.refillOnce, if_pos h]
theorem refillOnce_ok (s t : State) (e : DieId) (h : (s.die e).engine.fault = false) (hr : s.refill e = .ok t) : s.refillOnce e = t := by
  rw [State.refillOnce, if_neg (by rw [h]; exact Bool.false_ne_true), hr, State.after]
theorem refillOnce_fault (s : State) (e d : DieId) (va : W64) (h : (s.die e).engine.fault = false) (hr : s.refill e = .error (.fault d va)) :
    s.refillOnce e = s.engineFault d va (some .refill) := by
  rw [State.refillOnce, if_neg (by rw [h]; exact Bool.false_ne_true), hr, State.after]

end Sys2Proof.Laws
end

