-- ==== Sys2Proof/Tests/Slice0.lean ====
section
/-! SUPPORT. Tests of the model: ill-formed terms that WellFormed refuses, words written out from the encodings of the spec, single steps,
and for every statement of Obligations.lean that has hypotheses a state and operands that meet them. -/

namespace Sys2Proof.Tests

set_option Elab.async false

open Sys2Proof Sys2Proof.Machine

/-! ## Well-formed terms (02 R24, R33) -/

/-- Operand limits of the scalar group. -/
theorem test_wf_scalar : (Instr.sext 1 2 3).wellFormed = false ∧ (Instr.zext 1 2 3).wellFormed = false ∧ (Instr.sext 1 2 2).wellFormed = true ∧
    (Instr.gets 1 20).wellFormed = false ∧ (Instr.gets 1 19).wellFormed = true ∧ (Instr.sets 1 0).wellFormed = false ∧
    (Instr.sets 1 11).wellFormed = false ∧ (Instr.sets 1 20).wellFormed = false ∧ (Instr.sets 1 15).wellFormed = true := by decide +kernel

/-- A field that names a predicate register takes only k0 to k7. -/
theorem test_wf_predicates :
    ([Instr.vcmpEqI32 8 1 2 0, .vcmpLtI32 8 1 2 0, .vcmpLeI32 8 1 2 0, .vcmpLtN32 8 1 2 0, .vcmpLeN32 8 1 2 0, .vcmpEqF32 8 1 2 0,
      .vcmpLtF32 8 1 2 0, .vcmpLeF32 8 1 2 0, .pand 8 1 2, .pand 1 8 2, .pand 1 2 8, .por 8 1 2, .por 1 8 2, .por 1 2 8, .pxor 8 1 2,
      .pxor 1 8 2, .pxor 1 2 8, .pnot 8 1, .pnot 1 8, .pset 8 1, .pany 1 8, .pall 1 8, .ppop 1 8, .brq 8 0].all fun i =>
        !i.wellFormed) = true ∧ (Instr.pset 7 8).wellFormed = true ∧ (Instr.pany 8 7).wellFormed = true := by decide +kernel

/-- Scopes, barrier slots, formats, dimensions, queues and ports. -/
theorem test_wf_numbers : (Instr.fenceAcq 0).wellFormed = false ∧ (Instr.fenceAcq 5).wellFormed = false ∧ (Instr.fenceRel 0).wellFormed = false ∧
    (Instr.fenceRel 5).wellFormed = false ∧ (Instr.fenceFull 0).wellFormed = false ∧ (Instr.fenceFull 5).wellFormed = false ∧
    (Instr.barInit 8 1).wellFormed = false ∧ (Instr.barArrive 8).wellFormed = false ∧ (Instr.barWait 8).wellFormed = false ∧
    (Instr.mst 1 3 0).wellFormed = false ∧ (Instr.mst 1 2 0).wellFormed = true ∧ (Instr.cpDims 1 2 6).wellFormed = false ∧
    (Instr.cpDimd 1 6).wellFormed = false ∧ (Instr.cpGo 1 8).wellFormed = false ∧ (Instr.cpWait 8).wellFormed = false ∧
    (Instr.lkCw 1 16).wellFormed = false ∧ (Instr.lkSend 1 2 16).wellFormed = false ∧ (Instr.lkRecv 1 2 16).wellFormed = false ∧
    (Instr.lkRaddF32 1 2 16).wellFormed = false ∧ (Instr.lkRaddBf16 1 2 16).wellFormed = false ∧
    (Instr.lkRaddI32 1 2 16).wellFormed = false ∧ (Instr.lkSend 1 2 15).wellFormed = true := by decide +kernel

/-- What a word that is no syllable is refused for. -/
theorem test_rejects : decodeWord 0x7F000000#32 = .error .majorReserved ∧ decodeWord 0x01000006#32 = .error .selectorUnassigned ∧
    decodeWord 0x00001000#32 = .error .reservedNonzero ∧ decodeWord 0x050000C2#32 = .error .operandRange ∧
    decodeBytes [0, 0, 0] = .error .notOneWord := by decide +kernel

/-! ## Words of the encodings -/

/-- Words written out from the encodings of 02 R36, R37: scalar 1. -/
theorem test_words_of_scalar_1 :
    decodeWord 0x1400A010#32 = .ok (.sets 10 16) ∧ decodeWord 0x0124A2C0#32 = .ok (.add 9 10 11) ∧
    decodeWord 0x0124A2C1#32 = .ok (.sub 9 10 11) ∧ decodeWord 0x0124A2C2#32 = .ok (.and 9 10 11) ∧
    decodeWord 0x0124A2C3#32 = .ok (.or 9 10 11) ∧ decodeWord 0x0124A2C4#32 = .ok (.xor 9 10 11) ∧
    decodeWord 0x0124A2C5#32 = .ok (.andn 9 10 11) ∧ decodeWord 0x0224A2C0#32 = .ok (.shl 9 10 11) ∧
    decodeWord 0x0224A2C1#32 = .ok (.shr 9 10 11) ∧ decodeWord 0x0224A2C2#32 = .ok (.sra 9 10 11) ∧
    decodeWord 0x0224A2C3#32 = .ok (.ror 9 10 11) ∧ decodeWord 0x0424A2C0#32 = .ok (.minI 9 10 11) ∧
    decodeWord 0x0424A2C1#32 = .ok (.maxI 9 10 11) ∧ decodeWord 0x0424A2C2#32 = .ok (.minN 9 10 11) ∧
    decodeWord 0x0424A2C3#32 = .ok (.maxN 9 10 11) ∧ decodeWord 0x0624A2C0#32 = .ok (.cmpEq 9 10 11) := by
  decide +kernel

/-- Words written out from the encodings of 02 R36, R37: scalar 2. -/
theorem test_words_of_scalar_2 :
    decodeWord 0x0624A2C1#32 = .ok (.cmpLtI 9 10 11) ∧ decodeWord 0x0624A2C2#32 = .ok (.cmpLeI 9 10 11) ∧
    decodeWord 0x0624A2C3#32 = .ok (.cmpLtN 9 10 11) ∧ decodeWord 0x0624A2C4#32 = .ok (.cmpLeN 9 10 11) ∧
    decodeWord 0x0324A2C0#32 = .ok (.mul 9 10 11) ∧ decodeWord 0x0324A2C1#32 = .ok (.mulhI 9 10 11) ∧
    decodeWord 0x0324A2C2#32 = .ok (.mulhN 9 10 11) ∧ decodeWord 0x0324A2C3#32 = .ok (.divI 9 10 11) ∧
    decodeWord 0x0324A2C4#32 = .ok (.divN 9 10 11) ∧ decodeWord 0x0324A2C5#32 = .ok (.remI 9 10 11) ∧
    decodeWord 0x0324A2C6#32 = .ok (.remN 9 10 11) ∧ decodeWord 0x0524A000#32 = .ok (.clz 9 10) ∧
    decodeWord 0x0524A001#32 = .ok (.popc 9 10) ∧ decodeWord 0x0524A082#32 = .ok (.sext 9 10 2) ∧
    decodeWord 0x0524A083#32 = .ok (.zext 9 10 2) ∧ decodeWord 0x0724A2C0#32 = .ok (.sel 9 10 11) := by
  decide +kernel

/-- Words written out from the encodings of 02 R36, R37: scalar 3. -/
theorem test_words_of_scalar_3 :
    decodeWord 0x0824A3C1#32 = .ok (.addi 9 10 961) ∧ decodeWord 0x0924A3C1#32 = .ok (.andi 9 10 961) ∧
    decodeWord 0x0A24A3C1#32 = .ok (.ori 9 10 961) ∧ decodeWord 0x0B24A3C1#32 = .ok (.xori 9 10 961) ∧
    decodeWord 0x0C24A001#32 = .ok (.shli 9 10 1) ∧ decodeWord 0x0C24A041#32 = .ok (.shri 9 10 1) ∧
    decodeWord 0x0C24A081#32 = .ok (.srai 9 10 1) ∧ decodeWord 0x0D24A3C1#32 = .ok (.cmpiEq 9 10 961) ∧
    decodeWord 0x0D24A7C1#32 = .ok (.cmpiLtI 9 10 961) ∧ decodeWord 0x0D24ABC1#32 = .ok (.cmpiLtN 9 10 961) ∧
    decodeWord 0x0E25A3C1#32 = .ok (.li 9 107457) ∧ decodeWord 0x0F25A3C1#32 = .ok (.lih1 9 107457) ∧
    decodeWord 0x1025A3C1#32 = .ok (.lih2 9 107457) ∧ decodeWord 0x112403C1#32 = .ok (.lih3 9 961) ∧
    decodeWord 0x1225A3C1#32 = .ok (.addpc 9 107457) ∧ decodeWord 0x1324000D#32 = .ok (.gets 9 13) := by
  decide +kernel

/-- Words written out from the encodings of 02 R36, R37: scalar 4. -/
theorem test_words_of_scalar_4 :
    decodeWord 0x000003C1#32 = .ok (.nop 961) := by
  decide +kernel

/-- Words written out from the encodings of 02 R36, R37: control. -/
theorem test_words_of_control :
    decodeWord 0x5831A3C1#32 = .ok (.brNz 12 107457) ∧ decodeWord 0x5931A3C1#32 = .ok (.brZ 12 107457) ∧
    decodeWord 0x5B25A3C1#32 = .ok (.jal 9 107457) ∧ decodeWord 0x5C00A000#32 = .ok (.jr 10) ∧
    decodeWord 0x5D31A3C1#32 = .ok (.loop 12 107457) ∧ decodeWord 0x5E000001#32 = .ok (.yield) ∧
    decodeWord 0x5E000002#32 = .ok (.exit) ∧ decodeWord 0x5E00F043#32 = .ok (.trap 961) ∧
    decodeWord 0x7001A3C1#32 = .ok (.ckpt 107457) ∧ decodeWord 0x7200A2C0#32 = .ok (.guard 10 11) ∧
    decodeWord 0x7300A000#32 = .ok (.assert 10) ∧ decodeWord 0x74000000#32 = .ok (.abort) ∧
    decodeWord 0x71000000#32 = .ok (.commit) ∧ decodeWord 0x5A19A3C1#32 = .ok (.brq 6 107457) ∧
    decodeWord 0x5E000000#32 = .ok (.join) ∧ decodeWord 0x5E000040#32 = .ok (.joinAll) := by
  decide +kernel

/-- Words written out from the encodings of 02 R36, R37: memory 1. -/
theorem test_words_of_memory_1 :
    decodeWord 0x4024AE08#32 = .ok (.ldbI 9 10 449) ∧ decodeWord 0x4124AE08#32 = .ok (.ldbN 9 10 449) ∧
    decodeWord 0x4224AE08#32 = .ok (.ldhI 9 10 449) ∧ decodeWord 0x4324AE08#32 = .ok (.ldhN 9 10 449) ∧
    decodeWord 0x4424AE08#32 = .ok (.ldwI 9 10 449) ∧ decodeWord 0x4524AE08#32 = .ok (.ldwN 9 10 449) ∧
    decodeWord 0x4624AE08#32 = .ok (.ldd 9 10 449) ∧ decodeWord 0x4724AE08#32 = .ok (.stb 9 10 449) ∧
    decodeWord 0x4824AE08#32 = .ok (.sth 9 10 449) ∧ decodeWord 0x4924AE08#32 = .ok (.stw 9 10 449) ∧
    decodeWord 0x4A24AE08#32 = .ok (.std 9 10 449) ∧ decodeWord 0x4B24AE0D#32 = .ok (.vld 9 10 449 5) ∧
    decodeWord 0x4C24AE0D#32 = .ok (.vst 9 10 449 5) ∧ decodeWord 0x4D24A2E8#32 = .ok (.vldg 9 10 11 5) ∧
    decodeWord 0x4E24A2E8#32 = .ok (.vsts 9 10 11 5) ∧ decodeWord 0x4F00A000#32 = .ok (.pref 10) := by
  decide +kernel

/-- Words written out from the encodings of 02 R36, R37: memory 2. -/
theorem test_words_of_memory_2 :
    decodeWord 0x4F00A2C1#32 = .ok (.res 10 11) ∧ decodeWord 0x7800A2C0#32 = .ok (.copWb 10 11) ∧
    decodeWord 0x7800A2C1#32 = .ok (.copInv 10 11) := by
  decide +kernel

/-- Words written out from the encodings of 02 R36, R37: vector integer 1. -/
theorem test_words_of_vector_integer_1 :
    decodeWord 0x2024A2E8#32 = .ok (.vaddI32 9 10 11 5) ∧ decodeWord 0x2024A2E9#32 = .ok (.vsubI32 9 10 11 5) ∧
    decodeWord 0x2024A2EA#32 = .ok (.vmulI32 9 10 11 5) ∧ decodeWord 0x2024A2EB#32 = .ok (.vmulhI32 9 10 11 5) ∧
    decodeWord 0x2024A2EC#32 = .ok (.vmulhN32 9 10 11 5) ∧ decodeWord 0x2024A2ED#32 = .ok (.vand 9 10 11 5) ∧
    decodeWord 0x2024A2EE#32 = .ok (.vor 9 10 11 5) ∧ decodeWord 0x2024A2EF#32 = .ok (.vxor 9 10 11 5) ∧
    decodeWord 0x2124A2E8#32 = .ok (.vshlI32 9 10 11 5) ∧ decodeWord 0x2124A2E9#32 = .ok (.vshrI32 9 10 11 5) ∧
    decodeWord 0x2124A2EA#32 = .ok (.vsraI32 9 10 11 5) ∧ decodeWord 0x2124A2EB#32 = .ok (.vminI32 9 10 11 5) ∧
    decodeWord 0x2124A2EC#32 = .ok (.vmaxI32 9 10 11 5) ∧ decodeWord 0x2124A2ED#32 = .ok (.vminN32 9 10 11 5) ∧
    decodeWord 0x2124A2EE#32 = .ok (.vmaxN32 9 10 11 5) ∧ decodeWord 0x2224A2E8#32 = .ok (.vaddI16 9 10 11 5) := by
  decide +kernel

/-- Words written out from the encodings of 02 R36, R37: vector integer 2. -/
theorem test_words_of_vector_integer_2 :
    decodeWord 0x2224A2E9#32 = .ok (.vsubI16 9 10 11 5) ∧ decodeWord 0x2224A2EA#32 = .ok (.vaddsI16 9 10 11 5) ∧
    decodeWord 0x2224A2EB#32 = .ok (.vsubsI16 9 10 11 5) ∧ decodeWord 0x231CA2E8#32 = .ok (.vcmpEqI32 7 10 11 5) ∧
    decodeWord 0x231CA2E9#32 = .ok (.vcmpLtI32 7 10 11 5) ∧ decodeWord 0x231CA2EA#32 = .ok (.vcmpLeI32 7 10 11 5) ∧
    decodeWord 0x231CA2EB#32 = .ok (.vcmpLtN32 7 10 11 5) ∧ decodeWord 0x231CA2EC#32 = .ok (.vcmpLeN32 7 10 11 5) ∧
    decodeWord 0x2B24A2E8#32 = .ok (.vperm 9 10 11 5) ∧ decodeWord 0x2B24A2E9#32 = .ok (.vrot 9 10 11 5) ∧
    decodeWord 0x2B24A02A#32 = .ok (.vbcast 9 10 5) ∧ decodeWord 0x2B24A2C3#32 = .ok (.vext 9 10 11) ∧
    decodeWord 0x2B24A2C4#32 = .ok (.vins 9 10 11) ∧ decodeWord 0x2C24A2C8#32 = .ok (.vsel 9 10 11 1) ∧
    decodeWord 0x2D25A3C1#32 = .ok (.vli 9 107457) ∧ decodeWord 0x301C6140#32 = .ok (.pand 7 6 5) := by
  decide +kernel

/-- Words written out from the encodings of 02 R36, R37: vector integer 3. -/
theorem test_words_of_vector_integer_3 :
    decodeWord 0x301C6141#32 = .ok (.por 7 6 5) ∧ decodeWord 0x301C6142#32 = .ok (.pxor 7 6 5) ∧
    decodeWord 0x301C6003#32 = .ok (.pnot 7 6) ∧ decodeWord 0x301C6004#32 = .ok (.pset 7 6) ∧
    decodeWord 0x311C6000#32 = .ok (.pany 7 6) ∧ decodeWord 0x311C6001#32 = .ok (.pall 7 6) ∧
    decodeWord 0x311C6002#32 = .ok (.ppop 7 6) := by
  decide +kernel

/-- Words written out from the encodings of 02 R36, R37: vector float 1. -/
theorem test_words_of_vector_float_1 :
    decodeWord 0x2424A2E8#32 = .ok (.vaddF32 9 10 11 5) ∧ decodeWord 0x2424A2E9#32 = .ok (.vsubF32 9 10 11 5) ∧
    decodeWord 0x2424A2EA#32 = .ok (.vmulF32 9 10 11 5) ∧ decodeWord 0x2424A2EB#32 = .ok (.vminF32 9 10 11 5) ∧
    decodeWord 0x2424A2EC#32 = .ok (.vmaxF32 9 10 11 5) ∧ decodeWord 0x2524A2E8#32 = .ok (.vfmaF32 9 10 11 5) ∧
    decodeWord 0x2524A2E9#32 = .ok (.vfmsF32 9 10 11 5) ∧ decodeWord 0x261CA2E8#32 = .ok (.vcmpEqF32 7 10 11 5) ∧
    decodeWord 0x261CA2E9#32 = .ok (.vcmpLtF32 7 10 11 5) ∧ decodeWord 0x261CA2EA#32 = .ok (.vcmpLeF32 7 10 11 5) ∧
    decodeWord 0x2724A028#32 = .ok (.vrcpF32 9 10 5) ∧ decodeWord 0x2724A029#32 = .ok (.vrsqF32 9 10 5) ∧
    decodeWord 0x2724A02A#32 = .ok (.vexp2F32 9 10 5) ∧ decodeWord 0x2724A02B#32 = .ok (.vlog2F32 9 10 5) ∧
    decodeWord 0x2724A02C#32 = .ok (.vsqrtF32 9 10 5) ∧ decodeWord 0x2824A028#32 = .ok (.vcvtBf16F32 9 10 5) := by
  decide +kernel

/-- Words written out from the encodings of 02 R36, R37: vector float 2. -/
theorem test_words_of_vector_float_2 :
    decodeWord 0x2824A029#32 = .ok (.vcvtF32Bf16 9 10 5) ∧ decodeWord 0x2824A02A#32 = .ok (.vcvtF16F32 9 10 5) ∧
    decodeWord 0x2824A02B#32 = .ok (.vcvtF32F16 9 10 5) ∧ decodeWord 0x2824A02C#32 = .ok (.vcvtE4m3F32 9 10 5) ∧
    decodeWord 0x2824A02D#32 = .ok (.vcvtE5m2F32 9 10 5) ∧ decodeWord 0x2824A02E#32 = .ok (.vcvtF32E4m3 9 10 5) ∧
    decodeWord 0x2824A02F#32 = .ok (.vcvtF32E5m2 9 10 5) ∧ decodeWord 0x2924A029#32 = .ok (.vcvtF32F4x 9 10 5) ∧
    decodeWord 0x2924A02A#32 = .ok (.vcvtI32F32 9 10 5) ∧ decodeWord 0x2924A02B#32 = .ok (.vcvtF32I32 9 10 5) ∧
    decodeWord 0x2924A02C#32 = .ok (.vcvtQF32 9 10 5) ∧ decodeWord 0x2924A02D#32 = .ok (.vcvtF32Q 9 10 5) ∧
    decodeWord 0x2924A028#32 = .ok (.vcvtF4xF32 9 10 5) ∧ decodeWord 0x2A24A028#32 = .ok (.vredaddI32 9 10 5) ∧
    decodeWord 0x2A24A029#32 = .ok (.vredaddF32 9 10 5) ∧ decodeWord 0x2A24A02A#32 = .ok (.vredmaxF32 9 10 5) := by
  decide +kernel

/-- Words written out from the encodings of 02 R36, R37: vector float 3. -/
theorem test_words_of_vector_float_3 :
    decodeWord 0x2A24A02B#32 = .ok (.vredmaxI32 9 10 5) := by
  decide +kernel

/-- Words written out from the encodings of 02 R36, R37: matrix. -/
theorem test_words_of_matrix :
    decodeWord 0x6000A000#32 = .ok (.fmt 10) ∧ decodeWord 0x6100A400#32 = .ok (.mlatch 10 1) ∧
    decodeWord 0x6230A029#32 = .ok (.mgather 12 10 5 1) ∧ decodeWord 0x63000443#32 = .ok (.mma 1 1 1 1) ∧
    decodeWord 0x64000443#32 = .ok (.mmas 1 1 1 1) ∧ decodeWord 0x6500A082#32 = .ok (.mst 10 2 1) ∧
    decodeWord 0x6600A040#32 = .ok (.mkat 10 1) ∧ decodeWord 0x68280000#32 = .ok (.cpSrc 10) ∧
    decodeWord 0x68280100#32 = .ok (.cpDst 10) ∧ decodeWord 0x6828B220#32 = .ok (.cpDims 10 11 4) ∧
    decodeWord 0x6800B328#32 = .ok (.cpDimd 11 5) ∧ decodeWord 0x68280430#32 = .ok (.cpGo 10 6) ∧
    decodeWord 0x68005528#32 = .ok (.cpQfence 165) ∧ decodeWord 0x68240600#32 = .ok (.cpStatus 9) ∧
    decodeWord 0x68000738#32 = .ok (.cpWait 7) := by
  decide +kernel

/-- Words written out from the encodings of 02 R36, R37: synchronisation 1. -/
theorem test_words_of_synchronisation_1 :
    decodeWord 0x510000C3#32 = .ok (.fenceRel 3) ∧ decodeWord 0x51000082#32 = .ok (.fenceAcq 2) ∧
    decodeWord 0x51000104#32 = .ok (.fenceFull 4) ∧ decodeWord 0x5024A000#32 = .ok (.ldt 9 10) ∧
    decodeWord 0x5024A001#32 = .ok (.ldtp 9 10) ∧ decodeWord 0x5000A2C2#32 = .ok (.stt 10 11) ∧
    decodeWord 0x5024A2C3#32 = .ok (.sttn 9 10 11) ∧ decodeWord 0x5024A004#32 = .ok (.tagr 9 10) ∧
    decodeWord 0x5000A2C5#32 = .ok (.tagw 10 11) ∧ decodeWord 0x5124A2C0#32 = .ok (.bind 9 10 11) ∧
    decodeWord 0x5100A001#32 = .ok (.drain 10) ∧ decodeWord 0x5314A000#32 = .ok (.barInit 5 10) ∧
    decodeWord 0x53180001#32 = .ok (.barArrive 6) ∧ decodeWord 0x531C0002#32 = .ok (.barWait 7) ∧
    decodeWord 0x5424A2C0#32 = .ok (.amoAdd 9 10 11) ∧ decodeWord 0x5424A2C1#32 = .ok (.amoMinI 9 10 11) := by
  decide +kernel

/-- Words written out from the encodings of 02 R36, R37: synchronisation 2. -/
theorem test_words_of_synchronisation_2 :
    decodeWord 0x5424A2C2#32 = .ok (.amoMaxI 9 10 11) ∧ decodeWord 0x5424A2C3#32 = .ok (.amoAnd 9 10 11) ∧
    decodeWord 0x5424A2C4#32 = .ok (.amoOr 9 10 11) ∧ decodeWord 0x5424A2C5#32 = .ok (.amoSwap 9 10 11) ∧
    decodeWord 0x5424A2C6#32 = .ok (.amoCas 9 10 11) := by
  decide +kernel

/-- Words written out from the encodings of 02 R36, R37: allowances and engines. -/
theorem test_words_of_allowances_and_engines :
    decodeWord 0x5524A2C1#32 = .ok (.adec 9 10 11) ∧ decodeWord 0x5500A2C0#32 = .ok (.ainit 10 11) ∧
    decodeWord 0x5500A2C2#32 = .ok (.ainc 10 11) ∧ decodeWord 0x5524A003#32 = .ok (.aread 9 10) ∧
    decodeWord 0x5524A004#32 = .ok (.axread 9 10) ∧ decodeWord 0x5500A005#32 = .ok (.afree 10) ∧
    decodeWord 0x69280000#32 = .ok (.msLen 10) ∧ decodeWord 0x69280100#32 = .ok (.msCw 10) ∧
    decodeWord 0x69280200#32 = .ok (.msZero 10) ∧ decodeWord 0x6928B300#32 = .ok (.msCopy 10 11) ∧
    decodeWord 0x6A280068#32 = .ok (.lkCw 10 13) ∧ decodeWord 0x6A28B150#32 = .ok (.lkSend 10 11 10) ∧
    decodeWord 0x6A28B248#32 = .ok (.lkRecv 10 11 9) ∧ decodeWord 0x6A28B378#32 = .ok (.lkRaddF32 10 11 15) ∧
    decodeWord 0x6A28B460#32 = .ok (.lkRaddBf16 10 11 12) ∧ decodeWord 0x6A28B558#32 = .ok (.lkRaddI32 10 11 11) := by
  decide +kernel

/-- Words of the manual's listings, beside those of the statement on them. -/
theorem test_listed_words :
    decodeWord 0xD0146000#32 = .ok (.ldt 5 6) ∧ decodeWord 0xD0146001#32 = .ok (.ldtp 5 6) ∧ decodeWord 0xD0246004#32 = .ok (.tagr 9 6) ∧
    decodeWord 0xD1006001#32 = .ok (.drain 6) ∧ decodeWord 0xD1000044#32 = .ok (.fenceFull 1) ∧ decodeWord 0xD3140002#32 = .ok (.barWait 5) ∧
    decodeWord 0xD5245003#32 = .ok (.aread 9 5) ∧ decodeWord 0xD54C5004#32 = .ok (.axread 19 5) ∧ decodeWord 0xE9200000#32 = .ok (.msLen 8) ∧
    decodeWord 0xDBFC0002#32 = .ok (.jal 63 2) ∧ decodeWord 0xDC03F000#32 = .ok (.jr 63) ∧ decodeWord 0xE4000C41#32 = .ok (.mmas 3 1 0 1) := by
  decide +kernel

/-! ## Small states -/

/-- The first strand of the device, its context, cluster and core. -/
def here : StrandId := ⟨0, 0, 0, 0⟩
def ctx0 : CtxId := ⟨0, 0, 0⟩
def clu0 : ClusterId := ⟨0, 0⟩
def core0 : CoreId := ⟨0, 0, 0⟩
/-- A context bound and running, with matrix use and regions, a text page at the start of the global window, and a `nop` in it. -/
def running : State := State.reset.placed 32 0x80000000
/-- The strand of its turn changed. -/
def curAs (s : State) (f : Strand → Strand) : State := s.setStrand here (f (s.strand here))
/-- A register given. -/
def setG (s : State) (r : Reg) (x : W64) : State := curAs s fun t => t.wg r x false
/-- A snapshot of a strand. -/
def snapOf (t : Strand) : Snapshot := ⟨t.g, t.v, t.k, t.gp, t.vp, t.kp, t.f0, t.f1, t.lc0, t.lc1, t.rmode, t.lfsr, t.jbudget⟩
/-- A region opened at the start of the text. -/
def region0 : Region := ⟨snapOf Strand.reset, 0x100000040, 0x100000000, 1, [], []⟩
/-- The strand in a region. -/
def inRegion : State := curAs running fun t => { t with step := 1, region := some region0 }
/-- A context that is not bound as matrix-using. -/
def plain : State := running.setBind ctx0 { running.bindOf ctx0 with matrix := false }
/-- The page behind the text page, with a leaf in the TLB of the cluster. -/
def paged (leaf : W64) : State := running.setCluster clu0 { running.cluster clu0 with tlb := [⟨0, 0, 0, 0x10001, leaf⟩] }
/-- Its first address. -/
def dataVa : W64 := 0x100010000
/-- Leaves with V, R and W at 0x30000: cacheable, with CP = 1, uncached, memory-side. -/
def leafC : W64 := 0x30007
def leafP : W64 := 0x30047
def leafU : W64 := 0x30087
def leafM : W64 := 0x30017

/-! ## Single steps -/

/-- What one step makes of the bundle at the pc of a running strand, before the device's time passes (log 5: how much is free). -/
def bundleOf (s : State) : Option State :=
  match s.findErrors.openTurn with
  | .run before start is => (match runSyllables is start with | .next a => some (before.closeBundle a) | _ => none)
  | _ => none

/-- The words placed for the host's questions decode, and the step answers a next state. -/
theorem test_decode_table_word : decodeTableWord 32 0x81248140 = some (.add 9 8 5) := by decide +kernel
theorem test_step_next : (match step (State.reset.withFetchWord 32 0x81248140) with | .next _ => true | _ => false) = true := by decide +kernel
/-- 04 R67, 03 R57: 3 + 4 has landed at the end of the step that issued the `add`; the strand stands at the next bundle. -/
theorem test_step_add : (bundleOf (setG (setG (State.reset.withFetchWord 32 0x81248140) 8 3) 5 4)).map
    (fun t => ((t.strand here).rg 9, (t.strand here).pc, (t.strand here).step)) = some (7, 0x100000004, 1) := by decide +kernel
/-- 04 R68: a product has latency 3: it has not landed after one step. -/
theorem test_step_mul : (bundleOf (setG (setG (State.reset.withFetchWord 32 0x831461C0) 6 3) 7 5)).map
    (fun t => ((t.strand here).rg 5, (t.strand here).inflight.map (fun x => (x.dat, x.due)))) = some (0, [(.w 15, 3)]) := by decide +kernel
/-- 03 R48: a write to g0 is discarded. -/
theorem test_step_g0 : (bundleOf (setG (State.reset.withFetchWord 32 0x81008140) 5 4)).map
    (fun t => (t.strand here).rg 0) = some 0 := by decide +kernel
/-- 04 R89, 12 R222: `trap 7` takes BREAK with its code, the next bundle as restart. -/
theorem test_step_trap : (bundleOf (State.reset.withFetchWord 32 0xDE0001C3)).map
    (fun t => ((t.strand here).trap.cause, (t.strand here).trap.faddr, (t.strand here).trap.restart)) = some (12, 7, 0x100000004) := by
  decide +kernel
/-- 02 R33: a word that is no syllable is ILLEGAL. -/
theorem test_step_illegal : (bundleOf (State.reset.withFetchWord 32 0x81000006)).map
    (fun t => ((t.strand here).trap.cause, (t.strand here).trap.mask, (t.strand here).pc)) = some (1, 1, 0x100000000) := by decide +kernel
/-- 05 R93: a misaligned store is ALIGN at its address. -/
theorem test_step_align : (bundleOf (setG (State.reset.withFetchWord 32 0xCA24A000) 10 3)).map
    (fun t => ((t.strand here).trap.cause, (t.strand here).trap.faddr)) = some (4, 3) := by decide +kernel
/-- 05 R92: `std` writes its eight bytes, the least significant first, to the strand's own scratchpad. -/
theorem test_step_std : (bundleOf (setG (setG (State.reset.withFetchWord 32 0xCA24A008) 10 8) 9 0x1122334455667788)).map
    (fun t => (t.spadRead 0 16, t.spadRead 0 23, t.mem == (State.reset.withFetchWord 32 0xCA24A008).mem)) = some (0x88, 0x11, true) := by
  decide +kernel

/-! ## Witnesses: scalar, vector and special registers -/

/-- The major opcode and the selector of a word. -/
def opOf (w : W32) : Nat × Nat := (majorOf w, (w.extractLsb' 0 3).toNat)
theorem wit_ScalarRegisterForms :
    [0x01000006#32, 0x02000004#32, 0x04000007#32, 0x06000005#32].map opOf = [(1, 6), (2, 4), (4, 7), (6, 5)] := by decide +kernel
theorem wit_ScalarMultiplyDivideCount : opOf 0x03000007#32 = (3, 7) ∧ (2#6).toNat ≤ 2 ∧
    [0x05000004#32, 0x050000C2#32, 0x050000C3#32, 0x05000040#32].map (fun w => (opOf w, (w.extractLsb' 6 6).toNat)) =
      [((5, 4), 0), ((5, 2), 3), ((5, 3), 3), ((5, 0), 1)] := by decide +kernel
theorem wit_SpecialRegisterWrites : running.cur.region = none ∧ inRegion.cur.region ≠ none ∧ (18#12).toNat ∈ [8, 9, 10, 16, 17, 18, 19] ∧
    (8#12).toNat ∈ [8, 9, 10, 16, 17] ∧ (19#12).toNat ∈ [15, 18, 19] ∧ majorOf 0x14000007#32 = 0x14 ∧
    ((0x14000007#32).extractLsb' 0 12).toNat ∉ [8, 9, 10, 15, 16, 17, 18, 19] := by decide +kernel
theorem wit_FloatWorkedValues : (⟨4, 0⟩ : Rnd).mode < 5 := by decide
/-- A vector whose lane 0 is a NaN, and one without a NaN, under all lanes. -/
theorem wit_VectorReductions :
    (f32 (lane ((curAs running fun t => t.wv 2 0x7FC00000 false).cur.rv 2) 0) = .nan ∧ (running.cur.rk (0#3).toNat).getLsbD 0 = true) ∧
    ∀ j < 64, f32 (lane (running.cur.rv 2) j) ≠ .nan := by decide +kernel

/-! ## Witnesses: landing, commit, control flow -/

/-- The strand of the turn with results in flight at a step. -/
def flying (xs : List Exposed) : State := curAs running fun t => { t with step := 5, inflight := xs }

theorem wit_ResultsLand :
    ((flying [⟨.g 4, .w 8, 6, 5, false⟩, ⟨.g 3, .w 7, 5, 4, true⟩]).strand here).inflight =
      [⟨.g 4, .w 8, 6, 5, false⟩] ++ [⟨.g 3, .w 7, ((flying [⟨.g 4, .w 8, 6, 5, false⟩, ⟨.g 3, .w 7, 5, 4, true⟩]).strand here).step, 4, true⟩] ∧
    (∀ e ∈ [(⟨.g 4, .w 8, 6, 5, false⟩ : Exposed)], e.due ≠ 5) ∧
    ((flying [⟨.v 3, .v 7, 5, 3, false⟩]).strand here).inflight = [] ++ [⟨.v 3, .v 7, ((flying []).strand here).step, 3, false⟩] ∧
    ((flying [⟨.k 3, .w 7, 5, 3, false⟩]).strand here).inflight = [] ++ [⟨.k 3, .w 7, ((flying []).strand here).step, 3, false⟩] ∧
    (3#6).toNat < 8 := by decide +kernel
/-- In the region of a `ckpt` at step 1, a result due now that was issued at a given step. -/
def flyingIn (issued : W64) : State := curAs inRegion fun t => { t with inflight := [⟨.g 3, .w 7, 1, issued, false⟩] }
theorem wit_ResultsLand_region : ((flyingIn 0).strand here).region = some region0 ∧ ((flyingIn 1).strand here).region = some region0 ∧
    ((flyingIn 0).strand here).inflight = [⟨.g 3, .w 7, ((flyingIn 0).strand here).step, 0, false⟩] ∧
    ((flyingIn 1).strand here).inflight = [⟨.g 3, .w 7, ((flyingIn 1).strand here).step, 1, false⟩] := by decide +kernel
/-- A strand of a context alone on the front end with idle steps left and results in flight. -/
def idling (xs : List Exposed) : State := curAs running fun t => { t with idle := 3, step := 5, inflight := xs }
theorem wit_ResultsLand_idle : 0 < ((idling []).strand here).idle ∧ (idling []).runs here.ctxId = true ∧ (idling []).presents here = true ∧
    ((idling []).strand here).inflight = [] := by decide +kernel
theorem wit_ResultsLand_idle_lands : let s := idling [⟨.g 4, .w 8, 7, 4, false⟩, ⟨.g 3, .w 7, 6, 4, true⟩]
    0 < (s.strand here).idle ∧ s.runs here.ctxId = true ∧ s.presents here = true ∧
    (∀ e ∈ [(⟨.g 4, .w 8, 7, 4, false⟩ : Exposed)], e.due ≠ (s.strand here).step + 1) ∧
    (s.strand here).inflight = [⟨.g 4, .w 8, 7, 4, false⟩] ++ [⟨.g 3, .w 7, (s.strand here).step + 1, 4, true⟩] := by decide +kernel

/-- A strand in a loop from 0x100000000 to 0x100000010 with a count, at its last bundle. -/
def looping (n : W64) : Strand := { Strand.reset with f0 := ⟨true, 0x100000000, 0x100000010⟩, lc0 := n }
/-- A bundle of one word at 0x100000010 without a transfer. -/
def lastOf : Issue := { Issue.reset with addr := 0x100000010, following := 0x100000014 }
theorem wit_NextBundle_commit :
    (lastOf.sets = [] ∧ lastOf.transfer = .none ∧ lastOf.loop_ = none ∧ (looping 3).f1.active = false) ∧
    ((looping 3).endsFrame 0 lastOf.addr lastOf.following = true ∧ 1 < (looping 3).lc0.toNat) ∧
    ((looping 1).endsFrame 0 lastOf.addr lastOf.following = true ∧ (looping 1).lc0.toNat ≤ 1) ∧
    Strand.reset.endsFrame 0 lastOf.addr lastOf.following = false ∧
    ({ lastOf with transfer := .to 0x100000020 } : Issue).transfer = .to 0x100000020 ∧ ((looping 3).frame 0).active = true ∧
    ({ lastOf with loop_ := some (0, 3, 0x100000014, 0x100000020) } : Issue).loop_ = some (0, 3, 0x100000014, 0x100000020) := by
  decide +kernel
/-- Two nested loops with their counts: the inner one from 0x100000008 to its last bundle, the outer one from 0x100000000 to its own. -/
def nested (n m : W64) (outerStop innerStop : W64) : Strand :=
  { Strand.reset with f0 := ⟨true, 0x100000000, outerStop⟩, f1 := ⟨true, 0x100000008, innerStop⟩, lc0 := n, lc1 := m }
theorem wit_NextBundle_nested :
    (∀ x ∈ [nested 3 2 0x100000010 0x100000010, nested 3 1 0x100000010 0x100000010, nested 1 1 0x100000010 0x100000010,
        nested 3 1 0x100000020 0x100000010, nested 3 2 0x100000010 0x10000000C], x.f1.active = true) ∧
    (let x := nested 3 2 0x100000010 0x100000010; x.endsFrame 1 lastOf.addr lastOf.following = true ∧ 1 < x.lc1.toNat) ∧
    (let x := nested 3 1 0x100000010 0x100000010
     x.endsFrame 1 lastOf.addr lastOf.following = true ∧ x.lc1.toNat ≤ 1 ∧ x.endsFrame 0 lastOf.addr lastOf.following = true ∧ 1 < x.lc0.toNat) ∧
    (let x := nested 1 1 0x100000010 0x100000010
     x.endsFrame 1 lastOf.addr lastOf.following = true ∧ x.lc1.toNat ≤ 1 ∧ x.endsFrame 0 lastOf.addr lastOf.following = true ∧ x.lc0.toNat ≤ 1) ∧
    (let x := nested 3 1 0x100000020 0x100000010
     x.endsFrame 1 lastOf.addr lastOf.following = true ∧ x.lc1.toNat ≤ 1 ∧ x.endsFrame 0 lastOf.addr lastOf.following = false) ∧
    (nested 3 2 0x100000020 0x10000000C).endsFrame 1 lastOf.addr lastOf.following = false ∧
    ({ lastOf with transfer := .skip 0x100000020 } : Issue).transfer = .skip 0x100000020 := by decide +kernel
theorem wit_NextBundle_loop :
    (let s := curAs running fun t => { t with f0 := ⟨true, 0, 0⟩, f1 := ⟨true, 0, 0⟩ }
     s.cur.f0.active = true ∧ s.cur.f1.active = true) ∧
    (let s : State := { running with iss := lastOf }
     ¬(s.cur.f0.active = true ∧ s.cur.f1.active = true) ∧ 4 * (0#18).toInt < (s.iss.following - s.iss.addr).toNat ∧
     ((s.iss.following - s.iss.addr).toNat : Int) ≤ 4 * (1#18).toInt ∧ s.cur.rg 5 = 0 ∧ (setG s 5 2).cur.rg 5 ≠ 0) ∧
    (let s : State := { running with mem := memWriteBytes running.mem (textPa + 4) [0, 0, 0, 0x80]
                                     iss := { lastOf with addr := 0x100000000, following := 0x100000004 } }
     s.walkBody s.turn s.iss.following 0x100000004 (2 ^ 56) = .ok 0x100000008) := by decide +kernel
theorem wit_Branches :
    ((setG running 5 0x100000002).cur.rg 5).toNat % 4 ≠ 0 ∧ ((setG running 5 0x40).cur.rg 5).toNat % 4 = 0 ∧
    ((setG running 5 0x40).cur.rg 5).toNat < 2 ^ 32 ∧ 2 ^ 57 ≤ ((setG running 5 0x200000000000000).cur.rg 5).toNat ∧
    2 ^ 32 ≤ ((setG running 5 0x100000008).cur.rg 5).toNat ∧ ((setG running 5 0x100000008).cur.rg 5).toNat < 2 ^ 57 ∧
    8 ≤ (8#6).toNat ∧ (2#6).toNat < 8 ∧ running.cur.rk (0#6).toNat = BitVec.allOnes 64 ∧ running.cur.rk (2#6).toNat = 0 ∧
    (let k := (curAs running fun t => t.wk 2 5 false).cur.rk (2#6).toNat; k ≠ BitVec.allOnes 64 ∧ k ≠ 0) := by decide +kernel
theorem wit_StrandEnds : running.cur.region = none ∧ inRegion.cur.region ≠ none ∧ ({ lastOf with transfer := .exit } : Issue).transfer = .exit ∧
    ({ lastOf with transfer := .yield } : Issue).transfer = .yield ∧ ({ lastOf with transfer := .break_ 7 } : Issue).transfer = .break_ 7 ∧
    (running.strand here).lastFault = none ∧ (running.strand here).pend = [] ∧
    ((curAs running fun t => { t with pend := [⟨3, .g 12, 1, .cpStatus, none, false⟩] }).strand here).pend ≠ [] := by decide +kernel

/-! ## Witnesses: regions and traps -/

theorem wit_RegionsOpenAndClose_ckpt : inRegion.cur.region = some region0 ∧ running.cur.region = none ∧
    (running.bindOf running.turn.ctxId).spec = true ∧
    ((running.setBind ctx0 Bind.reset).bindOf ctx0).spec = false ∧ (running.setBind ctx0 Bind.reset).cur.region = none := by decide +kernel
theorem wit_RegionsOpenAndClose : inRegion.cur.rg 10 = 0 ∧ (setG inRegion 10 8).cur.rg 10 ≠ 0 ∧
    region0.guards.length + inRegion.iss.guards.length < 16 ∧
    16 ≤ ({ region0 with guards := List.replicate 16 (0, 8) } : Region).guards.length + inRegion.iss.guards.length := by decide +kernel
theorem wit_RollbackRestores :
    let s := curAs inRegion fun t => { t with step := 3, inflight := [⟨.g 3, .w 7, 4, 2, false⟩] }
    (s.strand here).region = some region0 ∧ (1 ≤ 7 ∧ 7 ≤ 9) ∧ ∀ e ∈ (s.strand here).inflight, stepBefore e.issued region0.step = false := by
  decide +kernel
/-- The strand after fifteen times the same fault, and after one. -/
def stuckAt (n : Nat) : State := curAs running fun t => { t with lastFault := some (t.pc, 4, 0, 3), repeats := n }
theorem wit_TrapsTaken :
    (running.strand here).region = none ∧ (running.strand here).lastFault ≠ some ((running.strand here).pc, 4, 0, 3) ∧
    (inRegion.strand here).region = some region0 ∧ (inRegion.strand here).lastFault = none ∧ (inRegion.strand here).inflight = [] ∧
    (∀ n ∈ [15, 1], ((stuckAt n).strand here).region = none ∧
      ((stuckAt n).strand here).lastFault = some (((stuckAt n).strand here).pc, 4, 0, 3)) ∧
    15 ≤ ((stuckAt 15).strand here).repeats ∧ ((stuckAt 1).strand here).repeats < 15 := by decide +kernel
theorem wit_TrapRecordAndReturn : Memory.wf running.mem = true ∧ (running.strand here).trap.valid = false ∧
    ((curAs running fun t => { t with trap := { t.trap with valid := true } }).strand here).trap.valid = true := by decide +kernel

/-! ## Witnesses: memory accesses -/

/-- An access whose banks are not reserved is not held. -/
theorem banks_free (s : State) (ps : List Place)
    (h : s.busyOf (ps.filterMap fun p => match p.loc with | .spad o off => some (o, bankBits off 1) | .phys _ => none) = false) :
    s.needBanks ps = s := by
  unfold State.needBanks
  exact if_neg (ne_true_of_eq_false h)
/-- Outside a region nothing is forwarded from held entries. -/
theorem forwards_outside (s : State) (ps : List Place) (n : Nat) (h : s.cur.region = none) : s.forwards ps n = s := by
  simp [State.forwards, h]
/-- The conditions of a tag operation, its banks as a computation. -/
theorem tag_ready (s : State) (a : Reg) (need : Need) (w : TagWord) (n : Nat) (p : Place)
    (h : s.cur.region = none ∧ s.tagWord s.turn (s.cur.rg a) need = .ok (w, n, p) ∧
      s.busyOf ([p].filterMap fun p => match p.loc with | .spad o off => some (o, bankBits off 1) | .phys _ => none) = false ∧
      s.ownDone s.turn p n = true) : TagReady s a need w n p :=
  ⟨⟨h.1, h.2.1, banks_free s [p] h.2.2.1⟩, h.2.2.2⟩

/-- The place of a byte of the strand's own scratchpad. -/
def ownByte (off : Nat) : Place := ⟨.spad 0 off, false, 0, false⟩
theorem wit_ScalarLoads_local : ((BitVec.ofInt 64 (((setG running 10 3).cur.rg 10).toNat + 4 * (0#9).toInt)).toNat % 4 ≠ 0 ∧
    (setG running 10 0x80).resolve here 0x80 needR = .ok (ownByte 0x80) ∧ (0x80#64).toNat % 8 = 0 ∧ (0x80#64).toNat < 0x80000) ∧
    running.needBanks [ownByte 0x80] = running ∧ running.forwards [ownByte 0x80] 8 = running :=
  ⟨by decide +kernel, banks_free _ _ (by decide +kernel), forwards_outside _ _ _ (by decide +kernel)⟩
theorem wit_ScalarLoads_global : ((paged leafC).resolve here dataVa needR = .ok ⟨.phys 0x30000, false, 0, false⟩ ∧ dataVa.toNat % 8 = 0 ∧
    0x80000 ≤ dataVa.toNat ∧ running.resolve here dataVa needR = .error (5, 0, dataVa)) ∧
    (paged leafC).needBanks [⟨.phys 0x30000, false, 0, false⟩] = paged leafC ∧
    (paged leafC).forwards [⟨.phys 0x30000, false, 0, false⟩] 8 = paged leafC :=
  ⟨by decide +kernel, banks_free _ _ (by decide +kernel), forwards_outside _ _ _ (by decide +kernel)⟩
theorem wit_ScalarLoads_byte : running.cur.unconfirmed = [] ∧ running.cur.region = none ∧ running.writes = [] ∧
    0 = running.turn.coreId.key ∧ 1 ≠ running.turn.coreId.key ∧
    (let r : Region := { region0 with held := [] ++ [⟨0x80, ownByte 0x80, [(0, 5)], 0, false⟩] }
     let s := curAs running fun t => { t with region := some r }
     s.cur.unconfirmed = [] ∧ s.cur.region = some r ∧ (ownByte 0x80).loc = .spad 0 0x80) := by decide +kernel
/-- Predicate k1 of lanes 0 and 2. -/
def twoLanes (s : State) : State := curAs s fun t => t.wk 1 5 false
theorem wit_Stores : ((BitVec.ofInt 64 (((setG running 10 3).cur.rg 10).toNat + 4 * (0#9).toInt)).toNat % 4 ≠ 0 ∧
    (setG running 10 0x80).resolve here 0x80 needW = .ok (ownByte 0x80) ∧ running.resolve here dataVa needW = .error (5, 0, dataVa)) ∧
    running.needBanks [ownByte 0x80] = running := ⟨by decide +kernel, banks_free _ _ (by decide +kernel)⟩
theorem wit_VectorAccesses : ((twoLanes running).cur.rk 1 ≠ 0 ∧ (20#64).toNat % 32 ≠ 0 ∧ running.cur.rk 1 = 0 ∧
    (twoLanes running).lanes here [(0, 0x80), (2, 0x88)] 4 needR = .ok [(0, ownByte 0x80), (2, ownByte 0x88)] ∧
    (twoLanes running).lanes here [(0, 0x80), (2, 0x88)] 4 needW = .ok [(0, ownByte 0x80), (2, ownByte 0x88)]) ∧
    (twoLanes running).needBanks [ownByte 0x80, ownByte 0x88] = twoLanes running ∧
    (twoLanes running).forwards [ownByte 0x80, ownByte 0x88] 4 = twoLanes running :=
  ⟨by decide +kernel, banks_free _ _ (by decide +kernel), forwards_outside _ _ _ (by decide +kernel)⟩
/-- A row of lanes that runs past the top of the address space, and one that does not. -/
theorem wit_VectorAccesses_top : 2 ^ 64 < (0xFFFFFFFFFFFFFFE0#64).toNat + 256 ∧ (0xFFFFFFFFFFFFFFE0#64).toNat % 32 = 0 ∧
    ((List.range 64).filter fun j => ((twoLanes running).cur.rk 1).getLsbD j) = 0 :: [2] ∧ (0x80#64).toNat + 256 ≤ 2 ^ 64 ∧
    (0x80#64).toNat % 32 = 0 ∧ (0x80#64).toNat < 0x80000 ∧ 0x80000 ≤ (0x100000#64).toNat := by decide +kernel
theorem wit_VectorAccesses_faults : running.lanes here [(0, 0x81)] 4 needR = .error (4, 0, 0x81) ∧
    running.lanes here [(0, 0x80080)] 4 needW = .error (6, 0, 0x80080) ∧
    (paged leafC).lanes here [(0, dataVa)] 4 needR = .ok [(0, ⟨.phys 0x30000, false, 0, false⟩)] := by decide +kernel
/-- Line 0x600 of the data page in an L2. -/
def line0 (st : Moesi) : L2Line := ⟨st, List.replicate 128 7, 0, [], 0, none⟩
def withLine (s : State) (d : DieId) (st : Moesi) : State := s.setDie d { s.die d with l2 := [(0x600, line0 st)] }
/-- A set with a place has room for a line. -/
theorem room_in (s : State) (d : DieId) (line : Nat)
    (h : ((s.die d).l2.filter fun x => x.1 % sliceSets == line % sliceSets).length < 16) : s.makeRoom d line = some s := by
  unfold State.makeRoom
  exact if_pos (.inl h)
/-- The set of line 0x600 full of lines whose leases run. -/
def fullSet : State := (paged leafP).setDie 0 { (paged leafP).die 0 with
  l2 := (List.range 16).map fun k => (0x600 + sliceSets * (k + 1), { line0 .E with lend := 999, holders := [0] }) }
theorem wit_Prefetch_room : (withLine (paged leafP) 0 .E).makeRoom 0 0x600 = some (withLine (paged leafP) 0 .E) ∧
    (withLine (paged leafC) 0 .E).makeRoom 0 0x600 = some (withLine (paged leafC) 0 .E) ∧ fullSet.makeRoom 0 0x600 = none :=
  ⟨room_in _ _ _ (by decide +kernel), room_in _ _ _ (by decide +kernel), Option.isNone_iff_eq_none.mp (by decide +kernel)⟩
theorem wit_Prefetch : windowOf 0x80000 = .none ∧ (0x40#64).toNat < 0x80000 ∧ (0x100000 ≤ (0x100040#64).toNat ∧ (0x100040#64).toNat < 0x300000) ∧
    isGlobal dataVa = true ∧ (paged leafP).leafFor clu0 0 0 dataVa.toNat = .leaf leafP ∧ pteR leafP = true ∧ pteMs leafP = false ∧
    pteCp leafP = 1 ∧ leafPa leafP dataVa.toNat = 0x30000 ∧ 0x30000 < hbmEnd ∧ running.dielost = 0 ∧
    (withLine (paged leafP) 0 .E).sliceCopy 0 0x600 = some (line0 .E) ∧
    ((paged 0x3000030047).sliceCopy 0 (0x3000030000 / 128) = none ∧ leafPa 0x3000030047 dataVa.toNat = 0x3000030000) := by decide +kernel
theorem wit_Reserve : (0#64).toNat = 0 ∧ 2 ^ 32 ≤ dataVa.toNat ∧ dataVa.toNat + 64 ≤ 2 ^ 57 ∧ dataVa.toNat / 128 = (dataVa.toNat + 64 - 1) / 128 ∧
    (paged leafC).leafFor clu0 0 0 dataVa.toNat = .leaf leafC ∧ pteR leafC = true ∧ pteMs leafC = false ∧ pteCp leafC ≠ 2 ∧ pteSz leafC = 0 ∧
    pteAddr leafC % 2 ^ 16 = 0 ∧ leafPa leafC dataVa.toNat = 0x30000 ∧ running.dielost = 0 ∧
    (withLine (paged leafC) 0 .E).sliceCopy 0 0x600 = some (line0 .E) ∧ retainedIn ((withLine (paged leafC) 0 .E).die 0) 0 < 12288 := by
  decide +kernel
theorem wit_CacheRangeOperations : 2 ^ 30 < (0x40000001#64).toNat ∧ isGlobal 0x40 = false ∧ isGlobal dataVa = true ∧
    (isGlobal 0x1FFFFFFFFFFFFC0 = true ∧ 2 ^ 57 < (0x1FFFFFFFFFFFFC0#64).toNat + 0x80) ∧
    (paged leafC).rangeLines here dataVa.toNat (dataVa.toNat + 128) 16386 = .ok [(0x600, 0x601)] := by decide +kernel
theorem wit_CacheRangeComplete_wb :
    let s := curAs (withLine running 0 .M) fun t => { t with range := some (true, [(0x600, 0x601)], 0) }
    (s.strand here).range = some (true, [(0x600, 0x601)], 0) ∧ s.rangeStored here [(0x600, 0x601)] 0 = true ∧ Memory.wf s.mem = true ∧
    (s.die 0).l2 = [(0x600, line0 .M)] ∧ (∀ e : DieId, e ≠ 0 → (s.die e).l2 = []) ∧ inLines [(0x600, 0x601)] 0x600 = true ∧
    (line0 .M).data.length = 128 := by decide +kernel
theorem wit_RangeOperationsIssue : let s := setG (setG (paged leafC) 10 dataVa) 11 1
    (0 < (s.cur.rg 11).toNat ∧ (s.cur.rg 11).toNat ≤ 2 ^ 30 ∧ isGlobal (s.cur.rg 10) = true ∧ (s.cur.rg 10).toNat + (s.cur.rg 11).toNat ≤ 2 ^ 57) ∧
    ∀ x, (s.cur.rg 10).toNat ≤ x → x < (s.cur.rg 10).toNat + (s.cur.rg 11).toNat →
      ∃ e, s.leafFor s.turn.clusterId (s.bindOf s.turn.ctxId).asid (s.bindOf s.turn.ctxId).gen x = .leaf e ∧ pteR e = true := by
  refine ⟨by decide +kernel, fun x h1 h2 => ⟨leafC, ?_, by decide +kernel⟩⟩
  have ha : ((setG (setG (paged leafC) 10 dataVa) 11 1).cur.rg 10).toNat = dataVa.toNat := by decide +kernel
  have hn : ((setG (setG (paged leafC) 10 dataVa) 11 1).cur.rg 11).toNat = 1 := by decide +kernel
  rw [ha] at h1 h2; rw [hn] at h2
  obtain rfl : x = dataVa.toNat := by omega
  decide +kernel
theorem wit_CacheRangeComplete_moves : (curAs (withLine running 0 .M) fun t => { t with range := some (true, [(0x600, 0x601)], 0) }).rangeMoves
    [(0x600, 0x601)] = false := by decide +kernel
/-- A line of die 1 in the L2 of die 0 and in a cluster's cache. -/
def remote : State :=
  let s := (curAs running fun t => { t with range := some (false, [(0x60000600, 0x60000601)], 0) })
  (s.setDie 0 { s.die 0 with l2 := [(0x60000600, line0 .M)] }).setCluster clu0 { s.cluster clu0 with cache := [(0x60000600, ⟨List.replicate 128 7, 15, 0, 9⟩)] }
theorem wit_CacheRangeComplete_inv : (remote.strand here).range = some (false, [(0x60000600, 0x60000601)], 0) ∧
    (remote.die 0).l2 = [(0x60000600, line0 .M)] ∧ homeDie (0x60000600 * 128) ≠ 0 ∧ inLines [(0x60000600, 0x60000601)] 0x60000600 = true ∧
    remote.removable clu0 [(0x60000600, 0x60000601)] = true ∧
    (remote.cluster clu0).cache = [(0x60000600, ⟨List.replicate 128 7, 15, 0, 9⟩)] := by decide +kernel

/-! ## Witnesses: synchronisation -/

/-- g10 holds the address 0x80 of a tag word of the strand's scratchpad, its tag as given; g11 the length 4. -/
def tagged (full : Bool) : State := ((setG (setG running 10 0x80) 11 4).setTag (.spad core0 0x80) full)
theorem wit_TagReady : TagReady (tagged true) 10 needRW (.spad core0 0x80) 4 (ownByte 0x80) ∧
    TagReady (tagged false) 10 needRW (.spad core0 0x80) 4 (ownByte 0x80) ∧ TagReady (tagged true) 10 needR (.spad core0 0x80) 4 (ownByte 0x80) ∧
    TagReady (tagged false) 10 needR (.spad core0 0x80) 4 (ownByte 0x80) :=
  ⟨tag_ready _ _ _ _ _ _ (by decide +kernel), tag_ready _ _ _ _ _ _ (by decide +kernel), tag_ready _ _ _ _ _ _ (by decide +kernel),
    tag_ready _ _ _ _ _ _ (by decide +kernel)⟩
theorem wit_TagOperations : (tagged true).tagOf (.spad core0 0x80) = true ∧ (tagged false).tagOf (.spad core0 0x80) = false ∧
    (tagged true).releaseReady here (.spad core0 0x80) = true ∧ (tagged false).releaseReady here (.spad core0 0x80) = true := by decide +kernel
/-- The strand has a load outstanding. -/
def reading (s : State) : State :=
  curAs { s with seq := 9, iss := { s.iss with mark := 9 } } fun t => { t with pend := [⟨3, .g 12, 1, .load (.scalar 4 false) [.at_ ⟨.phys 0x30000, false, 0, false⟩], none, false⟩] }
theorem wit_TagOperations_release : TagReady (reading (tagged false)) 10 needRW (.spad core0 0x80) 4 (ownByte 0x80) ∧
    TagReady (reading (tagged false)) 10 needR (.spad core0 0x80) 4 (ownByte 0x80) ∧
    (reading (tagged false)).releaseReady here (.spad core0 0x80) = false :=
  ⟨tag_ready _ _ _ _ _ _ (by decide +kernel), tag_ready _ _ _ _ _ _ (by decide +kernel), by decide +kernel⟩
/-- The gang of the context with a binding table. -/
def bindings (es : List Binding) : State := { tagged false with gangs := [(0, ⟨0, 1, 0, 0, [ctx0], es, none, none, false⟩)] }
theorem wit_TagOperations_bind : TagReady (bindings []) 10 needR (.spad core0 0x80) 4 (ownByte 0x80) ∧
    TagReady (bindings [⟨.spad core0 0x80, 0, 4⟩]) 10 needR (.spad core0 0x80) 4 (ownByte 0x80) ∧
    TagReady (bindings (List.replicate 64 ⟨.spad core0 0, 0, 4⟩)) 10 needR (.spad core0 0x80) 4 (ownByte 0x80) :=
  ⟨tag_ready _ _ _ _ _ _ (by decide +kernel), tag_ready _ _ _ _ _ _ (by decide +kernel), tag_ready _ _ _ _ _ _ (by decide +kernel)⟩
theorem wit_TagOperations_table : ((bindings []).cur.rg 11).toNat ≠ 0 ∧ ((bindings []).cur.rg 12).toNat = 0 ∧
    (⟨.spad core0 0x80, 0, 4⟩ : Binding) ∈ ((bindings [⟨.spad core0 0x80, 0, 4⟩]).gangAt 0).table ∧
    (⟨.spad core0 0x80, 0, 4⟩ : Binding) ∉ ((bindings []).gangAt 0).table ∧ ((bindings []).gangAt 0).table.length < 64 ∧
    (⟨.spad core0 0x80, 0, 4⟩ : Binding) ∉ ((bindings (List.replicate 64 ⟨.spad core0 0, 0, 4⟩)).gangAt 0).table ∧
    64 ≤ ((bindings (List.replicate 64 ⟨.spad core0 0, 0, 4⟩)).gangAt 0).table.length := by decide +kernel
theorem wit_Fences : running.cur.region = none ∧ inRegion.cur.region ≠ none ∧ (1 ≤ (4#6).toNat ∧ (4#6).toNat ≤ 4) ∧ (5 ≤ (5#6).toNat) ∧
    (0#6).toNat = 0 := by decide +kernel
/-- Barrier slot 2 of the context. -/
def slot (b : Barrier) : State := running.setBar ctx0 2 b
theorem wit_Barriers :
    (2#6).toNat ≤ 7 ∧ running.cur.region = none ∧ (slot ⟨3, 7, 1, 0, Vector.replicate 4 none, []⟩).cur.region = none ∧
    5 ≤ (5#64).toNat ∧ ((slot ⟨3, 7, 1, 0, Vector.replicate 4 none, []⟩).bar ctx0 2).count ≠ 0 ∧
    (4 ≠ ((slot ⟨3, 7, 1, 0, Vector.replicate 4 none, []⟩).bar ctx0 2).count ∧ ((slot ⟨3, 7, 1, 0, Vector.replicate 4 none, []⟩).bar ctx0 2).tally0 < 4) ∧
    (running.bar ctx0 2).count = 0 ∧ (running.bar ctx0 2).last[(0 : Fin 4).val] = none ∧
    ((slot ⟨3, 7, 1, 0, Vector.replicate 4 (some 6), []⟩).bar ctx0 2).last[(0 : Fin 4).val] = some 6 ∧
    ((slot ⟨3, 7, 1, 0, Vector.replicate 4 (some 7), []⟩).bar ctx0 2).last[(0 : Fin 4).val] = some 7 ∧
    ((slot ⟨3, 7, 1, 0, Vector.replicate 4 (some 8), []⟩).bar ctx0 2).last[(0 : Fin 4).val] = some 8 := by decide +kernel
theorem wit_Barriers_counted :
    let s := slot ⟨3, 7, 1, 0, Vector.replicate 4 none, [(0, 7, 0)]⟩
    let u := slot ⟨3, 7, 2, 0, Vector.replicate 4 none, [(0, 7, 0)]⟩
    (s.bar ctx0 2).coming = [(0, 7, 0)] ∧ s.doneAtCluster here 0 = true ∧ (s.bar ctx0 2).tally1 = 0 ∧ (s.bar ctx0 2).tally0 + 1 < (s.bar ctx0 2).count ∧
    (u.bar ctx0 2).coming = [(0, 7, 0)] ∧ u.doneAtCluster here 0 = true ∧ (u.bar ctx0 2).tally1 = 0 ∧
    (u.bar ctx0 2).tally0 + 1 = (u.bar ctx0 2).count := by decide +kernel
theorem wit_Atomics : running.cur.region = none ∧ (3#64).toNat % 8 ≠ 0 ∧ (isGlobal 0x40 = false) ∧ isGlobal dataVa = true ∧
    (paged leafU).resolve here dataVa needRW = .ok ⟨.phys 0x30000, false, 2, false⟩ ∧ 0x30000 < hbmEnd := by decide +kernel
theorem wit_Atomics_performed :
    let p : Place := ⟨.phys 0x30000, false, 2, false⟩
    let s := curAs running fun t => { t with pend := [⟨4, .g 9, 1, .amo .add p 5 0, none, false⟩] }
    Memory.wf s.mem = true ∧ (s.strand here).pend = [⟨4, .g 9, 1, .amo .add p 5 0, none, false⟩] ∧ p.cacheable = false ∧ s.placeLost p = false ∧
    s.writes = [] ∧ s.newest (lineOf 0x30000) = none ∧ s.devicePoison 0x30000 = false ∧ 0x30000 % 8 = 0 ∧ (s.strand here).region = none ∧
    (s.strand here).unconfirmed = [] ∧ ∀ i < 8, s.mixed (0x30000 + i) = false := by decide +kernel

/-! ## Witnesses: matrix unit, engines, allowances -/

/-- Consecutive bytes of the first scratchpad written. -/
def spadPut (s : State) (off : Nat) (bs : List Byte) : State :=
  match bs with
  | [] => s
  | b :: r => spadPut (s.spadWrite 0 off b) (off + 1) r
/-- The core of the strand of the turn changed. -/
def coreAs (s : State) (f : Core → Core) : State := s.setCore core0 (f (s.core core0))
theorem wit_MatrixOperands_use : plain.matrix plain.turn = false ∧ inRegion.matrix inRegion.turn = true ∧ inRegion.cur.region ≠ none ∧
    running.matrix running.turn = true ∧ running.cur.region = none ∧ (0 < 3 ∧ 5 < 6) := by decide +kernel
theorem wit_MatrixOperands_range : RangeReady (setG running 10 0x400) 10 (128 * rowBytes (setG running 10 0x400).cur.fmt 0) 64 0x400 ∧
    RangeReady (setG running 10 0x400) 10 32768 64 0x400 ∧ RangeReady (setG running 10 0x404) 10 (4 * 2) 4 0x404 := by
  unfold RangeReady; decide +kernel
theorem wit_MatrixOperands_latch : ((setG running 10 0x400).core core0).arrayBusy = false ∧
    ((setG running 10 0x400).core core0).accPoison[(1#1).toFin] = [] := by decide +kernel
theorem wit_MatrixOperands_gather : (running.cur.rk (1#3).toNat = 0 ∧ running.bankBusy running.turn.coreId.key 0 = false) ∧
    (twoLanes running).cur.rk (1#3).toNat ≠ 0 ∧ ((setG running 10 3).cur.rg 10).toNat % 16 ≠ 0 ∧ ((setG running 10 0x400).cur.rg 10).toNat % 16 = 0 ∧
    (∀ k < 64, ((curAs running fun t => t.wk 1 4 false).cur.rk (1#3).toNat).getLsbD k = decide (k = 2)) ∧
    running.matrixRange (0x400 + BitVec.ofNat 64 ((lane (running.cur.rv 12) 2).toNat * 80)) 80 1 = .ok 0x400 ∧
    running.bankBusy running.turn.coreId.key (bankBits 0x400 80) = false := by decide +kernel
/-- Two active lanes of which both rows are free. -/
theorem wit_MatrixOperands_rows : let s := setG (twoLanes running) 10 0x400
    let ls := (List.range 64).filter fun i => (s.cur.rk (1#3).toNat).getLsbD i
    let rb := rowBytes s.cur.fmt (s.cur.fmt.extractLsb' 0 3).toNat
    ls = [0, 2] ∧ (s.cur.rg 10).toNat % 16 = 0 ∧ s.matrix s.turn = true ∧ s.cur.region = none ∧
    (∀ j ∈ ls, s.matrixRange (s.cur.rg 10 + BitVec.ofNat 64 ((lane (s.cur.rv 12) j).toNat * rb)) rb 1 = .ok 0x400) ∧
    s.bankBusy s.turn.coreId.key (ls.foldl (fun m _ => m ||| bankBits 0x400 rb) 0) = false := by decide +kernel
/-- Each code of `mst` with its range, and one that is none. -/
theorem wit_MatrixOperands_mst : 3 ≤ (3#4).toNat ∧ (2#4).toNat < 3 ∧ ((running.core core0).accPoison[(1#1).toFin]) = [] ∧
    RangeReady (setG running 10 0x400) 10 (64 * 512) 64 0x400 ∧ RangeReady (setG running 10 0x400) 10 (64 * 256) 64 0x400 ∧
    RangeReady (setG running 10 0x400) 10 (64 * 128) 64 0x400 := by unfold RangeReady; decide +kernel
/-- Two words in the scratchpad, and a bundle with two literals, the second of which differs or not. -/
def answering (x : W32) : State :=
  spadPut { setG running 10 0x404 with iss := { Issue.reset with lits := [7, x] } } 0x404 [7, 0, 0, 0, 9, 0, 0, 0]
theorem wit_MatrixOperands_kat : let word := fun (s : State) (i : Nat) => BitVec.ofNat 32 (leNat ((List.range 4).map fun j => (s.ownByte (0x404 + 4 * i + j)).1))
    (answering 9).iss.lits.length = 2 ∧ (∀ j < 4 * 2, ((answering 9).ownByte (0x404 + j)).2 = false) ∧ (answering 9).cur.unconfirmed = [] ∧
    (∀ i < 2, (answering 9).iss.lits[i]? = some (word (answering 9) i)) ∧ (∀ j < 4 * 2, ((answering 8).ownByte (0x404 + j)).2 = false) ∧
    (answering 8).iss.lits[0]? = some (word (answering 8) 0) ∧ (answering 8).iss.lits[1]? ≠ some (word (answering 8) 1) := by decide +kernel
/-- Stage 1 with rows. -/
def staged (n : Nat) (busy : Bool) : State := coreAs running fun o => { o with stageRows := o.stageRows.set 1 n, arrayBusy := busy }
theorem wit_MatrixProducts : ((staged 0 false).core core0).stageRows[(1#1).toFin] = 0 ∧ 0 < ((staged 3 true).core core0).stageRows[(1#1).toFin] ∧
    ((staged 3 true).core core0).arrayBusy = true ∧ ((staged 3 false).core core0).arrayBusy = false ∧
    (staged 3 false).bankBusy 0 ((staged 3 false).core core0).stageBanks[(1#1).toFin] = false ∧
    ((staged 3 false).core core0).latchPoison[(2#2).toFin] = [] ∧ ((staged 3 false).core core0).stagePoison[(1#1).toFin] = [] ∧
    ((staged 3 false).core core0).accPoison[(0#1).toFin] = [] := by decide +kernel
/-- A copy of 4 bytes within the scratchpad. -/
def copyOp : CopyOp :=
  { geo := { Geometry.reset with csrc := 0x40, cdst := 0x80, ccount := Geometry.reset.ccount.set 0 4, csstr := Geometry.reset.csstr.set 0 1
                                 cdstr := Geometry.reset.cdstr.set 0 1 }
    asid := 0, gen := 0, ctx := 0, core := 0, cw := none, seq := 3, after := [], moved := 0, chunk := [], prior := [], begun := false, corrupt := false, status := none }
/-- Copy queue 2 with operations. -/
def copying (ops : List CopyOp) : State := coreAs (spadPut running 0x40 [1, 2, 3, 4, 5, 6, 7, 8]) fun o => { o with copyq := o.copyq.set 2 ops }
theorem wit_EngineCommands_copy : ((copying []).matrix (copying []).turn = true ∧ (copying []).cur.region = none) ∧ (5#5).toNat < 6 ∧ (2#5).toNat < 8 ∧
    ((copying [copyOp]).core core0).copyq[2].length < 16 ∧ ((copying [copyOp]).core core0).copyq[2] ≠ [] ∧
    ((copying []).core core0).copyq[2] = [] ∧ 16 ≤ ((copying (List.replicate 16 copyOp)).core core0).copyq[2].length := by decide +kernel
theorem wit_EngineCommands_copyBanks : (copying []).busyOf ((copying []).copyNeeds ((copying []).core core0).geo) = false := by decide +kernel
/-- A copy from a bank that the array holds. -/
def banked : State := coreAs (copying []) fun o => { o with
  geo := copyOp.geo, reservations := [⟨0xFFFFFFFF, true⟩] }
theorem wit_EngineCommands_copyHeld : let s : State := { banked with iss := { banked.iss with busy := 0xFFFFFFFF } }
    (s.core core0).copyq[2].length < 16 ∧ s.busyOf (s.copyNeeds (s.core core0).geo) = true := by decide +kernel
/-- g10 holds the address of a completion word of the strand's scratchpad, one of no window, and a misaligned global one. -/
theorem wit_EngineCommands_word : ((setG (copying []) 10 0x80).cwordAt 0x80 = .ok (.spad 0 0x80)) ∧
    (setG (copying []) 10 0x80).cwordAt ((setG (copying []) 10 0x80).cur.rg 10) = .ok (.spad 0 0x80) ∧
    ((copying []).cwordAt 0x82 = .error (4, 0, 0x82)) ∧ isGlobal 0x100010004 = true ∧ (0x100010004#64).toNat % 8 ≠ 0 ∧ (10 : Reg) ≠ 0 := by
  decide +kernel
/-- A row operation that clears 1 KiB of a memory-side page. -/
def rowOp (moved : Nat) (st : Option Nat) : MsOp :=
  { copy := false, dst := dataVa, src := 0, len := 1024, asid := 0, gen := 0, strand := 0, cw := none, seq := 3, moved := moved, prior := []
    begun := false, corrupt := false, status := st }
def rowing (n : Nat) (ops : List MsOp) : State :=
  coreAs (setG (setG (paged leafM) 10 dataVa) 11 (dataVa + 0x400)) fun o => { o with mlen := BitVec.ofNat 64 n, msq := ops }
theorem wit_EngineCommands_rows : ((rowing 512 []).core core0).mlen.toNat % 1024 ≠ 0 ∧ 2 ^ 30 < ((rowing 0x40000400 []).core core0).mlen.toNat ∧
    (((rowing 1024 []).core core0).mlen.toNat % 1024 = 0 ∧ ((rowing 1024 []).core core0).mlen.toNat ≤ 2 ^ 30) ∧ (dataVa + 512).toNat % 1024 ≠ 0 ∧
    (dataVa.toNat % 1024 = 0 ∧ (dataVa + 0x400).toNat % 1024 = 0 ∧ leavesGlobal dataVa 1024 = none ∧ leavesGlobal (dataVa + 0x400) 1024 = none) ∧
    ((rowing 1024 []).core core0).mcw.valid = false ∧ ((rowing 1024 []).core core0).msq.length < 8 ∧
    8 ≤ ((rowing 1024 (List.replicate 8 (rowOp 0 none))).core core0).msq.length := by decide +kernel
/-- A length of 1,024 at addresses that leave the global window, and the completion word of the engine. -/
theorem wit_EngineCommands_rowFaults : isGlobal 0x80000 = false ∧ (0x80000#64).toNat % 1024 = 0 ∧ isGlobal 0x1FFFFFFFFFFFC00 = true ∧
    (0x1FFFFFFFFFFFC00#64).toNat % 1024 = 0 ∧ 2 ^ 57 < (0x1FFFFFFFFFFFC00#64).toNat + 2048 ∧ (2048 % 1024 = 0 ∧ 0 < 2048 ∧ 2048 ≤ 2 ^ 30) ∧
    (isGlobal dataVa = true ∧ dataVa.toNat + 2048 ≤ 2 ^ 57) ∧
    (let s := coreAs (rowing 1024 []) fun o => { o with mcw := ⟨true, 0x80⟩ }
     (s.core core0).mcw.valid = true ∧ s.cwordAt ((s.core core0).mcw.addr.setWidth 64) = .ok (.spad 0 0x80)) ∧
    (let s := coreAs (rowing 1024 []) fun o => { o with mcw := ⟨true, 0x82⟩ }
     (s.core core0).mcw.valid = true ∧ s.cwordAt ((s.core core0).mcw.addr.setWidth 64) = .error (4, 0, 0x82)) := by decide +kernel
def sendOp : LinkOp := { form := .send, base := 0x400, len := 64, core := 0, cw := none, seq := 3, cls := 0, moved := 0, poison := false, corrupt := false }
/-- Port 2 with its operations. -/
def linked (sends recvs : List LinkOp) : State := setG (setG (running.setPort 2 { running.port 2 with sends := sends, recvs := recvs }) 10 0x400) 11 64
theorem wit_EngineCommands_links : (linked [] []).matrix (linked [] []).turn = true ∧ (2#5).toNat < 16 ∧ (5#5).toNat / 4 ≠ running.turn.die.val ∧
    (2#5).toNat / 4 = running.turn.die.val ∧ (0x410#64).toNat % 64 ≠ 0 ∧ (0x400#64).toNat % 64 = 0 ∧ (32#64).toNat % 64 ≠ 0 ∧
    (((linked [] []).cur.rg 10).toNat + 64 ≤ ((linked [] []).bindOf ctx0).partBytes ∧ ((linked [] []).cur.rg 10).toNat < 0x80000) := by decide +kernel
theorem wit_EngineCommands_linkQueues : (((linked [] []).core core0).lcw.getD 2 ⟨false, 0⟩).valid = false ∧
    (((linked [] []).port 2).sends.filter fun y => y.core == 0).length < 8 ∧
    8 ≤ (((linked (List.replicate 8 sendOp) []).port 2).sends.filter fun y => y.core == 0).length ∧
    (linked [] []).bankBusy 0 (bankBits ((running.bindOf ctx0).partBase + 0x400) 64) = false := by decide +kernel
/-- Ranges that are not of the strand's partition, and the completion word of port 2. -/
theorem wit_EngineCommands_linkFaults : let k := (linked [] []).bindOf ctx0
    0x80000 ≤ (0x80000#64).toNat ∧ (BitVec.ofNat 64 (k.partBytes - 64)).toNat < 0x80000 ∧ (BitVec.ofNat 64 (k.partBytes - 64)).toNat < k.partBytes ∧
    k.partBytes < (BitVec.ofNat 64 (k.partBytes - 64)).toNat + 128 ∧ (BitVec.ofNat 64 (k.partBytes - 64)).toNat % 64 = 0 ∧ 128 % 64 = 0 ∧
    (let s := coreAs (linked [] []) fun o => { o with lcw := o.lcw.set 2 ⟨true, 0x80⟩ }
     ((s.core core0).lcw.getD 2 ⟨false, 0⟩).valid = true ∧ s.cwordAt (((s.core core0).lcw.getD 2 ⟨false, 0⟩).addr.setWidth 64) = .ok (.spad 0 0x80)) ∧
    (let s := coreAs (linked [] []) fun o => { o with lcw := o.lcw.set 2 ⟨true, 0x82⟩ }
     s.cwordAt (((s.core core0).lcw.getD 2 ⟨false, 0⟩).addr.setWidth 64) = .error (4, 0, 0x82)) := by decide +kernel
/-- g10 names the counter at 0x30000, g11 the amount n; the cluster's ladle has an entry. -/
def counting (n : W64) (e : LadleEntry) : State := (setG (setG (paged leafP) 10 dataVa) 11 n).setLadle clu0.key 0x30000 e
theorem wit_AllowanceInstructions_adec :
    CounterReady (counting 3 ⟨5, 999, 1, 0⟩) 10 0x30000 ∧ ((counting 0 ⟨5, 999, 1, 0⟩).cur.rg 11).toNat = 0 ∧
    (counting 3 ⟨5, 999, 1, 0⟩).ladle clu0.key 0x30000 = some ⟨5, 999, 1, 0⟩ ∧ (0 < ((counting 3 ⟨5, 999, 1, 0⟩).cur.rg 11).toNat ∧ 3 < 5) ∧
    (counting 3 ⟨5, 999, 1, 0⟩).spendable clu0.key ⟨5, 999, 1, 0⟩ = true ∧ ((counting 5 ⟨5, 999, 1, 0⟩).cur.rg 11).toNat = 5 ∧
    CounterReady (paged leafP |> fun s => setG s 10 dataVa) 10 0x30000 ∧ (paged leafP).ladle clu0.key 0x30000 = none ∧
    (counting 3 ⟨5, 0, 1, 0⟩).spendable clu0.key ⟨5, 0, 1, 0⟩ = false := by unfold CounterReady; decide +kernel
def tundish0 : Tundish := ⟨100, true, 16, 8, 5000, [], [], none, false, false, 0, 0, 0, 0, 0, 0, 0⟩
/-- The counter's home knows it. -/
def homed (s : State) (x : Tundish) : State := s.setTundish 0x30000 x
theorem wit_AllowanceInstructions_home : CounterReady (homed (counting 3 ⟨5, 999, 1, 0⟩) tundish0) 10 0x30000 ∧
    tget ((homed (counting 3 ⟨5, 999, 1, 0⟩) tundish0).die (ctrHome 0x30000)).tundish 0x30000 = some tundish0 ∧ tundish0.normal = true ∧
    (homed (setG (paged leafP) 10 dataVa) tundish0).ladle clu0.key 0x30000 = none ∧
    CounterReady (homed (setG (paged leafP) 10 dataVa) tundish0) 10 0x30000 ∧
    (homed (counting 3 ⟨5, 999, 1, 0⟩) tundish0).ladle clu0.key 0x30000 = some ⟨5, 999, 1, 0⟩ ∧ 0 < 5 ∧ 2 ^ 63 ≤ (0x8000000000000000#64).toNat ∧
    (3#64).toNat < 2 ^ 63 := by unfold CounterReady; decide +kernel

/-! ## Witnesses: events of a strand and its context -/

theorem wit_Waiting : ((curAs (tagged false) fun t => { t with hold := some (.tag (.spad core0 0x80) true) }).strand here).hold =
      some (.tag (.spad core0 0x80) true) ∧ (tagged false).tagOf (.spad core0 0x80) ≠ true ∧
    ((curAs running fun t => { t with hold := some (.join 0x100000000 false) }).strand here).hold = some (.join 0x100000000 false) ∧
    ((curAs running fun t => { t with hold := some (.cpWait 2) }).strand here).hold = some (.cpWait 2) ∧
    ((curAs running fun t => { t with hold := some (.barrier 2) }).strand here).hold = some (.barrier 2) ∧
    ((curAs running fun t => { t with hold := some (.arrive 2) }).strand here).hold = some (.arrive 2) := by decide +kernel
/-- A strand that has been held since the start of time, 100 ns ago. -/
def longHeld (h : Hold) : State := curAs { running with now := 100 } fun t => { t with hold := some h, waitTime := 0 }
theorem wit_Waiting_long : (longHeld (.tag (.spad core0 0x80) true)).heldLong here = true ∧ (longHeld (.cpWait 2)).heldLong here = true ∧
    ((longHeld (.tag (.spad core0 0x80) true)).strand here).hold = some (.tag (.spad core0 0x80) true) ∧
    (longHeld (.tag (.spad core0 0x80) true)).tagOf (.spad core0 0x80) ≠ true ∧
    ((longHeld (.cpWait 2)).strand here).hold = some (.cpWait 2) := by decide +kernel
/-- The other strands of the context have exited. -/
def alone (s : State) : State := [1, 2, 3].foldl (fun s (n : Fin 4) => s.setStrand (ctx0.strand n) { s.strand (ctx0.strand n) with exited := true }) s
theorem wit_Waiting_wake :
    let s := (curAs (alone running) fun t => { t with waited := true, hold := some (.bank []) }).setCtx ctx0 { running.ctx ctx0 with run := .waiting }
    (∀ u ∈ ctx0.strands, u ≠ ctx0.strand 0 → (s.strand u).exited = true) ∧ (s.strand here).exited = false ∧ s.holdOver here = true ∧
    (s.strand here).waited = true ∧ (s.strand here).exiting = false ∧ (s.strand here).trapping = false ∧ (s.strand here).range = none ∧
    s.stalled here = false ∧ s.wakesLater here = false ∧ (s.ctx ctx0).run = .waiting := by decide +kernel
theorem wit_Joins :
    let s := ({ (curAs running fun t => { t with hold := some (.join 0x100000000 false), attached := false }) with now := 100 } : State).setCtx ctx0
      { running.ctx ctx0 with joins := [⟨0x100000000, 50, some 40, true⟩] }
    (s.ctx ctx0).joinAt 0x100000000 = some ⟨0x100000000, 50, some 40, true⟩ ∧ 50 ≤ s.cycles 0 (s.now - 40) ∧
    s.timerRuns ctx0 (s.joinGroup ctx0 0x100000000) true = true := by decide +kernel
/-- Context 3 of the cluster bound and ready; context 0 owns the front end, or none does. -/
def picking (owner : Option (Fin 8)) : State :=
  let s := (running.setBind ⟨0, 0, 3⟩ placedBind).setCtx ⟨0, 0, 3⟩ { Context.reset with run := .ready, ep := 2 }
  ({ s with now := 9000 } : State).setCluster clu0 { s.cluster clu0 with running := owner }
theorem wit_Picker : ((picking none).cluster clu0).running = none ∧ (picking none).pick clu0 = some 3 ∧ ((picking (some 0)).cluster clu0).running = some 0 ∧
    ((picking (some 0)).ctx ctx0).run = .running ∧ (((picking (some 0)).setCtx ctx0 { running.ctx ctx0 with yielded := true }).ctx ctx0).yielded = true ∧
    ((picking (some 0)).setCtx ctx0 { running.ctx ctx0 with yielded := true }).pick clu0 = some 3 ∧
    (picking none).selectable ⟨0, 0, 3⟩ = true ∧
    4096 ≤ (picking none).cycles 0 ((picking none).now - ((picking none).ctx ⟨0, 0, 3⟩).ready) := by decide +kernel
/-- The meter of class 0 of a die has admitted nothing of three bundles, the third of which is no more the next of its strand. -/
def deferring : State := (curAs running fun t => { t with hold := some .budget }).setDie 0 { running.die 0 with
  deferred := [(0, [(bundleKey here.key 0x100000000, 1), (bundleKey 1 0x100000000, 1), (bundleKey 2 0x100000040, 1)])], biss := [(0, 1)] }
theorem wit_Picker_budget : (deferring.die 0).deferred =
      [(0, [(bundleKey here.key 0x100000000, 1), (bundleKey 1 0x100000000, 1), (bundleKey 2 0x100000040, 1)])] ∧ 0 < 4096 ∧ here.die = 0 ∧
    (deferring.strand here).hold = some .budget ∧ deferring.bundleWaits (bundleKey here.key (deferring.strand here).pc) = true ∧
    (running.die 0).deferred = [] := by decide +kernel
theorem wit_FrontEndFills :
    let s := curAs running fun t => { t with attached := false }
    (s.bindOf ctx0).valid = true ∧ (s.ctx ctx0).run = .running ∧ (s.strand here).attached = false ∧ (s.strand here).exited = false ∧
    (s.strand here).exiting = false ∧ (running.cluster clu0).ibuf.length < textLines ∧ (s.strand here).queue = [] ∧ s.fetchAt here (s.strand here).pc = .ok ⟨0x100000000, [0x80000000], []⟩ := by decide +kernel
theorem wit_FrontEndFills_walk : (running.bindOf (clu0.ctxId 0)).valid = true ∧ isGlobal textVa = true ∧
    tlbFind (running.cluster clu0).tlb 0 0 textVa.toNat = none ∧ tlbFind (running.die 0).tlb 0 0 textVa.toNat = none ∧
    running.walkWith ((running.die 0).walksFor 0 0) 0 0 textVa.toNat = .leaf 0x2000F := by decide +kernel

/-! ## Witnesses: engines and links at work -/

theorem wit_EnginesWork_banks :
    ((coreAs running fun o => { o with reservations := [⟨1, true⟩, ⟨2, false⟩] }).core core0).reservations[1]? = some ⟨2, false⟩ ∧
    (∀ n : Fin 6, 2 ≤ n.val → (copyOp.geo.ccount[n]).toNat ≤ 1) ∧ 3 < dimCount copyOp.geo 0 ∧ 0 < dimCount copyOp.geo 1 := by decide +kernel
theorem wit_EnginesWork_copy : ((copying [copyOp]).core core0).copyq[(2 : Fin 8).val] = copyOp :: [] ∧ copyOp.status = none ∧
    (∀ k ∈ copyOp.after, k ∉ agesIn ((copying [copyOp]).core core0) 255) ∧ copyOp.moved < copyOp.geo.total ∧
    (copying [copyOp]).resolveIn here 0 0 (copyOp.geo.addr copyOp.geo.csrc copyOp.geo.csstr 0) needR = .ok (ownByte 0x40) ∧
    (copying [copyOp]).view here 3 (ownByte 0x40) = some (1, false, none) := by decide +kernel
theorem wit_EnginesWork_copy_admits : copyOp.corrupt = false ∧ (copying [copyOp]).lookUp here [.at_ (ownByte 0x40)] = copying [copyOp] ∧
    (copying [copyOp]).admitByte here 3 (ownByte 0x40) = (true, copying [copyOp]) := ⟨by decide, rfl, rfl⟩
theorem wit_EnginesWork_copy_to :
    (copying [copyOp]).resolveIn here 0 0 (copyOp.geo.addr copyOp.geo.cdst copyOp.geo.cdstr 0) needW = .ok (ownByte 0x80) ∧
    (spadPut (copying [copyOp]) 0x80 [9]).view here 3 (ownByte 0x80) = some (9, false, none) ∧ copyOp.prior = [] ∧
    copyOp.geo.total ≤ ({ copyOp with moved := 4 } : CopyOp).moved ∧ (copying [copyOp]).writes = [] := by decide +kernel
theorem wit_EnginesWork_word : Memory.wf running.mem = true ∧ running.lostAt 0x30000 = false ∧ 0 < 256 ∧
    ∀ d ∈ allDies, tget (running.die d).l2 (lineOf 0x30000) = none := by decide +kernel
theorem wit_EnginesWork_rows : Memory.wf (rowing 1024 [rowOp 512 none]).mem = true ∧ ((rowing 1024 [rowOp 512 none]).core core0).msq = rowOp 512 none :: [] ∧
    (rowOp 512 none).moved < (rowOp 512 none).len ∧
    (rowing 1024 [rowOp 512 none]).pieceAt core0 { rowOp 512 none with begun := true } (dataVa + 512) needW = .ok (0x30200, true) ∧
    (rowing 1024 [rowOp 512 none]).storesBefore 0 3 0x30200 512 = false ∧
    (rowing 1024 [rowOp 512 none]).pathHolds clu0.key 0x30200 512 = false ∧ (rowOp 1024 none).len ≤ (rowOp 1024 none).moved ∧
    (rowOp 512 (some 2)).status = some 2 ∧ (2 ≠ 7) ∧ (rowOp 512 none).corrupt = false ∧
    ((rowing 1024 [rowOp 512 none]).admitPiece (rowOp 512 none) 0x30200 512).1 = true := by decide +kernel
/-- A row operation that copies 1 KiB within the page, its first half not moved. -/
def rowCopy : MsOp := { rowOp 0 none with copy := true, src := dataVa + 0x400 }
theorem wit_EnginesWork_rowCopy : let s := rowing 1024 [rowCopy]
    Memory.wf s.mem = true ∧ (s.core core0).msq = rowCopy :: [] ∧ rowCopy.status = none ∧ rowCopy.corrupt = false ∧ rowCopy.copy = true ∧
    rowCopy.moved < rowCopy.len ∧ rowCopy.prior = [] ∧ s.pieceAt core0 { rowCopy with begun := true } dataVa needW = .ok (0x30000, true) ∧
    s.pieceAt core0 { rowCopy with begun := true } (dataVa + 0x400) needR = .ok (0x30400, true) ∧
    (∀ a ∈ [0x30000, 0x30400], s.storesBefore 0 3 a 512 = false ∧ s.pathHolds clu0.key a 512 = false) ∧
    (∀ j < 4, ∀ d ∈ allDies, tget (s.die d).l2 (lineOf 0x30400 + j) = none) := by decide +kernel
theorem wit_EnginesWork_rowCopy_clean : let s := rowing 1024 [rowCopy]
    let s1 := (List.range 4).foldl (fun s j => s.cleanLine (lineOf 0x30400 + j)) s
    (∀ j < 16, s1.devicePoison (0x30400 + 32 * j) = false) ∧ (s1.admitPiece rowCopy 0x30000 1024).1 = true := by decide +kernel
/-- A receive of two flits of which one has come. -/
def recvOp (moved : Nat) : LinkOp := { form := .recv, base := 0x400, len := 128, core := 0, cw := none, seq := 3, cls := 0, moved := moved, poison := false, corrupt := false }
theorem wit_LinkTransfers : ((linked [] [recvOp 64]).port 2).recvs = recvOp 64 :: [] ∧ (recvOp 64).corrupt = false ∧ (recvOp 64).moved < (recvOp 64).len ∧
    (recvOp 64).form = .recv ∧ (recvOp 64).core < 512 ∧ ((recvOp 64).base + (recvOp 64).moved) % 64 = 0 ∧
    (∀ f ∈ [LinkForm.raddF32, .raddBf16, .raddI32], let x : LinkOp := { recvOp 64 with form := f }
      ((linked [] [x]).port 2).recvs = x :: [] ∧ x.corrupt = false ∧ x.moved < x.len ∧ x.form ∈ [LinkForm.raddF32, .raddBf16, .raddI32] ∧
        x.core < 512 ∧ (x.base + x.moved) % 64 = 0) ∧
    ((linked [sendOp] []).port 2).sends = sendOp :: [] ∧ sendOp.corrupt = false ∧ min 128 (recvOp 128).len ≤ (recvOp 128).moved := by decide +kernel

/-- Class 0 may send 1 KiB a period through port 2, and has sent it. -/
def spent : State := (linked [sendOp] []).setDie 0 { running.die 0 with blnk := [(2, 1)], used := [(8194, 1024)] }
theorem wit_LinkTransfers_budget : ((linked [sendOp] []).chargeLink 0 2 64 3).1 = true ∧ (spent.port 2).sends = sendOp :: [] ∧
    (spent.chargeLink 0 2 64 3).1 = false := by decide +kernel

/-! ## Witnesses: stops of contexts -/

/-- The context changed. -/
def ctxAs (s : State) (f : Context → Context) : State := s.setCtx ctx0 (f (s.ctx ctx0))
theorem wit_StopsOfContexts_suspend :
    let s := ctxAs (curAs running fun t => { t with trapping := true }) fun c => { c with suspending := true }
    (s.ctx ctx0).suspending = true ∧ (∀ t ∈ ctx0.strands, (s.strand t).pend = []) ∧ (s.strand here).trapping = true := by decide +kernel
theorem wit_StopsOfContexts_freeze : (inRegion.bindOf ctx0).valid = true ∧ (inRegion.ctx ctx0).frozen = false ∧
    (inRegion.strand here).region = some region0 ∧ (running.strand here).region = none ∧ running.halted = false ∧
    ((ctxAs running fun c => { c with frozen := true }).ctx ctx0).frozen = true := by decide +kernel
/-- A trap record that stands, of a cause. -/
def trapped (cause : BitVec 8) (notice : Nat) : State := ctxAs
  (curAs running fun t => { t with trap := { t.trap with valid := true, cause := cause, region := 1 }, notice := notice }) fun c => { c with trapped := true }
theorem wit_StopsOfContexts_machine : here ∈ ctx0.strands ∧ ((trapped 13 0).ctx ctx0).trapped = true ∧ ((trapped 13 0).ctx ctx0).parked = false ∧
    ((trapped 13 0).strand here).trap.valid = true ∧ ((trapped 13 0).strand here).trap.cause = 13 ∧
    ((trapped 13 0).strand here).trap.region.getLsbD 0 = true := by decide +kernel
theorem wit_StopsOfContexts_katfail : ((trapped 8 1).strand here).trap.valid = true ∧ ((trapped 8 1).strand here).trap.cause = 8 ∧
    ((trapped 8 1).strand here).notice = 1 ∧ (((trapped 8 1).setDie 0 { (trapped 8 1).die 0 with qctl := 0 }).die 0).qctl = 0 ∧
    (((trapped 8 1).setDie 0 { (trapped 8 1).die 0 with qctl := 2 }).die 0).qctl = 2 ∧
    (((trapped 8 1).setDie 0 { (trapped 8 1).die 0 with qctl := 3 }).die 0).qctl = 3 ∧ ((trapped 8 1).die 0).qctl = 1 := by decide +kernel
/-- Policy 1 has begun: the gang of the context freezes, or is frozen. -/
def draining (frozen : Bool) : State := ctxAs { trapped 8 2 with gangs := [(0, ⟨0, 1, 0, 0, [ctx0], [], none, none, false⟩)] } fun c => { c with frozen := frozen }
theorem wit_StopsOfContexts_drained : ((draining true).strand here).trap.valid = true ∧ ((draining true).strand here).trap.cause = 8 ∧
    ((draining true).strand here).notice = 2 ∧ ((draining true).gangAt ((draining true).gangOf here)).members = [ctx0] ∧
    (draining false).evictable ((draining false).gangAt ((draining false).gangOf here)) = false ∧
    (draining true).evictable ((draining true).gangAt ((draining true).gangOf here)) = true := by decide +kernel
/-- The image of a context of one that was saved, and a gang of die 1 evicted with it. -/
def image0 : Image := ⟨{ Bind.reset with gang := 5, psize := 8, save := saveAt 3 }, Context.reset, [], []⟩
def evicted : State := { running with gangs := [(gangKey 1 5, ⟨1, 1, 0, 0, [⟨1, 0, 0⟩], [], some [image0], none, false⟩)] }
theorem wit_StopsOfContexts_restore : (evicted.gangAt (gangKey 1 5)).saved = some [image0] ∧ evicted.halted = false ∧
    (evicted.bindOf ⟨2, 4, 1⟩).valid = false ∧ image0.bind.lock = false ∧
    evicted.failingRecord [(⟨2, 4, 1⟩, { image0.bind with pbase := 3, valid := false })] (evicted.gangAt (gangKey 1 5)).size = none ∧
    tget evicted.gangs (gangKey 2 5) = none := by decide +kernel

/-! ## Witnesses: coherence -/

/-- A cluster whose counter is off, in a state of blindness. -/
def offBy (n : Int) (blind : Bool) (good : Nat) : State :=
  running.setCluster clu0 { running.cluster clu0 with error := n, blind := blind, goodBeacons := good }
theorem wit_TimeBase : ((offBy 40 false 0).cluster clu0).stopped = false ∧ ((offBy 40 false 0).die 0).failed = false ∧
    ((offBy 40 false 0).cluster clu0).restarted = false ∧ ((offBy 40 false 0).die 0).guard < (errorOf [] clu0 40).natAbs ∧
    (errorOf [] clu0 3).natAbs ≤ ((offBy 3 true 2).die 0).guard ∧ ((offBy 3 true 2).cluster clu0).blind = true ∧
    ((offBy 3 true 2).die 0).dieOff = false ∧ ((offBy 3 true 1).cluster clu0).goodBeacons < 2 ∧
    ((running.setCluster clu0 { running.cluster clu0 with stopped := true }).cluster clu0).stopped = true := by decide +kernel
theorem wit_TimeBase_beacons : (running.die 0).failed = false ∧ (running.die 0).missed < 2 ∧
    2 ≤ ((running.setDie 0 { running.die 0 with missed := 2 }).die 0).missed ∧ (running.cluster clu0).blind = false ∧
    ((offBy 3 true 2).cluster clu0).cache = [] ∧
    (let s := running.setCluster clu0 { running.cluster clu0 with error := 9, cache := [(0x600, ⟨List.replicate 128 7, 15, 0, 9⟩)] }
     (s.cluster clu0).cache ≠ [] ∧ (s.cluster clu0).error.natAbs ≤ (s.die 0).guard ∧ (errorOf [] clu0 (s.cluster clu0).error).natAbs ≤ (s.die 0).guard ∧
       (s.cluster clu0).blind = false) := by decide +kernel
/-- The line of the data page in the slice of the die. -/
def held0 : State := withLine (paged leafC) 0 .E
theorem wit_Leases : (held0.bindOf (clu0.ctxId 0)).valid = true ∧ held0.translate clu0 0 0 dataVa needR = .ok ⟨.phys 0x30000, false, 0, false⟩ ∧
    held0.lineWaits 0 (lineOf 0x30000) = false ∧ held0.sliceCopy 0 (lineOf 0x30000) = some (line0 .E) ∧ (held0.die 0).dieOff = false ∧
    (held0.cluster clu0).blind = false ∧ (held0.cluster clu0).stopped = false ∧ pteCp leafC = 0 := by decide +kernel
theorem wit_Leases_room : held0.makeRoom 0 (lineOf 0x30000) = some held0 := room_in _ _ _ (by decide +kernel)
theorem wit_Leases_return : tget ((withLine running 0 .S).die 0).l2 0x600 = some (line0 .S) ∧ Memory.wf running.mem = true := by decide +kernel
/-- A write of two bytes on its way. -/
def writing (p : Place) (accepted : Bool) : PWrite := ⟨7, 0, 0, p, 0, [(0, 5), (1, 6)], 0, accepted⟩
/-- A cacheable write that the slice has accepted. -/
def ready (pa : Nat) : PWrite := writing ⟨.phys pa, false, 0, false⟩ true
def pathOf (w : PWrite) : State := { running with writes := [w], seq := 8 }
def place (l : Loc) (cp : Nat) : Place := ⟨l, false, cp, false⟩
theorem wit_WritesPerformed_hbm : let w := writing (place (.phys 0x30000) 2) false
    writeAt (pathOf w).writes 7 = some w ∧ w.at_.cacheable = false ∧ (pathOf w).inOrder w = true ∧ (pathOf w).placeLost w.at_ = false ∧
    0x30000 < hostBase ∧ Memory.wf (pathOf w).mem = true ∧ ∀ d ∈ allDies, tget ((pathOf w).die d).l2 (lineOf 0x30000) = none := by decide +kernel
theorem wit_WritesPerformed_host : let w := writing (place (.phys 0x800000000040) 2) false; let v := writing (place (.phys 0x800000000040) 2) true
    writeAt (pathOf w).writes 7 = some w ∧ w.at_.cacheable = false ∧ (pathOf w).inOrder w = true ∧ (pathOf w).placeLost w.at_ = false ∧
    hostBase ≤ 0x800000000040 ∧ writeAt (pathOf v).writes 7 = some v ∧ (pathOf v).inOrder v = true ∧ (pathOf v).dielost.getLsbD 0 = false ∧
    (let s : State := { pathOf w with dielost := 1 }
     writeAt s.writes 7 = some w ∧ s.inOrder w = true ∧ s.placeLost w.at_ = false ∧ s.dielost.getLsbD 0 = true) := by decide +kernel
theorem wit_WritesPerformed_spad : let w := writing (place (.spad 3 0x80) 0) false
    writeAt (pathOf w).writes 7 = some w ∧ w.at_.cacheable = false ∧ (pathOf w).inOrder w = true ∧ 3 < 512 := by decide +kernel
theorem wit_WritesPerformed_admitted : let w := writing (place (.phys 0x30000) 2) false; let v := writing (place (.phys 0x30000) 0) false
    ((pathOf w).admitWrite w).1 = true ∧ ((pathOf v).admitWrite v).1 = true ∧ (pathOf v).counterUsed 0x30000 = false ∧
    (pathOf v).initialising 0x30000 = false := by decide +kernel
/-- A cacheable write and the line it needs, held with or without a lease. -/
def slicing (pa : Nat) (st : Moesi) (lend : Nat) : State :=
  let s := pathOf (ready pa)
  s.setDie 0 { s.die 0 with l2 := if lend = 0 then [(0x600, line0 st)] else [(0x600, { line0 st with lend := lend, holders := [0] })] }
theorem wit_WritesPerformed_slice : let w := ready 0x30000; let s := slicing 0x30000 .M 0; let u := slicing 0x30000 .M 99
    writeAt s.writes 7 = some w ∧ w.at_.cacheable = true ∧ s.inOrder w = true ∧ s.placeLost w.at_ = false ∧
    tget (s.die 0).l2 (lineOf 0x30000) = some (line0 .M) ∧ s.leasesOver 0 (line0 .M) = true ∧
    (s.die 0).tundish = [] ∧ u.leasesOver 0 { line0 .M with lend := 99, holders := [0] } = false := by
  decide +kernel
theorem wit_WritesPerformed_request : let w := ready 0x3000030000; let s := slicing 0x3000030000 .M 0
    writeAt s.writes 7 = some w ∧ s.inOrder w = true ∧ s.placeLost w.at_ = false ∧ homeDie 0x3000030000 ≠ (clusterOfKey w.cluster).die ∧
    tget (s.die 0).l2 (lineOf 0x3000030000) = none := by decide +kernel
/-- One message on its way to a home that knows the line as given. -/
def asked (m : Msg) (dir : Table DirEntry) : State :=
  let s : State := { running with msgs := [m] }
  s.setDie 0 { s.die 0 with dir := dir }
theorem wit_HomeTransactions : let s := asked ⟨.readShared, 0, 1, 0x600, 1, none, true, .nothing⟩ []
    ((1 : DieId) ≠ 0 ∧ (2 : DieId) ≠ 0 ∧ (2 : DieId) ≠ 1) ∧ (s.die 1).failed = false ∧ (s.die 2).failed = false ∧ (s.die 0).txns = [] ∧
    (s.die 0).waiting = [] ∧ tget (s.die 0).l2 0x600 = none ∧ homeDie (0x600 * 128) = 0 ∧ tget (s.die 0).dir 0x600 = none ∧
    (filterSet (s.die 0) 0x600).length < 12 := by decide +kernel
theorem wit_HomeTransactions_dir :
    tget ((asked ⟨.readOwn, 0, 1, 0x600, 1, none, true, .nothing⟩ [(0x600, ⟨.S, 0, dieBit 2, 0⟩)]).die 0).dir 0x600 = some ⟨.S, 0, dieBit 2, 0⟩ ∧
    tget ((asked ⟨.upgrade, 0, 1, 0x600, 1, none, true, .nothing⟩ [(0x600, ⟨.S, 0, dieBit 1, 0⟩)]).die 0).dir 0x600 = some ⟨.S, 0, dieBit 1, 0⟩ ∧
    tget ((asked ⟨.wbDirty, 0, 1, 0x600, 1, some ([], 0), true, .nothing⟩ [(0x600, ⟨.X, 1, dieBit 1, 0⟩)]).die 0).dir 0x600 =
      some ⟨.X, 1, dieBit 1, 0⟩ := by decide +kernel
/-- One message on its way to die 1, which holds a line of die 0. -/
def holding (m : Msg) (st : Moesi) : State := withLine { running with msgs := [m] } 1 st
theorem wit_HolderAnswers : homeDie (0x600 * 128) = 0 ∧ (running.die 0).failed = false ∧ (running.die 2).failed = false ∧
    tget ((holding ⟨.fwdShared, 1, 0, 0x600, 2, none, false, .nothing⟩ .M).die 1).l2 0x600 = some (line0 .M) ∧ (line0 .M).st ≠ .I ∧
    (holding ⟨.fwdShared, 1, 0, 0x600, 2, none, false, .nothing⟩ .M).msgs = [⟨.fwdShared, 1, 0, 0x600, 2, none, false, .nothing⟩] := by decide +kernel
theorem wit_HolderAnswers_taking : ((holding ⟨.fwdShared, 1, 0, 0x600, 2, none, false, .nothing⟩ .M).die 1).taking 0x600 = false := by decide +kernel
theorem wit_HolderAnswers_owed : let o : Owed := ⟨0x600, none, 50, [0]⟩
    let s : State := { running.setDie 1 { running.die 1 with owed := [o] } with now := 100 }
    (s.die 1).owed = o :: [] ∧ (s.die 1).dieOff = false ∧ o.lend + (s.die 1).guard ≤ s.now ∧ o.holders ≠ [] ∧
    ({ s with now := 60 } : State).now < o.lend + (s.die 1).guard := by decide +kernel
theorem wit_HolderAnswers_data : let s : State := { running with msgs := [⟨.data, 1, 0, 0x600, 1, some ([], 0), false, .shared⟩] }
    (s.die 1).txns = [] ∧ (s.die 1).waiting = [] ∧ tget (s.die 1).l2 0x600 = none ∧
    ((s.die 1).l2.filter fun y => y.1 % sliceSets == 0x600 % sliceSets).length < 16 ∧
    tget ((s.setDie 1 { s.die 1 with mshr := [(0x600, ⟨.shared, none, false, false, none, []⟩)] }).die 1).mshr 0x600 = some ⟨.shared, none, false, false, none, []⟩ ∧
    tget ((s.setDie 1 { s.die 1 with mshr := [(0x600, ⟨.own, some ([], 0), false, false, none, []⟩)] }).die 1).mshr 0x600 =
      some ⟨.own, some ([], 0), false, false, none, []⟩ := by decide +kernel

/-- Message of the allowance network and the counter's home. -/
def allowing (ms : List AMsg) (x : Tundish) : State := homed { counting 3 ⟨5, 999, 1, 0⟩ with amsgs := ms } x
def req0 : AReq := ⟨clu0.key, 0, 9, .adec 4⟩
theorem wit_AllowanceNetwork_order : let s : State := { running with amsgs := [.zero clu0.key 0x30000 2] }
    tget (s.die (ctrHome 0x30000)).tundish 0x30000 = none ∧ s.amsgs = [.zero clu0.key 0x30000 2] ∧ (s.die clu0.die).failed = false ∧
    (allowing [.answer clu0.key 0x30000 5 1, .zero clu0.key 0x30000 2] tundish0).amsgs =
      [.answer clu0.key 0x30000 5 1, .zero clu0.key 0x30000 2] := by decide +kernel
theorem wit_AllowanceNetwork_request : tget ((allowing [.request 0x30000 req0] tundish0).die (ctrHome 0x30000)).tundish 0x30000 = some tundish0 ∧
    req0.cluster = clu0.key ∧ (allowing [.request 0x30000 req0] tundish0).amsgs = [.request 0x30000 req0] := by decide +kernel
theorem wit_AllowanceNetwork_grant : let x : Tundish := { tundish0 with queue := [req0] }
    x.queue = req0 :: [] ∧ req0.kind = .adec 4 ∧ x.recalling = none ∧ x.atHome = 0 ∧ x.normal = true ∧ x.threshold ≤ x.reserve ∧ 4 ≤ x.gmax ∧
    4 ≤ x.reserve ∧ x.threshold ≤ x.reserve - min x.reserve (min x.gmax (max 4 (x.reserve / (2 * x.sharers)))) := by decide +kernel
theorem wit_AllowanceNetwork_exact : let x : Tundish := { tundish0 with queue := [req0], normal := false, reserve := 3 }
    let y : Tundish := { x with reserve := 4 }
    x.queue = req0 :: [] ∧ x.recalling = none ∧ x.atHome = 0 ∧ x.normal = false ∧ x.holders = [] ∧ x.reserve < 4 ∧ 4 ≤ y.reserve := by decide +kernel
theorem wit_AllowanceNetwork_ladle : let s := allowing [.grant clu0.key 0x30000 7 99 2 req0] tundish0
    s.amsgs = [.grant clu0.key 0x30000 7 99 2 req0] ∧ s.ladle clu0.key 0x30000 = some ⟨5, 999, 1, 0⟩ ∧ 0 < 7 ∧ (s.cluster clu0).stopped = false ∧
    (allowing [.recall clu0.key 0x30000 2] tundish0).amsgs = [.recall clu0.key 0x30000 2] ∧
    (({ s with now := 1000 } : State).cluster clu0).error = 0 ∧ 999 ≤ ({ s with now := 1000 } : State).timeAt clu0 := by decide +kernel
theorem wit_AllowanceNetwork_back : let h : Holder := ⟨clu0.key, [(1, 5)], 50, 1, 2⟩; let x : Tundish := { tundish0 with holders := [h] }
    (allowing [.answer clu0.key 0x30000 5 2] x).amsgs = [.answer clu0.key 0x30000 5 2] ∧ x.holders = [h] ∧ h.cluster = clu0.key ∧ h.first ≤ 2 ∧
    h.last = 2 ∧ x.recalling = none ∧ (allowing [.zero clu0.key 0x30000 2] x).amsgs = [.zero clu0.key 0x30000 2] ∧
    h.leaseEnd + ((allowing [] x).die (ctrHome 0x30000)).guard ≤ ({ allowing [] x with now := 90 } : State).now := by decide +kernel

theorem wit_AllowanceNetwork_alive : let x : Tundish := { tundish0 with holders := [⟨clu0.key, [(1, 5)], 50, 1, 2⟩] }
    ((allowing [] x).die clu0.die).failed = false ∧ (allowing [] x).lostAt 0x30000 = false ∧ (allowing [] x).ladleDead clu0.key = false ∧
    x.recalling = none ∧ 0 < (⟨5, 999, 1, 0⟩ : LadleEntry).amount ∧
    tget ((homed (paged leafP) x).die (ctrHome 0x30000)).tundish 0x30000 = some x := by decide +kernel

/-! ## Witnesses: graphs and gangs -/

/-- A graph loaded under handle 1 with launch 2: records at 0x100001000, descriptors from 0x100002000, counters from 0x100003000. -/
def graph0 : Graph := ⟨0, 0, 0x100001000, 2, some 2, true, [], [], false, [], []⟩
/-- A node record and then the record of its one successor. -/
def records (w0 opnd aux succs run : W64) : List W64 :=
  [w0, 0x100003000, opnd, aux, succs, 0xFFFFFFFFFFFFFFFF, run, 0, 0x10004, 0x100003040, 0, 0, 0xFFFFFFFFFFFFFFFF, 0xFFFFFFFFFFFFFFFF, 0, 0]
def kernelWords : List W64 := [0x100000000, 0x10001, 0, 0]
def graphing (ws : List W64) (live : Bool) : State :=
  let s : State := { running with mem := memSetWords (memSetWords [] 0x21000 ws) 0x22000 kernelWords, graphs := [(1, graph0)] }
  s.setDie 0 { s.die 0 with tlb := [⟨0, 0, 0, 0x10000, 0x2000F⟩], engine := { (s.die 0).engine with queue := [⟨2, 0, live⟩] } }
/-- The head of the queue with its node. -/
def headIs (s : State) (kind nsucc : Nat) (live : Bool) : Bool :=
  match s.headNode 0 with
  | .ok (r, h, _, n) => r == ⟨2, 0, live⟩ && h == 1 && n.kind == kind && n.nsucc == nsucc
  | .error _ => false
theorem wit_NodeEvaluation : headIs (graphing (records 0x100000000 0x100002000 0 0xFFFFFFFFFFFF0001 0) true) 0 1 true = true ∧
    headIs (graphing (records 0x100000000 0x100002000 0 0xFFFFFFFFFFFF0001 0) false) 0 1 false = true ∧
    headIs (graphing (records 0x200000001 0x100002000 0 0xFFFFFFFF00010001 0) true) 1 2 true = true ∧
    headIs (graphing (records 0x100000003 0x100002000 0 0xFFFFFFFFFFFF0001 0) true) 3 1 true = true ∧
    headIs (graphing (records 0x100000004 0 0 0xFFFFFFFFFFFF0001 0) true) 4 1 true = true ∧
    (graphing (records 0x200000001 0x100002000 0 0xFFFFFFFF00010001 0) true).dieDword 0 0 0 0x100002000 = .ok 0x100000000 := by decide +kernel
/-- A loop over node 1 under way, with iterations remaining. -/
def loopWords (remain : W64) : List W64 := records 0x100000002 3 0x100010001 0xFFFFFFFFFFFF0001 (remain + 0x100000000)
def loopState (remain : W64) : State := { graphing (loopWords remain) true with graphs := [(1, { graph0 with loops := [0] })] }
theorem wit_NodeEvaluation_loop : headIs (loopState 0) 2 1 true = true ∧ headIs (loopState 2) 2 1 true = true ∧
    ({ graph0 with loops := [0] } : Graph).loops.contains 0 = true ∧ (⟨loopWords 0⟩ : Node).bits 6 31 0 = 0 ∧ (⟨loopWords 2⟩ : Node).bits 6 31 0 = 1 + 1 ∧
    (({ loopState 0 with graphs := tset (loopState 0).graphs 1 { graph0 with loops := nsErase [0] 0 } } : State).retire 0 2 0 none
      ((⟨loopWords 0⟩ : Node).succs.map fun x => (x, true))).1 = true ∧
    ((loopState 2).iterate 0 ⟨2, 0, true⟩ 1 { graph0 with loops := [0] } ⟨(loopWords 2).take 8⟩ 1).toOption.isSome = true := by decide +kernel
theorem wit_NodeEvaluation_dead : headIs (graphing (records 0x200000001 0x100002000 0 0xFFFFFFFF00010001 0) false) 1 2 false = true ∧
    headIs (graphing (records 0x100000003 0x100002000 0 0xFFFFFFFFFFFF0001 0) false) 3 1 false = true ∧
    headIs (graphing (records 0x100000004 0 0 0xFFFFFFFFFFFF0001 0) false) 4 1 false = true := by decide +kernel
/-- A loop over node 1 that comes to the head for the first time, with a COUNT. -/
def firstWords (count : W64) : List W64 := records 0x100000002 count 0x100010001 0xFFFFFFFFFFFF0001 0
def firstLoop (count : W64) (live : Bool) : State := graphing (firstWords count) live
theorem wit_NodeEvaluation_first : headIs (firstLoop 3 false) 2 1 false = true ∧ headIs (firstLoop 0 true) 2 1 true = true ∧
    headIs (firstLoop 3 true) 2 1 true = true ∧ graph0.loops.contains 0 = false ∧ (⟨firstWords 0⟩ : Node).bits 2 31 0 = 0 ∧
    (⟨firstWords 3⟩ : Node).bits 2 31 0 = 2 + 1 := by decide +kernel
theorem wit_NodeEvaluation_first_retires :
    ((firstLoop 3 false).retire 0 2 0 none ((⟨firstWords 3⟩ : Node).succs.map fun x => (x, false))).1 = true ∧
    (({ firstLoop 0 true with graphs := tset (firstLoop 0 true).graphs 1 { graph0 with loops := nsErase [] 0 } } : State).retire 0 2 0 none
      ((⟨firstWords 0⟩ : Node).succs.map fun x => (x, true))).1 = true := by decide +kernel
theorem wit_NodeEvaluation_first_iterates : ∃ s0 t, ((firstLoop 3 true).dropReady 0).refill 0 = .ok s0 ∧
    s0.iterate 0 ⟨2, 0, true⟩ 1 graph0 ⟨(firstWords 3).take 8⟩ 2 = .ok t := by
  refine ⟨(firstLoop 3 true).dropReady 0, ?_⟩
  have h : (((firstLoop 3 true).dropReady 0).iterate 0 ⟨2, 0, true⟩ 1 graph0 ⟨(firstWords 3).take 8⟩ 2).toOption.isSome = true := by decide +kernel
  cases hr : ((firstLoop 3 true).dropReady 0).iterate 0 ⟨2, 0, true⟩ 1 graph0 ⟨(firstWords 3).take 8⟩ 2 with
  | error e => rw [hr] at h; cases h
  | ok t =>
    refine ⟨t, ?_, rfl⟩
    unfold State.refill
    exact if_pos (.inl (by decide +kernel))
theorem wit_NodeEvaluation_iterates : ∃ s0 t, ((loopState 2).dropReady 0).refill 0 = .ok s0 ∧
    s0.iterate 0 ⟨2, 0, true⟩ 1 { graph0 with loops := [0] } ⟨(loopWords 2).take 8⟩ 1 = .ok t := by
  refine ⟨(loopState 2).dropReady 0, ?_⟩
  have h : (((loopState 2).dropReady 0).iterate 0 ⟨2, 0, true⟩ 1 { graph0 with loops := [0] } ⟨(loopWords 2).take 8⟩ 1).toOption.isSome = true := by
    decide +kernel
  cases hr : ((loopState 2).dropReady 0).iterate 0 ⟨2, 0, true⟩ 1 { graph0 with loops := [0] } ⟨(loopWords 2).take 8⟩ 1 with
  | error e => rw [hr] at h; cases h
  | ok t =>
    refine ⟨t, ?_, rfl⟩
    unfold State.refill
    exact if_pos (.inl (by decide +kernel))
theorem wit_NodeEvaluation_counter : let s := (graphing (loopWords 0) true).setTundish 0x23000 tundish0
    s.engineCounter 0 graph0 (⟨loopWords 0⟩ : Node).ctr = .ok 0x23000 ∧ tget (s.die (ctrHome 0x23000)).tundish 0x23000 = some tundish0 ∧
    tundish0.reserve ≠ 0 ∧ ({ tundish0 with reserve := 0 } : Tundish).reserve = 0 ∧ (s.die 0).engine.queue.length < 256 ∧
    (s.die 0).engine.ringUsed = 0 := by decide +kernel
/-- A gang of one whose context retires. -/
def retiring : State := (ctxAs { graphing (records 0x100000000 0x100002000 0 0xFFFFFFFFFFFF0001 0) true with
  gangs := [(gangKey 0 5, ⟨0, 1, 2, 0, [ctx0], [], none, none, false⟩)] } fun c => { c with run := .retiring })
theorem wit_GangsRetire : (retiring.gangAt (gangKey 0 5)).members ≠ [] ∧ (retiring.gangAt (gangKey 0 5)).retiring = false ∧
    (retiring.gangAt (gangKey 0 5)).saved = none ∧ retiring.gangDone (retiring.gangAt (gangKey 0 5)) = true ∧
    retiring.nodeDie (retiring.gangAt (gangKey 0 5)) = 0 ∧ (retiring.die 0).engine.fault = false ∧ retiring.graphOf 2 = some (1, graph0) := by
  decide +kernel
theorem wit_GangsRetire_edges : (retiring.readNode 0 graph0 0).toOption.isSome = true ∧
    (let s := retiring.setGang (gangKey 0 5) { retiring.gangAt (gangKey 0 5) with retiring := true }
     let x := s.retire 0 2 0 none [(1, true)]
     x.1 = true ∧ ((x.2.die 0).engine.held.any fun y => y.launch == 2 && y.node == 0) = false) ∧
    (retiring.gangAt (gangKey 0 5)).members = [ctx0] ∧ (retiring.bindOf ctx0).lock = false := by decide +kernel
/-- An engine with a retirement held. -/
def heldBack : State := retiring.setDie 0 { retiring.die 0 with engine := { (retiring.die 0).engine with held := [⟨2, 0, none, [(1, true)]⟩] } }
theorem wit_HeldRetirement : (heldBack.die 0).engine.held = ⟨2, 0, none, [(1, true)]⟩ :: [] ∧ heldBack.graphOf 2 = some (1, graph0) ∧
    heldBack.wouldOverflow 0 graph0 [(1, true)] = false ∧ (heldBack.retireEdges 0 graph0 2 [(1, true)]).2 = ([], none) ∧
    (heldBack.die 0).engine.fault = false ∧ (heldBack.die 0).engine.resume ≠ some .head := by decide +kernel
/-- An engine that an access which failed has stopped. -/
def stopped (r : Option Resume) : State :=
  heldBack.setDie 0 { heldBack.die 0 with engine := { (heldBack.die 0).engine with fault := true, resume := r } }
theorem wit_Resumption : (∀ r ∈ [none, some .head, some .refill, some (.held 0)], ((stopped r).die 0).engine.fault = true ∧
      ((stopped r).die 0).engine.resume = r) ∧
    (let s := stopped (some .refill)
     let go := s.setDie 0 { s.die 0 with engine := { (s.die 0).engine with fault := false, resume := none } }
     (go.refill 0).toOption.isSome = true) ∧
    (let s := stopped (some (.held 0))
     let go := s.setDie 0 { s.die 0 with engine := { (s.die 0).engine with fault := false, resume := none } }
     (go.die 0).engine.fault = false) := by decide +kernel

/-- A record of gang 5 written for context 1 of the cluster behind, not yet valid. -/
def bind5 : Bind := { Bind.reset with gang := 5, psize := 1, node := 0x100001000, entry := 0x100000000, args := 77, save := saveAt 7 }
def dispatching (psize : BitVec 6) : State :=
  (graphing (records 0x100000000 0x100002000 0 0xFFFFFFFFFFFF0001 0) true).setBind ⟨0, 1, 1⟩ { bind5 with psize := psize }
theorem wit_GangsEnter : running.recordsOf 0 9 = [] ∧ (dispatching 1).recordsOf 0 5 = [(⟨0, 1, 1⟩, bind5)] ∧
    (dispatching 0).recordsOf 0 5 = [(⟨0, 1, 1⟩, { bind5 with psize := 0 })] ∧ tget (dispatching 1).gangs (gangKey 0 5) = none ∧
    Memory.wf (dispatching 1).mem = true ∧ (dispatching 1).halted = false ∧ ((dispatching 1).die 0).placing = [] ∧ bind5.cig = 0 ∧ bind5.lock = false := by decide +kernel
theorem wit_GangsEnter_kernel : ((dispatching 1).kernelOf 0 bind5).map (fun x => (x.2.gang, x.2.lock, x.2.unplaceable x.1.lock)) = some (1, false, false) ∧
    (dispatching 1).failingRecord [(⟨0, 1, 1⟩, bind5)] 1 = none ∧
    (dispatching 0).failingRecord [(⟨0, 1, 1⟩, { bind5 with psize := 0 })] 1 ≠ none := by decide +kernel
theorem wit_GangsPlaced :
    let s := (dispatching 1).setDie 0 { (dispatching 1).die 0 with placing := [⟨2, 0, 5⟩] }
    (s.die 0).placing.find? (fun x => x.gang == 5) = some ⟨2, 0, 5⟩ ∧ s.graphOf 2 = some (1, graph0) ∧
    (s.nodeAt 0 0 0 0x100001000 0).toOption.map (fun n => (n.lock, n.opnd)) = some (false, 0x100002000) ∧
    (s.kernelAt 0 0 0 0x100002000).toOption.map (fun k => (k.gang, k.lock, k.unplaceable false)) = some (1, false, false) ∧
    (s.freeSaves 1).length = 1 ∧ (s.bindOf ⟨0, 6, 2⟩).valid = false := by decide +kernel

/-! ## Witnesses: errors, loss, supplies -/

/-- A context alone on the front end, its strand about to issue. -/
def reissued (n : Nat) : State := curAs running fun t => { t with reissue := n, queue := [⟨0x100000000, [0x80000000], []⟩], attached := false }
theorem wit_Errors : (reissued 1).issuing here = true ∧ ((reissued 1).strand here).reissue < 2 ∧ (reissued 2).issuing here = true ∧
    2 ≤ ((reissued 2).strand here).reissue ∧ ((reissued 2).strand here).region = none ∧ ((reissued 2).strand here).lastFault = none ∧
    (3 : Reg) ≠ 0 := by decide +kernel
theorem wit_Errors_scrub : ({ running with latent := [(.hbm 0x30040, false)] } : State).latent = [(.hbm 0x30040, false)] ∧
    running.hbmRate ((running.channelOf 0x30040).1) ≠ 0 ∧ decodeWord 0x7F000000#32 = .error .majorReserved := by decide +kernel
/-- A bundle of step 1 not yet confirmed, its values known or one of them awaited. -/
def unconf (parts : List SigPart) : Unconfirmed := ⟨1, 0x100000000, snapOf Strand.reset, 0, false, 0, 0, [], parts, [], [], false, ⟨0x100000000, [0x80000000], []⟩, [], [], []⟩
theorem wit_Lockstep : let u := unconf [.known [7, 0, 0, 0]]
    let s := curAs running fun t => { t with unconfirmed := [u], step := 1 }
    (s.strand here).unconfirmed = u :: [] ∧ u.complete = true ∧ u.waits = false ∧ (s.strand here).mismatched = none ∧
    (s.strand here).region = none ∧ (0#32) ≠ u.sig ∧ (unconf [.awaited 4]).complete = false := by decide +kernel
theorem wit_Lockstep_again : let u := unconf [.known [7, 0, 0, 0]]
    let s := curAs running fun t => { t with unconfirmed := [u], step := 1, mismatched := some (.steps 1 2) }
    (s.strand here).unconfirmed = u :: [] ∧ (s.strand here).region = none ∧ (s.strand here).mismatched = some (.steps 1 2) ∧
    stepBefore u.step 1 = false ∧ stepBefore 2 u.step = false ∧ (s.strand here).lastFault = none ∧ s.runs here.ctxId = true := by decide +kernel
/-- A strand of the cluster behind a leading one, and one of a cluster of its own. -/
theorem wit_Errors_pair : (running.trails ctx0 = false) ∧
    (running.setBind ⟨0, 1, 0⟩ { running.bindOf ctx0 with lock := true }).trails ⟨0, 1, 0⟩ = true := by decide +kernel
/-- Die 1 has failed. -/
def lost1 : State := ({ running with dielost := 2 } : State).setDie 1 { running.die 1 with failed := true }
theorem wit_DieLoss_home : (0 : DieId) ≠ 1 ∧ (lost1.die 1).failed = true ∧
    (let s := lost1.setDie 0 { lost1.die 0 with dir := [(0x600, ⟨.X, 1, dieBit 1, 4⟩)] }
     (s.die 0).dir = [(0x600, ⟨.X, 1, dieBit 1, 4⟩)] ∧ (s.die 0).txns = [] ∧ (s.die 0).waiting = [] ∧ tget (s.die 0).l2 0x600 = none) ∧
    (0x30000 < hbmEnd ∧ homeDie 0x30000 = 0) := by decide +kernel
theorem wit_DieLoss_salvage :
    let s := lost1.setDie 0 { lost1.die 0 with l2 := [(0x60000600, line0 .M)], salvbase := 0x40000, salvsize := 8 }
    homeDie (0x60000600 * 128) = 1 ∧ (s.die 0).l2 = [(0x60000600, line0 .M)] ∧ (line0 .M).holders = [] ∧
    (∀ l ∈ clustersOf 0, (s.cluster l).cache = []) ∧ (s.die 0).salvbase ≠ 0 ∧ (s.die 0).salvnext < (s.die 0).salvsize ∧
    (s.die 0).wbuf = [] ∧ (s.die 0).owed = [] ∧ (s.die 0).mshr = [] ∧ (lost1.die 0).salvbase = 0 := by decide +kernel
theorem wit_DieLoss_tundish : let x : Tundish := { tundish0 with holders := [⟨32, [(1, 5)], 50, 1, 2⟩] }
    let s := homed lost1 x
    ctrHome 0x30000 = 0 ∧ (s.die 0).tundish = [(0x30000, x)] ∧ x.holders = [⟨32, [(1, 5)], 50, 1, 2⟩] ∧ (clusterOfKey 32).die = 1 ∧ x.recalling = none := by
  decide +kernel
theorem wit_Supplies : ({ State.reset with power := false } : State).power = false ∧ (⟨none, [⟨1, true⟩], []⟩ : BringUp).failAt = none ∧
    (∀ x ∈ (⟨none, [⟨1, true⟩], []⟩ : BringUp).stages, x.signed = true) ∧ (⟨some 3, [], []⟩ : BringUp).failAt = some 3 ∧
    (let b : BringUp := ⟨some 5, [⟨1, true⟩, ⟨2, false⟩, ⟨3, true⟩], []⟩
     b.stages = [⟨1, true⟩] ++ ⟨2, false⟩ :: [⟨3, true⟩] ∧ b.failAt = some 5 ∧ 4 ≤ (5#8).toNat) ∧ hostBase ≤ 0x800000000040 ∧ State.reset.power = true ∧ 99999 < 100000 ∧
    (100000 ≤ 104999 ∧ 104999 < 105000) := by decide +kernel

/-! ## Witnesses: commands -/

/-- A command record taken over the management port. -/
def cmdOf (op : BitVec 8) (ws : List W64) : Cmd := ⟨1, op, ws ++ List.replicate (28 - ws.length) 0, 0, none, none⟩
def commanding (c : Cmd) : State := { running with cmds := [c], cmdacc := 1 }
theorem commanded (s : State) (c : Cmd) (op : Nat) (h : s.cmds = [c] ∧ s.windowOpen = true ∧ c.op.toNat = op ∧ s.halted = false ∧ c.reservedOk = true) :
    Commanded s c op := ⟨⟨[], h.1⟩, h.2⟩
theorem wit_CommandWindow : (commanding (cmdOf 8 [0])).windowOpen = true ∧ (cmdOf 8 [0]).op.toNat = 8 ∧
    ({ commanding (cmdOf 8 [0]) with halted := true } : State).halted = true ∧ (cmdOf 8 [0x8000000000000000]).reservedOk = false ∧
    (commanding (cmdOf 8 [0])).halted = false ∧ ({ cmdOf 8 [0] with slot := some 3 } : Cmd).slot = some 3 ∧ 3 < 15 ∧ running.slotHeld 3 = false ∧
    ((0x8000000000000008#64).getLsbD 63 = true ∧ (0x8000000000000008#64).getLsbD 62 = false) ∧ (8#64).getLsbD 63 = false := by decide +kernel
theorem wit_AddressSpace_alloc : Commanded (commanding (cmdOf 5 [0x40000])) (cmdOf 5 [0x40000]) 5 ∧
    (commanding (cmdOf 5 [0x40000])).freeAsidFrom 0 2048 = some 1 ∧ (cmdOf 5 [0x40000]).word 1 ≠ 0 ∧ ((cmdOf 5 [0x40000]).word 1).toNat % 4096 = 0 ∧
    ((cmdOf 5 [0x40000]).word 1).toNat < hbmEnd := ⟨commanded _ _ _ (by decide +kernel), by decide +kernel⟩
/-- Every ASID is live. -/
def allLive : State := { commanding (cmdOf 5 [0x40000]) with asids := (List.range' 0 2048).map fun n => (n, ⟨0x10000, 0, true, []⟩) }
theorem tget_filled {α : Type} (x : α) (n a k : Nat) (h : a ≤ k ∧ k < a + n) : tget ((List.range' a n).map fun i => (i, x)) k = some x := by
  induction n generalizing a with
  | zero => omega
  | succ m ih =>
    rw [List.range'_succ, List.map_cons, tget]
    split
    · rfl
    · exact ih (a + 1) (by omega)
theorem full_from (n k : Nat) (h : n + k ≤ 2048) : allLive.freeAsidFrom n k = none := by
  induction k generalizing n with
  | zero => rfl
  | succ m ih =>
    have hl : allLive.liveAsid (BitVec.ofNat 11 n) = some ⟨0x10000, 0, true, []⟩ := by
      unfold State.liveAsid
      rw [BitVec.toNat_ofNat, Nat.mod_eq_of_lt (by omega : n < 2 ^ 11)]
      rw [show tget allLive.asids n = some ⟨0x10000, 0, true, []⟩ from tget_filled _ 2048 0 n (by omega)]
      rfl
    rw [State.freeAsidFrom, hl]
    exact ih (n + 1) (by omega)
theorem wit_AddressSpace_full : Commanded allLive (cmdOf 5 [0x40000]) 5 ∧ allLive.freeAsidFrom 0 2048 = none :=
  ⟨commanded _ _ _ (by decide +kernel), full_from 0 2048 (by decide)⟩
theorem wit_AddressSpace_retire : Commanded (commanding (cmdOf 6 [0])) (cmdOf 6 [0]) 6 ∧
    (commanding (cmdOf 6 [0])).liveAsid (asidOf ((cmdOf 6 [0]).word 1)) = some ⟨tablePa, 0, true, []⟩ ∧ (⟨tablePa, 0, true, []⟩ : AsidRec).gen ≠ 15 :=
  ⟨commanded _ _ _ (by decide +kernel), by decide +kernel⟩
theorem wit_AddressSpace_ptsync : Commanded (commanding (cmdOf 7 [9, 0, 1])) (cmdOf 7 [9, 0, 1]) 7 ∧
    Commanded (commanding (cmdOf 7 [0, 0x100000000, 0x10000])) (cmdOf 7 [0, 0x100000000, 0x10000]) 7 ∧
    (commanding (cmdOf 7 [9, 0, 1])).liveAsid (asidOf ((cmdOf 7 [9, 0, 1]).word 1)) = none ∧
    (commanding (cmdOf 7 [0, 0x100000000, 0x10000])).liveAsid 0 = some ⟨tablePa, 0, true, []⟩ ∧ (cmdOf 7 [0, 0x100000000, 0x10000]).mark = none ∧
    ((cmdOf 7 [0, 0x100000000, 0x10000]).word 3).toNat ≠ 0 ∧
    ((commanding (cmdOf 7 [0, 0x100000000, 0x10000])).flushTlbs fun _ => true).translatedPending 0 0x100000000 0x10000 0 = false :=
  ⟨commanded _ _ _ (by decide +kernel), commanded _ _ _ (by decide +kernel), by decide +kernel⟩
def mapCmd : Cmd := cmdOf 3 [0, 0x100010000, 1, leafC, 0]
theorem wit_AddressSpace_map : Commanded (commanding mapCmd) mapCmd 3 ∧
    ((commanding mapCmd).liveAsid (asidOf (mapCmd.word 1)) = some ⟨tablePa, 0, true, []⟩ ∧ (mapCmd.word 3).toNat = 1 ∧ mapCmd.word 5 = 0 ∧
      (mapCmd.word 2).toNat % 2 ^ pageBits (pteSz (mapCmd.word 4)) = 0 ∧ 0x100000000 ≤ (mapCmd.word 2).toNat ∧
      (mapCmd.word 2).toNat + 2 ^ pageBits (pteSz (mapCmd.word 4)) ≤ 2 ^ 57) ∧ (commanding mapCmd).templateOk (mapCmd.word 4) 1 = true ∧
    (commanding mapCmd).pageSlot tablePa (mapCmd.word 2).toNat 0 walkLevels = .entry (tablePa + 0x4008) 0 ∧
    (commanding mapCmd).smallerLeaf 0 0 = false ∧ ((commanding mapCmd).purgeLines [lineOf (tablePa + 0x4008)]).isSome = true :=
  ⟨commanded _ _ _ (by decide +kernel), by decide +kernel⟩
def unmapCmd : Cmd := cmdOf 4 [0, 0x100000000, 1, 0]
theorem wit_AddressSpace_unmap : Commanded (commanding unmapCmd) unmapCmd 4 ∧
    ((commanding unmapCmd).liveAsid (asidOf (unmapCmd.word 1)) = some ⟨tablePa, 0, true, []⟩ ∧ (unmapCmd.word 3).toNat = 1 ∧ unmapCmd.mark = none ∧
      (unmapCmd.word 4).toNat < 3 ∧ (unmapCmd.word 2).toNat % 2 ^ pageBits 0 = 0 ∧ 0x100000000 ≤ (unmapCmd.word 2).toNat ∧
      (unmapCmd.word 2).toNat + 2 ^ pageBits 0 ≤ 2 ^ 57) ∧
    ((commanding unmapCmd).pageSlot tablePa 0x100000000 0 walkLevels = .entry (tablePa + 0x4000) 0x2000F ∧ pteV 0x2000F = true ∧
      pteMalformed 0 0x2000F = false ∧ pteSz 0x2000F = 0 ∧ ((commanding unmapCmd).purgeLines [lineOf (tablePa + 0x4000)]).isSome = true ∧
      (commanding unmapCmd).translatedPending 0 0x100000000 (2 ^ 16) 0 = false) := ⟨commanded _ _ _ (by decide +kernel), by decide +kernel⟩
/-- LOAD_GRAPH and LAUNCH of a graph of one kernel node. -/
def oneNode : List W64 := [0, 0x100003000, 0x100002000, 0, 0xFFFFFFFFFFFFFFFF, 0xFFFFFFFFFFFFFFFF, 0, 0]
def loading (c : Cmd) (ws : List W64) : State :=
  { commanding c with mem := memSetWords running.mem 0x21000 ws, graphs := [(9, ⟨0, 0, 0x100001000, 1, none, false, [], [], false, [], []⟩)] }
def loadCmd : Cmd := cmdOf 1 [0, 0x100001000, 1]
theorem wit_Graph_load : Commanded (loading loadCmd oneNode) loadCmd 1 ∧
    (loading loadCmd oneNode).liveAsid 0 = some ⟨tablePa, 0, true, []⟩ ∧ (loadCmd.word 2).toNat % 64 = 0 ∧ (loadCmd.word 3).toNat ≠ 0 ∧
    (let s := loading loadCmd oneNode
     validateGraph (readRecords (s.serviceNode 0 0 0x100001000) 1) (s.counterOk 0 0) = none) ∧
    (let s := loading loadCmd (5 :: oneNode.drop 1)
     validateGraph (readRecords (s.serviceNode 0 0 0x100001000) 1) (s.counterOk 0 0) = some (0, 1)) :=
  ⟨commanded _ _ _ (by decide +kernel), by decide +kernel⟩
def launchCmd : Cmd := cmdOf 2 [9]
theorem wit_Graph_launch : Commanded (loading launchCmd oneNode) launchCmd 2 ∧
    tget (loading launchCmd oneNode).graphs 9 = some ⟨0, 0, 0x100001000, 1, none, false, [], [], false, [], []⟩ ∧
    (loading launchCmd oneNode).liveAsid 0 = some ⟨tablePa, 0, true, []⟩ ∧
    (∀ d ∈ (loading launchCmd oneNode).graphDies ⟨0, 0, 0x100001000, 1, none, false, [], [], false, [], []⟩,
      ((loading launchCmd oneNode).die d).engine.fault = false) ∧
    (loading launchCmd oneNode).arrayRuns 9 ⟨0, 0, 0x100001000, 1, none, false, [], [], false, [], []⟩ = false ∧
    graph0.running = true ∧ graph0.launch ≠ some launchCmd.seq := ⟨commanded _ _ _ (by decide +kernel), by decide +kernel⟩
/-- What the launch leaves to do: nodes to set up, roots to make ready. -/
def launchLeft (s : State) (g : Graph) : Option (List Nat × List Nat) := (tget (s.launchGraph 9 1 g).graphs 9).map fun x => (x.todo, x.roots)
def idleGraph : Graph := ⟨0, 0, 0x100001000, 1, none, false, [], [], false, [], []⟩
/-- The queue of the die and its ring are full. -/
def crowded (s : State) : State := s.setDie 0 { s.die 0 with
  engine := { (s.die 0).engine with queue := List.replicate 256 ⟨7, 0, true⟩, grhead := 4096 } }
/-- The engine of the die has stopped. -/
def faulted (s : State) : State := s.setDie 0 { s.die 0 with engine := { (s.die 0).engine with fault := true } }
/-- The launch sets up every node and every root. -/
theorem wit_Graph_launch_left : launchLeft (loading launchCmd oneNode) idleGraph = some ([], []) := by decide +kernel
/-- It leaves a root for which there is no place. -/
theorem wit_Graph_launch_crowded : launchLeft (crowded (loading launchCmd oneNode)) idleGraph = some ([], [0]) := by decide +kernel
/-- It leaves a node whose record cannot be read. -/
theorem wit_Graph_launch_unreadable :
    launchLeft (loading launchCmd oneNode) { idleGraph with base := 0x200000000 } = some ([0], []) := by decide +kernel
theorem wit_Graph_launch_dies :
    (∃ d ∈ (faulted (loading launchCmd oneNode)).graphDies idleGraph, ((faulted (loading launchCmd oneNode)).die d).engine.fault = true) ∧
    (loading launchCmd oneNode).graphDies idleGraph = [0] := by decide +kernel
theorem wit_Graph_node : let s := loading launchCmd oneNode
    (s.launchNode idleGraph 0).toOption.isSome = true ∧ (s.launchNode { idleGraph with base := 0x200000000 } 0).toOption = none ∧
    (s.readNode 0 idleGraph 0).toOption.map (fun x => (x.die, x.kind, (s.initCounter 0 idleGraph x x.pred).toOption.isSome)) = some (0, 0, true) ∧
    (s.die 0).engine.fault = false := by decide +kernel
theorem wit_Graph_load_fails : let xs := readRecords ((loading loadCmd (5 :: oneNode.drop 1)).serviceNode 0 0 0x100001000) 1
    validateGraph xs (fun _ => true) = some (0, 1) := by decide +kernel
/-- The launch of the command under way, with nothing, a root or a node left; another graph with the array running. -/
theorem wit_Graph_launch_goesOn : let g : Graph := { idleGraph with launch := some 1, running := true }
    (∀ x ∈ [g, { g with roots := [0] }, { g with todo := [0] }], Commanded { commanding launchCmd with graphs := [(9, x)] } launchCmd 2 ∧
      tget ({ commanding launchCmd with graphs := [(9, x)] } : State).graphs 9 = some x ∧ x.launch = some launchCmd.seq) ∧
    ({ commanding launchCmd with graphs := [(8, { g with launch := some 7 })] } : State).arrayRuns 9 { g with launch := none, running := false } = true := by
  refine ⟨fun x hx => ⟨commanded _ _ _ ⟨rfl, ?_, rfl, rfl, by decide +kernel⟩, rfl, ?_⟩, by decide +kernel⟩
  · simp only [List.mem_cons, List.not_mem_nil, or_false] at hx
    rcases hx with rfl | rfl | rfl <;> decide +kernel
  · simp only [List.mem_cons, List.not_mem_nil, or_false] at hx
    rcases hx with rfl | rfl | rfl <;> rfl
theorem wit_Resume : Commanded (commanding (cmdOf 8 [0])) (cmdOf 8 [0]) 8 ∧ Commanded (commanding (cmdOf 8 [4])) (cmdOf 8 [4]) 8 ∧
    ((commanding (cmdOf 8 [0])).leading (selected ((cmdOf 8 [0]).word 1)) = ctx0 ∧ ((commanding (cmdOf 8 [0])).bindOf ctx0).valid = true ∧
      ((commanding (cmdOf 8 [4])).bindOf (selected ((cmdOf 8 [4]).word 1))).valid = false ∧ ((cmdOf 8 [0]).word 2).getLsbD 0 = false ∧
      ((ctxAs running fun c => { c with parked := true }).ctx ctx0).parked = true ∧ ((ctxAs running fun c => { c with trapped := true }).ctx ctx0).trapped = true) :=
  ⟨commanded _ _ _ (by decide +kernel), commanded _ _ _ (by decide +kernel), by decide +kernel⟩
/-- A gang of one whose context is frozen. -/
def evicting : State := ctxAs { commanding (cmdOf 9 [0, 5]) with gangs := [(5, ⟨0, 1, 0, 0, [ctx0], [], none, none, false⟩)] } fun c => { c with frozen := true }
theorem wit_Evict : Commanded evicting (cmdOf 9 [0, 5]) 9 ∧ tget evicting.gangs (((cmdOf 9 [0, 5]).word 1).toNat * 65536 + ((cmdOf 9 [0, 5]).word 2).toNat) =
      some ⟨0, 1, 0, 0, [ctx0], [], none, none, false⟩ ∧ tget (commanding (cmdOf 9 [0, 5])).gangs 5 = none ∧
    (evicting.freezeGang ⟨0, 1, 0, 0, [ctx0], [], none, none, false⟩).evictable ⟨0, 1, 0, 0, [ctx0], [], none, none, false⟩ = true ∧
    (evicting.bindOf ctx0).lock = false := ⟨commanded _ _ _ (by decide +kernel), by decide +kernel⟩
theorem wit_Services_query : (cmdOf 10 [4, 0, 0x40, 0x1000]).op = 10 ∧ (cmdOf 10 [6, 0, 0x40, 0x1000]).reservedOk = true ∧
    ((commanding (cmdOf 10 [6, 0, 0x40, 0x1000])).item 6 0 (0x1000 / 256)).isSome = true ∧
    ((commanding (cmdOf 10 [6, 0, 0x40, 0x1000])).item 6 0 (0x1000 / 256)).all (fun ws => decide (8 * ws.length ≤ 0x1000 ∧ 8 < 8 * ws.length)) = true ∧
    0x40 + 0x1000 ≤ 2 ^ 47 := by decide +kernel
theorem wit_Services_trapBlock : 0 < 1024 ∧ (running.bindOf (selected (BitVec.ofNat 64 0))).valid = true ∧
    (running.bindOf (selected (BitVec.ofNat 64 4))).valid = false := by decide +kernel
theorem wit_Services_bytes : ∀ i < 64, (commanding (cmdOf 14 [0x8000, 0x30000, 0x40, 64])).mixed (0x30000 + i) = false := by decide +kernel
theorem wit_Services : Commanded (commanding (cmdOf 11 [0, 5, 200])) (cmdOf 11 [0, 5, 200]) 11 ∧ Commanded (commanding (cmdOf 11 [4, 0, 1])) (cmdOf 11 [4, 0, 1]) 11 ∧
    Commanded (commanding (cmdOf 12 [0, 0, 0, 0, 0, 0, 0, 0, 0x40, 4843])) (cmdOf 12 [0, 0, 0, 0, 0, 0, 0, 0, 0x40, 4843]) 12 ∧
    (3 < ((cmdOf 11 [4, 0, 1]).word 1).toNat ∧ (cmdOf 11 [0, 5, 200]).word 1 = 0 ∧ ((cmdOf 11 [0, 5, 200]).word 2).toNat < 12 ∧ running.key = true ∧
      4843 ≤ ((cmdOf 12 [0, 0, 0, 0, 0, 0, 0, 0, 0x40, 4843]).word 10).toNat) :=
  ⟨commanded _ _ _ (by decide +kernel), commanded _ _ _ (by decide +kernel), commanded _ _ _ (by decide +kernel), by decide +kernel⟩
theorem wit_Services_copy : Commanded (commanding (cmdOf 13 [0x8000, 0x30000, 0x40, 64])) (cmdOf 13 [0x8000, 0x30000, 0x40, 64]) 13 ∧
    Commanded (commanding (cmdOf 14 [0x8000, 0x30000, 0x40, 64])) (cmdOf 14 [0x8000, 0x30000, 0x40, 64]) 14 ∧
    ((cmdOf 13 [0x8000, 0x30000, 0x40, 64]).word 1 = 0x8000 ∧ 0x30000 % 65536 + 64 ≤ 65536 ∧ 0x30000 + 64 ≤ hbmEnd ∧ running.lostAt 0x30000 = false ∧
      (commanding (cmdOf 13 [])).meetsReserved 0x30000 64 = false ∧ ((commanding (cmdOf 13 [])).purgeLines (linesOf 0x30000 64)).isSome = true) :=
  ⟨commanded _ _ _ (by decide +kernel), commanded _ _ _ (by decide +kernel), by decide +kernel⟩
theorem wit_RegisterWrites : ((1#64).getLsbD 0 = true ∧ (1#64).getLsbD 1 = false) ∧ Memory.wf running.mem = true ∧ 0x40 + 8 ≤ 2 ^ 47 := by decide +kernel

/-! ## Witnesses: memory and synchronisation, what the checks and the waits meet -/

/-- A store of n bytes at 0x80 that lockstep withholds; g10 holds 0x80. -/
def withheldStore (n : Nat) : State := curAs (twoLanes (setG running 10 0x80)) fun t => { t with unconfirmed :=
  [⟨1, 0x100000000, snapOf Strand.reset, 0, false, 0, 0, [], [], [], [⟨0x80, ownByte 0x80, (List.range n).map fun i => (i, 5), 0, false⟩], false,
    ⟨0x100000000, [0x80000000], []⟩, [], [], []⟩] }
/-- A load of eight bytes, and the first lane of a vector, are torn by a withheld byte, and not by a withheld doubleword. -/
theorem wit_Loads_torn : (withheldStore 1).tears (.scalar 8 false) [(0, ownByte 0x80)] 8 = true ∧
    (withheldStore 8).tears (.scalar 8 false) [(0, ownByte 0x80)] 8 = false ∧ running.tears (.scalar 8 false) [(0, ownByte 0x80)] 8 = false ∧
    (∀ f ∈ [LoadForm.vector, .gather], (withheldStore 1).tears f [(0, ownByte 0x80), (2, ownByte 0x88)] 4 = true ∧
      (twoLanes running).tears f [(0, ownByte 0x80), (2, ownByte 0x88)] 4 = false) ∧
    (withheldStore 1).resolve here 0x80 needR = .ok (ownByte 0x80) ∧
    (withheldStore 1).lanes here [(0, 0x80), (2, 0x88)] 4 needR = .ok [(0, ownByte 0x80), (2, ownByte 0x88)] := by decide +kernel
theorem wit_Loads_torn_free : (∀ n ∈ [1, 8], (withheldStore n).needBanks [ownByte 0x80] = withheldStore n ∧
      (withheldStore n).forwards [ownByte 0x80] 8 = withheldStore n) ∧
    (withheldStore 1).needBanks [ownByte 0x80, ownByte 0x88] = withheldStore 1 ∧
    (withheldStore 1).forwards [ownByte 0x80, ownByte 0x88] 4 = withheldStore 1 :=
  ⟨fun n hn => by
    simp only [List.mem_cons, List.not_mem_nil, or_false] at hn
    rcases hn with rfl | rfl <;> exact ⟨banks_free _ _ (by decide +kernel), forwards_outside _ _ _ (by decide +kernel)⟩, banks_free _ _ (by decide +kernel), forwards_outside _ _ _ (by decide +kernel)⟩
/-- A held byte, and one that lockstep withholds. -/
theorem wit_Loads_held : (withheldStore 1).cur.withheld ++ (withheldStore 1).cur.heldStores = [] ++ [⟨0x80, ownByte 0x80, [(0, 5)], 0, false⟩] := by
  decide +kernel
/-- A second leaf maps the frame of the text page row-local too. -/
def mixedUp : State := { running with mem := memSetWord running.mem (tablePa + 0x4008) (BitVec.ofNat 64 (textPa + 0x37)) }
theorem wit_Loads_mixed : mixedUp.mixed textPa = true ∧ mixedUp.hostGone textPa = false ∧ mixedUp.mixed 0x30000 = false := by decide +kernel
theorem wit_VectorAccesses_row : (twoLanes running).lanes here [(0, 0x80000), (2, 0x80008)] 4 needR = .error (6, 0, 0x80000) ∧
    (twoLanes running).lanes here [(0, 0x80000), (2, 0x80008)] 4 needW = .error (6, 0, 0x80000) ∧ (0x80000#64).toNat % 32 = 0 ∧
    (0x80000#64).toNat + 256 ≤ 2 ^ 64 := by decide +kernel
/-- The addresses that a tag operation checks: no window, misaligned, beyond the partition, of a page without V, R, W or MS, and lost. -/
theorem wit_TagChecks : (let v := (0x80004#64).toNat; 0x80000 ≤ v ∧ v < 0x100000) ∧ (3 % 4 ≠ 0 ∧ 3 < 0x80000) ∧
    (let s := running.setBind ctx0 { placedBind with psize := 1 }; (s.bindOf ctx0).psize.toNat * 16384 ≤ 0x4000 % 0x80000) ∧
    (2 ^ 32 ≤ dataVa.toNat ∧ dataVa.toNat < 2 ^ 57 ∧ (dataVa + 4).toNat % 8 ≠ 0 ∧ dataVa.toNat % 8 = 0) ∧
    running.leafFor clu0 0 0 dataVa.toNat = .fail 0 0 ∧ (paged leafM).leafFor clu0 0 0 dataVa.toNat = .leaf leafM ∧
    (pteR 0x30015 = false ∧ pteR 0x30013 = true ∧ pteW 0x30013 = false ∧ pteMs leafC = false ∧ pteMs leafM = true) ∧
    ({ paged leafM with dielost := 1 } : State).lostAt (leafPa leafM dataVa.toNat) = true ∧ (paged leafM).lostAt (leafPa leafM dataVa.toNat) = false ∧
    ((0x180000#64).toNat / 0x80000 = (1 : Fin 4).val + 2 ∧ (0x180000#64).toNat % 0x80000 < 32 * 16384) := by decide +kernel
/-- g10 holds the address of a sync word; its class has used up its bytes of HBM or not. -/
def syncing (spent : Bool) : State := let s := setG (setG (paged leafM) 10 dataVa) 11 4
  if spent then s.setDie 0 { s.die 0 with bmem := (List.range 16).map fun k => (k, 1), used := (List.range 16).map fun k => (4096 + k, 4096) } else s
def syncPlace : Place := ⟨.phys 0x30000, true, 0, false⟩
theorem tag_found (s : State) (a : Reg) (need : Need) (w : TagWord) (n : Nat) (p : Place)
    (h : s.cur.region = none ∧ s.tagWord s.turn (s.cur.rg a) need = .ok (w, n, p) ∧
      s.busyOf ([p].filterMap fun p => match p.loc with | .spad o off => some (o, bankBits off 1) | .phys _ => none) = false) : TagFound s a need w n p :=
  ⟨h.1, h.2.1, banks_free s [p] h.2.2⟩
theorem wit_TagBudget : (∀ b ∈ [true, false], TagReady (syncing b) 10 needR (.sync 0x30000) 8 syncPlace ∧
      TagReady (syncing b) 10 needRW (.sync 0x30000) 8 syncPlace) ∧
    ((syncing true).touch [dataVa]).admitsTag (.sync 0x30000) = none ∧ (((syncing false).touch [dataVa]).admitsTag (.sync 0x30000)).isSome = true ∧
    ((tagged true).touch [0x80]).admitsTag (.spad core0 0x80) = some ((tagged true).touch [0x80]) := by
  refine ⟨fun b hb => ?_, by decide +kernel, by decide +kernel, rfl⟩
  simp only [List.mem_cons, List.not_mem_nil, or_false] at hb
  rcases hb with rfl | rfl <;> exact ⟨tag_ready _ _ _ _ _ _ (by decide +kernel), tag_ready _ _ _ _ _ _ (by decide +kernel)⟩
/-- A store of the strand to the word is on its way. -/
theorem wit_TagWaits : let s : State := { tagged true with writes := [⟨7, 0, 0, ownByte 0x80, 0, [(0, 5)], 0, false⟩] }
    TagFound s 10 needRW (.spad core0 0x80) 4 (ownByte 0x80) ∧ TagFound s 10 needR (.spad core0 0x80) 4 (ownByte 0x80) ∧
    s.ownDone here (ownByte 0x80) 4 = false ∧ (s.releaseReady here (.spad core0 0x80) && s.ownDone here (ownByte 0x80) 4) = false :=
  ⟨tag_found _ _ _ _ _ _ (by decide +kernel), tag_found _ _ _ _ _ _ (by decide +kernel), by decide +kernel⟩
theorem wit_Barriers_more : (8 ≤ (8#6).toNat ∧ inRegion.cur.region ≠ none ∧ (inRegion.cur.rg 5).toNat ≤ 4) ∧
    (((inRegion.setBar ctx0 2 ⟨3, 7, 1, 0, Vector.replicate 4 none, []⟩).bar ctx0 2).count ≠ 0) ∧
    (let b := (slot ⟨3, 7, 2, 1, Vector.replicate 4 none, []⟩).bar ctx0 2
     3 = b.count ∧ 2 ≠ b.count ∧ 2 ≤ b.tally0 ∧ b.tally1 < 2 ∧ 1 ≤ b.tally0 ∧ 1 ≤ b.tally1) := by decide +kernel
theorem wit_Barriers_notYet : let s := (slot ⟨3, 7, 1, 0, Vector.replicate 4 none, [(0, 8, 9)]⟩)
    let w : State := { s with writes := [⟨7, 0, 0, place (.phys 0x30000) 2, 0, [(0, 5)], 0, false⟩] }
    (s.bar ctx0 2).coming = [(0, 8, 9)] ∧ w.doneAtCluster here 9 = false ∧ s.doneAtCluster here 9 = true ∧ (s.bar ctx0 2).phase < 8 ∧
    (s.bar ctx0 2).tally0 < (s.bar ctx0 2).count := by decide +kernel
theorem wit_Atomics_checks : inRegion.cur.region ≠ none ∧
    ((inRegion.setCluster clu0 ((paged leafU).cluster clu0)).resolve here dataVa needRW = .ok ⟨.phys 0x30000, false, 2, false⟩) ∧
    running.resolve here dataVa needRW = .error (5, 0, dataVa) ∧
    (paged 0x800000000087).resolve here dataVa needRW = .ok ⟨.phys 0x800000000000, false, 2, false⟩ ∧ hbmEnd ≤ 0x800000000000 := by decide +kernel
theorem wit_Atomics_budget : ((syncing false).admitAmo here 4 ⟨.phys 0x30000, false, 2, false⟩).1 = true ∧
    ((syncing true).admitAmo here 4 ⟨.phys 0x30000, false, 2, false⟩).1 = false := by decide +kernel

/-! ## Witnesses: engines and allowances, what the checks meet -/

/-- The rows of lanes 0 and 2 of a gather: a base that is no multiple of 16, a row that leaves the partition, rows whose banks are reserved. -/
def gathering (base l2 : W64) : State := curAs (twoLanes (setG running 10 base)) fun t => t.wv 12 (BitVec.ofNat 2048 (l2.toNat * 2 ^ 64)) false
theorem wit_StageGather : ((List.range 64).filter fun i => ((gathering 8 1).cur.rk 1).getLsbD i) = 0 :: [2] ∧ ((gathering 8 1).cur.rg 10).toNat % 16 ≠ 0 ∧
    (lane ((gathering 0 0x10000).cur.rv 12) 2).toNat = 0x10000 ∧
    (let rb := rowBytes running.cur.fmt 0; 0 < rb ∧ rb < 32 * 16384 ∧ ¬0x10000 * rb < 0x80000) ∧
    (let s := gathering 0 1; ({ s with iss := { s.iss with busy := 1 } } : State).bankBusy core0.key (bankBits 0 80)) = true := by decide +kernel
theorem wit_KnownAnswer_held : (withheldStore 1).cur.withheld ++ (withheldStore 1).cur.heldStores = [] ++ [⟨0x80, ownByte 0x80, [(0, 5)], 0, false⟩] ∧
    (ownByte 0x80).loc = .spad (withheldStore 1).turn.coreId.key 0x80 := by decide +kernel
theorem wit_AllowanceChecks_leaf : (paged 0x30045).leafFor clu0 0 0 dataVa.toNat = .leaf 0x30045 ∧
    (paged 0x30043).leafFor clu0 0 0 dataVa.toNat = .leaf 0x30043 ∧ (paged leafM).leafFor clu0 0 0 dataVa.toNat = .leaf leafM ∧
    (paged leafU).leafFor clu0 0 0 dataVa.toNat = .leaf leafU ∧ (paged leafP).leafFor clu0 0 0 dataVa.toNat = .leaf leafP ∧
    (paged 0x800000000087).leafFor clu0 0 0 dataVa.toNat = .leaf 0x800000000087 := by decide +kernel
theorem wit_AllowanceChecks : (dataVa + 8).toNat % 64 ≠ 0 ∧ (0x40#64).toNat % 64 = 0 ∧ (0x40#64).toNat < 2 ^ 32 ∧ dataVa.toNat % 64 = 0 ∧
    2 ^ 32 ≤ dataVa.toNat ∧ dataVa.toNat < 2 ^ 57 ∧ running.leafFor clu0 0 0 dataVa.toNat = .fail 0 0 ∧
    (pteR 0x30045 = false ∧ pteR 0x30043 = true ∧ pteW 0x30043 = false ∧ pteMs leafM = true ∧ pteCp leafU = 2 ∧ pteCp leafP ≠ 2 ∧ pteMs leafP = false) ∧
    0x00C000000000 ≤ leafPa 0x800000000087 dataVa.toNat ∧ leafPa leafP dataVa.toNat < 0x00C000000000 ∧
    ({ paged leafP with dielost := 1 } : State).lostAt 0x30000 = true ∧ (paged leafP).lostAt 0x30000 = false ∧
    (let s := curAs (paged leafP) fun t => { t with pend := [⟨4, .g 9, 1, .adec 0x30000 3, none, false⟩] }; s.counterBusy s.cur 0x30000 = true) := by
  decide +kernel
theorem wit_AllowanceInstructions_exact : CounterReady (homed (counting 3 ⟨5, 999, 1, 0⟩) { tundish0 with normal := false }) 10 0x30000 ∧
    tget ((homed (counting 3 ⟨5, 999, 1, 0⟩) { tundish0 with normal := false }).die (ctrHome 0x30000)).tundish 0x30000 =
      some { tundish0 with normal := false } := by unfold CounterReady; decide +kernel

/-! ## Witnesses: fetch, waiting, time -/

/-- Of four strands three have exited; the first is held by nothing any more, or something keeps it from issuing. -/
def waking (f : Strand → Strand) : State :=
  (curAs (alone running) fun t => f { t with waited := true }).setCtx ctx0 { running.ctx ctx0 with run := .waiting }
theorem wit_Waiting_clear : (waking id).clearToIssue here = true ∧ (waking id).wakesLater here = false ∧ ((waking id).ctx ctx0).run = .waiting ∧
    (∀ u ∈ ctx0.strands, u ≠ here → ((waking id).strand u).exited = true) ∧ ((waking id).strand here).range = none ∧
    (waking fun t => { t with hold := some (.cpWait 2) }).holdOver here = true ∧
    ((waking fun t => { t with hold := some .budget }).holdOver here = false) ∧
    ((waking fun t => { t with unconfirmed := [{ unconf [] with waits := true }] }).strand here).confirming = true ∧
    (waking fun t => { t with ainit := some (0x30000, 9), pend := [⟨4, .g 9, 1, .adec 0x30000 3, none, false⟩], stall := [4] }).stalled here = true ∧
    (let s : State := { (waking fun t => { t with ainit := some (0x30000, 9) }) with writes := [⟨7, tundishKey, 0, place (.phys 0x30000) 0, 0, [(0, 5)], 0, false⟩] }
     s.ainitWaits here = true) ∧
    (let s := (waking id).setStrand (ctx0.strand 1) { (waking id).strand (ctx0.strand 1) with exited := false, attached := true, queue := List.replicate 32 ⟨0x100000000, [0x80000000], []⟩ }
     s.dry here = true) := by decide +kernel
/-- The queue of the strand holds a bundle that was decoded. -/
def queued (q : List Decoded) (pc : W64) (wait : Bool) : State :=
  (curAs running fun t => { t with queue := q, pc := pc, attached := true }).setCtx ctx0 { running.ctx ctx0 with teamWait := wait, teamNext := 0x100000040 }
def noop (a : W64) : Decoded := ⟨a, [0x80000000], []⟩
theorem wit_Picker_switchOut : ((queued [noop 0x100000000] 0x100000000 false).strand (ctx0.strand 0)).queue = noop 0x100000000 :: [] ∧
    (noop 0x100000000).words ≠ [] := by decide +kernel
/-- A class that has used up what a meter lets it use, and one that has not. -/
theorem wit_Picker_charge : (running.die 0).deferredOf 5 = [] ∧ (running.die 0).admittedOf 5 = [] ∧ (running.die 0).usedOf 5 < 9 ∧
    (let s := running.setDie 0 { running.die 0 with used := [(5, 9)] }
     (s.die 0).deferredOf 5 = [] ∧ (s.die 0).admittedOf 5 = [] ∧ 9 ≤ (s.die 0).usedOf 5 ∧ 9 ≠ 0) := by decide +kernel
theorem wit_TeamStream : (running.bindOf ctx0).valid = true ∧ (running.ctx ctx0).run = .running ∧ running.teamSet ctx0 = here :: [⟨0, 0, 0, 1⟩, ⟨0, 0, 0, 2⟩, ⟨0, 0, 0, 3⟩] ∧
    running.discarded ctx0 = none ∧ (running.ctx ctx0).teamWait = false ∧ running.teamFull ctx0 = false ∧
    (running.fetchFor here (running.ctx ctx0).teamNext).toOption.isSome = true ∧
    (running.fetchFor here (running.ctx ctx0).teamNext).toOption.map (fun x => running.streamNext ctx0 x.1) = some (some 0x100000004) ∧
    running.streamNext ctx0 ⟨0x100000000, [0xDE000000], []⟩ = none := by decide +kernel
theorem wit_TeamStream_still : (queued (List.replicate 32 (noop 0x100000000)) 0x100000000 false).teamFull ctx0 = true ∧
    (queued (List.replicate 32 (noop 0x100000000)) 0x100000000 false).discarded ctx0 = none ∧
    ((queued [] 0x100000000 true).ctx ctx0).teamWait = true ∧ (queued [] 0x100000000 true).discarded ctx0 = none := by decide +kernel
/-- A bundle leaves the queue: the next one is the strand's next or is not, or the team stream goes on behind it, by the strand's word or its own. -/
theorem wit_TeamStream_leaves :
    (let s := queued [noop 0x100000000, noop 0x100000004] 0x100000004 false
     (s.strand here).attached = true ∧ (s.strand here).queue = noop 0x100000000 :: [noop 0x100000004] ∧ (noop 0x100000004).addr = (s.strand here).pc) ∧
    (let s := queued [noop 0x100000000, noop 0x100000004] 0x100000040 false
     (s.strand here).attached = true ∧ (s.strand here).queue = noop 0x100000000 :: [noop 0x100000004] ∧ (noop 0x100000004).addr ≠ (s.strand here).pc) := by
  decide +kernel
theorem wit_TeamStream_last :
    (let s := queued [noop 0x100000000] 0x100000040 true
     (s.strand here).attached = true ∧ (s.strand here).queue = noop 0x100000000 :: [] ∧ (s.ctx here.ctxId).teamWait = true) ∧
    (let s := queued [noop 0x100000000] 0x100000040 false
     (s.strand here).queue = noop 0x100000000 :: [] ∧ (s.ctx here.ctxId).teamWait = false ∧ (s.ctx here.ctxId).teamNext = (s.strand here).pc) ∧
    (let s := queued [noop 0x100000000] 0x100000080 false
     (s.strand here).queue = noop 0x100000000 :: [] ∧ (s.ctx here.ctxId).teamNext ≠ (s.strand here).pc) := by decide +kernel
/-- A cluster whose counter is far off and whose ladle holds allowances, and one whose counter stands. -/
theorem wit_TimeBase_ladle : let s := (offBy 40 false 0).setCluster clu0 { (offBy 40 false 0).cluster clu0 with ladle := [(0x30000, ⟨5, 999, 1, 0⟩)] }
    (s.cluster clu0).stopped = false ∧ (s.die 0).failed = false ∧ (s.cluster clu0).restarted = false ∧ (s.die 0).guard < (errorOf [] clu0 40).natAbs ∧
    (s.cluster clu0).blind = false ∧ (s.cluster clu0).ladle = [(0x30000, ⟨5, 999, 1, 0⟩)] ∧ 0 < (⟨5, 999, 1, 0⟩ : LadleEntry).amount := by decide +kernel
theorem wit_TimeBase_errors : running.timeAt clu0 = running.now ∧ (let s := running.setCluster clu0 { running.cluster clu0 with stopped := true }
    (s.cluster clu0).stopped = true ∧ (s.cluster clu0).blind = false ∧ 3 ≤ 50) := by decide +kernel
/-- A store of the cluster to the same bytes is on its write path. -/
theorem wit_WritesPerformed_waits : let w := writing (place (.phys 0x30000) 2) false
    let s : State := { running with writes := [⟨5, 1, 0, place (.phys 0x30000) 0, 0, [(0, 9)], 0, true⟩, w] }
    writeAt s.writes 7 = some w ∧ s.inOrder w = false := by decide +kernel

/-! ## Witnesses: late messages, engines that stop -/

/-- A grant for a cluster that is lease-blind, and one for a cluster whose counter stands. -/
theorem wit_AllowanceNetwork_blind : let s := allowing [.grant clu0.key 0x30000 7 99 2 req0] tundish0
    let b := s.setCluster clu0 { s.cluster clu0 with blind := true }
    let c := b.setCluster clu0 { b.cluster clu0 with stopped := true }
    (b.amsgs = [.grant clu0.key 0x30000 7 99 2 req0] ∧ b.ladle clu0.key 0x30000 = some ⟨5, 999, 1, 0⟩ ∧ (b.cluster clu0).blind = true ∧
      (b.cluster clu0).stopped = false ∧ 0 < 7) ∧ (c.cluster clu0).stopped = true ∧ c.ladle clu0.key 0x30000 = some ⟨5, 999, 1, 0⟩ := by decide +kernel
/-- An answer that comes after lease end and GUARD, and one before; a holding whose time has not come, and one that the ladle returns now. -/
theorem wit_AllowanceNetwork_late : let h : Holder := ⟨clu0.key, [(1, 5)], 50, 1, 1⟩; let x : Tundish := { tundish0 with holders := [h] }
    let s := allowing [.answer clu0.key 0x30000 5 1] x; let late : State := { s with now := 5000 }
    h.leaseEnd + (s.die (ctrHome 0x30000)).guard ≤ late.now ∧ ¬h.leaseEnd + (s.die (ctrHome 0x30000)).guard ≤ s.now ∧
    (∀ h ∈ (s.tundish 0x30000).holders, h.cluster = clu0.key → s.now < h.leaseEnd + (s.die (ctrHome 0x30000)).guard) ∧
    (let g : State := { allowing [] x with now := 5000 }
     g.amsgs = [] ∧ g.ladle clu0.key 0x30000 = some ⟨5, 999, 1, 0⟩ ∧ g.ladleDead clu0.key = false ∧ 999 ≤ g.timeAt clu0 ∧ x.holders = [h] ∧ h.first ≤ 1 ∧
       h.last = 1 ∧ x.recalling = none) := by decide +kernel
/-- The gang's node record cannot be read. -/
def unreadable : State := retiring.setDie 0 { retiring.die 0 with tlb := [] }
theorem wit_GangsRetire_unreadable : unreadable.readNode 0 graph0 0 = .error (.fault 0 0x100001000) ∧ (unreadable.gangAt (gangKey 0 5)).members ≠ [] ∧
    (unreadable.gangAt (gangKey 0 5)).retiring = false ∧ (unreadable.gangAt (gangKey 0 5)).saved = none ∧
    unreadable.gangDone (unreadable.gangAt (gangKey 0 5)) = true ∧ (unreadable.die 0).engine.fault = false ∧ unreadable.graphOf 2 = some (1, graph0) := by
  decide +kernel
theorem wit_GangsRetire_refill : ((stopped none).die 0).engine.fault = true ∧ (heldBack.die 0).engine.fault = false ∧
    (heldBack.refill 0).toOption.isSome = true := by decide +kernel
theorem wit_Resumption_more : (let s := stopped (some .root)
     (s.die 0).engine.fault = true ∧ (s.die 0).engine.resume = some .root) ∧
    (let s := stopped (some (.launch 1))
     (s.die 0).engine.fault = true ∧ (s.die 0).engine.resume = some (.launch 1)) ∧
    (let s := stopped (some (.gang (gangKey 0 5)))
     (s.die 0).engine.fault = true ∧ (s.die 0).engine.resume = some (.gang (gangKey 0 5))) := by decide +kernel

/-! ## Witnesses: lockstep -/

/-- A lockstep pair on clusters 0 and 1, its strands with these unconfirmed bundles. -/
def paired (us vs : List Unconfirmed) : State :=
  let s := (running.setBind ctx0 { running.bindOf ctx0 with lock := true }).setBind ⟨0, 1, 0⟩ { running.bindOf ctx0 with lock := true }
  let s1 := s.setStrand here { s.strand here with unconfirmed := us, step := 1 }
  { s1.setStrand ⟨0, 1, 0, 0⟩ { s1.strand ⟨0, 1, 0, 0⟩ with unconfirmed := vs } with turn := ⟨0, 1, 0, 0⟩, now := 100 }
def mate0 : StrandId := ⟨0, 1, 0, 0⟩
theorem wit_Pair : (paired [] []).trails mate0.ctxId = true ∧ (paired [] []).trails ctx0 = false ∧ (paired [] []).mateStrand here = mate0 ∧
    (paired [] []).mateStrand mate0 = here ∧ (paired [] []).mateOf mate0.ctxId = ctx0 ∧ ((paired [] []).ctx ctx0).frozen = false ∧
    ((paired [] []).bindOf ctx0).valid = true ∧ ((paired [] []).strand here).unconfirmed = [] := by decide +kernel
/-- Its trailing copy is about to issue the oldest bundle. -/
def trailing (waits : Bool) (reissue : Nat) : State :=
  let u : Unconfirmed := { unconf [.known [7, 0, 0, 0]] with waits := waits }
  let s := paired [u] []
  let s1 := s.setStrand here { s.strand here with step := 9, hold := if waits then some .lockstep else none }
  s1.setStrand mate0 { s1.strand mate0 with reissue := reissue }
theorem wit_TrailingCopy : ∀ w ∈ [true, false], (trailing w 0).trails (trailing w 0).turn.ctxId = true ∧ (trailing w 0).copyReady (trailing w 0).turn = true ∧
    (trailing w 0).copyTask (trailing w 0).turn = some ({ unconf [.known [7, 0, 0, 0]] with waits := w }, false) ∧ (trailing w 0).pass = false ∧
    ((trailing w 0).strand (trailing w 0).turn).inflight = [] ∧ ((trailing w 0).strand (trailing w 0).turn).heldStores = [] ∧
    (trailing w 0).poisonedStores mate0 (noop 0x100000000) = [] ∧ (trailing w 0).iss.hold = none ∧ (trailing w 0).iss.poisoned = [] := by decide +kernel
theorem wit_TrailingCopy_waits : (paired [] []).pass = false ∧ (paired [] []).copyReady (paired [] []).turn = false := by decide +kernel
theorem wit_Errors_trailing : (trailing false 1).copyReady mate0 = true ∧ ((trailing false 1).strand mate0).reissue < 2 ∧
    2 ≤ ((trailing false 2).strand mate0).reissue ∧ (trailing false 2).runs ctx0 = true ∧ (trailing false 2).copyReady mate0 = true ∧
    ((trailing false 2).strand here).region = none ∧ ((trailing false 2).strand here).lastFault = none := by decide +kernel
/-- Both copies have formed their signatures of the oldest bundle: they agree, or an error that no code detects changed one; and the bundle differs again. -/
theorem wit_Lockstep_pair : let u := unconf [.known [7, 0, 0, 0]]
    let s := paired [u] [u]
    s.trails here.ctxId = false ∧ (s.strand here).unconfirmed = u :: [] ∧ (s.strand (s.mateStrand here)).unconfirmed = u :: [] ∧ u.complete = true ∧
    u.sig = u.sig ^^^ 0 ∧ u.sig ≠ u.sig ^^^ 1 ∧ (s.strand here).region = none ∧ (s.strand here).mismatched = none ∧
    (unconf [.awaited 4]).complete = false ∧ (unconf []).step ≠ ({ unconf [] with step := 2 } : Unconfirmed).step ∧
    (let x := s.setStrand here { s.strand here with mismatched := some (.steps 1 2) }
     (x.strand here).mismatched = some (.steps 1 2) ∧ stepBefore u.step 1 = false ∧ stepBefore 2 u.step = false ∧ (x.strand here).lastFault = none ∧
       x.runs here.ctxId = true) := by decide +kernel
theorem wit_Restoration_clean : evicted.poisonedSectors = [] := by decide +kernel
theorem wit_RollbackRestores_pair : let s := paired [] []
    let u := (s.setStrand here { s.strand here with region := some region0 }).setStrand mate0 { s.strand mate0 with region := some region0 }
    (u.strand here).region = some region0 ∧ (u.bindOf here.ctxId).lock = true ∧ (u.strand (u.mateStrand here)).region = some region0 ∧
    (running.bindOf here.ctxId).lock = false ∧ (u.strand here).inflight = [] := by decide +kernel
/-- 22 R362: the trailing copy adds its own registers, and records the step with the sum. -/
theorem test_trailing_add :
    let u := { unconf [.known [7, 0, 0, 0]] with bundle := ⟨0x100000000, [0x81248140], []⟩ }
    let s := paired [u] []
    let s1 := s.setStrand here { s.strand here with step := 9 }
    let s2 := s1.setStrand mate0 (((s1.strand mate0).wg 8 3 false).wg 5 4 false)
    (match s2.openTurn with
     | .run before b is => (match runSyllables is b with
       | .next t => ((before.closeTurn t).strand mate0).unconfirmed.map fun (v : Unconfirmed) => (v.step, v.results.map fun x => (x.tgt, x.dat))
       | _ => [])
     | _ => []) = [(1, [(.g 9, .w 7)])] := by decide +kernel

/-! ## Witnesses: commands, the last generation -/

/-- The generation of ASID 0 is its last, and the cluster holds a translation of it. -/
def lastGen (c : Cmd) : State := { (commanding c).setCluster clu0 { (commanding c).cluster clu0 with tlb := [⟨0, 15, 0, 0x10001, leafC⟩] } with
  asids := tset running.asids 0 ⟨tablePa, 15, true, []⟩ }
theorem wit_AddressSpace_wraps : Commanded (lastGen (cmdOf 6 [0])) (cmdOf 6 [0]) 6 ∧
    (lastGen (cmdOf 6 [0])).liveAsid (asidOf ((cmdOf 6 [0]).word 1)) = some ⟨tablePa, 15, true, []⟩ ∧ ((lastGen (cmdOf 6 [0])).cluster clu0).tlb ≠ [] ∧
    (15#4) = 15 := ⟨commanded _ _ _ (by decide +kernel), by decide +kernel⟩
theorem wit_AddressSpace_lowest : running.freeAsidFrom 0 2048 = some 1 := by decide +kernel
theorem wit_CommandWindow_done : (0xC000000000000008#64).getLsbD 63 = true ∧ (0xC000000000000008#64).getLsbD 62 = true ∧ running.windowOpen = true ∧
    running.slotHeld 3 = false := by decide +kernel
theorem wit_Resume_running : Commanded (commanding (cmdOf 8 [0])) (cmdOf 8 [0]) 8 ∧ ((commanding (cmdOf 8 [0])).bindOf ctx0).valid = true ∧
    ((commanding (cmdOf 8 [0])).ctx ctx0).trapped = false ∧ ((commanding (cmdOf 8 [0])).ctx ctx0).frozen = false ∧
    ((commanding (cmdOf 8 [0])).ctx ctx0).parked = false := ⟨commanded _ _ _ (by decide +kernel), by decide +kernel⟩
theorem wit_Services_none : (cmdOf 10 [2, 4, 0x40, 0x1000]).op = 10 ∧ (cmdOf 10 [2, 4, 0x40, 0x1000]).reservedOk = true ∧
    (commanding (cmdOf 10 [2, 4, 0x40, 0x1000])).item 2 4 (0x1000 / 256) = none := by decide +kernel

/-! ## Witnesses: the machine as a whole -/

theorem wit_EncodeDecode : (Instr.sttn 9 6 7).wellFormed = true ∧ encode false (.sttn 9 6 7) = some 0x502461C3#32 ∧
    encode true (.sttn 9 6 7) = some 0xD02461C3#32 ∧ decodeWord 0xD02461C3#32 = .ok (.sttn 9 6 7) := by decide +kernel
theorem wit_MemoryKeepsItsForm : Memory.wf (State.reset.withFetchWord 32 0x80000000).mem = true ∧
    (match step (State.reset.withFetchWord 32 0x80000000) with | .next _ => true | _ => false) = true := by decide +kernel
theorem wit_StepRuns_event : ({ State.reset with agenda := [.powerOff] } : State).agenda = .powerOff :: [] ∧
    (match exec .powerOff (({ State.reset with agenda := [] } : State).beforeEvent .powerOff) with | .next _ => true | _ => false) = true := by decide +kernel
theorem wit_StepRuns_turn : running.agenda = [] ∧ running.power = true ∧ running.latent = [] ∧
    (match running.openTurn with | .run _ _ is => is == [(0, .nop 0)] | _ => false) = true ∧
    (match exec (.add 1 2 3) (running.atPosition 0) with | .next _ => true | _ => false) = true := by decide +kernel
theorem wit_StepRuns_fetch : textVa.toNat % 4 = 0 ∧ isGlobal textVa = true ∧ running.resolve here textVa needX = .ok ⟨.phys 0x20000, false, 0, false⟩ ∧
    (∀ k < 4, running.textByte clu0 (0x20000 + k) = (wordBytes 0x80000000).getD k 0) ∧ running.fetchWord here textVa = .ok 0x80000000 ∧
    ((reissued 0).strand here).attached = false ∧ stopBit 0x80000000#32 = true ∧ majorOf 0x80000000#32 ≠ 0x66 := by decide +kernel
/-- The bundle of the strand of the turn, as the front end gives it. -/
def nextOf (s : State) : Decoded × State := match s.nextBundle here with | .got b u => (b, u) | .wait => (⟨0, [], []⟩, s) | .fault _ => (⟨0, [], []⟩, s)
theorem wit_StepRuns_bundle : let s := reissued 0
    (s.agenda = [] ∧ s.power = true ∧ s.latent = [] ∧ s.pass = false ∧ s.runs here.ctxId = true ∧ s.presents here = true) ∧
    ((s.strand here).idle = 0 ∧ (s.strand here).ainit = none ∧ (s.strand here).unconfirmed = [] ∧ (s.ctx ctx0).brokenSeal = []) ∧
    ((nextOf s).1 = ⟨0x100000000, [0x80000000], []⟩ ∧ (nextOf s).2.turn = here ∧ (nextOf s).2.matrix here = s.matrix here) := by decide +kernel
theorem wit_StepRuns_limits : let s := (nextOf (reissued 0)).2; let b : Decoded := ⟨0x100000000, [0x80000000], []⟩
    (decodeWord 0x80000000#32 = .ok (.nop 0) ∧ (reissued 0).matrix here = true) ∧
    classMask b.positions ||| portMask b.syllables ||| conflictMask b.syllables = 0 ∧ (s.strand here).lengthOut = false ∧
    (s.strand here).pend = [] ∧ (s.strand here).fences = [] ∧ (s.chargeIssue here).1 = true := by decide +kernel
theorem wit_SyllableFrame : encode true (.add 9 8 5) = some 0x81248140#32 ∧
    (match exec (.add 9 8 5) running with | .next _ => true | _ => false) = true ∧ classOf 0x81248140#32 ≠ .Y ∧ classOf 0x81248140#32 ≠ .E ∧
    classOf 0x81248140#32 ≠ .X := by decide +kernel
theorem wit_BundleOutcome_faults : (running.strand running.turn).region = none ∧ (running.strand running.turn).lastFault = none ∧
    ({ lastOf with illegal := 4 } : Issue).illegal ≠ 0 ∧ overfull (running.strand running.turn).inflight lastOf = false ∧
    (let fs : List FaultAt := [⟨5, 6, 0, 8⟩, ⟨2, 4, 0, 3⟩]
     (∀ f ∈ fs, f.cause ≠ 1 ∧ f.pos < 8) ∧ (⟨2, 4, 0, 3⟩ : FaultAt) ∈ fs ∧
       ∀ g ∈ fs, g = (⟨2, 4, 0, 3⟩ : FaultAt) ∨ (⟨2, 4, 0, 3⟩ : FaultAt).pos < g.pos) := by decide +kernel
theorem wit_BundleOutcome_full : (running.strand running.turn).region = none ∧ (running.strand running.turn).lastFault = none ∧ lastOf.illegal = 0 ∧
    overfull ((flying (List.replicate 65 ⟨.g 3, .w 0, 9, 5, false⟩)).strand here).inflight lastOf = true ∧
    ((flying (List.replicate 65 ⟨.g 3, .w 0, 9, 5, false⟩)).strand here).region = none := by decide +kernel
/-- What a bundle in a region asks for. -/
def asking (rs : List (Nat × Nat)) (xs : List StoreAt) : State := { inRegion with iss := { lastOf with rollbacks := rs, stores := xs } }
theorem wit_BundleOutcome_region : ((asking [(0, 4)] []).strand here).region = some region0 ∧ (asking [(0, 4)] []).iss.illegal = 0 ∧
    overfull ((asking [(0, 4)] []).strand here).inflight (asking [(0, 4)] []).iss = false ∧ (asking [(0, 4)] []).iss.faults = [] ∧ (asking [(0, 4)] []).iss.hold = none ∧
    (asking [(0, 4)] []).iss.bad = false ∧ (∀ h ∈ region0.held, h.bad = false) ∧ (asking [(0, 4)] []).iss.poisoned = [] ∧ (0, 4) ∈ [(0, 4)] := by
  decide +kernel
theorem wit_BundleOutcome_ranks : (let b := (asking [(1, 3)] []).iss; (1, 3) ∈ b.rollbacks ∧ 4 ∉ b.rollbacks.map (·.2)) ∧
    (let b := (asking [(1, 2)] []).iss; (1, 2) ∈ b.rollbacks ∧ 4 ∉ b.rollbacks.map (·.2) ∧ 3 ∉ b.rollbacks.map (·.2)) ∧
    guarded [(0x80, 0x88)] ⟨0x84, ownByte 0x84, [(0, 1)], 0, 0⟩ = true ∧ (1, 5) ∈ (asking [(1, 5)] []).iss.rollbacks ∧
    128 < ({ region0 with held := List.replicate 128 ⟨0, ownByte 0, [], 0, false⟩ } : Region).held.length + 1 := by decide +kernel
theorem wit_StoresOfACommit : ([7#8] ≠ []) ∧ (⟨0x40, place (.phys 0x30000) 2, [(0, 5)], 0, 0⟩ : StoreAt).at_.loc = .phys 0x30000 ∧
    (place (.phys 0x30000) 2).cacheable = false ∧ (place (.phys 0x30000) 0).cacheable = true ∧
    (⟨0x80000, place (.spad 1 0) 0, [(0, 5)], 8, 0⟩ : StoreAt).at_.loc = .spad 1 0 ∧ 1 ≠ here.coreId.key ∧
    (({ running with seq := 1 } : State).acceptable ⟨0, here.key, clu0.key, place (.phys 0x30000) 0, 0, [(0, 5)], 0, false⟩ = true) ∧
    (reading (tagged false)).acceptable ⟨10, here.key, clu0.key, place (.phys 0x30000) 0, 0, [(0, 5)], 0, false⟩ = false ∧
    running.seq = 0 ∧ (∀ y ∈ running.writes, y.seq ≠ running.seq) ∧ lastOf.commits = false ∧ (inRegion.strand here).region.isSome = true ∧
    (running.strand here).region = none ∧ ({ lastOf with commits := true } : Issue).commits = true ∧ lastOf.sets = [] ∧
    (inRegion.strand here).region = some region0 := by decide +kernel
theorem wit_StepRuns_plain : let s := (nextOf (reissued 0)).2
    s.trails here.ctxId = false ∧ (s.strand here).confirmed = none ∧ running.trails running.turn.ctxId = false := by decide +kernel
/-- A syllable of each class that acts outside the strand, and of those that do not. -/
theorem wit_SyllableFrame_classes : (∀ x ∈ [(Instr.mma 0 1 0 0, 0xE3000040#32), (.msCopy 9 10, 0xE924A300), (.fenceAcq 3, 0xD10000C2), (.amoCas 9 4 5, 0xD4244146)],
      encode true x.1 = some x.2) ∧
    (classOf 0xE3000040#32 = .X ∧ classOf 0xE924A300#32 = .E ∧ classOf 0xD10000C2#32 = .Y ∧ majorOf 0xD10000C2#32 = 0x51 ∧ majorOf 0xD4244146#32 = 0x54) ∧
    (∀ i ∈ [Instr.mma 0 1 0 0, .msCopy 9 10, .fenceAcq 3, .amoCas 9 4 5], (match exec i running with | .next _ => true | _ => false) = true) := by
  decide +kernel
/-- Bundles that the checks stop: no stop bit, a stray `mkat`, an encoding, three syllables of class S, four destinations of a file, a register written twice. -/
def bundle (ws : List W32) : Decoded := ⟨0x100000000, ws, []⟩
theorem wit_BundleLimits : stopBit 0x01248140#32 = false ∧ (stopBit 0x80000000#32 = true ∧ majorOf 0x66000000#32 = 0x66) ∧
    running.encodingOk here 0x81000006 = false ∧ (stopBit 0x81000006#32 = true ∧ ¬majorOf 0x81000006#32 = 0x66) ∧
    (let ws := [0x01248140#32, 0x01248140, 0x81248140]
     (ws.all fun w => running.encodingOk here w && classOf w == .S && majorOf w != 0x66) = true ∧ SlotClass.S.limit < 3 ∧ writesOf (instrOf 0x81248140) ≠ []) ∧
    ((writesOf (instrOf 0x01248140#32)).any fun r => (writesOf (instrOf 0x81248140#32)).contains r) = true := by decide +kernel
theorem wit_BundleLimits_length : let s := curAs inRegion fun t => { t with step := 65536 }
    (s.strand s.turn).region = some region0 ∧ 65536 ≤ ((s.strand s.turn).step + 1 - region0.step).toNat ∧
    (s.strand s.turn).loopFails (noop 0x100000000) = false ∧ (s.chargeIssue s.turn).1 = true ∧ stopBit 0x80000000#32 = true ∧
    running.encodingOk here 0x80000000 = true ∧ writesOf (instrOf 0x80000000#32) = [] ∧ readsOf (instrOf 0x80000000#32) = [] ∧
    ¬classOf 0x80000000#32 = .S ∨ 1 ≤ 2 := by decide +kernel
/-- A bundle two syllables of which read a poisoned operand, and one whose answer differs. -/
theorem wit_PoisonAndKatfail : (∀ s ∈ [running, inRegion], (s.strand s.turn).lastFault = none) ∧ lastOf.illegal = 0 ∧
    overfull (running.strand here).inflight lastOf = false ∧ lastOf.faults = [] ∧ lastOf.hold = none ∧ lastOf.bad = false ∧ lastOf.commits = false ∧
    (let b := { lastOf with poisoned := [(2, (9 : W64)), (5, 7)] }
     (∀ p ∈ b.poisoned, p.1 < 8) ∧ (2, 9) ∈ b.poisoned ∧ ∀ q ∈ b.poisoned, q = (2, 9) ∨ 2 < q.1) ∧ (running.strand here).region = none ∧
    (inRegion.strand here).region = some region0 ∧ ({ lastOf with katfail := some (1, 0x404) } : Issue).katfail = some (1, 0x404) ∧ lastOf.poisoned = [] := by
  decide +kernel
/-- The tables of the text page with another entry in one of the five. -/
def walked (table : Nat) (e : W64) : State := { running with mem := memSetWord running.mem (tablePa + table) e }
theorem wit_AddressesResolve : let b := running.bindOf here.ctxId
    (b.psize.toNat * 16384 = 0x80000 ∧ (0x40#64).toNat < 0x80000 ∧ (0x100040#64).toNat = 0x100000 + (0 : Fin 4).val * 0x80000 + 0x40) ∧
    (let s := running.setBind ctx0 { b with psize := 1 }; ¬0x4000 < (s.bindOf here.ctxId).psize.toNat * 16384) ∧
    (0x80000 ≤ (0x80000#64).toNat ∧ (0x80000#64).toNat < 0x100000 ∧ 2 ^ 57 ≤ (0x200000000000000#64).toNat) ∧
    (0x100000000 ≤ textVa.toNat ∧ textVa.toNat < 2 ^ 57 ∧ tlbFind (running.cluster clu0).tlb b.asid b.gen textVa.toNat = none ∧
      tlbFind (running.die 0).tlb b.asid b.gen textVa.toNat = none ∧ tget running.asids b.asid.toNat = some ⟨tablePa, 0, true, []⟩ ∧ b.gen = 0 ∧
      (running.die 0).walksFor b.asid b.gen = []) ∧
    tlbFind ((paged leafC).cluster clu0).tlb b.asid b.gen dataVa.toNat = some leafC ∧
    (let s := (paged leafC).setDie 0 { running.die 0 with tlb := [⟨0, 0, 0, 0x10002, leafC⟩] }
     tlbFind (s.die 0).tlb b.asid b.gen 0x100020000 = some leafC ∧ tlbFind (s.cluster clu0).tlb b.asid b.gen 0x100020000 = none) := by decide +kernel
/-- At each level an entry that is not valid, one that is malformed, a pointer, and leaves of the three sizes. -/
theorem wit_AddressesResolve_walk : let on := fun (l : Nat) (e : W64) => e.getLsbD 0 = true ∧ pteMalformed l e = false ∧ (e.extractLsb' 8 2).toNat = 3
    (running.deviceWord tablePa = 0x11301 ∧ running.deviceWord 0x11000 = 0x12301 ∧ running.deviceWord 0x12020 = 0x13301 ∧
      running.deviceWord 0x13000 = 0x14301 ∧ running.deviceWord 0x14000 = 0x2000F) ∧
    (on 4 0x11301 ∧ on 3 0x12301 ∧ on 2 0x13301 ∧ on 1 0x14301) ∧
    (pteMalformed 0 0x2000F = false ∧ pteMalformed 1 0x20000103 = false ∧ pteMalformed 2 0x40000203 = false ∧ pteMalformed 1 0x20020103 = true) ∧
    ((walked 0x4000 0).deviceWord 0x14000 = 0 ∧ (walked 0x3000 0x20000103).deviceWord 0x13000 = 0x20000103) := by decide +kernel
theorem wit_AddressesResolve_stale : (⟨tablePa, 1, true, []⟩ : AsidRec).gen ≠ (running.bindOf here.ctxId).gen ∧
    ({ running with dielost := 1 } : State).dielost.getLsbD (0x20000 / 0x3000000000) = true ∧ (0x2000F#64).getLsbD 1 = true := by decide +kernel

end Sys2Proof.Tests
end

namespace Sys2Proof.Proofs
open Sys2Proof Sys2Proof.Machine Sys2Proof.Laws

/-! ## Reset values -/

/-- Every error log of a die is empty at reset (22 R360). -/
theorem reset_logs (n : Fin 5) : (Die.reset.logs[n]).recs = [] ∧ (Die.reset.logs[n]).lost = 0 := by
  have h : Die.reset.logs[n] = ELog.reset := by simp [Die.reset]
  rw [h]; exact ⟨rfl, rfl⟩

/-- Settles O55: every part that the reset state does not list reads as its reset value. -/
theorem resetState : Obligations.ResetState := by
  unfold Obligations.ResetState
  refine ⟨rfl, rfl, rfl, rfl, rfl, rfl, rfl, rfl, rfl, rfl, rfl, fun e => ?_, fun k => rfl, fun c => ⟨rfl, rfl⟩, fun w => ?_⟩
  · have he : State.reset.die e = Die.reset := rfl
    simp only [he]
    exact ⟨rfl, rfl, rfl, rfl, rfl, rfl, rfl, rfl, rfl, rfl, rfl, rfl, rfl, rfl, rfl, rfl, rfl, rfl, rfl, rfl, reset_logs⟩
  · cases w <;> rfl

/-! ## Register writes -/

end Sys2Proof.Proofs

namespace Sys2Proof.Proofs
open Sys2Proof Sys2Proof.Machine Sys2Proof.Laws

/-! ## Register writes -/

/-- A field of a word as a number: the word divided down to it, modulo its width. -/
theorem extractLsb'_toNat_div {w : Nat} (x : BitVec w) (lo n : Nat) : (x.extractLsb' lo n).toNat = x.toNat / 2 ^ lo % 2 ^ n := by
  rw [BitVec.extractLsb'_toNat, Nat.shiftRight_eq_div_pow]

theorem bindOf_setBind_self (s : State) (c : CtxId) (b : Bind) : (s.setBind c b).bindOf c = b := by
  simp [State.bindOf, State.setBind]

/-- The context that an entry of the slot table belongs to. -/
theorem ctxOfEntry (c : CtxId) :
    (⟨c.die, Fin.ofNat 32 ((Fin.ofNat 256 (c.cluster.val * 8 + c.ctx.val)).val / 8),
      Fin.ofNat 8 (Fin.ofNat 256 (c.cluster.val * 8 + c.ctx.val)).val⟩ : CtxId) = c := by
  obtain ⟨d, ⟨l, hl⟩, ⟨n, hn⟩⟩ := c
  congr 1 <;> (apply Fin.ext; simp only [Fin.ofNat]; omega)

theorem setCohctl_eq (s : State) (e : DieId) (x : W64) :
    let guard := max 16 (min 256 (x.toNat % 512))
    s.setCohctl e x = s.setDie e { s.die e with
      guard := guard, lord := max (2 * guard) (x.toNat / 2 ^ 16 % 2 ^ 16)
      lhot := max (2 * guard) (x.toNat / 2 ^ 32 % 2 ^ 16)
      lro := max (2 * guard) (x.toNat / 2 ^ 48 % 2 ^ 16) } := by
  simp only [State.setCohctl, extractLsb'_toNat_div, Nat.pow_zero, Nat.div_one, Nat.reducePow]

/-- BP alone written 1 clears BP alone (18 R305). -/
theorem clearGrstat_bp (s : State) (e : DieId) (x : W64) (h0 : x.getLsbD 0 = true) (h1 : x.getLsbD 1 = false) :
    s.clearGrstat e x = .next (s.onEngineRegs e fun g => { g with bp := false }) := by
  unfold State.clearGrstat
  dsimp only
  rw [h0, h1, if_pos rfl, if_neg Bool.false_ne_true]

theorem memWord_memSetWord_frame (m : Memory) (a : Nat) (x : W64) : memWord (memSetWord m a x) a = x ∧
    ∀ b, b < a ∨ a + 8 ≤ b → memRead (memSetWord m a x) b = memRead m b :=
  ⟨memWord_memSetWord m a x, fun b hb => memRead_memSetWord m a b x hb⟩

theorem elglost_write (s : State) (e : DieId) (n : Fin 5) (x : W64) :
    ∃ s', exec (.registerWrite (.elglost e n) x) s = .next s' ∧
      ((s'.die e).logs[n]).lost = (BitVec.ofNat 32 ((s.die e).logs[n]).lost &&& ~~~(BitVec.ofNat 32 x.toNat)).toNat ∧
      ((s'.die e).logs[n]).recs = ((s.die e).logs[n]).recs := by
  refine ⟨_, rfl, ?_, ?_⟩ <;> simp [die_setDie_self]

/-- Settles O51: each register's write is the update of its own field; the words of a bind record go to the context of the entry. -/
theorem registerWrites : Obligations.RegisterWrites := by
  unfold Obligations.RegisterWrites
  refine ⟨fun s e x => ⟨?_, ?_, ?_, rfl, ?_, fun h0 h1 => ?_, fun n => elglost_write s e n x⟩, fun s c x => ?_, fun s a x _ ha => ?_⟩
  · exact congrArg Host.Outcome.next (setCohctl_eq s e x)
  · simp [exec, execRegisterWrite, BitVec.ofNat_toNat]
  · rfl
  · simp [exec, execRegisterWrite, BitVec.ofNat_toNat]
  · exact (clearGrstat_bp s e x h0 h1)
  · refine ⟨_, _, rfl, rfl, ?_⟩
    rw [ctxOfEntry c, bindOf_setBind_self]
    refine ⟨rfl, rfl, rfl, rfl, extractLsb'_toNat_div x 11 11, extractLsb'_toNat_div x 32 16, rfl, rfl⟩
  · refine ⟨{ s with mem := memSetWord s.mem (hostBase + a) x }, ?_, memWord_memSetWord_frame s.mem (hostBase + a) x⟩
    exact congrArg Host.Outcome.next (if_pos (decide_eq_true ha))

end Sys2Proof.Proofs

namespace Sys2Proof.Machine

/-- The state without its strands, contexts and cores: what a freeze of contexts cannot reach. -/
def State.device (s : State) : State := { s with strands := [], ctxs := [], cores := [] }

end Sys2Proof.Machine

namespace Sys2Proof.Proofs
open Sys2Proof Sys2Proof.Machine Sys2Proof.Laws

/-! ## Stopping contexts leaves the device as it is -/

@[simp] theorem setStrand_device (s : State) (t : StrandId) (x : Strand) : (s.setStrand t x).device = s.device := rfl
@[simp] theorem setCtx_device (s : State) (c : CtxId) (x : Context) : (s.setCtx c x).device = s.device := rfl

@[simp] theorem landOne_device (s : State) (t : StrandId) (tg : Tgt) (d : Dat) (p : Bool) (n : W64) :
    (s.landOne t tg d p n).device = s.device := by
  cases tg <;> rfl

@[simp] theorem landAll_device (xs : List Exposed) (s : State) (t : StrandId) : (s.landAll t xs).device = s.device := by
  induction xs generalizing s with
  | nil => rfl
  | cons x r ih => rw [State.landAll, ih, landOne_device]

@[simp] theorem landDue_device (s : State) (t : StrandId) : (s.landDue t).device = s.device := by simp [State.landDue]

@[simp] theorem rollbackCopy_device (s : State) (t : StrandId) (cause : Nat) (bundle next : W64) :
    (s.rollbackCopy t cause bundle next).device = s.device := by
  obtain h | ⟨x, h⟩ := rollbackCopy_eq s t cause bundle next <;> rw [h]
  rfl

@[simp] theorem rollback_device (s : State) (t : StrandId) (cause : Nat) (bundle : W64) :
    (s.rollback t cause bundle).device = s.device := by
  unfold State.rollback State.rollbackAt
  dsimp only
  split
  · rfl
  · split <;> simp

@[simp] theorem freezeCtx_device (s : State) (c : CtxId) : (s.freezeCtx c).device = s.device := by
  unfold State.freezeCtx
  exact foldl_keeps (fun t : State => t.device = s.device) _ (fun u t hu => by rw [rollback_device, hu]) _ _ rfl

/-- Halting freezes contexts and sets HALTED. -/
theorem haltAll_device (s : State) : s.haltAll.device = { s.device with halted := true } := by
  unfold State.haltAll
  dsimp only
  generalize (allDies.flatMap fun e => (ctxsOf e).filter fun c => (s.bindOf c).valid && !s.trails c) = cs
  have h : (cs.foldl (fun s c => if (s.ctx c).frozen || (s.ctx c).freezing then s else s.freezeCtx c) s).device = s.device :=
    foldl_keeps (fun t : State => t.device = s.device) _ (fun u c hu => by split <;> simp [hu]) _ _ rfl
  exact congrArg (fun t : State => { t with halted := true }) h

@[simp] theorem haltAll_halted (s : State) : s.haltAll.halted = true := congrArg State.halted (haltAll_device s)
@[simp] theorem haltAll_tamper (s : State) : s.haltAll.tamper = s.tamper := (congrArg State.tamper (haltAll_device s) :)
@[simp] theorem haltAll_key (s : State) : s.haltAll.key = s.key := (congrArg State.key (haltAll_device s) :)

/-! ## What an error log holds last -/

/-- The last record after an entry is of the kind and unit entered, alone or counted with its like (22 R360). -/
theorem enter_last (l : ELog) (r : LogRec) : (l.enter r).recs.getLast?.map (fun x => (x.kind, x.unit)) = some (r.kind, r.unit) := by
  unfold ELog.enter
  split
  · rename_i x _
    split
    · rename_i h
      simp [LogRec.same] at h
      simp [h]
    · split <;> simp
  · rfl

theorem log_last (s : State) (d : DieId) (n : Fin 5) (kind unit struct addr detail : Nat) :
    (((s.log d n kind unit struct addr detail).die d).logs[n]).recs.getLast?.map (fun x => (x.kind, x.unit)) = some (kind, unit) := by
  simp only [State.log, die_setDie_self, Fin.getElem_fin, Vector.getElem_set_self]
  exact enter_last _ _

/-! ## Bring-up -/

/-- The stages of firmware that run are those before the first that is not signed. -/
theorem ran_append (b : BringUp) (xs zs : List Stage) (y : Stage) (h : b.stages = xs ++ y :: zs) (hx : ∀ x ∈ xs, x.signed = true)
    (hy : y.signed = false) : b.ran = xs := by
  simp [BringUp.ran, h, List.takeWhile_append_of_pos hx, hy]

theorem ran_all (b : BringUp) (h : ∀ x ∈ b.stages, x.signed = true) : b.ran = b.stages := by
  have := List.takeWhile_append_of_pos (l₂ := []) h
  simpa [BringUp.ran] using this

theorem measured_eq (b : BringUp) : b.measured = if b.failed.any fun n => decide (n.toNat < 4) then 0 else stagesMeasured b.ran := by
  unfold BringUp.measured stagesMeasured
  rw [List.foldl_map]
  rfl

/-- With every stage signed the step that fails is the one given. -/
theorem failed_all (b : BringUp) (h : ∀ x ∈ b.stages, x.signed = true) : b.failed = b.failAt := by
  unfold BringUp.failed
  rw [ran_all b h]
  cases b.failAt <;> simp

/-- A stage that is not signed fails step 4, unless an earlier step fails (log 86). -/
theorem failed_unsigned (b : BringUp) (xs zs : List Stage) (y : Stage) (h : b.stages = xs ++ y :: zs) (hx : ∀ x ∈ xs, x.signed = true)
    (hy : y.signed = false) (hn : ∀ n, b.failAt = some n → 4 ≤ n.toNat) : b.failed = some 4 := by
  have hlen : b.ran.length ≠ b.stages.length := by rw [ran_append b xs zs y h hx hy, h]; simp
  unfold BringUp.failed
  split
  · rename_i n he
    rw [if_neg (not_or.2 ⟨Nat.not_lt.2 (hn n he), hlen⟩)]
  · rw [if_neg hlen]

theorem bringUp_none (s : State) (b : BringUp) (h : b.failed = none) :
    s.bringUp b = { s.emptied with meas := stagesMeasured b.ran, key := s.key || !s.booted, booted := true, ports := portsOf b.peers } := by
  unfold State.bringUp
  rw [measured_eq, h]
  rfl

theorem bringUp_some (s : State) (b : BringUp) (n : BitVec 8) (h : b.failed = some n) :
    s.bringUp b = { s.emptied with
      meas := if n.toNat < 4 then 0 else stagesMeasured b.ran, ready := false, phase := 5, failStep := n } := by
  unfold State.bringUp
  rw [measured_eq, h]
  simp only [Option.any_some, decide_eq_true_eq]

/-- Whatever becomes of bring-up, it starts from the reset state with what host memory held. -/
theorem bringUp_parts (s : State) (b : BringUp) : (s.bringUp b).strands = [] ∧ (s.bringUp b).dies = [] ∧ (s.bringUp b).cmds = [] ∧
    (s.bringUp b).power = true ∧ (s.bringUp b).mem = s.emptied.mem := by
  cases h : b.failed with
  | none => rw [bringUp_none s b h]; exact ⟨rfl, rfl, rfl, rfl, rfl⟩
  | some n => rw [bringUp_some s b n h]; exact ⟨rfl, rfl, rfl, rfl, rfl⟩

theorem tget_filter {α : Type} (p : Nat → Bool) (t : Table α) (k : Nat) :
    tget (t.filter fun x => p x.1) k = if p k then tget t k else none := by
  induction t with
  | nil => simp [tget]
  | cons x r ih =>
    obtain ⟨n, v⟩ := x
    rw [List.filter_cons]
    by_cases hn : n = k
    · subst hn
      cases hp : p n <;> simp_all [tget]
    · split <;> simp [tget, hn, ih]

/-- A device without supplies keeps host memory and nothing else (00 R3). -/
theorem memRead_emptied (s : State) (a : Nat) : memRead s.emptied.mem a = if hostBase ≤ a then memRead s.mem a else 0 := by
  unfold memRead State.emptied
  dsimp only
  rw [tget_filter (fun n => decide (hostBase ≤ n)) s.mem a]
  by_cases h : hostBase ≤ a <;> simp [h, memDefault]

/-! ## Clocks -/

/-- Every die's clock a step lower, and nothing but the dies changed (23 R365). -/
theorem slowAll (s : State) : let t := allDies.foldl (fun s d => s.setDie d (s.die d).slower) s
    (∀ d, t.die d = (s.die d).slower) ∧ t.mem = s.mem ∧ t.strands = s.strands := by
  refine ⟨fun d => ?_, rfl, rfl⟩
  fin_cases d <;> simp [allDies, die_setDie]

/-! ## The statement -/

theorem powerGood_parts (s : State) (b : BringUp) (hp : s.power = false) : ∃ s', exec (.powerGood b) s = .next s' ∧ s'.power = true ∧
    ((∀ x ∈ b.stages, x.signed = true) →
      (b.failAt = none → s'.ready = true ∧ s'.phase = State.reset.phase ∧ s'.meas = stagesMeasured b.stages ∧
        s'.key = (s.key || !s.booted) ∧ s'.booted = true) ∧
      ∀ n, b.failAt = some n → s'.ready = false ∧ s'.phase = 5 ∧ s'.failStep = n ∧ s'.key = s.key ∧
        s'.meas = if n.toNat < 4 then 0 else stagesMeasured b.stages) ∧
    (∀ (xs zs : List Stage) (y : Stage), b.stages = xs ++ y :: zs → (∀ x ∈ xs, x.signed = true) → y.signed = false →
      (∀ n, b.failAt = some n → 4 ≤ n.toNat) → s'.ready = false ∧ s'.phase = 5 ∧ s'.failStep = 4 ∧ s'.key = s.key ∧ s'.meas = stagesMeasured xs) ∧
    s'.strands = [] ∧ s'.dies = [] ∧ ∀ a, hostBase ≤ a → memRead s'.mem a = memRead s.mem a := by
  obtain ⟨hstrands, hdies, -, hpower, hmem⟩ := bringUp_parts s b
  refine ⟨s.bringUp b, by simp [exec, execPowerGood, hp], hpower, fun hall => ⟨fun hf => ?_, fun n hf => ?_⟩,
    fun xs zs y h hx hy hn => ?_, hstrands, hdies, fun a ha => ?_⟩
  · rw [bringUp_none s b ((failed_all b hall).trans hf), ran_all b hall]
    exact ⟨rfl, rfl, rfl, rfl, rfl⟩
  · rw [bringUp_some s b n ((failed_all b hall).trans hf), ran_all b hall]
    exact ⟨rfl, rfl, rfl, rfl, rfl⟩
  · rw [bringUp_some s b 4 (failed_unsigned b xs zs y h hx hy hn), ran_append b xs zs y h hx hy]
    exact ⟨rfl, rfl, rfl, rfl, rfl⟩
  · rw [hmem, memRead_emptied, if_pos ha]

theorem powerOff_parts (s : State) : ∃ s', exec .powerOff s = .next s' ∧ s'.power = false ∧ s'.ready = false ∧ s'.strands = [] ∧
    s'.key = s.key ∧ s'.tamper = 0 ∧ (∀ a < hostBase, memRead s'.mem a = 0) ∧ ∀ a, hostBase ≤ a → memRead s'.mem a = memRead s.mem a :=
  ⟨_, rfl, rfl, rfl, rfl, rfl, rfl, fun a ha => (memRead_emptied s a).trans (if_neg (Nat.not_le.2 ha)),
    fun a ha => (memRead_emptied s a).trans (if_pos ha)⟩

theorem deviceReset_parts (s : State) (b : BringUp) (hp : s.power = true) : ∃ s', exec (.deviceReset b) s = .next s' ∧
    s'.tamper = s.tamper ∧ s'.strands = [] ∧ s'.cmds = [] ∧
    (b.failAt = none → (∀ x ∈ b.stages, x.signed = true) →
      s'.ready = true ∧ s'.key = (s.key || !s.booted) ∧ s'.meas = stagesMeasured b.stages) := by
  obtain ⟨hstrands, -, hcmds, -, -⟩ := bringUp_parts s b
  refine ⟨{ s.bringUp b with tamper := s.tamper, halted := decide (2 ≤ s.tamper) || (s.halted && !s.dielost.getLsbD 0) },
    by simp [exec, execDeviceReset, hp], rfl, hstrands, hcmds, fun hf hall => ?_⟩
  dsimp only
  rw [bringUp_none s b ((failed_all b hall).trans hf), ran_all b hall]
  exact ⟨rfl, rfl, rfl⟩

/-- What an alarm of a level that is not 0 does: the level is logged or halts the device, and 3 destroys the key. -/
theorem tamperAlarm_eq (s : State) (level : Fin 4) (sensor : BitVec 12) (hp : s.power = true) (hl : level ≠ 0) :
    let s1 : State := { s with tamper := max s.tamper level.val }
    let s2 := if level = 1 then s1.log 0 logCore 10 sensor.toNat 0 0 0 else s1.haltAll
    exec (.tamperAlarm level sensor) s = .next (if level = 3 then { s2 with key := false } else s2) := by
  simp [exec, execTamperAlarm, hp, hl]

theorem tamperAlarm_parts (s : State) (sensor : BitVec 12) (hp : s.power = true) :
    (∃ s', exec (.tamperAlarm 1 sensor) s = .next s' ∧ s'.tamper = max s.tamper 1 ∧ s'.halted = s.halted ∧ s'.key = s.key ∧
      ((s'.die 0).logs[0]).recs.getLast?.map (fun r => (r.kind, r.unit)) = some (10, sensor.toNat)) ∧
    (∃ s', exec (.tamperAlarm 2 sensor) s = .next s' ∧ s'.tamper = max s.tamper 2 ∧ s'.halted = true ∧ s'.key = s.key) ∧
    (∃ s', exec (.tamperAlarm 3 sensor) s = .next s' ∧ s'.tamper = max s.tamper 3 ∧ s'.halted = true ∧ s'.key = false) := by
  let raised (n : Nat) : State := { s with tamper := max s.tamper n }
  exact ⟨⟨(raised 1).log 0 logCore 10 sensor.toNat 0 0 0, tamperAlarm_eq s 1 sensor hp (by decide), rfl, rfl, rfl,
      log_last (raised 1) 0 logCore 10 sensor.toNat 0 0 0⟩,
    ⟨(raised 2).haltAll, tamperAlarm_eq s 2 sensor hp (by decide), haltAll_tamper (raised 2), haltAll_halted _, haltAll_key (raised 2)⟩,
    ⟨{ (raised 3).haltAll with key := false }, tamperAlarm_eq s 3 sensor hp (by decide), haltAll_tamper (raised 3), haltAll_halted (raised 3), rfl⟩⟩

theorem junction_parts (s : State) (e : DieId) (milli : Nat) (hp : s.power = true) :
    (milli < 100000 → exec (.junctionTemperature e milli) s = .next s) ∧
    (100000 ≤ milli → milli < 105000 → exec (.junctionTemperature e milli) s =
      .next (s.setDie e { s.die e with clock := max 800 ((s.die e).clock - 100) })) ∧
    (105000 ≤ milli → ∃ s', exec (.junctionTemperature e milli) s = .next s' ∧ s'.halted = true) := by
  have hot : 100000 ≤ milli → exec (.junctionTemperature e milli) s =
      .next (if 105000 ≤ milli then (s.setDie e (s.die e).slower).haltAll else s.setDie e (s.die e).slower) := fun h => by
    simp [exec, execJunctionTemperature, hp, Nat.not_lt.2 h]
  refine ⟨fun h => by simp [exec, execJunctionTemperature, h], fun h1 h2 => ?_, fun h => ?_⟩
  · rw [hot h1, if_neg (Nat.not_le.2 h2)]
    rfl
  · exact ⟨_, (hot (by omega)).trans (by rw [if_pos h]), haltAll_halted _⟩

/-- Settles O46: bring-up by which step fails, power-off by what is kept, alarms by what a halt leaves as it is. -/
theorem suppliesAndAlarms : Obligations.SuppliesAndAlarms := by
  unfold Obligations.SuppliesAndAlarms
  refine ⟨powerGood_parts, powerOff_parts, deviceReset_parts, tamperAlarm_parts, fun s e milli hp => ?_⟩
  obtain ⟨cool, hot, halts⟩ := junction_parts s e milli hp
  obtain ⟨hclock, hmem, hstrands⟩ := slowAll s
  refine ⟨cool, hot, halts, _, by simp [exec, execPackagePowerLimit, hp], fun d => ?_, hmem, hstrands⟩
  rw [hclock d]
  rfl

end Sys2Proof.Proofs

namespace Sys2Proof.Machine

/-- What the end of a walk makes of an access (12 R231, 20 R337). -/
def State.resolvedBy (s : State) (va : W64) (need : Need) (w : Walk) : Except AddrFault Place :=
  match leafOk w va need with
  | .error f => .error f
  | .ok e => s.placeOf e va

end Sys2Proof.Machine

namespace Sys2Proof.Proofs
open Sys2Proof Sys2Proof.Machine Sys2Proof.Laws

/-! ## Windows -/

theorem resolve_local (s : State) (t : StrandId) (va : W64) (need : Need) (h : va.toNat < 0x80000) :
    s.resolve t va need =
      if va.toNat < (s.bindOf t.ctxId).partBytes then .ok (partPlace t.ctxId (s.bindOf t.ctxId) t.core va.toNat)
      else .error (causeBounds, 0, va) := by
  have hw : windowOf va = .local_ va.toNat := by simp [windowOf, h]
  rw [State.resolve, State.resolveIn, hw]

theorem windowOf_cluster (va : W64) (c : Fin 4) (o : Nat) (ho : o < 0x80000) (h : va.toNat = 0x100000 + c.val * 0x80000 + o) :
    windowOf va = .cluster c o := by
  have hc := c.isLt
  have hcore : Fin.ofNat 4 ((va.toNat - 0x100000) / 0x80000) = c := Fin.ext (by simp only [Fin.ofNat]; omega)
  have hoff : (va.toNat - 0x100000) % 0x80000 = o := by omega
  unfold windowOf
  dsimp only
  rw [if_neg (by omega), if_neg (by omega), if_pos (by omega), hcore, hoff]

theorem resolve_cluster (s : State) (t : StrandId) (va : W64) (need : Need) (c : Fin 4) (o : Nat) (ho : o < 0x80000)
    (h : va.toNat = 0x100000 + c.val * 0x80000 + o) :
    s.resolve t va need =
      if o < (s.bindOf t.ctxId).partBytes then .ok (partPlace t.ctxId (s.bindOf t.ctxId) c o) else .error (causeBounds, 0, va) := by
  rw [State.resolve, State.resolveIn, windowOf_cluster va c o ho h]

theorem resolve_outside (s : State) (t : StrandId) (va : W64) (need : Need)
    (h : 0x80000 ≤ va.toNat ∧ va.toNat < 0x100000 ∨ 0x300000 ≤ va.toNat ∧ va.toNat < 0x100000000 ∨ 2 ^ 57 ≤ va.toNat) :
    s.resolve t va need = .error (causeBounds, 0, va) := by
  have hw : windowOf va = .none := by
    unfold windowOf
    dsimp only
    repeat' split
    all_goals first | rfl | omega
  rw [State.resolve, State.resolveIn, hw]

/-- In the global window the leaf of the strand's address space decides. -/
theorem resolve_global (s : State) (t : StrandId) (va : W64) (need : Need) (h1 : 0x100000000 ≤ va.toNat) (h2 : va.toNat < 2 ^ 57) :
    s.resolve t va need = s.resolvedBy va need (s.leafFor t.clusterId (s.bindOf t.ctxId).asid (s.bindOf t.ctxId).gen va.toNat) := by
  have hw : windowOf va = .global := by
    unfold windowOf
    dsimp only
    rw [if_neg (by omega), if_neg (by omega), if_neg (by omega), if_neg (by omega), if_pos h2]
  rw [State.resolve, State.resolveIn, hw]
  rfl

/-! ## Entries of page tables -/

theorem extract_ne_zero_iff {w : Nat} (e : BitVec w) (lo n : Nat) :
    (e.extractLsb' lo n != 0) = true ↔ ∃ k, lo ≤ k ∧ k < lo + n ∧ e.getLsbD k = true := by
  rw [bne_iff_ne, ne_eq, BitVec.eq_of_getLsbD_eq_iff, not_forall]
  constructor
  · rintro ⟨i, h⟩
    rw [Classical.not_imp] at h
    obtain ⟨hi, h⟩ := h
    exact ⟨lo + i, by omega, by omega, by simpa [hi] using h⟩
  · rintro ⟨k, h1, h2, hk⟩
    refine ⟨k - lo, fun h => ?_⟩
    have := h (by omega)
    rw [BitVec.getLsbD_extractLsb', show lo + (k - lo) = k by omega, hk] at this
    simp [show k - lo < n by omega] at this

theorem pteSz_lt (e : W64) : pteSz e < 4 := (e.extractLsb' 8 2).isLt
theorem pteCp_lt (e : W64) : pteCp e < 4 := (e.extractLsb' 6 2).isLt

theorem pageBits_eq (z : Nat) : pageBits z = if z = 0 then 16 else if z = 1 then 21 else 30 := by
  rcases z with _ | _ | z <;> rfl

theorem szAllowed_iff (l z : Nat) :
    szAllowed l z = true ↔ (l = 0 ∧ z = 0 ∨ l = 1 ∧ (z = 1 ∨ z = 3) ∨ l = 2 ∧ (z = 2 ∨ z = 3) ∨ 3 ≤ l ∧ z = 3) := by
  rcases l with _ | _ | _ | l <;> simp [szAllowed]

/-- R230 in the fields of the entry. -/
theorem pteMalformed_iff (l : Nat) (e : W64) :
    pteMalformed l e = true ↔ (e.getLsbD 10 = true ∨ e.getLsbD 11 = true) ∨ (∃ k, 48 ≤ k ∧ k < 64 ∧ e.getLsbD k = true) ∨
      ¬szAllowed l (pteSz e) = true ∨ (hbmEnd ≤ pteAddr e ∧ pteAddr e < hostBase) ∨
      (pteSz e ≠ 3 ∧ (pteCp e = 3 ∨ (pteRl e = true ∧ ¬(pteSz e = 0 ∧ pteMs e = true)) ∨
        pteAddr e % 2 ^ pageBits (pteSz e) ≠ 0 ∨ (hostBase ≤ pteAddr e ∧ pteCp e ≠ 2))) := by
  have h10 : (e.extractLsb' 10 2 != 0) = true ↔ e.getLsbD 10 = true ∨ e.getLsbD 11 = true := by
    rw [extract_ne_zero_iff]
    constructor
    · rintro ⟨k, h1, h2, hk⟩
      obtain rfl | rfl : k = 10 ∨ k = 11 := by omega
      · exact .inl hk
      · exact .inr hk
    · rintro (h | h)
      · exact ⟨10, by omega, by omega, h⟩
      · exact ⟨11, by omega, by omega, h⟩
  unfold pteMalformed
  rw [Bool.or_eq_true, Bool.or_eq_true, Bool.or_eq_true, Bool.or_eq_true, h10, extract_ne_zero_iff]
  simp [or_assoc, imp_iff_not_or]

/-- R230 in the numbers of the entry's fields, with the limits of the address ranges written out. -/
theorem pteMalformed_fields (l : Nat) (e : W64) :
    let frame := (e.extractLsb' 12 36).toNat * 4096
    let sz := (e.extractLsb' 8 2).toNat
    let cp := (e.extractLsb' 6 2).toNat
    (pteMalformed l e = true ↔ e.getLsbD 10 = true ∨ e.getLsbD 11 = true ∨ (∃ k, 48 ≤ k ∧ k < 64 ∧ e.getLsbD k = true) ∨
      ¬(l = 0 ∧ sz = 0 ∨ l = 1 ∧ (sz = 1 ∨ sz = 3) ∨ l = 2 ∧ (sz = 2 ∨ sz = 3) ∨ 3 ≤ l ∧ sz = 3) ∨
      0xC000000000 ≤ frame ∧ frame < 0x800000000000 ∨
      sz ≠ 3 ∧ (cp = 3 ∨ e.getLsbD 5 = true ∧ ¬(sz = 0 ∧ e.getLsbD 4 = true) ∨
        frame % 2 ^ (if sz = 0 then 16 else if sz = 1 then 21 else 30) ≠ 0 ∨ 0x800000000000 ≤ frame ∧ cp ≠ 2)) := by
  intro frame sz cp
  rw [pteMalformed_iff, szAllowed_iff, pageBits_eq, or_assoc]
  rfl

/-! ## TLBs -/

/-- A TLB answers with its first entry of the page (R232). -/
theorem tlbFind_eq (es : List TlbEntry) (asid : BitVec 11) (gen : BitVec 4) (a : Nat) :
    tlbFind es asid gen a = (es.find? fun x => decide (x.asid = asid ∧ x.gen = gen ∧ a / 2 ^ pageBits x.size = x.vpn)).map TlbEntry.leaf := by
  induction es with
  | nil => rfl
  | cons e r ih =>
    rw [tlbFind, List.find?_cons]
    by_cases h : e.asid = asid ∧ e.gen = gen ∧ a / 2 ^ pageBits e.size = e.vpn
    · rw [if_pos h, decide_eq_true h]; rfl
    · rw [if_neg h, decide_eq_false h, ih]

/-! ## What a walk ends in -/

theorem resolvedBy_fail (s : State) (va : W64) (need : Need) (sub level : Nat) :
    s.resolvedBy va need (.fail sub level) = .error (causeXlate, BitVec.ofNat 4 sub, va) := rfl

/-- What a leaf gives an access: a missing permission, a lost frame, or the place in its page (R231, 20 R337). -/
def LeafGives (s : State) (va : W64) (need : Need) (r : Except AddrFault Place) (e : W64) : Prop :=
  let sz := (e.extractLsb' 8 2).toNat
  let pa := (e.extractLsb' 12 36).toNat * 4096 + va.toNat % 2 ^ (if sz = 0 then 16 else if sz = 1 then 21 else 30)
  let noR := need.r = true ∧ e.getLsbD 1 = false
  let noW := need.w = true ∧ e.getLsbD 2 = false
  let noX := need.x = true ∧ e.getLsbD 3 = false
  let lost := pa < 0xC000000000 ∧ s.dielost.getLsbD (pa / 0x3000000000) = true
  (noR → r = .error (5, 1, va)) ∧ (¬noR → noW → r = .error (5, 2, va)) ∧ (¬noR → ¬noW → noX → r = .error (5, 3, va)) ∧
  (¬noR → ¬noW → ¬noX → lost → r = .error (10, 0, va)) ∧
  (¬noR → ¬noW → ¬noX → ¬lost → r = .ok ⟨.phys pa, e.getLsbD 4, (e.extractLsb' 6 2).toNat, !e.getLsbD 2⟩)

theorem lacks_eq (e : W64) (need : Need) : lacks e need =
    if need.r = true ∧ e.getLsbD 1 = false then some 1 else if need.w = true ∧ e.getLsbD 2 = false then some 2
    else if need.x = true ∧ e.getLsbD 3 = false then some 3 else none := by
  simp only [lacks, pteR, pteW, pteX, Bool.and_eq_true, Bool.not_eq_true']

theorem leafPa_eq (e : W64) (va : Nat) : leafPa e va = (e.extractLsb' 12 36).toNat * 4096 +
    va % 2 ^ (if (e.extractLsb' 8 2).toNat = 0 then 16 else if (e.extractLsb' 8 2).toNat = 1 then 21 else 30) := by
  rw [leafPa, pageBits_eq]
  rfl

theorem placeOf_eq (s : State) (e va : W64) : s.placeOf e va =
    if leafPa e va.toNat < 0xC000000000 ∧ s.dielost.getLsbD (leafPa e va.toNat / 0x3000000000) = true
    then .error (causeHomelost, 0, va) else .ok (leafPlace e va) := by
  simp only [State.placeOf, State.lostAt, Bool.and_eq_true, decide_eq_true_eq]
  rfl

theorem resolvedBy_leaf_eq (s : State) (va : W64) (need : Need) (e : W64) : s.resolvedBy va need (.leaf e) =
    if need.r = true ∧ e.getLsbD 1 = false then .error (5, 1, va) else if need.w = true ∧ e.getLsbD 2 = false then .error (5, 2, va)
    else if need.x = true ∧ e.getLsbD 3 = false then .error (5, 3, va) else s.placeOf e va := by
  unfold State.resolvedBy leafOk
  dsimp only
  rw [lacks_eq]
  by_cases h1 : need.r = true ∧ e.getLsbD 1 = false
  · rw [if_pos h1, if_pos h1]; rfl
  · rw [if_neg h1, if_neg h1]
    by_cases h2 : need.w = true ∧ e.getLsbD 2 = false
    · rw [if_pos h2, if_pos h2]; rfl
    · rw [if_neg h2, if_neg h2]
      by_cases h3 : need.x = true ∧ e.getLsbD 3 = false
      · rw [if_pos h3, if_pos h3]; rfl
      · rw [if_neg h3, if_neg h3]

theorem resolvedBy_leaf (s : State) (va : W64) (need : Need) (e : W64) : LeafGives s va need (s.resolvedBy va need (.leaf e)) e := by
  rw [resolvedBy_leaf_eq, placeOf_eq, leafPlace, leafPa_eq]
  refine ⟨fun h => ?_, fun h1 h2 => ?_, fun h1 h2 h3 => ?_, fun h1 h2 h3 h4 => ?_, fun h1 h2 h3 h4 => ?_⟩
  · rw [if_pos h]
  · rw [if_neg h1, if_pos h2]
  · rw [if_neg h1, if_neg h2, if_pos h3]
  · rw [if_neg h1, if_neg h2, if_neg h3, if_pos h4]; rfl
  · rw [if_neg h1, if_neg h2, if_neg h3, if_neg h4]; rfl

/-- What an entry of a table at a level gives an access, unless it is a pointer (R229 to R231). -/
def EntryGives (s : State) (va : W64) (need : Need) (r : Except AddrFault Place) (l : Nat) (e : W64) : Prop :=
  (e.getLsbD 0 = false → r = .error (5, 0, va)) ∧ (e.getLsbD 0 = true → pteMalformed l e = true → r = .error (5, 4, va)) ∧
  (e.getLsbD 0 = true → pteMalformed l e = false → (e.extractLsb' 8 2).toNat ≠ 3 → LeafGives s va need r e)

/-- A valid pointer at a level. -/
def PointsOn (l : Nat) (e : W64) : Prop := e.getLsbD 0 = true ∧ pteMalformed l e = false ∧ (e.extractLsb' 8 2).toNat = 3

/-- A walk with nothing cached, at one level: the entry that memory holds ends it, or a pointer leads on. -/
theorem walkFrom_cons (s : State) (table va l : Nat) (levels : List Nat) :
    walkFrom s [] table va (l :: levels) =
      let e := s.deviceWord (table + 8 * vaIndex va l)
      if e.getLsbD 0 = false then .fail 0 l
      else if pteMalformed l e = true then .fail 4 l
      else if pteSz e = 3 then walkFrom s [] (pteAddr e) va levels
      else .leaf e := by
  simp only [walkFrom, tget, Option.getD_none, pteV, Bool.not_eq_true'] <;> rfl

theorem resolvedBy_walk (s : State) (va : W64) (need : Need) (table l : Nat) (levels : List Nat) (e : W64)
    (he : s.deviceWord (table + 8 * vaIndex va.toNat l) = e) :
    EntryGives s va need (s.resolvedBy va need (walkFrom s [] table va.toNat (l :: levels))) l e ∧
    (PointsOn l e → walkFrom s [] table va.toNat (l :: levels) = walkFrom s [] (pteAddr e) va.toNat levels) := by
  rw [walkFrom_cons, he]
  dsimp only
  refine ⟨⟨fun hv => ?_, fun hv hm => ?_, fun hv hm hz => ?_⟩, fun ⟨hv, hm, hz⟩ => ?_⟩
  · rw [if_pos hv]; rfl
  · rw [if_neg (by simp [hv]), if_pos hm]; rfl
  · rw [if_neg (by simp [hv]), if_neg (by simp [hm]), if_neg (show ¬pteSz e = 3 from hz)]
    exact resolvedBy_leaf s va need e
  · rw [if_neg (by simp [hv]), if_neg (by simp [hm]), if_pos (show pteSz e = 3 from hz)]

/-- The five levels of a walk from a root table. -/
theorem resolvedBy_levels (s : State) (va : W64) (need : Need) (root : Nat) (r : Except AddrFault Place)
    (hr : r = s.resolvedBy va need (walkFrom s [] root va.toNat [4, 3, 2, 1, 0])) :
    let next := fun (e : W64) (i : Nat) => s.deviceWord ((e.extractLsb' 12 36).toNat * 4096 + 8 * i)
    let e4 := s.deviceWord (root + 8 * (va.toNat / 2 ^ 48 % 512))
    let e3 := next e4 (va.toNat / 2 ^ 39 % 512)
    let e2 := next e3 (va.toNat / 2 ^ 30 % 512)
    let e1 := next e2 (va.toNat / 2 ^ 21 % 512)
    let e0 := next e1 (va.toNat / 2 ^ 16 % 32)
    let gives := EntryGives s va need r
    gives 4 e4 ∧ (PointsOn 4 e4 → gives 3 e3 ∧ (PointsOn 3 e3 → gives 2 e2 ∧ (PointsOn 2 e2 → gives 1 e1 ∧
      (PointsOn 1 e1 → gives 0 e0)))) := by
  subst hr
  intro next e4 e3 e2 e1 e0 gives
  obtain ⟨g4, on4⟩ := resolvedBy_walk s va need root 4 [3, 2, 1, 0] e4 rfl
  obtain ⟨g3, on3⟩ := resolvedBy_walk s va need (pteAddr e4) 3 [2, 1, 0] e3 rfl
  obtain ⟨g2, on2⟩ := resolvedBy_walk s va need (pteAddr e3) 2 [1, 0] e2 rfl
  obtain ⟨g1, on1⟩ := resolvedBy_walk s va need (pteAddr e2) 1 [0] e1 rfl
  obtain ⟨g0, -⟩ := resolvedBy_walk s va need (pteAddr e1) 0 [] e0 rfl
  refine ⟨g4, fun p4 => ?_⟩
  have w3 := on4 p4
  refine ⟨by rw [← w3] at g3; exact g3, fun p3 => ?_⟩
  have w2 := w3.trans (on3 p3)
  refine ⟨by rw [← w2] at g2; exact g2, fun p2 => ?_⟩
  have w1 := w2.trans (on2 p2)
  refine ⟨by rw [← w1] at g1; exact g1, fun p1 => ?_⟩
  have w0 := w1.trans (on1 p1)
  rw [← w0] at g0
  exact g0

/-! ## The statement -/

theorem addressesResolve_windows (s : State) (t : StrandId) (va : W64) (need : Need) :
    let a := va.toNat
    let part := (s.bindOf t.ctxId).psize.toNat * 16384
    let base := (s.bindOf t.ctxId).pbase.toNat * 16384
    let at_ := fun (c : Fin 4) (o : Nat) => (⟨.spad (t.ctxId.coreId c).key ((base + o) % 0x80000), false, 0, false⟩ : Place)
    (a < 0x80000 → s.resolve t va need = if a < part then .ok (at_ t.core a) else .error (6, 0, va)) ∧
    (∀ (c : Fin 4) (o : Nat), o < 0x80000 → a = 0x100000 + c.val * 0x80000 + o →
      s.resolve t va need = if o < part then .ok (at_ c o) else .error (6, 0, va)) ∧
    (0x80000 ≤ a ∧ a < 0x100000 ∨ 0x300000 ≤ a ∧ a < 0x100000000 ∨ 2 ^ 57 ≤ a → s.resolve t va need = .error (6, 0, va)) ∧
    t.ctxId.coreId t.core = t.coreId :=
  ⟨resolve_local s t va need, resolve_cluster s t va need, resolve_outside s t va need, rfl⟩

/-- What the TLBs and, with nothing in them, the tables give the walk of an access in the global window. -/
theorem leafFor_near (s : State) (l : ClusterId) (asid : BitVec 11) (gen : BitVec 4) (a : Nat) (e : W64)
    (h : tlbFind (s.cluster l).tlb asid gen a = some e) : s.leafFor l asid gen a = .leaf e := by
  rw [State.leafFor, h]

theorem leafFor_far (s : State) (l : ClusterId) (asid : BitVec 11) (gen : BitVec 4) (a : Nat) (e : W64)
    (hn : tlbFind (s.cluster l).tlb asid gen a = none) (h : tlbFind (s.die l.die).tlb asid gen a = some e) :
    s.leafFor l asid gen a = .leaf e := by
  rw [State.leafFor, hn]
  dsimp only
  rw [State.dieLeaf, h]

theorem leafFor_walk (s : State) (l : ClusterId) (asid : BitVec 11) (gen : BitVec 4) (a : Nat) (x : AsidRec)
    (hn : tlbFind (s.cluster l).tlb asid gen a = none) (h : tlbFind (s.die l.die).tlb asid gen a = none)
    (hx : tget s.asids asid.toNat = some x) :
    s.leafFor l asid gen a =
      if x.gen = gen then walkFrom s ((s.die l.die).walksFor asid gen) x.root a [4, 3, 2, 1, 0] else .fail 5 0 := by
  rw [State.leafFor, hn]
  dsimp only
  rw [State.dieLeaf, h]
  dsimp only
  rw [State.walkWith, State.rootOf, hx]
  dsimp only
  by_cases hg : x.gen = gen
  · rw [if_pos hg, if_pos hg]
  · rw [if_neg hg, if_neg hg]

/-- Settles O60: the window decides, then the TLBs, then the walk, level by level. -/
theorem addressesResolve : Obligations.AddressesResolve := by
  unfold Obligations.AddressesResolve
  refine ⟨addressesResolve_windows, fun l e _ => pteMalformed_fields l e, tlbFind_eq, fun s t va need h1 h2 => ?_⟩
  intro a b r leaf near far
  have hr : r = s.resolvedBy va need (s.leafFor t.clusterId b.asid b.gen a) := resolve_global s t va need h1 h2
  have hleaf (e : W64) (he : s.leafFor t.clusterId b.asid b.gen a = .leaf e) : LeafGives s va need r e := by
    rw [hr, he]
    exact resolvedBy_leaf s va need e
  refine ⟨fun e he => hleaf e (leafFor_near _ _ _ _ _ _ he), fun e hn he => hleaf e (leafFor_far _ _ _ _ _ _ hn he),
    fun hn hf x hx => ?_⟩
  rw [leafFor_walk s t.clusterId b.asid b.gen a x hn hf hx] at hr
  refine ⟨fun hg => ?_, fun hg hw => ?_⟩
  · rw [hr, if_neg hg]
    rfl
  · rw [if_pos hg, show (s.die t.clusterId.die).walksFor b.asid b.gen = [] from hw] at hr
    exact resolvedBy_levels s va need x.root r hr

end Sys2Proof.Proofs

namespace Sys2Proof.Proofs
open Sys2Proof Sys2Proof.Machine Sys2Proof.Laws

/-! ## Steps of the two kinds -/

theorem findErrors_nil (s : State) (h : s.latent = []) : s.findErrors = s := by
  have e : ({ s with latent := [] } : State) = s := by rw [← h]
  simp [State.findErrors, h, e]

theorem step_event (s : State) (i : Instr) (r : List Instr) (h : s.agenda = i :: r) (hp : s.power = true) : step s =
    match exec i (({ s with agenda := r } : State).beforeEvent i) with
    | .next t => .next (t.tickOver 0) | .fault f => .fault f | .refused f => .refused f := by
  unfold step
  rw [h]
  dsimp only
  rw [if_pos (by rw [hp]; rfl)] <;> rfl

theorem step_bundle (s before start : State) (is : List (Nat × Instr)) (h : s.agenda = []) (hp : s.power = true) (hl : s.latent = [])
    (ho : s.openTurn = .run before start is) : step s =
      match runSyllables is start with
      | .next t => .next ((before.closeTurn t).tickOver 0) | .fault f => .fault f | .refused f => .refused f := by
  unfold step
  rw [h]
  dsimp only
  rw [hp, findErrors_nil s hl, ho] <;> rfl

theorem runSyllables_next (i : Instr) (p : Nat) (is : List (Nat × Instr)) (s t : State) (h : exec i (s.atPosition p) = .next t) :
    runSyllables ((p, i) :: is) s = runSyllables is t := by
  rw [runSyllables, h]

theorem runSyllables_one (i : Instr) (p : Nat) (s : State) : runSyllables [(p, i)] s = exec i (s.atPosition p) := by
  rw [runSyllables]
  cases exec i (s.atPosition p) <;> rfl

/-! ## Fetching one word -/

/-- The four bytes of a word make the word (R22). -/
theorem bytesWord_wordBytes (w : W32) :
    bytesWord ((wordBytes w).getD 0 0) ((wordBytes w).getD 1 0) ((wordBytes w).getD 2 0) ((wordBytes w).getD 3 0) = w :=
  bytes_of_word w

theorem fetchWord_ok (s : State) (t : StrandId) (va : W64) (p : Place) (pa : Nat) (w : W32) (ha : va.toNat % 4 = 0)
    (hg : isGlobal va = true) (hr : s.resolve t va needX = .ok p) (hl : p.loc = .phys pa)
    (hb : ∀ k < 4, s.textByte t.clusterId (pa + k) = (wordBytes w).getD k 0) : s.fetchWord t va = .ok w := by
  unfold State.fetchWord
  rw [if_neg (not_not.2 ha), hg, hr]
  dsimp only
  rw [hl]
  dsimp only
  rw [show s.textByte t.clusterId pa = _ from hb 0 (by decide), hb 1 (by decide), hb 2 (by decide), hb 3 (by decide), bytesWord_wordBytes]
  rfl

/-- A word with the stop bit and without literals is a bundle (R27, R28). -/
theorem fetchAt_one (s : State) (t : StrandId) (va : W64) (w : W32) (h : s.fetchWord t va = .ok w) (hs : stopBit w = true)
    (hm : majorOf w ≠ 0x66) : s.fetchAt t va = .ok ⟨va, [w], []⟩ := by
  have hb : s.fetchBundle t va 8 = .ok ([w], true) := by
    rw [State.fetchBundle, h]
    dsimp only
    rw [if_pos hs]
  have hn : literalCount w = 0 := if_neg hm
  unfold State.fetchAt
  rw [hb]
  simp [hn, State.fetchWords]

theorem nextBundle_private (s : State) (t : StrandId) (w : W32) (h : s.fetchWord t (s.strand t).pc = .ok w) (hs : stopBit w = true)
    (hm : majorOf w ≠ 0x66) (hq : (s.strand t).queue = []) (ha : (s.strand t).attached = false) :
    let b : Decoded := ⟨(s.strand t).pc, [w], []⟩
    let s1 := s.fillText t b
    s.nextBundle t = .got b (s1.setStrand t { s1.strand t with queue := [b] }) := by
  have hf : s.fetchPrivate t = .ok ((s.fillText t ⟨(s.strand t).pc, [w], []⟩).setStrand t
      { (s.fillText t ⟨(s.strand t).pc, [w], []⟩).strand t with queue := [⟨(s.strand t).pc, [w], []⟩] }) := by
    unfold State.fetchPrivate
    simp [hq, State.fetchFor, fetchAt_one s t _ w h hs hm]
  unfold State.nextBundle
  simp [hq, ha, State.dry, hf]

/-! ## A bundle of one word -/

/-- A word of the class Y does not open a region: the two rest on different majors. -/
theorem ckpt_notY (w : W32) (h : majorOf w = 0x70) : classOf w ≠ .Y := by
  simp [classOf, h]

section
variable (w : W32) (i : Instr) (va : W64) (hd : decodeWord w = .ok i)
include hd

theorem instrOf_ok : instrOf w = i := by rw [instrOf, hd]

theorem syllables_one : (⟨va, [w], []⟩ : Decoded).syllables = [(0, i)] := by
  simp [Decoded.syllables, Decoded.positions, instrOf_ok w i hd]

theorem order_one : (⟨va, [w], []⟩ : Decoded).order = [(0, i)] := by
  by_cases h : majorOf w = 0x70
  · simp [Decoded.order, Decoded.positions, instrOf_ok w i hd, h, ckpt_notY w h]
  · by_cases hy : classOf w = .Y <;> simp [Decoded.order, Decoded.positions, instrOf_ok w i hd, h, hy]

/-- A well-formed bundle of one word, admitted and held by nothing, is run from its record. -/
theorem startBundle_one (s : State) (hs : stopBit w = true) (hx : s.matrix s.turn = true ∨ (classOf w ≠ .X ∧ classOf w ≠ .E))
    (hm : classMask (⟨va, [w], []⟩ : Decoded).positions ||| portMask (⟨va, [w], []⟩ : Decoded).syllables |||
      conflictMask (⟨va, [w], []⟩ : Decoded).syllables = 0)
    (hl : (s.strand s.turn).lengthOut = false) (hp : (s.strand s.turn).pend = []) (hf : (s.strand s.turn).fences = [])
    (hc : (s.strand s.turn).confirmed = none) (hb : (s.chargeIssue s.turn).1 = true) :
    s.startBundle ⟨va, [w], []⟩ = .run s (s.beginIssue ⟨va, [w], []⟩ [(0, i)]) [(0, i)] := by
  have henc : s.encodingOk s.turn w = true := by
    rcases hx with hx | ⟨h1, h2⟩ <;> simp [State.encodingOk, hd, *]
  have hstall : (s.strand s.turn).stallsOn ⟨va, [w], []⟩ = false := by
    simp [Strand.stallsOn, Strand.pendsOn, hp]
  have hrun : (s.strand s.turn).toRun ⟨va, [w], []⟩ = [(0, i)] := by
    simp [Strand.toRun, Strand.confirmedNow, hc, order_one w i va hd]
  have hfence : s.fencesAllow s.turn true true = true := by simp [State.fencesAllow, hf]
  have hkats : ((⟨va, [w], []⟩ : Decoded).positions.filter fun x =>
      decide (x.1 + 1 < (⟨va, [w], []⟩ : Decoded).positions.length) && majorOf x.2 == 0x66) = [] := by
    simp [Decoded.positions]
  have hall : ((⟨va, [w], []⟩ : Decoded).positions.any fun x => !s.encodingOk s.turn x.2) = false := by
    simp [Decoded.positions, henc]
  unfold State.startBundle
  dsimp only
  rw [hkats, hall, hm, hl, hstall, hp, hfence, hb, hrun, syllables_one w i va hd]
  simp [hs]

end

theorem step_single (s s0 : State) (w : W32) (i : Instr) (va : W64) :
    let t := s.turn
    let b : Decoded := ⟨va, [w], []⟩
    s.agenda = [] → s.power = true → s.latent = [] → s.pass = false → s.runs t.ctxId = true → s.presents t = true →
    (s.strand t).idle = 0 → (s.strand t).ainit = none → (s.strand t).unconfirmed = [] → (s.ctx t.ctxId).brokenSeal = [] →
    s.nextBundle t = .got b s0 → stopBit w = true → decodeWord w = .ok i → s0.turn = t → s0.trails t.ctxId = false →
    (s.matrix t = true ∨ (classOf w ≠ .X ∧ classOf w ≠ .E)) → s0.matrix t = s.matrix t →
    classMask b.positions ||| portMask b.syllables ||| conflictMask b.syllables = 0 →
    (s0.strand t).lengthOut = false → (s0.strand t).pend = [] → (s0.strand t).fences = [] → (s0.strand t).confirmed = none →
    (s0.chargeIssue t).1 = true →
      step s = match exec i ((s0.beginIssue b [(0, i)]).atPosition 0) with
        | .next a => .next ((s0.closeBundle a).tickOver 0) | .fault f => .fault f | .refused f => .refused f := by
  intro t b hag hpow hlat hpass hruns hpres hidle hainit hunc hseal hnext hstop hdec hturn htrail hmat hmat0 hmask hlen hpend hfen hconf hbud
  have htr : s.trails t.ctxId = false := by
    simp only [State.runs, Bool.and_eq_true, Bool.not_eq_true'] at hruns
    simp_all
  have hstart := startBundle_one w i va hdec s0 hstop (by rw [hturn, hmat0]; exact hmat) hmask (by rw [hturn]; exact hlen)
    (by rw [hturn]; exact hpend) (by rw [hturn]; exact hfen) (by rw [hturn]; exact hconf) (by rw [hturn]; exact hbud)
  have hopen : s.openTurn = .run s0 (s0.beginIssue b [(0, i)]) [(0, i)] := by
    rw [openTurn_plain s hpass htr, State.openBundle]
    simp only [hruns, hpres, hidle, hseal, State.ainitWaits, hainit, Strand.confirming, hunc, hnext, t]
    exact hstart
  rw [step_bundle s s0 _ _ hag hpow hlat hopen, runSyllables_one]
  cases exec i ((s0.beginIssue b [(0, i)]).atPosition 0) with
  | next a => exact congrArg (fun u : State => Host.Outcome.next (u.tickOver 0)) (closeTurn_plain s0 a (by rw [hturn]; exact htrail))
  | fault f => rfl
  | refused f => rfl

/-- Settles O56: the event or the bundle at hand, then the one word fetched, decoded and run. -/
theorem stepRunsInstruction : Obligations.StepRunsInstruction := by
  unfold Obligations.StepRunsInstruction
  exact ⟨step_event, step_bundle, runSyllables_next, closeTurn_plain, fetchWord_ok, nextBundle_private, step_single⟩

end Sys2Proof.Proofs

namespace Sys2Proof.Proofs
open Sys2Proof Sys2Proof.Machine Sys2Proof.Laws

/-! ## A tag store reaches the copy of its line that a message carries -/

/-- A strand of a matrix-using context with the address of a sync word in g10 and 1 in g11, the word's page in its cluster's TLB with V, R,
W and MS, and a message between two dies that carries the word's line: the line is mapped elsewhere without MS. -/
def syncLineInFlight : State :=
  let s := State.reset.placed 32 0x80000000
  let t : StrandId := ⟨0, 0, 0, 0⟩
  let s1 := s.setCluster t.clusterId { s.cluster t.clusterId with tlb := [⟨0, 0, 0, 0x10001, 0x30017⟩] }
  let s2 := s1.setStrand t (((s1.strand t).wg 10 0x100010000 false).wg 11 1 false)
  { s2 with msgs := [⟨.data, 1, 0, lineOf 0x30000, 1, some (List.replicate 128 0, 0), false, .nothing⟩] }

/-- The store puts its bytes in every copy of the line (14 R240), that of the message included. -/
theorem stt_changes_message : ∃ t, exec (.stt 10 11) syncLineInFlight = .next t ∧ t.msgs ≠ syncLineInFlight.msgs :=
  ⟨_, rfl, by decide +kernel⟩

/-- Refutes O57: `stt` is of class Y, and where a message carries the line of its sync word, its bytes go into the message too, so that
`t.msgs = s.msgs` fails. -/
theorem not_syllableFrame : ¬ Obligations.SyllableFrame := by
  unfold Obligations.SyllableFrame
  intro frame
  obtain ⟨t, hexec, hmsgs⟩ := stt_changes_message
  obtain ⟨-, -, -, -, classY⟩ := frame (.stt 10 11) 0xD000A2C2#32 syncLineInFlight t (by decide) hexec
  obtain ⟨-, same, -⟩ := classY (by decide)
  exact hmsgs same

end Sys2Proof.Proofs

namespace Sys2Proof.Proofs
open Sys2Proof Sys2Proof.Machine Sys2Proof.Laws

/-! # Operations that leave the memory alone -/

@[simp] theorem foldl_mem {β : Type} (f : State → β → State) (xs : List β) (s : State) (hf : ∀ s x, (f s x).mem = s.mem) :
    (xs.foldl f s).mem = s.mem :=
  foldl_keeps (fun t : State => t.mem = s.mem) f (fun u x hu => (hf u x).trans hu) xs s rfl

/-- An event that goes on leaves the memory as it was. -/
def MemKept (s : State) (o : Out) : Prop := ∀ t, o = .next t → t.mem = s.mem

@[simp] theorem memKept_next (s t : State) : MemKept s (.next t) ↔ t.mem = s.mem := by
  simp [MemKept]

/-! ## The operations on the state -/

@[simp] theorem setCur_mem (s : State) (x : Strand) : (s.setCur x).mem = s.mem := by rfl

@[simp] theorem setBind_mem (s : State) (c : CtxId) (b : Bind) : (s.setBind c b).mem = s.mem := by rfl

@[simp] theorem fresh_mem (s : State) : (s.fresh).2.mem = s.mem := by rfl

@[simp] theorem reserveBanks_mem (s : State) (core : CoreId) (banks : BitVec 32) (array : Bool) :
    (s.reserveBanks core banks array).mem = s.mem := by rfl

@[simp] theorem resultP_mem (s : State) (tg : Tgt) (d : Dat) (lat : Nat) (p : Bool) : (s.resultP tg d lat p).mem = s.mem := by rfl

@[simp] theorem result_mem (s : State) (tg : Tgt) (d : Dat) (lat : Nat) : (s.result tg d lat).mem = s.mem := by rfl

@[simp] theorem resultG_mem (s : State) (d : Reg) (x : W64) (lat : Nat) : (s.resultG d x lat).mem = s.mem := by rfl

@[simp] theorem resultV_mem (s : State) (d : Reg) (x : VReg) (lat : Nat) : (s.resultV d x lat).mem = s.mem := by rfl

@[simp] theorem faultAt_mem (s : State) (cause : BitVec 8) (sub : BitVec 4) (faddr : W64) :
    (s.faultAt cause sub faddr).mem = s.mem := by rfl

@[simp] theorem illegal_mem (s : State) : (s.illegal).mem = s.mem := by rfl

@[simp] theorem illegalEncoding_mem (s : State) : (s.illegalEncoding).mem = s.mem := by rfl

@[simp] theorem rollbackFor_mem (s : State) (cause : Nat) : (s.rollbackFor cause).mem = s.mem := by rfl

@[simp] theorem holdFor_mem (s : State) (h : Hold) : (s.holdFor h).mem = s.mem := by rfl

@[simp] theorem poisonAt_mem (s : State) (faddr : W64) : (s.poisonAt faddr).mem = s.mem := by rfl

@[simp] theorem transfer_mem (s : State) (x : Transfer) : (s.transfer x).mem = s.mem := by rfl

@[simp] theorem checked_mem (s : State) (f : State → State) (hf : (f s).mem = s.mem) : (s.checked f).mem = s.mem := by
  unfold State.checked; split <;> simp [hf]

@[simp] theorem outsideRegion_mem (s : State) (f : State → State) (hf : (f s).mem = s.mem) : (s.outsideRegion f).mem = s.mem := by
  unfold State.outsideRegion; split <;> simp [hf]

@[simp] theorem matrixOnly_mem (s : State) (f : State → State) (hf : (f s).mem = s.mem) : (s.matrixOnly f).mem = s.mem := by
  unfold State.matrixOnly; split <;> simp [hf]

@[simp] theorem rollbackAt_mem (s : State) (t : StrandId) (cause : Nat) (bundle : W64) (counts : Bool) :
    (s.rollbackAt t cause bundle counts).mem = s.mem := by
  unfold State.rollbackAt; dsimp only
  repeat' split
  all_goals simp

@[simp] theorem patchRange_mem (s : State) (pa n : Nat) : (s.patchRange pa n).mem = s.mem := by rfl

/-! ## Operands, TLBs and tags -/

@[simp] theorem fillTlb_mem (s : State) (l : ClusterId) (asid : BitVec 11) (gen : BitVec 4) (va : Nat) :
    (s.fillTlb l asid gen va).mem = s.mem := by
  unfold State.fillTlb; dsimp only
  repeat' split
  all_goals simp

/-! ## Error logs -/

@[simp] theorem log_mem (s : State) (d : DieId) (n : Fin 5) (kind unit struct addr detail : Nat) :
    (s.log d n kind unit struct addr detail).mem = s.mem := by rfl

@[simp] theorem chargeLink_mem (s : State) (cls : Nat) (p : Fin 16) (bytes who : Nat) :
    (s.chargeLink cls p bytes who).2.mem = s.mem := by
  simp [State.chargeLink]

@[simp] theorem logStack_mem (s : State) (k kind unit struct addr detail : Nat) :
    (s.logStack k kind unit struct addr detail).mem = s.mem := by rfl

/-! ## Reads and performed writes -/

@[simp] theorem performIn_mem (s : State) (d : DieId) (pa : Nat) (bs : List (Nat × Byte)) (clears : Nat) (x : L2Line) :
    (s.performIn d pa bs clears x).mem = s.mem := by rfl

@[simp] theorem dropStale_mem (s : State) (l : ClusterId) (pa : Nat) : (s.dropStale l pa).mem = s.mem := by
  unfold State.dropStale
  repeat' split
  all_goals simp

@[simp] theorem send_mem (s : State) (m : Msg) : (s.send m).mem = s.mem := by
  unfold State.send; split <;> simp

@[simp] theorem request_mem (s : State) (d : DieId) (line : Nat) (k : ReqKind) : (s.request d line k).mem = s.mem := by
  unfold State.request; split <;> simp

@[simp] theorem wish_mem (s : State) (d : DieId) (line : Nat) (f : Outstanding → Outstanding) : (s.wish d line f).mem = s.mem := by
  unfold State.wish; split <;> simp

@[simp] theorem requestFor_mem (s : State) (t : StrandId) (bs : List LByte) : (s.requestFor t bs).mem = s.mem := by
  refine foldl_mem _ _ _ fun u b => ?_
  repeat' split
  all_goals simp

/-! ## Loads, stores and cache operations -/

@[simp] theorem needBanks_mem (s : State) (ps : List Place) : (s.needBanks ps).mem = s.mem := by
  unfold State.needBanks; dsimp only; split <;> simp

@[simp] theorem touch_mem (s : State) (vas : List W64) : (s.touch vas).mem = s.mem := by rfl

@[simp] theorem untorn_mem (s : State) (f : LoadForm) (ps : List (Nat × Place)) (n : Nat) : (s.untorn f ps n).mem = s.mem := by
  unfold State.untorn; split <;> simp

@[simp] theorem forwards_mem (s : State) (ps : List Place) (n : Nat) : (s.forwards ps n).mem = s.mem := by
  unfold State.forwards
  repeat' split
  all_goals simp

@[simp] theorem pending_mem (s : State) (tg : Tgt) (op : POp) (v : Option (Dat × Bool)) (acq : Bool) :
    (s.pending tg op v acq).mem = s.mem := by rfl

@[simp] theorem load_mem (s : State) (tg : Tgt) (f : LoadForm) (bs : List LByte) (exposed : Option Nat) :
    (s.load tg f bs exposed).mem = s.mem := by
  unfold State.load; split <;> simp

@[simp] theorem loadG_mem (s : State) (d a : Reg) (i : BitVec 9) (size : Nat) (signed : Bool) :
    (s.loadG d a i size signed).mem = s.mem := by
  unfold State.loadG; dsimp only; split <;> simp

@[simp] theorem loadV_mem (s : State) (d a : Reg) (i : BitVec 9) (q : PReg) : (s.loadV d a i q).mem = s.mem := by
  unfold State.loadV; dsimp only
  repeat' split
  all_goals simp

@[simp] theorem gather_mem (s : State) (d a b : Reg) (q : PReg) : (s.gather d a b q).mem = s.mem := by
  unfold State.gather; dsimp only; split <;> simp

@[simp] theorem addStores_mem (s : State) (xs : List StoreAt) : (s.addStores xs).mem = s.mem := by rfl

@[simp] theorem storeG_mem (s : State) (d a : Reg) (i : BitVec 9) (size : Nat) : (s.storeG d a i size).mem = s.mem := by
  unfold State.storeG; dsimp only; split <;> simp

@[simp] theorem storeV_mem (s : State) (d a : Reg) (i : BitVec 9) (q : PReg) : (s.storeV d a i q).mem = s.mem := by
  unfold State.storeV; dsimp only
  repeat' split
  all_goals simp

@[simp] theorem scatter_mem (s : State) (d a b : Reg) (q : PReg) : (s.scatter d a b q).mem = s.mem := by
  unfold State.scatter; dsimp only; split <;> simp

@[simp] theorem roomFor_mem (s : State) (l : ClusterId) (line : Nat) : (s.roomFor l line).mem = s.mem := by
  unfold State.roomFor; dsimp only
  repeat' split
  all_goals simp

@[simp] theorem fillFrom_mem (s : State) (l : ClusterId) (pa : Nat) (ro : Bool) (x : L2Line) : (s.fillFrom l pa ro x).mem = s.mem := by
  simp [State.fillFrom]

@[simp] theorem dropHint_mem (s : State) (n : Nat) : (s.dropHint n).mem = s.mem := by rfl

@[simp] theorem dropLines_mem (s : State) (l : ClusterId) (ls : List (Nat × Nat)) : (s.dropLines l ls).mem = s.mem := by
  unfold State.dropLines; simp [apply_ite State.mem]

@[simp] theorem cop_mem (s : State) (wb : Bool) (a b : Reg) : (s.cop wb a b).mem = s.mem := by
  unfold State.cop; dsimp only
  repeat' split
  all_goals simp

/-! ## The matrix unit -/

@[simp] theorem onRange_mem (s : State) (va : W64) (n align : Nat) (array : Bool) (f : Nat → State → State)
    (hf : ∀ off, (f off s).mem = s.mem) : (s.onRange va n align array f).mem = s.mem := by
  unfold State.onRange
  repeat' split
  all_goals simp [hf]

@[simp] theorem workArray_mem (s : State) (banks : BitVec 32) : (s.workArray banks).mem = s.mem := by rfl

@[simp] theorem loadLatch_mem (s : State) (a : Reg) (w : Fin 4) : (s.loadLatch a w).mem = s.mem := by
  simp [State.loadLatch]

@[simp] theorem gatherStage_mem (s : State) (c a : Reg) (q : PReg) (t : Fin 2) : (s.gatherStage c a q t).mem = s.mem := by
  unfold State.gatherStage; dsimp only
  repeat' split
  all_goals simp

@[simp] theorem poisonedRows_mem (s : State) (w : Fin 4) (z : Bool) (c t : Fin 2) (m : Nat) :
    (s.poisonedRows w z c t m).mem = s.mem := by
  unfold State.poisonedRows; dsimp only
  repeat' split
  all_goals simp

@[simp] theorem multiply_mem (s : State) (w : Fin 4) (z : Bool) (c t : Fin 2) (sparse : Bool) :
    (s.multiply w z c t sparse).mem = s.mem := by
  unfold State.multiply; dsimp only
  repeat' split
  all_goals simp

@[simp] theorem storeAcc_mem (s : State) (a : Reg) (code : Nat) (c : Fin 2) : (s.storeAcc a code c).mem = s.mem := by
  unfold State.storeAcc; simp [apply_ite State.mem]

@[simp] theorem knownAnswer_mem (s : State) (a : Reg) (n : Nat) : (s.knownAnswer a n).mem = s.mem := by
  refine onRange_mem _ _ _ _ _ _ fun off => ?_
  dsimp only
  repeat' split
  all_goals simp

/-! ## Allowances -/

@[simp] theorem ctrWrite_mem (s : State) (ctr w v : Nat) : (s.ctrWrite ctr w v).mem = s.mem := by rfl

@[simp] theorem setTundish_mem (s : State) (ctr : Nat) (x : Tundish) : (s.setTundish ctr x).mem = s.mem := by rfl

@[simp] theorem setLadle_mem (s : State) (k ctr : Nat) (e : LadleEntry) : (s.setLadle k ctr e).mem = s.mem := by rfl

@[simp] theorem dropLadle_mem (s : State) (k ctr : Nat) : (s.dropLadle k ctr).mem = s.mem := by rfl

@[simp] theorem asend_mem (s : State) (m : AMsg) : (s.asend m).mem = s.mem := by rfl

@[simp] theorem returnLadle_mem (s : State) (k ctr : Nat) : (s.returnLadle k ctr).mem = s.mem := by
  unfold State.returnLadle
  repeat' split
  all_goals simp

@[simp] theorem ladleRoom_mem (s : State) (k : Nat) : (s.ladleRoom k).mem = s.mem := by
  unfold State.ladleRoom
  repeat' split
  all_goals simp

@[simp] theorem pullAll_mem (s : State) (ctr : Nat) : (s.pullAll ctr).2.mem = s.mem := by rfl

theorem withTundish_mem (s : State) (ctr : Nat) {t : State} (ht : s.withTundish ctr = some t) : t.mem = s.mem := by
  unfold State.withTundish at ht
  dsimp only at ht
  repeat' split at ht
  all_goals cases ht
  all_goals simp

@[simp] theorem answerReq_mem (s : State) (q : AReq) (v : Nat) : (s.answerReq q v).mem = s.mem := by rfl

@[simp] theorem goExact_mem (s : State) (ctr : Nat) : (s.goExact ctr).mem = s.mem := by rfl

@[simp] theorem serveHome_mem (s : State) (ctr : Nat) : (s.serveHome ctr).mem = s.mem := by
  unfold State.serveHome; dsimp only
  repeat' split
  all_goals simp

@[simp] theorem startRecall_mem (s : State) (ctr : Nat) (entering : Bool) : (s.startRecall ctr entering).mem = s.mem := by
  unfold State.startRecall; dsimp only
  repeat' split
  all_goals simp

@[simp] theorem endRecall_mem (s : State) (ctr : Nat) : (s.endRecall ctr).mem = s.mem := by
  unfold State.endRecall; dsimp only
  repeat' split
  all_goals simp

@[simp] theorem grantHead_mem (s : State) (ctr : Nat) (q : AReq) (r : List AReq) (n g : Nat) :
    (s.grantHead ctr q r n g).mem = s.mem := by rfl

@[simp] theorem reclaim_mem (s : State) (k ctr : Nat) : (s.reclaim k ctr).mem = s.mem := by
  unfold State.reclaim; dsimp only; split <;> simp

@[simp] theorem lapse_mem (s : State) (k ctr : Nat) : (s.lapse k ctr).mem = s.mem := by
  unfold State.lapse
  repeat' split
  all_goals simp

@[simp] theorem takeAnswer_mem (s : State) (l : ClusterId) (ctr : Nat) : (s.takeAnswer l ctr).mem = s.mem := by
  unfold State.takeAnswer; dsimp only
  repeat' split
  all_goals simp

@[simp] theorem takeZero_mem (s : State) (l : ClusterId) (ctr : Nat) : (s.takeZero l ctr).mem = s.mem := by
  unfold State.takeZero; dsimp only
  repeat' split
  all_goals simp

theorem execGrant_mem (l : ClusterId) (ctr : Nat) (s : State) : MemKept s (execGrant l ctr s) := by
  unfold execGrant
  dsimp only
  repeat' split
  all_goals simp

theorem execAllowanceLeaseEnd_mem (l : ClusterId) (ctr : Nat) (s : State) : MemKept s (execAllowanceLeaseEnd l ctr s) := by
  unfold execAllowanceLeaseEnd
  repeat' split
  all_goals simp

theorem mem_afterOut {s : State} {o : Out} (h : MemKept s o) : (s.after_ o).mem = s.mem := by
  cases o with
  | next t => exact h t rfl
  | _ => rfl

@[simp] theorem comesBack_mem (s : State) (l : ClusterId) (ctr : Nat) : (s.comesBack l ctr).mem = s.mem := by
  unfold State.comesBack
  dsimp only
  rw [foldl_mem _ _ _ fun _ _ => by simp, mem_afterOut (execAllowanceLeaseEnd_mem l ctr _),
    foldl_mem _ _ _ fun u _ => mem_afterOut (execGrant_mem l ctr u)]

@[simp] theorem leasesPass_mem (s : State) (later : Nat) : (s.leasesPass later).mem = s.mem := by
  simp [State.leasesPass]

@[simp] theorem onCounter_mem (s : State) (a : Reg) (f : Nat → State → State) (hf : ∀ ctr, (f ctr s).mem = s.mem) :
    (s.onCounter a f).mem = s.mem := by
  unfold State.onCounter
  refine outsideRegion_mem _ _ ?_
  repeat' split
  all_goals simp [hf]

@[simp] theorem onTundish_mem (s : State) (a : Reg) (f : Nat → Tundish → State → State)
    (hf : ∀ ctr x u, (f ctr x u).mem = u.mem) : (s.onTundish a f).mem = s.mem := by
  unfold State.onTundish
  refine onCounter_mem _ _ _ fun ctr => ?_
  split
  · simp [hf]
  · rw [hf, withTundish_mem _ _ ‹_›]

@[simp] theorem ainitWords_mem (s : State) (ctr v : Nat) : (s.ainitWords ctr v).mem = s.mem := by
  simp [State.ainitWords]

@[simp] theorem undefineCounter_mem (s : State) (ctr : Nat) : (s.undefineCounter ctr).mem = s.mem := by
  unfold State.undefineCounter; split <;> simp

@[simp] theorem counterStore_mem (s : State) (w : PWrite) : (s.counterStore w).mem = s.mem := by
  unfold State.counterStore; dsimp only
  repeat' split
  all_goals simp

/-! ## Tags, fences, barriers and atomics -/

@[simp] theorem beforeTag_mem (s : State) (p : Place) (n : Nat) : (s.beforeTag p n).mem = s.mem := by rfl

@[simp] theorem metered_mem (s : State) (w : TagWord) (f : State → State) (hf : ∀ u, (f u).mem = u.mem) :
    (s.metered w f).mem = s.mem := by
  unfold State.metered; dsimp only
  repeat' split
  all_goals simp [hf]

@[simp] theorem onTag_mem (s : State) (a : Reg) (n : Need) (f : TagWord → Nat → Place → State → State)
    (hf : ∀ w k p u, (f w k p u).mem = u.mem) : (s.onTag a n f).mem = s.mem := by
  unfold State.onTag
  refine outsideRegion_mem _ _ ?_
  split <;> simp [hf]

@[simp] theorem addFence_mem (s : State) (b : Reg) (rel acq full : Bool) : (s.addFence b rel acq full).mem = s.mem := by
  unfold State.addFence; simp [apply_ite State.mem]

@[simp] theorem setBar_mem (s : State) (c : CtxId) (j : Nat) (b : Barrier) : (s.setBar c j b).mem = s.mem := by rfl

@[simp] theorem amo_mem (s : State) (op : AmoOp) (d a b : Reg) : (s.amo op d a b).mem = s.mem := by
  refine outsideRegion_mem _ _ ?_
  split <;> simp

@[simp] theorem lookUp_mem (s : State) (t : StrandId) (bs : List LByte) : (s.lookUp t bs).mem = s.mem := by
  refine foldl_mem _ _ _ fun u b => ?_
  repeat' split
  all_goals simp

@[simp] theorem admitLoad_mem (s : State) (t : StrandId) (seq : Nat) (bs bs' : List LByte) :
    (s.admitLoad t seq bs bs').2.mem = s.mem := by
  unfold State.admitLoad; dsimp only; split <;> simp

@[simp] theorem admitWrite_mem (s : State) (w : PWrite) : (s.admitWrite w).2.mem = s.mem := by
  unfold State.admitWrite
  repeat' split
  all_goals simp

@[simp] theorem admitAmo_mem (s : State) (t : StrandId) (seq : Nat) (p : Place) : (s.admitAmo t seq p).2.mem = s.mem := by
  unfold State.admitAmo; split <;> simp

@[simp] theorem lostCounter_mem (s : State) (o : POp) : (s.lostCounter o).2.2.mem = s.mem := by rfl

@[simp] theorem landing_mem (s : State) (p : Pend) (d : Dat) (q : Bool) : (s.landing p d q).2.mem = s.mem := by
  unfold State.landing
  repeat' split
  all_goals simp

@[simp] theorem landBefore_mem (s : State) (t : StrandId) (seq : Nat) (tg : Tgt) (d : Dat) (p : Bool) (issued : W64) :
    (s.landBefore t seq tg d p issued).mem = s.mem := by
  unfold State.landBefore; dsimp only; split <;> simp

@[simp] theorem discardWrite_mem (s : State) (w : PWrite) : (s.discardWrite w).mem = s.mem := by rfl

@[simp] theorem dropWrite_mem (s : State) (n : Nat) : (s.dropWrite n).mem = s.mem := by rfl

/-! ## The engines -/

@[simp] theorem onCore_mem (s : State) (f : Core → Core) : (s.onCore f).mem = s.mem := by rfl

@[simp] theorem onGeo_mem (s : State) (f : Geometry → Geometry) : (s.onGeo f).mem = s.mem := by rfl

@[simp] theorem enqueueCopy_mem (s : State) (q : Nat) (w : Option CWord) : (s.enqueueCopy q w).mem = s.mem := by
  unfold State.enqueueCopy; dsimp only
  repeat' split
  all_goals simp

@[simp] theorem stopCopy_mem (s : State) (o : CoreId) (op : CopyOp) (status : Nat) (va : W64) :
    (s.stopCopy o op status va).2.1.mem = s.mem := by rfl

@[simp] theorem admitByte_mem (s : State) (t : StrandId) (seq : Nat) (p : Place) : (s.admitByte t seq p).2.mem = s.mem := by
  unfold State.admitByte; split <;> simp

@[simp] theorem setCopyq_mem (s : State) (o : CoreId) (n : Fin 8) (xs : List CopyOp) : (s.setCopyq o n xs).mem = s.mem := by rfl

@[simp] theorem clearCovered_mem (s : State) (xs : List (Loc × Byte)) : (s.clearCovered xs).mem = s.mem := by
  refine foldl_mem _ _ _ fun u x => ?_
  dsimp only
  split
  · split <;> simp
  · split
    all_goals split
    · rw [foldl_mem, clearHbm_mem]
      intro v d
      split <;> simp
    · simp
    · rw [foldl_mem]
      intro v d
      split <;> simp
    · rfl

@[simp] theorem rowOp_mem (s : State) (copy : Bool) (dst src : W64) : (s.rowOp copy dst src).mem = s.mem := by
  unfold State.rowOp; dsimp only
  repeat' split
  all_goals simp

@[simp] theorem stopRow_mem (s : State) (o : CoreId) (op : MsOp) (status : Nat) (va : W64) :
    (s.stopRow o op status va).2.1.mem = s.mem := by rfl

@[simp] theorem admitPiece_mem (s : State) (op : MsOp) (pa bytes : Nat) : (s.admitPiece op pa bytes).2.mem = s.mem := by
  simp [State.admitPiece]

@[simp] theorem setMsq_mem (s : State) (o : CoreId) (xs : List MsOp) : (s.setMsq o xs).mem = s.mem := by rfl

@[simp] theorem setPort_mem (s : State) (p : Nat) (x : Port) : (s.setPort p x).mem = s.mem := by rfl

@[simp] theorem linkOp_mem (s : State) (f : LinkForm) (a b : Reg) (p : Nat) : (s.linkOp f a b p).mem = s.mem := by
  unfold State.linkOp; dsimp only
  repeat' split
  all_goals simp

@[simp] theorem link_mem (s : State) (f : LinkForm) (a b : Reg) (p : BitVec 5) : (s.link f a b p).mem = s.mem := by
  unfold State.link; split <;> simp

@[simp] theorem flitMarks_mem (s : State) (k off : Nat) (f : Nat → Bool) : (s.flitMarks k off f).mem = s.mem := by rfl

/-! ## Instruction buffer -/

@[simp] theorem setText_mem (s : State) (l : ClusterId) (line : Nat) : (s.setText l line).mem = s.mem := by rfl

@[simp] theorem addText_mem (s : State) (l : ClusterId) (line : Nat) : (s.addText l line).mem = s.mem := by
  unfold State.addText; split <;> simp

/-! ## Control transfers -/

@[simp] theorem branchIf_mem (s : State) (c : Bool) (i : BitVec 18) : (s.branchIf c i).mem = s.mem := by rfl

/-! ## The front end -/

@[simp] theorem fillText_mem (s : State) (t : StrandId) (b : Decoded) : (s.fillText t b).mem = s.mem := by
  refine foldl_mem _ _ _ fun u i => ?_
  dsimp only
  repeat' split
  all_goals simp

theorem fetchFor_mem (s : State) (t : StrandId) (va : W64) {d : Decoded} {u : State} (hx : s.fetchFor t va = .ok (d, u)) :
    u.mem = s.mem := by
  unfold State.fetchFor at hx
  split at hx
  all_goals cases hx
  simp

@[simp] theorem refetched_mem (s : State) (c : CtxId) (n : Nat) (d : Decoded) : (s.refetched c n d).mem = s.mem := by
  refine foldl_mem _ _ _ fun u t => ?_
  dsimp only
  repeat' split
  all_goals simp

theorem fetchNew_mem (s : State) (c : CtxId) {t : State} (ht : s.fetchNew c = .ok t) : t.mem = s.mem := by
  unfold State.fetchNew at ht
  repeat' split at ht
  all_goals cases ht
  · rfl
  · rfl
  · rw [setCtx_mem, foldl_mem, fetchFor_mem _ _ _ ‹_›]
    exact fun _ _ => setStrand_mem _ _ _

theorem fetchTeam_mem (s : State) (c : CtxId) {t : State} (ht : s.fetchTeam c = .ok t) : t.mem = s.mem := by
  unfold State.fetchTeam at ht
  split at ht
  · split at ht
    all_goals cases ht
    simp [fetchFor_mem _ _ _ ‹_›]
  · exact fetchNew_mem s c ht

theorem fetchPrivate_mem (s : State) (t : StrandId) {u : State} (hu : s.fetchPrivate t = .ok u) : u.mem = s.mem := by
  unfold State.fetchPrivate at hu
  dsimp only at hu
  split at hu
  · cases hu
    rfl
  · split at hu
    · cases hu
      rfl
    · split at hu
      all_goals cases hu
      rw [setStrand_mem, fetchFor_mem _ _ _ ‹_›]

@[simp] theorem leaveQueue_mem (s : State) (t : StrandId) : (s.leaveQueue t).mem = s.mem := by
  unfold State.leaveQueue; dsimp only
  repeat' split
  all_goals simp

@[simp] theorem completeJoin_mem (s : State) (c : CtxId) (a : W64) : (s.completeJoin c a).mem = s.mem := by
  unfold State.completeJoin
  dsimp only
  rw [setCtx_mem, foldl_mem, foldl_mem] <;> intros <;> rfl

@[simp] theorem checkJoin_mem (s : State) (c : CtxId) (a : W64) : (s.checkJoin c a).mem = s.mem := by
  unfold State.checkJoin; dsimp only
  repeat' split
  all_goals simp

@[simp] theorem checkJoins_mem (s : State) (c : CtxId) : (s.checkJoins c).mem = s.mem := by
  simp [State.checkJoins]

@[simp] theorem arriveJoin_mem (s : State) (t : StrandId) (a : W64) (all : Bool) : (s.arriveJoin t a all).mem = s.mem := by
  simp [State.arriveJoin]

@[simp] theorem endIfDone_mem (s : State) (t : StrandId) : (s.endIfDone t).mem = s.mem := by
  unfold State.endIfDone; dsimp only
  repeat' split
  all_goals simp

@[simp] theorem deliver_mem (s : State) (t : StrandId) (tg : Tgt) (d : Dat) (q : Bool) (issued : W64) :
    (s.deliver t tg d q issued).mem = s.mem := by
  unfold State.deliver; dsimp only
  repeat' split
  all_goals simp

@[simp] theorem arrive_mem (s : State) (t : StrandId) (p : Pend) (d : Dat) (q : Bool) : (s.arrive t p d q).mem = s.mem := by
  unfold State.arrive; dsimp only
  repeat' split
  all_goals simp

@[simp] theorem switchOut_mem (s : State) (c : CtxId) (x : Context) : (s.switchOut c x).mem = s.mem := by rfl

@[simp] theorem select_mem (s : State) (l : ClusterId) (n : Fin 8) : (s.select l n).mem = s.mem := by rfl

@[simp] theorem resetMeters_mem (s : State) (e : DieId) : (s.resetMeters e).mem = s.mem := by rfl

/-! ## Gangs -/

@[simp] theorem flushText_mem (s : State) (c : CtxId) : (s.flushText c).mem = s.mem := by
  unfold State.flushText; split <;> simp

@[simp] theorem setGang_mem (s : State) (k : Nat) (g : Gang) : (s.setGang k g).mem = s.mem := by rfl

/-! ## Stops, eviction and restoration -/

@[simp] theorem freezeGang_mem (s : State) (g : Gang) : (s.freezeGang g).mem = s.mem := by
  unfold State.freezeGang; simp [apply_ite State.mem]

@[simp] theorem joinCopies_mem (s : State) (c : CtxId) : (s.joinCopies c).mem = s.mem := by
  unfold State.joinCopies; simp [apply_ite State.mem]

@[simp] theorem release_mem (s : State) (c : CtxId) : (s.release c).mem = s.mem := by
  unfold State.release; dsimp only; split <;> simp

@[simp] theorem restoreCopy_mem (s : State) (c : CtxId) (m : Memory) (ks : List Nat) : (s.restoreCopy c m ks).mem = s.mem := by
  unfold State.restoreCopy; simp [apply_ite State.mem]

@[simp] theorem restoreCtx_mem (s : State) (c : CtxId) (im : Image) (b : Bind) : (s.restoreCtx c im b).mem = s.mem := by
  unfold State.restoreCtx
  dsimp only
  split
  all_goals simp only [flushText_mem, restoreCopy_mem, setBind_mem]
  all_goals rw [foldl_mem] <;> intros <;> rfl

@[simp] theorem katLog_mem (s : State) (t : StrandId) : (s.katLog t).mem = s.mem := by rfl

@[simp] theorem quarantine_mem (s : State) (t : StrandId) : (s.quarantine t).mem = s.mem := by rfl

/-! ## Graphs -/

@[simp] theorem engineFault_mem (s : State) (e : DieId) (va : W64) (r : Option Resume) : (s.engineFault e va r).mem = s.mem := by
  unfold State.engineFault; dsimp only; split <;> simp

@[simp] theorem after_error_mem (s : State) (x : Option Resume) (y : Stop) : (s.after x (.error y)).mem = s.mem := by
  cases y <;> simp [State.after]

theorem decrement_mem (s : State) (e : DieId) (g : Graph) (x : Node) {r : Bool × State} (hr : s.decrement e g x = .ok r) :
    r.2.mem = s.mem := by
  unfold State.decrement at hr
  dsimp only at hr
  repeat' split at hr
  all_goals cases hr
  all_goals simp [withTundish_mem _ _ ‹_›]

theorem refill_mem (s : State) (e : DieId) {t : State} (ht : s.refill e = .ok t) : t.mem = s.mem := by
  unfold State.refill at ht
  dsimp only at ht
  repeat' split at ht
  all_goals cases ht
  all_goals simp

@[simp] theorem dropReady_mem (s : State) (e : DieId) : (s.dropReady e).mem = s.mem := by rfl

@[simp] theorem refillOnce_mem (s : State) (e : DieId) : (s.refillOnce e).mem = s.mem := by
  cases hf : (s.die e).engine.fault with
  | true => rw [refillOnce_stopped s e hf]
  | false =>
    cases hr : s.refill e with
    | ok t => rw [refillOnce_ok s t e hf hr, refill_mem s e hr]
    | error x =>
      rw [State.refillOnce, hf, hr]
      cases x <;> simp [State.after]

@[simp] theorem popReady_mem (s : State) (e : DieId) : (s.popReady e).mem = s.mem := by
  simp [State.popReady]

@[simp] theorem backPressure_mem (s : State) (e : DieId) : (s.backPressure e).mem = s.mem := by
  unfold State.backPressure; dsimp only; split <;> simp

@[simp] theorem retireGang_mem (s : State) (k : Nat) : (s.retireGang k).mem = s.mem := by
  unfold State.retireGang
  dsimp only
  rw [foldl_mem]
  · split <;> simp
  · intros; rfl

@[simp] theorem clearRecords_mem (s : State) (e : DieId) (gang : BitVec 16) : (s.clearRecords e gang).mem = s.mem := by
  simp [State.clearRecords]

/-! ## Coherence, leases and time -/

@[simp] theorem dropLine_mem (s : State) (e : DieId) (line : Nat) : (s.dropLine e line).mem = s.mem := by rfl

@[simp] theorem owe_mem (s : State) (e : DieId) (line : Nat) (x : L2Line) (wb : Option (List Byte × BitVec 4)) :
    (s.owe e line x wb).mem = s.mem := by rfl

@[simp] theorem ackHome_mem (s : State) (e : DieId) (line : Nat) (req : DieId) (k : Kept) : (s.ackHome e line req k).mem = s.mem := by
  simp [State.ackHome]

@[simp] theorem sendData_mem (s : State) (e : DieId) (line : Nat) (req : DieId) (x : List Byte × BitVec 4) (k : Kept) :
    (s.sendData e line req x k).mem = s.mem := by
  simp [State.sendData]

@[simp] theorem setTxn_mem (s : State) (h : DieId) (line : Nat) (x : Txn) : (s.setTxn h line x).mem = s.mem := by rfl

@[simp] theorem setDir_mem (s : State) (h : DieId) (line : Nat) (x : DirEntry) : (s.setDir h line x).mem = s.mem := by rfl

@[simp] theorem toDie_mem (s : State) (k : MsgKind) (h e : DieId) (line : Nat) (req : DieId) :
    (s.toDie k h e line req).mem = s.mem := by
  simp [State.toDie]

@[simp] theorem putDir_mem (s : State) (h : DieId) (line : Nat) (e : Option DirEntry) : (s.putDir h line e).mem = s.mem := by rfl

@[simp] theorem endTxn_mem (s : State) (h : DieId) (line : Nat) (x : Txn) : (s.endTxn h line x).mem = s.mem := by
  unfold State.endTxn
  repeat' split
  all_goals simp

@[simp] theorem dropAll_mem (s : State) (l : ClusterId) : (s.dropAll l).mem = s.mem := by
  simp [State.dropAll]

@[simp] theorem returnAll_mem (s : State) (l : ClusterId) : (s.returnAll l).mem = s.mem := by
  unfold State.returnAll; split <;> simp

@[simp] theorem goBlind_mem (s : State) (l : ClusterId) : (s.goBlind l).mem = s.mem := by
  simp [State.goBlind]

@[simp] theorem beaconAt_mem (s : State) (errs : List (ClusterId × Int)) (l : ClusterId) : (s.beaconAt errs l).mem = s.mem := by
  unfold State.beaconAt; dsimp only
  repeat' split
  all_goals simp

@[simp] theorem dieBeacon_mem (s : State) (errs : List (DieId × Int)) (d : DieId) : (s.dieBeacon errs d).mem = s.mem := by
  unfold State.dieBeacon; simp [apply_ite State.mem]

@[simp] theorem beacon_mem (s : State) (errs : List (ClusterId × Int)) (dieErrs : List (DieId × Int)) (missed : List DieId) :
    (s.beacon errs dieErrs missed).mem = s.mem := by
  unfold State.beacon; simp [apply_ite State.mem]

@[simp] theorem follow_mem (s : State) (from_ later : Nat) : (s.follow from_ later).mem = s.mem := by rfl

@[simp] theorem setCohctl_mem (s : State) (d : DieId) (x : W64) : (s.setCohctl d x).mem = s.mem := by rfl

@[simp] theorem declareFailed_mem (s : State) (e : DieId) : (s.declareFailed e).mem = s.mem := by rfl

/-! ## Reliability -/

@[simp] theorem trapOpen_mem (s : State) (t : StrandId) (cause : BitVec 8) (sub : BitVec 4) (faddr : W64) :
    (s.trapOpen t cause sub faddr).mem = s.mem := by
  simp [State.trapOpen]

@[simp] theorem detect_mem (s : State) (t : StrandId) (struct addr : Nat) : (s.detect t struct addr).mem = s.mem := by
  unfold State.detect; dsimp only; split <;> simp

@[simp] theorem coreLog_mem (s : State) (o : CoreId) (kind struct addr : Nat) : (s.coreLog o kind struct addr).mem = s.mem := by rfl

@[simp] theorem unwound_mem (s : State) (t : StrandId) (u : Unconfirmed) (m : Option Mismatch) : (s.unwound t u m).mem = s.mem := by
  unfold State.unwound; dsimp only; split <;> simp

@[simp] theorem trapBack_mem (s : State) (t : StrandId) (u : Unconfirmed) (cause mask : BitVec 8) (faddr : W64) (n : Nat) :
    (s.trapBack t u cause mask faddr n).mem = s.mem := by
  unfold State.trapBack; dsimp only
  repeat' split
  all_goals simp

@[simp] theorem copyTrap_mem (s : State) (t : StrandId) (u : Unconfirmed) (cause mask : BitVec 8) (faddr : W64) :
    (s.copyTrap t u cause mask faddr).mem = s.mem := by
  unfold State.copyTrap; dsimp only; split <;> simp

@[simp] theorem detectCopy_mem (s : State) (t : StrandId) (u : Unconfirmed) (struct : Nat) : (s.detectCopy t u struct).mem = s.mem := by
  unfold State.detectCopy; dsimp only; split <;> simp

@[simp] theorem detectAt_mem (s : State) (t : StrandId) (struct : Nat) : (s.detectAt t struct).mem = s.mem := by
  unfold State.detectAt
  repeat' split
  all_goals simp

@[simp] theorem regError_mem (s : State) (t : StrandId) (correctable : Bool) (n : Nat) (f : Strand → Strand) :
    (s.regError t correctable n f).mem = s.mem := by
  unfold State.regError; split <;> simp

@[simp] theorem rowError_mem (s : State) (o : CoreId) (correctable : Bool) (struct addr : Nat) (f : Core → Core) :
    (s.rowError o correctable struct addr f).mem = s.mem := by
  unfold State.rowError; split <;> simp

@[simp] theorem setScrub_mem (s : State) (level unit rate : Nat) : (s.setScrub level unit rate).mem = s.mem := by
  unfold State.setScrub; split <;> simp

@[simp] theorem mismatch_mem (s : State) (t : StrandId) (u : Unconfirmed) : (s.mismatch t u).mem = s.mem := by
  unfold State.mismatch; dsimp only
  repeat' split
  all_goals simp

/-! ## The host's side -/

@[simp] theorem windowSet_mem (s : State) (off : Nat) (x : W64) : (s.windowSet off x).mem = s.mem := by rfl

@[simp] theorem flushTlbs_mem (s : State) (f : TlbEntry → Bool) : (s.flushTlbs f).mem = s.mem := by rfl

@[simp] theorem onEngineRegs_mem (s : State) (e : DieId) (f : Engine → Engine) : (s.onEngineRegs e f).mem = s.mem := by rfl

/-! ## Supplies and bring-up -/

@[simp] theorem haltAll_mem (s : State) : (s.haltAll).mem = s.mem := by
  unfold State.haltAll; simp [apply_ite State.mem]

/-! ## The issue of a bundle -/

@[simp] theorem holdAtIssue_mem (s : State) (t : StrandId) (h : Hold) : (s.holdAtIssue t h).mem = s.mem := by
  unfold State.holdAtIssue; dsimp only; split <;> simp

@[simp] theorem trapAtIssue_mem (s : State) (t : StrandId) (cause mask : BitVec 8) : (s.trapAtIssue t cause mask).mem = s.mem := by
  unfold State.trapAtIssue; split <;> simp

@[simp] theorem withRegionOf_mem (before after_ : State) (t : StrandId) : (before.withRegionOf after_ t).mem = before.mem := by
  unfold State.withRegionOf; dsimp only; split <;> simp

@[simp] theorem bundleTrap_mem (s : State) (t : StrandId) (b : Issue) (cause mask : BitVec 8) (sub : BitVec 4) (faddr : W64) :
    (s.bundleTrap t b cause mask sub faddr).mem = s.mem := by
  unfold State.bundleTrap; dsimp only; split <;> simp

@[simp] theorem dropFences_mem (s : State) (t : StrandId) : (s.dropFences t).mem = s.mem := by
  unfold State.dropFences; dsimp only; split <;> simp

@[simp] theorem endStrand_mem (s : State) (t : StrandId) : (s.endStrand t).mem = s.mem := by
  simp [State.endStrand]

@[simp] theorem afterCommit_mem (s : State) (t : StrandId) (b : Issue) : (s.afterCommit t b).mem = s.mem := by
  unfold State.afterCommit; split <;> simp

@[simp] theorem withConfirmed_mem (before after_ : State) (t : StrandId) (u : Unconfirmed) :
    (before.withConfirmed after_ t u).mem = after_.mem := by
  simp [State.withConfirmed]

@[simp] theorem withDeferrals_mem (s after_ : State) : (s.withDeferrals after_).mem = s.mem := by
  unfold State.withDeferrals; simp [apply_ite State.mem]

/-! ## The trailing copy -/

@[simp] theorem commitCopy_mem (before after_ : State) (t : StrandId) (u : Unconfirmed) (results : List Exposed) :
    (before.commitCopy after_ t u results).mem = after_.mem := by
  simp [State.commitCopy]

theorem closeCopy_mem (before after_ : State) : (before.closeCopy after_).mem = before.mem ∨
    (before.closeCopy after_).mem = after_.mem := by
  unfold State.closeCopy
  dsimp only
  repeat' split
  all_goals simp

/-! ## Vectors -/

@[simp] theorem draw_mem (s : State) (n : Nat) : (s.draw n).mem = s.mem := by
  unfold State.draw; split <;> simp

@[simp] theorem fp_mem (s : State) (d : Reg) (q : PReg) (lat : Nat) (f : Rnd → Nat → W32) : (s.fp d q lat f).mem = s.mem := by
  simp [State.fp]

@[simp] theorem fp2_mem (s : State) (d a b : Reg) (q : PReg) (f : Nat → Fp → Fp → Fp) : (s.fp2 d a b q f).mem = s.mem := by
  simp [State.fp2]

@[simp] theorem fun1_mem (s : State) (d a : Reg) (q : PReg) (f : Rnd → Fp → W32) : (s.fun1 d a q f).mem = s.mem := by
  simp [State.fun1]

@[simp] theorem narrow_mem (s : State) (d a : Reg) (q : PReg) (w : Nat) (f : Rnd → Fp → Nat) : (s.narrow d a q w f).mem = s.mem := by
  simp [State.narrow]

/-! ## Events and time -/

@[simp] theorem beacons_mem (s : State) (n : Nat) : (s.beacons n).mem = s.mem := by
  induction n generalizing s with
  | zero => rfl
  | succ k ih => rw [State.beacons, ih, beacon_mem]

@[simp] theorem newPeriods_mem (s : State) : (s.newPeriods).mem = s.mem := by
  unfold State.newPeriods; simp [apply_ite State.mem]

@[simp] theorem tickOver_mem (s0 : State) (extra : Nat) : (s0.tickOver extra).mem = s0.mem := by
  unfold State.tickOver; dsimp only; split <;> simp

end Sys2Proof.Proofs

namespace Sys2Proof.Proofs
open Sys2Proof Sys2Proof.Machine Sys2Proof.Laws

/-! # Operations that write memory keep its form -/

theorem wf_foldl {β : Type} (f : State → β → State) (xs : List β) (s : State)
    (hf : ∀ s x, Memory.wf s.mem = true → Memory.wf (f s x).mem = true) (h : Memory.wf s.mem = true) :
    Memory.wf (xs.foldl f s).mem = true :=
  foldl_keeps (fun t : State => Memory.wf t.mem = true) f hf xs s h

/-- An event that goes on leaves the memory in its canonical form. -/
def WfNext (o : Out) : Prop := ∀ t, o = .next t → Memory.wf t.mem = true

@[simp] theorem wfNext_next (t : State) : WfNext (.next t) ↔ Memory.wf t.mem = true := by
  simp [WfNext]

theorem MemKept.wf {s : State} {o : Out} (hm : MemKept s o) (h : Memory.wf s.mem = true) : WfNext o := fun t ht => by
  rw [hm t ht]
  exact h

/-! ## The operations on the state -/

@[simp] theorem wf_clearTraps (s : State) (c : CtxId) (h : Memory.wf s.mem = true) : Memory.wf (s.clearTraps c).mem = true := by
  refine wf_foldl _ _ _ (fun u x hu => ?_) h
  simp [hu, wf_memApply]

/-! ## Reads and performed writes -/

@[simp] theorem wf_evict (s : State) (d : DieId) (v : Nat) (x : L2Line) (h : Memory.wf s.mem = true) :
    Memory.wf (s.evict d v x).mem = true := by
  unfold State.evict
  repeat' split
  all_goals simp [h, wf_lineToHbm]

theorem wf_makeRoom (s : State) (d : DieId) (line : Nat) {u : State} (h : Memory.wf s.mem = true) (hu : s.makeRoom d line = some u) :
    Memory.wf u.mem = true := by
  unfold State.makeRoom at hu
  dsimp only at hu
  split at hu
  · cases hu
    exact h
  · obtain ⟨x, _, rfl⟩ := Option.map_eq_some_iff.1 hu
    exact wf_evict s d x.1 x.2 h

/-! ## Loads, stores and cache operations -/

@[simp] theorem wf_fillLine (s : State) (l : ClusterId) (pa : Nat) (ro : Bool) (h : Memory.wf s.mem = true) :
    Memory.wf (s.fillLine l pa ro).mem = true := by
  have h0 : Memory.wf (s.dropStale l pa).mem = true := by simp [h]
  unfold State.fillLine
  dsimp only
  split
  · exact h
  · split
    · simp [h]
    · split
      · exact h0
      · split
        · exact h0
        · have h1 := wf_makeRoom _ _ _ h0 ‹_›
          split
          · simp [h1]
          · exact h1

@[simp] theorem wf_fillWhole (s : State) (l : ClusterId) (line : Nat) (ro : Bool) (h : Memory.wf s.mem = true) :
    Memory.wf (s.fillWhole l line ro).mem = true := by
  refine wf_foldl _ _ _ (fun u x hu => ?_) h
  simp [hu]

theorem wf_bring (s : State) (d : DieId) (line : Nat) (here : State → L2Line → State) (wish : Outstanding → Outstanding)
    (hhere : ∀ u x, Memory.wf u.mem = true → Memory.wf (here u x).mem = true) (h : Memory.wf s.mem = true) :
    Memory.wf (s.bring d line here wish).mem = true := by
  unfold State.bring
  split
  · exact h
  · have h1 := wf_makeRoom _ _ _ h ‹_›
    split
    · exact hhere _ _ (by simp [h1])
    · simp [h1]

@[simp] theorem wf_prefetch (s : State) (va : W64) (h : Memory.wf s.mem = true) : Memory.wf (s.prefetch va).mem = true := by
  unfold State.prefetch
  dsimp only
  repeat' split
  · simp [h]
  · simp [h]
  · simp [h]
  · exact h
  · exact wf_bring _ _ _ _ _ (fun u _ hu => hu) h
  · exact wf_bring _ _ _ _ _ (fun u _ hu => wf_fillWhole u _ _ _ hu) h
  · exact h

@[simp] theorem wf_retain (s : State) (d : DieId) (gang line : Nat) (h : Memory.wf s.mem = true) :
    Memory.wf (s.retain d gang line).mem = true :=
  wf_bring _ _ _ _ _ (fun u x hu => by simp [hu]) h

@[simp] theorem wf_reserve (s : State) (va stop fuel : Nat) (h : Memory.wf s.mem = true) :
    Memory.wf (s.reserve va stop fuel).mem = true := by
  induction fuel generalizing s va with
  | zero => exact h
  | succ k ih =>
    unfold State.reserve
    dsimp only
    split
    · exact h
    · split
      · exact ih _ _ (by simp [h])
      · refine ih _ _ ?_
        repeat' split
        · simp [h]
        · exact h
        · exact wf_foldl _ _ _ (fun u x hu => by simp [hu]) h

@[simp] theorem wf_writeBackOn (s : State) (ls : List (Nat × Nat)) (gang : Nat) (d : DieId) (h : Memory.wf s.mem = true) :
    Memory.wf (s.writeBackOn ls gang d).mem = true := by
  refine wf_foldl _ _ _ (fun u x hu => ?_) h
  repeat' split
  all_goals simp [hu, wf_lineToHbm]

@[simp] theorem wf_removeRemote (s : State) (d : DieId) (gang : Nat) (ls : List (Nat × Nat)) (h : Memory.wf s.mem = true) :
    Memory.wf (s.removeRemote d gang ls).mem = true := by
  refine wf_foldl _ _ _ (fun u x hu => ?_) h
  dsimp only
  repeat' split
  all_goals simp [hu, wf_lineToHbm]

/-! ## Tags, fences, barriers and atomics -/

@[simp] theorem wf_amoAt (s : State) (op : AmoOp) (p : Place) (b d : W64) (pa : Nat) (x : Option (DieId × L2Line))
    (h : Memory.wf s.mem = true) :
    Memory.wf (s.amoAt op p b d pa x).2.mem = true := by
  unfold State.amoAt
  dsimp only
  repeat' split
  all_goals simp [h, wf_performAt]

@[simp] theorem wf_amoTry (s : State) (t : StrandId) (seq : Nat) (op : AmoOp) (p : Place) (b d : W64) (h : Memory.wf s.mem = true) :
    Memory.wf (s.amoTry t seq op p b d).2.mem = true := by
  unfold State.amoTry
  dsimp only
  repeat' split
  all_goals simp [h]
  simp [wf_makeRoom _ _ _ h ‹_›]

@[simp] theorem wf_keepFills (s : State) (t : StrandId) (before : Nat) (bs : List LByte) (h : Memory.wf s.mem = true) :
    Memory.wf (s.keepFills t before bs).mem = true := by
  refine wf_foldl _ _ _ (fun u x hu => ?_) h
  repeat' split
  all_goals simp [hu]

@[simp] theorem wf_satisfy (s : State) (t : StrandId) (p : Pend) (h : Memory.wf s.mem = true) :
    Memory.wf (s.satisfy t p).2.2.mem = true := by
  unfold State.satisfy
  dsimp only
  repeat' split
  all_goals simp [h]

/-! ## The engines -/

@[simp] theorem wf_engineWrite (s : State) (t : StrandId) (key : Nat) (va : W64) (p : Place) (b : Byte) (h : Memory.wf s.mem = true) :
    Memory.wf (s.engineWrite t key va p b).mem = true := by
  unfold State.engineWrite
  dsimp only
  repeat' split
  all_goals simp [h, wf_performAt]

@[simp] theorem wf_copyByte (s : State) (o : CoreId) (op : CopyOp) (h : Memory.wf s.mem = true) :
    Memory.wf (s.copyByte o op).2.1.mem = true := by
  unfold State.copyByte
  dsimp only
  repeat' split
  all_goals simp [h]

@[simp] theorem wf_copyRun (s : State) (o : CoreId) (op : CopyOp) (n : Nat) (h : Memory.wf s.mem = true) :
    Memory.wf (s.copyRun o op n).2.mem = true := by
  induction n generalizing s op with
  | zero => exact h
  | succ k ih =>
    have h1 := wf_copyByte s o op h
    unfold State.copyRun
    dsimp only
    repeat' split
    · exact h
    · exact ih _ _ h1
    · exact h1

@[simp] theorem wf_writePiece (s : State) (pa : Nat) (bs : List Byte) (h : Memory.wf s.mem = true) :
    Memory.wf (s.writePiece pa bs).mem = true := by
  refine wf_foldl _ _ _ (fun u x hu => ?_) h
  simp [hu, wf_memApply]

@[simp] theorem wf_cleanLines (s : State) (f : Nat → Nat) (xs : List Nat) (h : Memory.wf s.mem = true) :
    Memory.wf (xs.foldl (fun s j => s.cleanLine (f j)) s).mem = true :=
  wf_foldl _ _ _ (fun u j hu => wf_cleanLine u (f j) hu) h

theorem wf_purgedRow (s : State) (pa : Nat) (ms : Bool) {u : State} (h : Memory.wf s.mem = true)
    (hu : (if ms then some s else s.purgeLines ((List.range 4).map fun j => lineOf pa + j)) = some u) : Memory.wf u.mem = true := by
  split at hu
  · cases hu
    exact h
  · exact wf_purgeLines _ _ _ h hu

@[simp] theorem wf_rowPiece (s : State) (o : CoreId) (op : MsOp) (h : Memory.wf s.mem = true) :
    Memory.wf (s.rowPiece o op).2.1.mem = true := by
  unfold State.rowPiece
  dsimp only
  split
  · simp [h]
  · split
    · exact h
    · split
      · exact h
      · have h1 := wf_purgedRow _ _ _ h ‹_›
        repeat' split
        all_goals simp [h, h1, -List.reduceReplicate]

@[simp] theorem wf_rowRun (s : State) (o : CoreId) (op : MsOp) (n : Nat) (h : Memory.wf s.mem = true) :
    Memory.wf (s.rowRun o op n).2.mem = true := by
  induction n generalizing s op with
  | zero => exact h
  | succ k ih =>
    have h1 := wf_rowPiece s o op h
    unfold State.rowRun
    dsimp only
    repeat' split
    · exact h
    · exact ih _ _ h1
    · exact h1

@[simp] theorem wf_endOps (s : State) (xs : List LinkOp) (status : Nat) (h : Memory.wf s.mem = true) :
    Memory.wf (s.endOps xs status).mem = true := by
  refine wf_foldl _ _ _ (fun u x hu => ?_) h
  simp [hu, wf_fillWord]

@[simp] theorem wf_linkdown (s : State) (p : Fin 16) (h : Memory.wf s.mem = true) : Memory.wf (s.linkdown p).mem = true := by
  simp [State.linkdown, h]

/-! ## Gangs -/

@[simp] theorem wf_enterCopy (s : State) (c : CtxId) (size : Nat) (h : Memory.wf s.mem = true) :
    Memory.wf (s.enterCopy c size).mem = true :=
  wf_clearTraps _ _ (wf_foldl _ _ _ (fun u n hu => by simp [hu]) h)

@[simp] theorem wf_enterCtx (s : State) (c : CtxId) (size : Nat) (tags : List (Nat × Nat)) (h : Memory.wf s.mem = true) :
    Memory.wf (s.enterCtx c size tags).mem = true := by
  unfold State.enterCtx
  dsimp only
  split
  · refine wf_enterCopy _ _ _ (wf_clearTraps _ _ ?_)
    rw [flushText_mem]
    exact wf_foldl _ _ _ (fun u n hu => by simp [hu]) (by simp [h])
  · refine wf_clearTraps _ _ ?_
    rw [flushText_mem]
    exact wf_foldl _ _ _ (fun u n hu => by simp [hu]) (by simp [h])

/-! ## Stops, eviction and restoration -/

@[simp] theorem wf_saveBytes (s : State) (pa : Nat) (bs : List Byte) (h : Memory.wf s.mem = true) :
    Memory.wf (s.saveBytes pa bs).mem = true := by
  simp [State.saveBytes, h, wf_memWriteBytes]

@[simp] theorem wf_clearArea (s : State) (area : Nat) (h : Memory.wf s.mem = true) : Memory.wf (s.clearArea area).mem = true :=
  wf_foldl _ _ _ (fun u r hu => by simp [hu]) (wf_filter _ _ h)

@[simp] theorem wf_saveStrand (s : State) (t : StrandId) (h : Memory.wf s.mem = true) : Memory.wf (s.saveStrand t).mem = true :=
  wf_saveBytes _ _ _ (wf_foldl _ _ _ (fun _ _ hu => wf_saveBytes _ _ _ hu) (wf_clearArea _ _ h))

@[simp] theorem wf_saveGang (s0 : State) (k : Nat) (g : Gang) (h : Memory.wf s0.mem = true) :
    Memory.wf (s0.saveGang k g).mem = true := by
  unfold State.saveGang
  dsimp only
  rw [setGang_mem, foldl_mem _ _ _ release_mem]
  refine wf_saveBytes _ _ _ (wf_foldl _ _ _ (fun u c hu => ?_) ?_)
  · exact wf_foldl _ _ _ (fun v t hv => wf_saveStrand v t hv) (wf_saveBytes _ _ _ hu)
  · rw [foldl_mem _ _ _ joinCopies_mem]
    exact h

@[simp] theorem wf_endKatfails (s : State) (g : Gang) (h : Memory.wf s.mem = true) : Memory.wf (s.endKatfails g).mem = true := by
  refine wf_foldl _ _ _ (fun u t hu => wf_resumeCtx _ _ _ ?_) ?_
  · simp [hu]
  · rw [foldl_mem]
    · exact h
    · simp

/-! ## Graphs -/

theorem wf_writeRun (s : State) (e : DieId) (g : Graph) (n : Nat) (w : W64) {u : State} (h : Memory.wf s.mem = true)
    (hu : s.writeRun e g n w = .ok u) : Memory.wf u.mem = true := by
  unfold State.writeRun at hu
  split at hu
  · cases hu
  · exact wf_engineStore _ _ _ _ h hu

theorem wf_initCounter (s : State) (e : DieId) (g : Graph) (x : Node) (v : Nat) {u : State} (h : Memory.wf s.mem = true)
    (hu : s.initCounter e g x v = .ok u) : Memory.wf u.mem = true := by
  unfold State.initCounter at hu
  dsimp only at hu
  repeat' split at hu
  all_goals cases hu
  simp [withTundish_mem _ _ ‹_›, wf_engineStore _ _ _ _ h ‹_›]

theorem wf_makeReady (s : State) (e : DieId) (g : Graph) (launch n : Nat) (live : Bool) {u : State} (h : Memory.wf s.mem = true)
    (hu : s.makeReady e g launch n live = .ok u) : Memory.wf u.mem = true := by
  unfold State.makeReady at hu
  dsimp only at hu
  repeat' split at hu
  all_goals cases hu
  · exact h
  · rw [setDie_mem]
    exact wf_engineStore _ _ _ _ (wf_engineStore _ _ _ _ h ‹_›) ‹_›

theorem wf_markSkipped (s : State) (e : DieId) (g : Graph) (n : Nat) (w : W64) (skip : Bool) {u : State} (h : Memory.wf s.mem = true)
    (hu : (if skip then s.writeRun e g n w else .ok s) = .ok u) : Memory.wf u.mem = true := by
  split at hu
  · exact wf_writeRun _ _ _ _ _ h hu
  · cases hu
    exact h

theorem wf_retireEdge (s : State) (e : DieId) (g : Graph) (launch : Nat) (edge : Nat × Bool) {u : State} (h : Memory.wf s.mem = true)
    (hu : s.retireEdge e g launch edge = .ok u) : Memory.wf u.mem = true := by
  unfold State.retireEdge at hu
  split at hu
  · cases hu
  · split at hu
    · cases hu
    · have h1 := wf_markSkipped _ _ _ _ _ _ h ‹_›
      split at hu
      · cases hu
      · have h2 := decrement_mem _ _ _ _ ‹_›
        rw [← h2] at h1
        split at hu
        · exact wf_makeReady _ _ _ _ _ _ h1 hu
        · cases hu
          exact h1

@[simp] theorem wf_retireEdges (s : State) (e : DieId) (g : Graph) (launch : Nat) (edges : List (Nat × Bool)) (h : Memory.wf s.mem = true) :
    Memory.wf (s.retireEdges e g launch edges).1.mem = true := by
  induction edges generalizing s with
  | nil => exact h
  | cons x r ih =>
    unfold State.retireEdges
    split
    · exact ih _ (wf_retireEdge _ _ _ _ _ h ‹_›)
    · exact h

@[simp] theorem wf_markRetired (s : State) (launch : Nat) (ns : List Nat) (h : Memory.wf s.mem = true) :
    Memory.wf (s.markRetired launch ns).mem = true := by
  unfold State.markRetired
  dsimp only
  repeat' split
  all_goals simp [h, wf_journalState]

@[simp] theorem wf_finishRetire (s : State) (launch n : Nat) (gang : Option (BitVec 16)) (h : Memory.wf s.mem = true) :
    Memory.wf (s.finishRetire launch n gang).mem = true := by
  unfold State.finishRetire
  dsimp only
  repeat' split
  all_goals simp [h]

@[simp] theorem wf_retire (s : State) (e : DieId) (launch n : Nat) (gang : Option (BitVec 16)) (edges : List (Nat × Bool))
    (h : Memory.wf s.mem = true) : Memory.wf (s.retire e launch n gang edges).2.mem = true := by
  unfold State.retire
  dsimp only
  split
  · simp [h]
  · rename_i g _
    have h1 := wf_retireEdges s e g launch edges h
    repeat' split
    all_goals simp_all

@[simp] theorem wf_retireHeld (s : State) (e : DieId) (h : Memory.wf s.mem = true) : Memory.wf (s.retireHeld e).mem = true := by
  unfold State.retireHeld
  dsimp only
  split
  · exact h
  · rename_i x _ _
    split
    · exact h
    · rename_i g _
      have h1 := wf_retireEdges s e g x.launch x.edges h
      repeat' split
      all_goals simp_all

@[simp] theorem wf_readyRoot (s : State) (e : DieId) (h : Memory.wf s.mem = true) : Memory.wf (s.readyRoot e).mem = true := by
  unfold State.readyRoot
  dsimp only
  split
  · exact h
  · split
    · have h1 := wf_makeReady _ _ _ _ _ _ h ‹_›
      exact h1
    · simp [h]

@[simp] theorem wf_retireHead (s : State) (e : DieId) (r : ReadyNode) (edges : List (Nat × Bool)) (h : Memory.wf s.mem = true) :
    Memory.wf (s.retireHead e r edges).mem = true := by
  unfold State.retireHead
  dsimp only
  repeat' split
  all_goals simp [h]

@[simp] theorem wf_choose (s : State) (e : DieId) (r : ReadyNode) (g : Graph) (n : Node) (pick : W64 → Nat) (h : Memory.wf s.mem = true) :
    Memory.wf (s.choose e r g n pick).mem = true := by
  unfold State.choose
  dsimp only
  repeat' split
  all_goals simp [h]

theorem wf_initBody (s : State) (e : DieId) (g : Graph) (ns : List Nat) {u : State} (h : Memory.wf s.mem = true)
    (hu : s.initBody e g ns = .ok u) : Memory.wf u.mem = true := by
  induction ns generalizing s with
  | nil =>
    cases hu
    exact h
  | cons n r ih =>
    unfold State.initBody at hu
    repeat' split at hu
    · cases hu
    · cases hu
    · cases hu
    · exact ih _ (wf_writeRun _ _ _ _ _ (wf_initCounter _ _ _ _ _ h ‹_›) ‹_›) hu

theorem wf_iterate (s : State) (e : DieId) (r : ReadyNode) (k : Nat) (g : Graph) (n : Node) (remain : Nat) {u : State}
    (h : Memory.wf s.mem = true) (hu : s.iterate e r k g n remain = .ok u) : Memory.wf u.mem = true := by
  unfold State.iterate at hu
  repeat' split at hu
  all_goals cases hu
  have h1 := wf_initBody _ _ _ _ h ‹_›
  have h2 := wf_initCounter _ _ _ _ _ h1 ‹_›
  have h3 := wf_writeRun _ _ _ _ _ h2 ‹_›
  have h4 := wf_makeReady _ _ _ _ _ _ h3 ‹_›
  exact h4

@[simp] theorem wf_gangRetires (s : State) (k : Nat) (h : Memory.wf s.mem = true) : Memory.wf (s.gangRetires k).mem = true := by
  unfold State.gangRetires
  dsimp only
  repeat' split
  all_goals simp [h]

@[simp] theorem wf_refuseKernel (s : State) (e : DieId) (w : Waiting) (n : Node) (va : W64) (index : Nat) (h : Memory.wf s.mem = true) :
    Memory.wf (s.refuseKernel e w n va index).mem = true := by
  unfold State.refuseKernel
  dsimp only
  repeat' split
  all_goals simp [h]

@[simp] theorem wf_dispatch (s : State) (e : DieId) (gang : BitVec 16) (launch node : Nat) (k : Kernel) (rs : List (CtxId × Bind))
    (h : Memory.wf s.mem = true) : Memory.wf (s.dispatch e gang launch node k rs).mem = true := by
  unfold State.dispatch
  dsimp only
  repeat' split
  · simp [h]
  · exact h
  · rw [setGang_mem]
    refine wf_foldl _ _ _ (fun u c hu => wf_enterCtx u c _ _ hu) ?_
    rw [foldl_mem, setDie_mem]
    · exact h
    · exact fun u r => setBind_mem _ _ _

@[simp] theorem wf_commitGang (s : State) (e : DieId) (gang : BitVec 16) (n : Node) (k : Kernel) (rs : List (CtxId × Bind))
    (index : Nat) (va : W64) (h : Memory.wf s.mem = true) :
    Memory.wf (s.commitGang e gang n k rs index va).mem = true := by
  unfold State.commitGang
  dsimp only
  repeat' split
  all_goals simp [h]

theorem wf_launchNode (s : State) (g : Graph) (n : Nat) {u : State} (h : Memory.wf s.mem = true) (hu : s.launchNode g n = .ok u) :
    Memory.wf u.mem = true := by
  unfold State.launchNode at hu
  repeat' split at hu
  · cases hu
  · cases hu
  · cases hu
  · cases hu
  · exact wf_writeRun _ _ _ _ _ (wf_initCounter _ _ _ _ _ h ‹_›) hu

@[simp] theorem wf_launchNodes (s : State) (g : Graph) (ns : List Nat) (h : Memory.wf s.mem = true) :
    Memory.wf (s.launchNodes g ns).1.mem = true := by
  induction ns generalizing s with
  | nil => exact h
  | cons n r ih =>
    unfold State.launchNodes
    split
    · exact ih _ (wf_launchNode _ _ _ h ‹_›)
    · exact h

@[simp] theorem wf_launchRoots (s : State) (g : Graph) (launch : Nat) (ns : List Nat) (h : Memory.wf s.mem = true) :
    Memory.wf (s.launchRoots g launch ns).1.mem = true := by
  induction ns generalizing s with
  | nil => exact h
  | cons n r ih =>
    unfold State.launchRoots
    dsimp only
    repeat' split
    · exact h
    · exact h
    · exact ih _ (by simp [h])
    · exact ih _ h
    · exact ih _ (wf_makeReady _ _ _ _ _ _ h ‹_›)

@[simp] theorem wf_launchOn (s : State) (k : Nat) (h : Memory.wf s.mem = true) : Memory.wf (s.launchOn k).mem = true := by
  unfold State.launchOn
  dsimp only
  repeat' split
  all_goals simp [h]

@[simp] theorem wf_launchGraph (s : State) (k launch : Nat) (g : Graph) (h : Memory.wf s.mem = true) :
    Memory.wf (s.launchGraph k launch g).mem = true :=
  wf_launchOn _ _ h

/-! ## Coherence, leases and time -/

@[simp] theorem wf_homeGivesUp (s : State) (d : DieId) (line : Nat) (h : Memory.wf s.mem = true) :
    Memory.wf (s.homeGivesUp d line).1.mem = true := by
  unfold State.homeGivesUp
  dsimp only
  repeat' split
  all_goals simp [h, wf_lineToHbm]

@[simp] theorem wf_startTxn (s : State) (d : DieId) (line : Nat) (r : DieId) (k : ReqKind) (age : Nat) (h : Memory.wf s.mem = true) :
    Memory.wf (s.startTxn d line r k age).mem = true := by
  unfold State.startTxn
  dsimp only
  repeat' split
  all_goals simp [h]

@[simp] theorem wf_beginTxn (s : State) (d : DieId) (line : Nat) (r : DieId) (k : ReqKind) (age : Nat) (h : Memory.wf s.mem = true) :
    Memory.wf (s.beginTxn d line r k age).mem = true := by
  unfold State.beginTxn
  dsimp only
  repeat' split
  · simp [h]
  · simp [h]
  · exact h
  · rw [foldl_mem _ _ _ fun _ _ => toDie_mem _ _ _ _ _ _, setTxn_mem]
    exact h

@[simp] theorem wf_loseLine (s : State) (d : DieId) (line : Nat) (h : Memory.wf s.mem = true) :
    Memory.wf (s.loseLine d line).mem = true := by
  unfold State.loseLine
  rw [log_mem]
  exact wf_lineToHbm _ _ _ _ h

@[simp] theorem wf_endFailed (s : State) (d : DieId) (line : Nat) (x : Txn) (h : Memory.wf s.mem = true) :
    Memory.wf (s.endFailed d line x).mem = true := by
  unfold State.endFailed
  dsimp only
  repeat' split
  all_goals simp [h]

@[simp] theorem wf_tryEnd (s : State) (d : DieId) (line : Nat) (h : Memory.wf s.mem = true) : Memory.wf (s.tryEnd d line).mem = true := by
  unfold State.tryEnd
  dsimp only
  repeat' split
  all_goals simp [h]

@[simp] theorem wf_settle (s : State) (d : DieId) (fuel : Nat) (h : Memory.wf s.mem = true) : Memory.wf (s.settle d fuel).mem = true := by
  induction fuel generalizing s with
  | zero => exact h
  | succ k ih =>
    unfold State.settle
    dsimp only
    repeat' split
    · exact ih _ (by simp [h])
    · exact h
    · exact ih _ (by simp [h])

@[simp] theorem wf_atHome (s : State) (kind : MsgKind) (k : ReqKind) (e : DieId) (line : Nat) (h : Memory.wf s.mem = true) :
    WfNext (s.atHome kind k e line) := by
  unfold State.atHome
  dsimp only
  repeat' split
  all_goals simp [h]

@[simp] theorem wf_answer (s : State) (d e : DieId) (line : Nat) (k : Kept) (h : Memory.wf s.mem = true) :
    Memory.wf (s.answer d e line k).mem = true := by
  unfold State.answer
  dsimp only
  split
  all_goals simp [h]

theorem wf_install (s : State) (d : DieId) (line : Nat) (st : Moesi) (x : List Byte × BitVec 4) (o : Outstanding) {u : State}
    (h : Memory.wf s.mem = true) (hu : s.install d line st x o = some u) : Memory.wf u.mem = true := by
  obtain ⟨v, hv, rfl⟩ := Option.map_eq_some_iff.1 hu
  exact wf_foldl _ _ _ (fun w f hw => wf_fillWhole w _ _ _ hw) (by simp [wf_makeRoom _ _ _ h hv])

theorem wf_install_getD (s : State) (d : DieId) (line : Nat) (st : Moesi) (x : List Byte × BitVec 4) (o : Outstanding) (v : State)
    (h : Memory.wf s.mem = true) (hv : Memory.wf v.mem = true) : Memory.wf ((s.install d line st x o).getD v).mem = true := by
  cases hu : s.install d line st x o with
  | none => exact hv
  | some u => exact wf_install _ _ _ _ _ _ h hu

@[simp] theorem wf_tryTake (s : State) (e : DieId) (line : Nat) (h : Memory.wf s.mem = true) : Memory.wf (s.tryTake e line).mem = true := by
  unfold State.tryTake
  dsimp only
  repeat' split
  all_goals simp [h, wf_install_getD]

@[simp] theorem wf_homeLoses (s : State) (d e : DieId) (line : Nat) (x : DirEntry) (h : Memory.wf s.mem = true) :
    Memory.wf (s.homeLoses d e line x).mem = true := by
  unfold State.homeLoses
  dsimp only
  repeat' split
  all_goals simp [h]

@[simp] theorem wf_salvageData (s : State) (d : DieId) (line : Nat) (x : L2Line) (h : Memory.wf s.mem = true) :
    Memory.wf (s.salvageData d line x).mem = true := by
  unfold State.salvageData
  dsimp only
  split
  · exact wf_memWriteBytes _ _ _ (by simp [h])
  · simp [h]

@[simp] theorem wf_salvageLine (s : State) (d : DieId) (line : Nat) (x : L2Line) (h : Memory.wf s.mem = true) :
    Memory.wf (s.salvageLine d line x).mem = true := by
  unfold State.salvageLine
  dsimp only
  rw [dropLine_mem, foldl_mem _ _ _ fun _ _ => dropCopy_mem _ _ _]
  split
  all_goals simp [h]

/-! ## Reliability -/

@[simp] theorem wf_applyError (s : State) (g : Granule) (correctable : Bool) (h : Memory.wf s.mem = true) :
    Memory.wf (s.applyError g correctable).mem = true := by
  unfold State.applyError
  dsimp only
  repeat' split
  all_goals simp [h]

@[simp] theorem wf_findErrors (s : State) (h : Memory.wf s.mem = true) : Memory.wf (s.findErrors).mem = true := by
  refine wf_foldl _ _ _ (fun u x hu => ?_) h
  simp [hu]

/-! ## The host's side -/

@[simp] theorem wf_accept (s : State) (op : BitVec 8) (words : List W64) (tag : W64) (slot : Option Nat) (h : Memory.wf s.mem = true) :
    Memory.wf (s.accept op words tag slot).mem = true := by
  unfold State.accept
  split <;> simp [h, wf_writeJournal]

@[simp] theorem wf_windowWrite (s : State) (off : Nat) (x : W64) (h : Memory.wf s.mem = true) :
    Memory.wf (s.windowWrite off x).mem = true := by
  unfold State.windowWrite
  dsimp only
  repeat' split
  all_goals simp [h]

@[simp] theorem wf_submit (s : State) (ws : List W64) (h : Memory.wf s.mem = true) : Memory.wf (s.submit ws).mem = true := by
  unfold State.submit
  split <;> simp [h]

@[simp] theorem wf_complete (s : State) (c : Cmd) (status : Nat) (results : List W64) (h : Memory.wf s.mem = true) :
    Memory.wf (s.complete c status results).mem = true := by
  unfold State.complete
  repeat' split
  all_goals simp [h, wf_writeJournal]

/-- What a command's operation answers keeps the memory's canonical form. -/
def WfDone (x : Done) : Prop :=
  match x with
  | .finish _ _ t => Memory.wf t.mem = true
  | .wait t => Memory.wf t.mem = true

theorem wf_command (s : State) (op : Nat) (f : Cmd → State → Done) (h : Memory.wf s.mem = true) (hf : ∀ c, WfDone (f c s)) :
    WfNext (s.command op f) := by
  unfold State.command
  split
  · simpa using h
  · rename_i c r _
    have hc := hf c
    repeat' split
    all_goals simp_all [WfDone, wf_journalState]

@[simp] theorem wf_takePool (s : State) (a : BitVec 11) (k : Nat) (h : Memory.wf s.mem = true) : Memory.wf
    (s.takePool a k).2.mem = true := by
  simp [State.takePool, wf_memWriteBytes, h, -List.reduceReplicate]

theorem wf_writePieces (s : State) (ps : List (Nat × Nat)) (bs : List Byte) {u : State} (h : Memory.wf s.mem = true)
    (hu : s.writePieces ps bs = some u) : Memory.wf u.mem = true := by
  induction ps generalizing s bs with
  | nil =>
    cases hu
    exact h
  | cons x r ih =>
    unfold State.writePieces at hu
    split at hu
    · cases hu
    · exact ih _ _ (wf_memWriteBytes _ _ _ (wf_purgeLines _ _ _ h ‹_›)) hu

@[simp] theorem wf_setRestart (s : State) (t : StrandId) (x : W64) (h : Memory.wf s.mem = true) :
    Memory.wf (s.setRestart t x).mem = true := by
  unfold State.setRestart
  split <;> simp [h, wf_memSetWord]

/-! ## Graphs -/

@[simp] theorem wf_execGrstatFaultClear (e : DieId) (s : State) (h : Memory.wf s.mem = true) : WfNext (execGrstatFaultClear e s) := by
  unfold execGrstatFaultClear
  dsimp only
  repeat' split
  all_goals simp [h]

/-! ## The host's side -/

@[simp] theorem wf_clearGrstat (s : State) (e : DieId) (x : W64) (h : Memory.wf s.mem = true) : WfNext (s.clearGrstat e x) := by
  unfold State.clearGrstat
  dsimp only
  repeat' split
  all_goals simp [h]

/-! ## Supplies and bring-up -/

@[simp] theorem wf_emptied (s : State) (h : Memory.wf s.mem = true) : Memory.wf (s.emptied).mem = true := by
  simp [State.emptied, h, wf_filter]

@[simp] theorem wf_bringUp (s : State) (b : BringUp) (h : Memory.wf s.mem = true) : Memory.wf (s.bringUp b).mem = true := by
  unfold State.bringUp
  split <;> simp [h]

/-! ## The issue of a bundle -/

@[simp] theorem wf_commitStores (s : State) (t : StrandId) (b : Issue) (withhold : Bool) (h : Memory.wf s.mem = true) :
    Memory.wf (s.commitStores t b withhold).mem = true := by
  unfold State.commitStores
  dsimp only
  repeat' split
  all_goals simp [h, wf_issueStores]

@[simp] theorem wf_commitBundle (s : State) (t : StrandId) (b : Issue) (withhold : Bool) (h : Memory.wf s.mem = true) :
    Memory.wf (s.commitBundle t b withhold).mem = true := by
  simp [State.commitBundle, h]

@[simp] theorem wf_finishBundle (before after_ : State) (t : StrandId) (b : Issue) (h : Memory.wf before.mem = true)
    (h1 : Memory.wf after_.mem = true) :
    Memory.wf (before.finishBundle after_ t b).mem = true := by
  unfold State.finishBundle
  simp only
  repeat' split
  all_goals simp_all

@[simp] theorem wf_closeBundle (before after_ : State) (h : Memory.wf before.mem = true) (h1 : Memory.wf after_.mem = true) :
    Memory.wf (before.closeBundle after_).mem = true := by
  unfold State.closeBundle
  simp only
  repeat' split
  all_goals simp_all

/-! ## The trailing copy -/

@[simp] theorem wf_closeTurn (before after_ : State) (h : Memory.wf before.mem = true) (h1 : Memory.wf after_.mem = true) :
    Memory.wf (before.closeTurn after_).mem = true := by
  unfold State.closeTurn
  split
  · obtain hm | hm := closeCopy_mem before after_
    all_goals simp [hm, h, h1]
  · simp [h, h1]

/-! ## Events and time -/

@[simp] theorem wf_beforeEvent (s : State) (i : Instr) (h : Memory.wf s.mem = true) : Memory.wf (s.beforeEvent i).mem = true := by
  unfold State.beforeEvent
  split <;> simp [h]

end Sys2Proof.Proofs

namespace Sys2Proof.Proofs
open Sys2Proof Sys2Proof.Machine Sys2Proof.Laws

/-! # Instructions and events keep the memory's form -/

/-! ## The shared shapes of instructions, events and commands -/

@[simp] theorem wf_outsideRegion (s : State) (f : State → State) (hf : Memory.wf (f s).mem = true) (h : Memory.wf s.mem = true) :
    Memory.wf (s.outsideRegion f).mem = true := by
  unfold State.outsideRegion
  split
  all_goals simp [hf, h]

@[simp] theorem wf_onTag (s : State) (a : Reg) (n : Need) (f : TagWord → Nat → Place → State → State)
    (hf : ∀ w k p u, Memory.wf u.mem = true → Memory.wf (f w k p u).mem = true) (h : Memory.wf s.mem = true) :
    Memory.wf (s.onTag a n f).mem = true := by
  refine wf_outsideRegion _ _ ?_ h
  split
  · simp [h]
  · exact hf _ _ _ _ (by simp [h])

@[simp] theorem wf_whenTag (s : State) (w : TagWord) (want : Bool) (f : State → State) (hf : Memory.wf (f s).mem = true)
    (h : Memory.wf s.mem = true) : Memory.wf (s.whenTag w want f).mem = true := by
  unfold State.whenTag
  split
  · exact hf
  · simp [h]

theorem wf_metered (s : State) (w : TagWord) (f : State → State) (hf : ∀ u, Memory.wf u.mem = true → Memory.wf (f u).mem = true)
    (h : Memory.wf s.mem = true) : Memory.wf (s.metered w f).mem = true := by
  unfold State.metered
  dsimp only
  split
  · exact hf _ h
  · split
    · exact hf _ (by simp [h])
    · simp [h]

theorem wf_toHolder (s : State) (k : MsgKind) (e : DieId) (line : Nat) (f : State → Msg → State)
    (hf : ∀ u m, (f u m).mem = u.mem) (h : Memory.wf s.mem = true) : WfNext (s.toHolder k e line f) := by
  unfold State.toHolder
  dsimp only
  repeat' split
  all_goals simp [hf, h]

theorem wf_evalHead (s : State) (e : DieId) (kind : Nat) (f : ReadyNode → Nat → Graph → Node → State)
    (hf : ∀ r k g n, Memory.wf (f r k g n).mem = true) (h : Memory.wf s.mem = true) : WfNext (s.evalHead e kind f) := by
  unfold State.evalHead
  repeat' split
  all_goals simp [hf, h]

theorem wf_after (s : State) (x : Option Resume) (r : Except Stop State) (h : Memory.wf s.mem = true)
    (hr : ∀ t, r = .ok t → Memory.wf t.mem = true) : Memory.wf (s.after x r).mem = true := by
  cases r with
  | ok t => exact hr t rfl
  | error y => simp [h]

@[simp] theorem wfDone_finish (n : Nat) (xs : List W64) (t : State) : WfDone (.finish n xs t) ↔ Memory.wf t.mem = true := Iff.rfl

@[simp] theorem wfDone_wait (t : State) : WfDone (.wait t) ↔ Memory.wf t.mem = true := Iff.rfl

@[simp] theorem wfDone_refused (t : State) : WfDone (Done.refused t) ↔ Memory.wf t.mem = true := Iff.rfl

@[simp] theorem markHead_mem (s : State) (n : Nat) : (s.markHead n).mem = s.mem := by
  unfold State.markHead
  split <;> rfl

@[simp] theorem wf_ptsyncRange (s : State) (c : Cmd) (a : BitVec 11) (va len : Nat) (h : Memory.wf s.mem = true) :
    WfDone (s.ptsyncRange c a va len) := by
  unfold State.ptsyncRange
  dsimp only
  repeat' split
  all_goals simp [h]

theorem wf_takeTable (s : State) (a : BitVec 11) {x : Nat × State} (h : Memory.wf s.mem = true) (hx : s.takeTable a = some x) :
    Memory.wf x.2.mem = true := by
  obtain ⟨k, _, rfl⟩ := Option.map_eq_some_iff.1 hx
  exact wf_takePool s a k h

theorem wf_writeEntry (s : State) (pa : Nat) (e : W64) {t : State} (h : Memory.wf s.mem = true) (ht : s.writeEntry pa e = .ok t) :
    Memory.wf t.mem = true := by
  unfold State.writeEntry at ht
  split at ht
  · cases ht
    exact wf_engineStore _ _ _ _ h ‹_›
  · cases ht

theorem wf_mapPage (s : State) (a : BitVec 11) (table va target : Nat) (leaf : W64) (levels : List Nat) {t : State}
    (h : Memory.wf s.mem = true) (ht : s.mapPage a table va target leaf levels = .ok t) : Memory.wf t.mem = true := by
  induction levels generalizing s table with
  | nil =>
    cases ht
    exact h
  | cons l r ih =>
    unfold State.mapPage at ht
    dsimp only at ht
    split at ht
    · exact wf_writeEntry _ _ _ h ht
    · split at ht
      · exact ih _ _ h ht
      · split at ht
        · cases ht
        · have h1 := wf_takeTable _ _ h ‹_›
          split at ht
          · exact ih _ _ (wf_writeEntry _ _ _ h1 ‹_›) ht
          · exact wf_writeEntry _ _ _ h1 ht

theorem wf_mapPages (s : State) (a : BitVec 11) (root va : Nat) (leaf : W64) (n : Nat) {t : State}
    (h : Memory.wf s.mem = true) (ht : s.mapPages a root va leaf n = .ok t) : Memory.wf t.mem = true := by
  induction n generalizing s va leaf with
  | zero =>
    cases ht
    exact h
  | succ k ih =>
    unfold State.mapPages at ht
    dsimp only at ht
    split at ht
    · exact ih _ _ _ (wf_mapPage _ _ _ _ _ _ _ h ‹_›) ht
    · exact wf_mapPage _ _ _ _ _ _ _ h ht

theorem wf_unmapPages (s : State) (root va z n : Nat) {t : State} (h : Memory.wf s.mem = true)
    (ht : s.unmapPages root va z n = .ok t) : Memory.wf t.mem = true := by
  induction n generalizing s va with
  | zero =>
    cases ht
    exact h
  | succ k ih =>
    unfold State.unmapPages at ht
    dsimp only at ht
    split at ht
    · split at ht
      · split at ht
        · exact ih _ _ (wf_writeEntry _ _ _ h ‹_›) ht
        · exact wf_writeEntry _ _ _ h ht
      · exact ih _ _ h ht
    · exact ih _ _ h ht

/-! ## Scalar results -/

theorem wf_execGets (d : Reg) (i : BitVec 12) (s : State) (h : Memory.wf s.mem = true) : WfNext (execGets d i s) := by
  unfold execGets
  split <;> simp [h]

theorem wf_execSets (a : Reg) (i : BitVec 12) (s : State) (h : Memory.wf s.mem = true) : WfNext (execSets a i s) := by
  unfold execSets
  repeat' split
  all_goals simp [h]

theorem wf_execIllegalSyllable (w : W32) (s : State) (h : Memory.wf s.mem = true) : WfNext (execIllegalSyllable w s) := by
  unfold execIllegalSyllable
  split <;> simp [h]

/-! ## Regions -/

theorem wf_execCkpt (i : BitVec 18) (s : State) (h : Memory.wf s.mem = true) : WfNext (execCkpt i s) := by
  unfold execCkpt
  repeat' split
  all_goals simp [h]

theorem wf_execCommit (s : State) (h : Memory.wf s.mem = true) : WfNext (execCommit s) := by
  unfold execCommit
  split <;> simp [h]

theorem wf_execGuard (a b : Reg) (s : State) (h : Memory.wf s.mem = true) : WfNext (execGuard a b s) := by
  unfold execGuard
  repeat' split
  all_goals simp [h]

theorem wf_execAssert (a : Reg) (s : State) (h : Memory.wf s.mem = true) : WfNext (execAssert a s) := by
  unfold execAssert
  split <;> simp [h]

theorem wf_execAbort (s : State) (h : Memory.wf s.mem = true) : WfNext (execAbort s) := by
  unfold execAbort
  split <;> simp [h]

/-! ## Loads, stores and cache operations -/

theorem wf_execPref (a : Reg) (s : State) (h : Memory.wf s.mem = true) : WfNext (execPref a s) := by
  simp [execPref, h]

theorem wf_execRes (a b : Reg) (s : State) (h : Memory.wf s.mem = true) : WfNext (execRes a b s) := by
  unfold execRes
  dsimp only
  repeat' split
  all_goals simp [h]

theorem wf_execCacheRangeOperationComplete (t : StrandId) (s : State) (h : Memory.wf s.mem = true) :
    WfNext (execCacheRangeOperationComplete t s) := by
  unfold execCacheRangeOperationComplete
  dsimp only
  repeat' split
  all_goals simp only [wfNext_next, setStrand_mem]
  · exact h
  · exact wf_foldl _ _ _ (fun u d hu => wf_writeBackOn u _ _ d hu) h
  · exact h
  · exact wf_removeRemote _ _ _ _ h
  · exact h

/-! ## The matrix unit -/

theorem wf_execMst (a : Reg) (f : BitVec 4) (c : BitVec 1) (s : State) (h : Memory.wf s.mem = true) : WfNext (execMst a f c s) := by
  unfold execMst
  split <;> simp [h]

theorem wf_execBankReservationEnd (o : CoreId) (n : Nat) (s : State) (h : Memory.wf s.mem = true) :
    WfNext (execBankReservationEnd o n s) := by
  unfold execBankReservationEnd
  dsimp only
  repeat' split
  all_goals simp [h]

/-! ## Allowances -/

theorem wf_execServe (ctr : Nat) (s : State) (h : Memory.wf s.mem = true) : WfNext (execServe ctr s) := by
  unfold execServe
  dsimp only
  repeat' split
  all_goals simp [h]

theorem wf_execAllowanceRequest (l : ClusterId) (ctr : Nat) (s : State) (h : Memory.wf s.mem = true) :
    WfNext (execAllowanceRequest l ctr s) := by
  unfold execAllowanceRequest
  repeat' split
  · simp [h]
  · simp [h, withTundish_mem _ _ ‹_›]
  · simp [h]

theorem wf_execGrant (l : ClusterId) (ctr : Nat) (s : State) (h : Memory.wf s.mem = true) : WfNext (execGrant l ctr s) := by
  unfold execGrant
  dsimp only
  repeat' split
  all_goals simp [h]

theorem wf_execRecall (l : ClusterId) (ctr : Nat) (s : State) (h : Memory.wf s.mem = true) : WfNext (execRecall l ctr s) := by
  unfold execRecall
  repeat' split
  all_goals simp [h]

theorem wf_execRecallAnswer (l : ClusterId) (ctr : Nat) (s : State) (h : Memory.wf s.mem = true) :
    WfNext (execRecallAnswer l ctr s) := by
  simp [execRecallAnswer, h]

theorem wf_execHoldingZeroReport (l : ClusterId) (ctr : Nat) (s : State) (h : Memory.wf s.mem = true) :
    WfNext (execHoldingZeroReport l ctr s) := by
  simp [execHoldingZeroReport, h]

theorem wf_execAllowanceLeaseEnd (l : ClusterId) (ctr : Nat) (s : State) (h : Memory.wf s.mem = true) :
    WfNext (execAllowanceLeaseEnd l ctr s) := by
  unfold execAllowanceLeaseEnd
  repeat' split
  all_goals simp [h]

theorem wf_execAinit (a b : Reg) (s : State) (h : Memory.wf s.mem = true) : WfNext (execAinit a b s) := by
  unfold execAinit
  simp [apply_ite State.mem, h]

theorem wf_execAdec (d a b : Reg) (s : State) (h : Memory.wf s.mem = true) : WfNext (execAdec d a b s) := by
  have hm : MemKept s (execAdec d a b s) := by
    rw [execAdec, memKept_next, onCounter_mem]
    intro ctr
    dsimp only
    repeat' split
    all_goals simp
  exact hm.wf h

theorem wf_execAinc (a b : Reg) (s : State) (h : Memory.wf s.mem = true) : WfNext (execAinc a b s) := by
  unfold execAinc
  simp [apply_ite State.mem, h]

theorem wf_execAread (d a : Reg) (s : State) (h : Memory.wf s.mem = true) : WfNext (execAread d a s) := by
  simp [execAread, h]

theorem wf_execAxread (d a : Reg) (s : State) (h : Memory.wf s.mem = true) : WfNext (execAxread d a s) := by
  simp [execAxread, h]

theorem wf_execAfree (a : Reg) (s : State) (h : Memory.wf s.mem = true) : WfNext (execAfree a s) := by
  have hm : MemKept s (execAfree a s) := by
    rw [execAfree, memKept_next, onCounter_mem]
    intro ctr
    dsimp only
    split
    all_goals simp
  exact hm.wf h

/-! ## Tags, fences, barriers and atomics -/

theorem wf_execLdt (d a : Reg) (s : State) (h : Memory.wf s.mem = true) : WfNext (execLdt d a s) := by
  refine (wfNext_next _).2 (wf_onTag _ _ _ _ (fun w k p u hu => ?_) h)
  split
  · simp [hu]
  · exact wf_whenTag _ _ _ _ (wf_metered _ _ _ (fun v hv => by simp [hv]) hu) hu

theorem wf_execLdtp (d a : Reg) (s : State) (h : Memory.wf s.mem = true) : WfNext (execLdtp d a s) := by
  refine (wfNext_next _).2 (wf_onTag _ _ _ _ (fun w k p u hu => ?_) h)
  split
  · simp [hu]
  · exact wf_whenTag _ _ _ _ (wf_metered _ _ _ (fun v hv => by simp [hv]) hu) hu

theorem wf_execStt (a b : Reg) (s : State) (h : Memory.wf s.mem = true) : WfNext (execStt a b s) := by
  refine (wfNext_next _).2 (wf_onTag _ _ _ _ (fun w k p u hu => ?_) h)
  split
  · simp [hu]
  · exact wf_whenTag _ _ _ _ (wf_metered _ _ _ (fun v hv => by simp [wf_performAt, hv]) hu) hu

theorem wf_execSttn (d a b : Reg) (s : State) (h : Memory.wf s.mem = true) : WfNext (execSttn d a b s) := by
  refine (wfNext_next _).2 (wf_onTag _ _ _ _ (fun w k p u hu => ?_) h)
  split
  · simp [hu]
  · refine wf_metered _ _ _ (fun v hv => ?_) hu
    split
    all_goals simp [wf_performAt, hv]

theorem wf_execTagr (d a : Reg) (s : State) (h : Memory.wf s.mem = true) : WfNext (execTagr d a s) := by
  simp [execTagr, h]

theorem wf_execTagw (a b : Reg) (s : State) (h : Memory.wf s.mem = true) : WfNext (execTagw a b s) := by
  simp [execTagw, h]

theorem wf_execBind (d a b : Reg) (s : State) (h : Memory.wf s.mem = true) : WfNext (execBind d a b s) := by
  unfold execBind
  simp [apply_ite State.mem, h]

theorem wf_execDrain (a : Reg) (s : State) (h : Memory.wf s.mem = true) : WfNext (execDrain a s) := by
  unfold execDrain
  simp [apply_ite State.mem, h]

theorem wf_execBarInit (j a : Reg) (s : State) (h : Memory.wf s.mem = true) : WfNext (execBarInit j a s) := by
  unfold execBarInit
  repeat' split
  all_goals simp [apply_ite State.mem, h]

theorem wf_execBarArrive (j : Reg) (s : State) (h : Memory.wf s.mem = true) : WfNext (execBarArrive j s) := by
  unfold execBarArrive
  repeat' split
  all_goals simp [apply_ite State.mem, h]

theorem wf_execBarWait (j : Reg) (s : State) (h : Memory.wf s.mem = true) : WfNext (execBarWait j s) := by
  refine (wfNext_next _).2 (wf_outsideRegion _ _ ?_ h)
  dsimp only
  repeat' split
  all_goals simp [h]

theorem wf_execBarrierArrivalCounted (t : StrandId) (j : Fin 8) (s : State) (h : Memory.wf s.mem = true) :
    WfNext (execBarrierArrivalCounted t j s) := by
  unfold execBarrierArrivalCounted
  dsimp only
  repeat' split
  all_goals simp [h]

theorem wf_execTagWaitTimeout (t : StrandId) (s : State) (h : Memory.wf s.mem = true) : WfNext (execTagWaitTimeout t s) := by
  unfold execTagWaitTimeout
  repeat' split
  all_goals simp [h]

theorem wf_execWaitHoldTimeout (t : StrandId) (s : State) (h : Memory.wf s.mem = true) : WfNext (execWaitHoldTimeout t s) := by
  unfold execWaitHoldTimeout
  dsimp only
  repeat' split
  all_goals simp [h]

theorem wf_execWritePerformed (n : Nat) (s : State) (h : Memory.wf s.mem = true) : WfNext (execWritePerformed n s) := by
  unfold execWritePerformed
  dsimp only
  repeat' split
  all_goals simp [h, wf_performAt]

theorem wf_execSliceWritePerformed (n : Nat) (s : State) (h : Memory.wf s.mem = true) : WfNext (execSliceWritePerformed n s) := by
  unfold execSliceWritePerformed
  dsimp only
  split
  · simp [h]
  · split
    · simp [h]
    · split
      · simp [h]
      · split
        · simp [h]
        · split
          · split
            all_goals simp [h]
          · split
            · split
              · simp [h]
              · have h1 := wf_makeRoom _ _ _ h ‹_›
                split
                all_goals simp [h1]
            · simp [h]

/-! ## The engines -/

theorem wf_execCpDims (a b : Reg) (n : BitVec 5) (s : State) (h : Memory.wf s.mem = true) : WfNext (execCpDims a b n s) := by
  unfold execCpDims
  split <;> simp [h]

theorem wf_execCpDimd (b : Reg) (n : BitVec 5) (s : State) (h : Memory.wf s.mem = true) : WfNext (execCpDimd b n s) := by
  unfold execCpDimd
  split <;> simp [h]

theorem wf_execCpGo (a : Reg) (n : BitVec 5) (s : State) (h : Memory.wf s.mem = true) : WfNext (execCpGo a n s) := by
  have hm : MemKept s (execCpGo a n s) := by
    unfold execCpGo
    split
    · simp
    · rw [memKept_next, matrixOnly_mem]
      repeat' split
      all_goals simp
  exact hm.wf h

theorem wf_execCpWait (n : BitVec 5) (s : State) (h : Memory.wf s.mem = true) : WfNext (execCpWait n s) := by
  unfold execCpWait
  repeat' split
  all_goals simp [apply_ite State.mem, h]

theorem wf_execCopyOperationStart (o : CoreId) (n : Fin 8) (count : Nat) (s : State) (h : Memory.wf s.mem = true) :
    WfNext (execCopyOperationStart o n count s) := by
  unfold execCopyOperationStart
  repeat' split
  all_goals simp [h]

theorem wf_execCopyOperationComplete (o : CoreId) (n : Fin 8) (s : State) (h : Memory.wf s.mem = true) :
    WfNext (execCopyOperationComplete o n s) := by
  unfold execCopyOperationComplete
  dsimp only
  repeat' split
  all_goals simp [h, wf_fillWord]

theorem wf_execMsOperationStart (o : CoreId) (count : Nat) (s : State) (h : Memory.wf s.mem = true) :
    WfNext (execMsOperationStart o count s) := by
  unfold execMsOperationStart
  repeat' split
  all_goals simp [h]

theorem wf_execMsOperationComplete (o : CoreId) (s : State) (h : Memory.wf s.mem = true) : WfNext (execMsOperationComplete o s) := by
  unfold execMsOperationComplete
  repeat' split
  all_goals simp [h, wf_fillWord]

theorem wf_execLkCw (a : Reg) (p : BitVec 5) (s : State) (h : Memory.wf s.mem = true) : WfNext (execLkCw a p s) := by
  unfold execLkCw
  split <;> simp [h]

theorem wf_execLinkSendComplete (p : Fin 16) (peerLen : Nat) (s : State) (h : Memory.wf s.mem = true) :
    WfNext (execLinkSendComplete p peerLen s) := by
  unfold execLinkSendComplete
  dsimp only
  repeat' split
  all_goals simp [h, wf_fillWord]

theorem wf_execLinkFlitArrival (p : Fin 16) (flit : BitVec 512) (poison : BitVec 8) (s : State) (h : Memory.wf s.mem = true) :
    WfNext (execLinkFlitArrival p flit poison s) := by
  unfold execLinkFlitArrival
  dsimp only
  repeat' split
  all_goals simp [h, wf_performAt]

theorem wf_execLinkReceiveComplete (p : Fin 16) (sendLen : Nat) (s : State) (h : Memory.wf s.mem = true) :
    WfNext (execLinkReceiveComplete p sendLen s) := by
  unfold execLinkReceiveComplete
  dsimp only
  repeat' split
  all_goals simp [h, wf_fillWord]

theorem wf_execLinkdown (p : Fin 16) (s : State) (h : Memory.wf s.mem = true) : WfNext (execLinkdown p s) := by
  simp [execLinkdown, h]

theorem wf_execLinkCancel (p : Fin 16) (s : State) (h : Memory.wf s.mem = true) : WfNext (execLinkCancel p s) := by
  simp [execLinkCancel, h]

/-! ## Control transfers -/

theorem wf_execBrq (c : Reg) (i : BitVec 18) (s : State) (h : Memory.wf s.mem = true) : WfNext (execBrq c i s) := by
  unfold execBrq
  dsimp only
  repeat' split
  all_goals simp [h]

theorem wf_execJr (a : Reg) (s : State) (h : Memory.wf s.mem = true) : WfNext (execJr a s) := by
  unfold execJr
  dsimp only
  repeat' split
  all_goals simp [h]

theorem wf_execLoop (c : Reg) (i : BitVec 18) (s : State) (h : Memory.wf s.mem = true) : WfNext (execLoop c i s) := by
  unfold execLoop
  dsimp only
  repeat' split
  all_goals simp [h]

/-! ## The front end -/

theorem wf_execFetchDecode (c : CtxId) (priv : Option (Fin 4)) (s : State) (h : Memory.wf s.mem = true) :
    WfNext (execFetchDecode c priv s) := by
  unfold execFetchDecode
  dsimp only
  repeat' split
  · simp [h]
  · simp [h, fetchTeam_mem _ _ ‹_›]
  · simp [h]
  · simp [h]
  · simp [h, fetchPrivate_mem _ _ ‹_›]
  · simp [h]

theorem wf_execInterlockedResultArrives (t : StrandId) (n : Nat) (s : State) (h : Memory.wf s.mem = true) :
    WfNext (execInterlockedResultArrives t n s) := by
  unfold execInterlockedResultArrives
  dsimp only
  repeat' split
  all_goals simp [h]

theorem wf_execJoinBudgetExpiry (c : CtxId) (at_ : W64) (s : State) (h : Memory.wf s.mem = true) :
    WfNext (execJoinBudgetExpiry c at_ s) := by
  unfold execJoinBudgetExpiry
  repeat' split
  all_goals simp [h]

theorem wf_execPickerSwitch (l : ClusterId) (s : State) (h : Memory.wf s.mem = true) : WfNext (execPickerSwitch l s) := by
  unfold execPickerSwitch
  dsimp only
  repeat' split
  all_goals simp [h]

theorem wf_execEpAging (c : CtxId) (s : State) (h : Memory.wf s.mem = true) : WfNext (execEpAging c s) := by
  unfold execEpAging
  dsimp only
  repeat' split
  all_goals simp [h]

theorem wf_execContextWake (c : CtxId) (s : State) (h : Memory.wf s.mem = true) : WfNext (execContextWake c s) := by
  unfold execContextWake
  dsimp only
  repeat' split
  all_goals simp only [wfNext_next, setCtx_mem]
  · exact h
  · exact wf_foldl _ _ _ (fun u t hu => hu) h
  · exact wf_foldl _ _ _ (fun u t hu => hu) h

theorem wf_execIdleStep (t : StrandId) (s : State) (h : Memory.wf s.mem = true) : WfNext (execIdleStep t s) := by
  unfold execIdleStep
  split <;> simp [h]

theorem wf_execPageWalk (l : ClusterId) (c : Fin 8) (va : W64) (s : State) (h : Memory.wf s.mem = true) :
    WfNext (execPageWalk l c va s) := by
  unfold execPageWalk
  dsimp only
  repeat' split
  all_goals simp [h]

/-! ## Stops, eviction and restoration -/

theorem wf_execSuspensionComplete (c : CtxId) (s : State) (h : Memory.wf s.mem = true) : WfNext (execSuspensionComplete c s) := by
  unfold execSuspensionComplete
  split <;> simp [h, wf_suspend]

theorem wf_execFreeze (c : CtxId) (s : State) (h : Memory.wf s.mem = true) : WfNext (execFreeze c s) := by
  unfold execFreeze
  dsimp only
  repeat' split
  all_goals simp [h]

theorem wf_execControlCoreResume (c : CtxId) (s : State) (h : Memory.wf s.mem = true) : WfNext (execControlCoreResume c s) := by
  unfold execControlCoreResume
  dsimp only
  repeat' split
  all_goals simp [h]

theorem wf_execRegionMachineResume (c : CtxId) (s : State) (h : Memory.wf s.mem = true) : WfNext (execRegionMachineResume c s) := by
  unfold execRegionMachineResume
  dsimp only
  repeat' split
  all_goals simp [h, wf_resumeCtx]

theorem wf_execRestoration (old : DieId) (gang : BitVec 16) (e : DieId) (slots : List Placement) (s : State) (h : Memory.wf s.mem = true) :
    WfNext (execRestoration old gang e slots s) := by
  unfold execRestoration
  dsimp only
  repeat' split
  all_goals simp [h]

theorem wf_execKatfailPolicy (t : StrandId) (s : State) (h : Memory.wf s.mem = true) : WfNext (execKatfailPolicy t s) := by
  unfold execKatfailPolicy
  dsimp only
  repeat' split
  all_goals simp [h]

/-! ## Graphs -/

theorem wf_execHeldRetirementProceeds (e : DieId) (s : State) (h : Memory.wf s.mem = true) :
    WfNext (execHeldRetirementProceeds e s) := by
  unfold execHeldRetirementProceeds
  repeat' split
  all_goals simp [h]

theorem wf_execKernelNodeEval (e : DieId) (s : State) (h : Memory.wf s.mem = true) : WfNext (execKernelNodeEval e s) := by
  refine wf_evalHead _ _ _ _ (fun r k g n => ?_) h
  dsimp only
  split
  all_goals simp [h]

theorem wf_execCondNodeEval (e : DieId) (s : State) (h : Memory.wf s.mem = true) : WfNext (execCondNodeEval e s) :=
  wf_evalHead _ _ _ _ (fun r _ g n => wf_choose s e r g n _ h) h

theorem wf_execSwitchNodeEval (e : DieId) (s : State) (h : Memory.wf s.mem = true) : WfNext (execSwitchNodeEval e s) :=
  wf_evalHead _ _ _ _ (fun r _ g n => wf_choose s e r g n _ h) h

theorem wf_execJoinNodeEval (e : DieId) (s : State) (h : Memory.wf s.mem = true) : WfNext (execJoinNodeEval e s) :=
  wf_evalHead _ _ _ _ (fun r _ _ _ => wf_retireHead s e r _ h) h

theorem wf_execLoopNodeEval (e : DieId) (s : State) (h : Memory.wf s.mem = true) : WfNext (execLoopNodeEval e s) := by
  refine wf_evalHead _ _ _ _ (fun r k g n => ?_) h
  dsimp only
  generalize (if g.loops.contains r.node then n.bits 6 31 0 else n.count) = remain
  split
  · split
    · simp [h]
    · exact h
  · split
    · repeat' split
      all_goals simp [h]
    · split
      · simp [h]
      · have h1 := refill_mem _ _ ‹_›
        rw [dropReady_mem] at h1
        exact wf_after _ _ _ h fun t ht => wf_iterate _ _ _ _ _ _ _ (h1 ▸ h) ht

theorem wf_execGangRetirement (e : DieId) (gang : BitVec 16) (s : State) (h : Memory.wf s.mem = true) :
    WfNext (execGangRetirement e gang s) := by
  simp [execGangRetirement, h]

theorem wf_execGcommit (e : DieId) (gang : BitVec 16) (s : State) (h : Memory.wf s.mem = true) : WfNext (execGcommit e gang s) := by
  unfold execGcommit
  dsimp only
  repeat' split
  all_goals simp [h]

theorem wf_execPlacementRetry (e : DieId) (gang : BitVec 16) (slots : List Placement) (s : State) (h : Memory.wf s.mem = true) :
    WfNext (execPlacementRetry e gang slots s) := by
  unfold execPlacementRetry
  dsimp only
  repeat' split
  all_goals simp [h]

/-! ## Coherence, leases and time -/

theorem wf_execFwdshared (e : DieId) (line : Nat) (s : State) (h : Memory.wf s.mem = true) : WfNext (execFwdshared e line s) := by
  refine wf_toHolder _ _ _ _ _ (fun u m => ?_) h
  dsimp only
  repeat' split
  all_goals simp

theorem wf_execFwdown (e : DieId) (line : Nat) (s : State) (h : Memory.wf s.mem = true) : WfNext (execFwdown e line s) := by
  refine wf_toHolder _ _ _ _ _ (fun u m => ?_) h
  dsimp only
  repeat' split
  all_goals simp

theorem wf_execInv (e : DieId) (line : Nat) (s : State) (h : Memory.wf s.mem = true) : WfNext (execInv e line s) := by
  refine wf_toHolder _ _ _ _ _ (fun u m => ?_) h
  split
  all_goals simp

theorem wf_execBackinv (e : DieId) (line : Nat) (s : State) (h : Memory.wf s.mem = true) : WfNext (execBackinv e line s) := by
  refine wf_toHolder _ _ _ _ _ (fun u m => ?_) h
  split
  all_goals simp

theorem wf_execDeferredAck (e : DieId) (line : Nat) (s : State) (h : Memory.wf s.mem = true) : WfNext (execDeferredAck e line s) := by
  unfold execDeferredAck
  repeat' split
  all_goals simp [h]

theorem wf_execReadshared (e : DieId) (line : Nat) (s : State) (h : Memory.wf s.mem = true) : WfNext (execReadshared e line s) := by
  simp [execReadshared, h]

theorem wf_execReadown (e : DieId) (line : Nat) (s : State) (h : Memory.wf s.mem = true) : WfNext (execReadown e line s) := by
  simp [execReadown, h]

theorem wf_execUpgrade (e : DieId) (line : Nat) (s : State) (h : Memory.wf s.mem = true) : WfNext (execUpgrade e line s) := by
  simp [execUpgrade, h]

theorem wf_execWbdirty (e : DieId) (line : Nat) (s : State) (h : Memory.wf s.mem = true) : WfNext (execWbdirty e line s) := by
  unfold execWbdirty
  dsimp only
  repeat' split
  all_goals simp [h, wf_lineToHbm]

theorem wf_execData (e : DieId) (line : Nat) (s : State) (h : Memory.wf s.mem = true) : WfNext (execData e line s) := by
  unfold execData
  dsimp only
  repeat' split
  all_goals simp [h]

theorem wf_execAck (e : DieId) (line : Nat) (s : State) (h : Memory.wf s.mem = true) : WfNext (execAck e line s) := by
  unfold execAck
  dsimp only
  repeat' split
  all_goals simp [h]

theorem wf_execClusterFill (l : ClusterId) (c : Fin 8) (va : W64) (s : State) (h : Memory.wf s.mem = true) :
    WfNext (execClusterFill l c va s) := by
  unfold execClusterFill
  dsimp only
  repeat' split
  all_goals simp [h]

theorem wf_execLeaseReturn (l : ClusterId) (line : Nat) (s : State) (h : Memory.wf s.mem = true) :
    WfNext (execLeaseReturn l line s) := by
  unfold execLeaseReturn
  split <;> simp [h]

theorem wf_execClusterCounterResume (l : ClusterId) (s : State) (h : Memory.wf s.mem = true) :
    WfNext (execClusterCounterResume l s) := by
  unfold execClusterCounterResume
  dsimp only
  repeat' split
  all_goals simp [h]

theorem wf_execTimeBeacon (errs : List (ClusterId × Int)) (dieErrs : List (DieId × Option Int)) (s : State) (h : Memory.wf s.mem = true) :
    WfNext (execTimeBeacon errs dieErrs s) := by
  unfold execTimeBeacon
  simp [apply_ite State.mem, h]

theorem wf_execDeclarationAtHome (home e : DieId) (s : State) (h : Memory.wf s.mem = true) :
    WfNext (execDeclarationAtHome home e s) := by
  unfold execDeclarationAtHome
  dsimp only
  split
  · exact (wfNext_next _).2 h
  · rw [wfNext_next]
    refine wf_settle _ _ _ (wf_foldl _ _ _ (fun u x hu => ?_) (wf_foldl _ _ _ (fun u x hu => wf_homeLoses u _ _ _ _ hu) (by simp [h])))
    split
    · simp [hu]
    · exact hu

theorem wf_execSalvage (home e : DieId) (s : State) (h : Memory.wf s.mem = true) : WfNext (execSalvage home e s) := by
  unfold execSalvage
  dsimp only
  split
  · exact (wfNext_next _).2 h
  · rw [wfNext_next, setDie_mem]
    refine wf_foldl _ _ _ (fun u x hu => ?_) (wf_foldl _ _ _ (fun u x hu => ?_) (wf_foldl _ _ _ (fun u x hu => ?_) h))
    · repeat' split
      all_goals simp [hu]
    · split
      all_goals simp [hu]
    · split
      all_goals simp [hu]

theorem wf_execDeclarationAtTundish (home e : DieId) (s : State) (h : Memory.wf s.mem = true) :
    WfNext (execDeclarationAtTundish home e s) := by
  unfold execDeclarationAtTundish
  repeat' split
  all_goals simp [apply_ite State.mem, h]

/-! ## Reliability -/

theorem wf_execPipelineError (t : StrandId) (s : State) (h : Memory.wf s.mem = true) : WfNext (execPipelineError t s) := by
  unfold execPipelineError
  split <;> simp [h]

theorem wf_execSoftError (g : Granule) (correctable : Bool) (s : State) (h : Memory.wf s.mem = true) :
    WfNext (execSoftError g correctable s) := by
  unfold execSoftError
  split <;> simp [h]

theorem wf_execPatrolScrub (g : Granule) (s : State) (h : Memory.wf s.mem = true) : WfNext (execPatrolScrub g s) := by
  unfold execPatrolScrub
  repeat' split
  all_goals simp [h]

theorem wf_execLockstepConfirm (t : StrandId) (flipped : W32) (s : State) (h : Memory.wf s.mem = true) :
    WfNext (execLockstepConfirm t flipped s) := by
  unfold execLockstepConfirm
  dsimp only
  repeat' split
  all_goals simp [h, wf_issueStores]

/-! ## The host's side -/

theorem wf_execAsidAlloc (s : State) (h : Memory.wf s.mem = true) : WfNext (execAsidAlloc s) := by
  refine wf_command _ _ _ h fun c => ?_
  dsimp only
  repeat' split
  all_goals simp [h]

theorem wf_execAsidRetire (s : State) (h : Memory.wf s.mem = true) : WfNext (execAsidRetire s) := by
  refine wf_command _ _ _ h fun c => ?_
  dsimp only
  repeat' split
  all_goals simp [h]

theorem wf_execPtsync (s : State) (h : Memory.wf s.mem = true) : WfNext (execPtsync s) := by
  refine wf_command _ _ _ h fun c => ?_
  dsimp only
  repeat' split
  all_goals simp [h]

theorem wf_execMap (s : State) (h : Memory.wf s.mem = true) : WfNext (execMap s) := by
  refine wf_command _ _ _ h fun c => ?_
  dsimp only
  repeat' split
  · simp [h]
  · simp [h]
  · simp [h]
  · simp [h]
  · simp [h]
  · simp [h]
  · rw [wfDone_finish, foldl_mem]
    · exact wf_mapPages _ _ _ _ _ _ h ‹_›
    · exact fun u x => foldl_mem _ _ _ fun v i => setTag_mem _ _ _

theorem wf_execUnmap (s : State) (h : Memory.wf s.mem = true) : WfNext (execUnmap s) := by
  refine wf_command _ _ _ h fun c => ?_
  dsimp only
  repeat' split
  · simp [h]
  · simp [h]
  · simp [h]
  · simp [h]
  · exact wf_ptsyncRange _ _ _ _ _ (wf_unmapPages _ _ _ _ _ h ‹_›)
  · simp [h]

theorem wf_execLoadGraph (s : State) (h : Memory.wf s.mem = true) : WfNext (execLoadGraph s) := by
  refine wf_command _ _ _ h fun c => ?_
  dsimp only
  repeat' split
  all_goals simp [h]

theorem wf_execLaunch (s : State) (h : Memory.wf s.mem = true) : WfNext (execLaunch s) := by
  refine wf_command _ _ _ h fun c => ?_
  dsimp only
  repeat' split
  all_goals simp [h]

theorem wf_execResume (s : State) (h : Memory.wf s.mem = true) : WfNext (execResume s) := by
  refine wf_command _ _ _ h fun c => ?_
  dsimp only
  repeat' split
  all_goals simp [h, wf_resumeCtx]

theorem wf_execEvict (s : State) (h : Memory.wf s.mem = true) : WfNext (execEvict s) := by
  refine wf_command _ _ _ h fun c => ?_
  dsimp only
  repeat' split
  all_goals simp [h]

theorem wf_execQuery (s : State) (h : Memory.wf s.mem = true) : WfNext (execQuery s) := by
  refine wf_command _ _ _ h fun c => ?_
  dsimp only
  repeat' split
  all_goals simp [h, wf_memWriteBytes]

theorem wf_execScrubSet (s : State) (h : Memory.wf s.mem = true) : WfNext (execScrubSet s) := by
  refine wf_command _ _ _ h fun c => ?_
  dsimp only
  generalize (if (c.word 1).toNat = 0 then 12 else 4) = units
  split
  · simp [h]
  · exact wf_foldl _ _ _ (fun u x hu => by simp [hu]) h

theorem wf_execAttest (s : State) (h : Memory.wf s.mem = true) : WfNext (execAttest s) := by
  refine wf_command _ _ _ h fun c => ?_
  dsimp only
  repeat' split
  all_goals simp [h, wf_memWriteBytes]

theorem wf_execWriteMem (s : State) (h : Memory.wf s.mem = true) : WfNext (execWriteMem s) := by
  refine wf_command _ _ _ h fun c => ?_
  split
  · simp [h]
  · split
    · simp [h]
    · exact wf_writePieces _ _ _ h ‹_›

theorem wf_execReadMem (s : State) (h : Memory.wf s.mem = true) : WfNext (execReadMem s) := by
  refine wf_command _ _ _ h fun c => ?_
  dsimp only
  repeat' split
  all_goals simp [h, wf_memWriteBytes]

theorem wf_execRegisterWrite (r : RegSel) (x : W64) (s : State) (h : Memory.wf s.mem = true) : WfNext (execRegisterWrite r x s) := by
  unfold execRegisterWrite
  repeat' split
  all_goals simp [h, wf_memSetWord]

/-! ## Supplies and bring-up -/

theorem wf_execPowerGood (b : BringUp) (s : State) (h : Memory.wf s.mem = true) : WfNext (execPowerGood b s) := by
  unfold execPowerGood
  split <;> simp [h]

theorem wf_execPowerOff (s : State) (h : Memory.wf s.mem = true) : WfNext (execPowerOff s) := by
  simp [execPowerOff, h]

theorem wf_execDeviceReset (b : BringUp) (s : State) (h : Memory.wf s.mem = true) : WfNext (execDeviceReset b s) := by
  unfold execDeviceReset
  split <;> simp [h]

theorem wf_execTamperAlarm (level : Fin 4) (sensor : BitVec 12) (s : State) (h : Memory.wf s.mem = true) :
    WfNext (execTamperAlarm level sensor s) := by
  unfold execTamperAlarm
  repeat' split
  all_goals simp [h]

theorem wf_execJunctionTemperature (e : DieId) (milli : Nat) (s : State) (h : Memory.wf s.mem = true) :
    WfNext (execJunctionTemperature e milli s) := by
  unfold execJunctionTemperature
  repeat' split
  all_goals simp [h]

theorem wf_execPackagePowerLimit (s : State) (h : Memory.wf s.mem = true) : WfNext (execPackagePowerLimit s) := by
  unfold execPackagePowerLimit
  split
  · exact (wfNext_next _).2 h
  · exact (wfNext_next _).2 (wf_foldl _ _ _ (fun u d hu => hu) h)

/-! ## Vectors -/

theorem wf_execVredaddF32 (d a : Reg) (q : PReg) (s : State) (h : Memory.wf s.mem = true) : WfNext (execVredaddF32 d a q s) := by
  simp [execVredaddF32, h]

theorem wf_execVredmaxF32 (d a : Reg) (q : PReg) (s : State) (h : Memory.wf s.mem = true) : WfNext (execVredmaxF32 d a q s) := by
  simp [execVredmaxF32, h]

/-! ## Every instruction -/

theorem wfNext_of_mem {s t : State} (hm : t.mem = s.mem) (h : Memory.wf s.mem = true) : WfNext (.next t) := by
  rw [wfNext_next, hm]
  exact h

/-- Every instruction and every event of the agenda keeps the canonical form. The arms are in groups: those that change no memory by
definition, those whose one operation changes none, and the others, one lemma each. -/
theorem wf_exec (i : Instr) (s : State) (h : Memory.wf s.mem = true) : WfNext (exec i s) :=
  match i with
  | .nop .. | .add .. | .sub .. | .and .. | .or .. | .xor .. | .andn .. | .shl .. | .shr .. | .sra .. | .ror .. | .mul .. | .mulhI ..
  | .mulhN .. | .divI .. | .divN .. | .remI .. | .remN .. | .minI .. | .maxI .. | .minN .. | .maxN .. | .clz .. | .popc .. | .sext ..
  | .zext .. | .cmpEq .. | .cmpLtI .. | .cmpLeI .. | .cmpLtN .. | .cmpLeN .. | .sel .. | .addi .. | .andi .. | .ori .. | .xori ..
  | .shli .. | .shri .. | .srai .. | .cmpiEq .. | .cmpiLtI .. | .cmpiLtN .. | .li .. | .lih1 .. | .lih2 .. | .lih3 .. | .addpc ..
  | .vaddI32 .. | .vsubI32 .. | .vmulI32 .. | .vmulhI32 .. | .vmulhN32 .. | .vand .. | .vor .. | .vxor .. | .vshlI32 .. | .vshrI32 ..
  | .vsraI32 .. | .vminI32 .. | .vmaxI32 .. | .vminN32 .. | .vmaxN32 .. | .vaddI16 .. | .vsubI16 .. | .vaddsI16 .. | .vsubsI16 ..
  | .vcmpEqI32 .. | .vcmpLtI32 .. | .vcmpLeI32 .. | .vcmpLtN32 .. | .vcmpLeN32 .. | .vcmpEqF32 .. | .vcmpLtF32 .. | .vcmpLeF32 ..
  | .vcvtF32Bf16 .. | .vcvtF32F16 .. | .vcvtF32E4m3 .. | .vcvtF32E5m2 .. | .vcvtF4xF32 .. | .vcvtF32F4x .. | .vcvtF32Q ..
  | .vredaddI32 .. | .vredmaxI32 .. | .vperm .. | .vrot .. | .vbcast .. | .vext .. | .vins .. | .vsel .. | .vli .. | .pand .. | .por ..
  | .pxor .. | .pnot .. | .pset .. | .pany .. | .pall .. | .ppop .. | .brNz .. | .brZ .. | .jal .. | .arrayWorkComplete ..
  | .ibufFill .. | .tagChangeWake .. | .budgetPeriod .. | .linkUp .. | .clusterCounterStop .. | .dieFailureDeclaration .. =>
    (wfNext_next _).2 h
  | .vaddF32 .. | .vsubF32 .. | .vmulF32 .. | .vminF32 .. | .vmaxF32 .. => wfNext_of_mem (fp2_mem ..) h
  | .vfmaF32 .. | .vfmsF32 .. | .vcvtI32F32 .. | .vcvtF32I32 .. => wfNext_of_mem (fp_mem ..) h
  | .vrcpF32 .. | .vrsqF32 .. | .vexp2F32 .. | .vlog2F32 .. | .vsqrtF32 .. => wfNext_of_mem (fun1_mem ..) h
  | .vcvtBf16F32 .. | .vcvtF16F32 .. | .vcvtE4m3F32 .. | .vcvtE5m2F32 .. | .vcvtQF32 .. => wfNext_of_mem (narrow_mem ..) h
  | .ldbI .. | .ldbN .. | .ldhI .. | .ldhN .. | .ldwI .. | .ldwN .. | .ldd .. => wfNext_of_mem (loadG_mem ..) h
  | .stb .. | .sth .. | .stw .. | .std .. => wfNext_of_mem (storeG_mem ..) h
  | .vld .. => wfNext_of_mem (loadV_mem ..) h
  | .vst .. => wfNext_of_mem (storeV_mem ..) h
  | .vldg .. => wfNext_of_mem (gather_mem ..) h
  | .vsts .. => wfNext_of_mem (scatter_mem ..) h
  | .fenceAcq .. | .fenceRel .. | .fenceFull .. => wfNext_of_mem (addFence_mem ..) h
  | .amoAdd .. | .amoMinI .. | .amoMaxI .. | .amoAnd .. | .amoOr .. | .amoSwap .. | .amoCas .. => wfNext_of_mem (amo_mem ..) h
  | .join | .joinAll | .yield | .exit | .trap .. => wfNext_of_mem (outsideRegion_mem _ _ (transfer_mem ..)) h
  | .fmt .. => wfNext_of_mem (matrixOnly_mem _ _ (result_mem ..)) h
  | .mlatch .. => wfNext_of_mem (matrixOnly_mem _ _ (loadLatch_mem ..)) h
  | .mgather .. => wfNext_of_mem (matrixOnly_mem _ _ (gatherStage_mem ..)) h
  | .mma .. | .mmas .. => wfNext_of_mem (matrixOnly_mem _ _ (multiply_mem ..)) h
  | .mkat .. => wfNext_of_mem (matrixOnly_mem _ _ (knownAnswer_mem ..)) h
  | .cpSrc .. | .cpDst .. => wfNext_of_mem (matrixOnly_mem _ _ (onGeo_mem ..)) h
  | .cpQfence .. | .msLen .. | .msCw .. => wfNext_of_mem (matrixOnly_mem _ _ (onCore_mem ..)) h
  | .cpStatus .. => wfNext_of_mem (matrixOnly_mem _ _ (pending_mem ..)) h
  | .msZero .. | .msCopy .. => wfNext_of_mem (matrixOnly_mem _ _ (rowOp_mem ..)) h
  | .lkSend .. | .lkRecv .. | .lkRaddF32 .. | .lkRaddBf16 .. | .lkRaddI32 .. => wfNext_of_mem (link_mem ..) h
  | .copWb .. | .copInv .. => wfNext_of_mem (cop_mem ..) h
  | .exposedResultLands .. => wfNext_of_mem (landDue_mem ..) h
  | .reclamation .. => wfNext_of_mem (lapse_mem ..) h
  | .gets d imm => wf_execGets d imm s h
  | .sets a imm => wf_execSets a imm s h
  | .vredaddF32 d a q => wf_execVredaddF32 d a q s h
  | .vredmaxF32 d a q => wf_execVredmaxF32 d a q s h
  | .pref a => wf_execPref a s h
  | .res a b => wf_execRes a b s h
  | .ldt d a => wf_execLdt d a s h
  | .ldtp d a => wf_execLdtp d a s h
  | .stt a b => wf_execStt a b s h
  | .sttn d a b => wf_execSttn d a b s h
  | .tagr d a => wf_execTagr d a s h
  | .tagw a b => wf_execTagw a b s h
  | .bind d a b => wf_execBind d a b s h
  | .drain a => wf_execDrain a s h
  | .barInit j a => wf_execBarInit j a s h
  | .barArrive j => wf_execBarArrive j s h
  | .barWait j => wf_execBarWait j s h
  | .ainit a b => wf_execAinit a b s h
  | .adec d a b => wf_execAdec d a b s h
  | .ainc a b => wf_execAinc a b s h
  | .aread d a => wf_execAread d a s h
  | .axread d a => wf_execAxread d a s h
  | .afree a => wf_execAfree a s h
  | .brq c imm => wf_execBrq c imm s h
  | .jr a => wf_execJr a s h
  | .loop c imm => wf_execLoop c imm s h
  | .mst a f c => wf_execMst a f c s h
  | .cpDims a b n => wf_execCpDims a b n s h
  | .cpDimd b n => wf_execCpDimd b n s h
  | .cpGo a n => wf_execCpGo a n s h
  | .cpWait n => wf_execCpWait n s h
  | .lkCw a p => wf_execLkCw a p s h
  | .ckpt imm => wf_execCkpt imm s h
  | .commit => wf_execCommit s h
  | .guard a b => wf_execGuard a b s h
  | .assert a => wf_execAssert a s h
  | .abort => wf_execAbort s h
  | .illegalSyllable w => wf_execIllegalSyllable w s h
  | .suspensionComplete c => wf_execSuspensionComplete c s h
  | .interlockedResultArrives t n => wf_execInterlockedResultArrives t n s h
  | .idleStep t => wf_execIdleStep t s h
  | .pipelineError t => wf_execPipelineError t s h
  | .bankReservationEnd o n => wf_execBankReservationEnd o n s h
  | .fetchDecode c priv => wf_execFetchDecode c priv s h
  | .joinBudgetExpiry c at_ => wf_execJoinBudgetExpiry c at_ s h
  | .tagWaitTimeout t => wf_execTagWaitTimeout t s h
  | .waitHoldTimeout t => wf_execWaitHoldTimeout t s h
  | .barrierArrivalCounted t j => wf_execBarrierArrivalCounted t j s h
  | .pickerSwitch l => wf_execPickerSwitch l s h
  | .epAging c => wf_execEpAging c s h
  | .contextWake c => wf_execContextWake c s h
  | .pageWalk l c va => wf_execPageWalk l c va s h
  | .copyOperationStart o n count => wf_execCopyOperationStart o n count s h
  | .copyOperationComplete o n => wf_execCopyOperationComplete o n s h
  | .msOperationStart o count => wf_execMsOperationStart o count s h
  | .msOperationComplete o => wf_execMsOperationComplete o s h
  | .linkFlitArrival p flit poison => wf_execLinkFlitArrival p flit poison s h
  | .linkSendComplete p peerLen => wf_execLinkSendComplete p peerLen s h
  | .linkReceiveComplete p sendLen => wf_execLinkReceiveComplete p sendLen s h
  | .linkdown p => wf_execLinkdown p s h
  | .linkCancel p => wf_execLinkCancel p s h
  | .timeBeacon errs dieErrs => wf_execTimeBeacon errs dieErrs s h
  | .clusterCounterResume l => wf_execClusterCounterResume l s h
  | .clusterFill l c va => wf_execClusterFill l c va s h
  | .leaseReturn l line => wf_execLeaseReturn l line s h
  | .sliceWritePerformed n => wf_execSliceWritePerformed n s h
  | .deferredAck e line => wf_execDeferredAck e line s h
  | .readshared e line => wf_execReadshared e line s h
  | .readown e line => wf_execReadown e line s h
  | .upgrade e line => wf_execUpgrade e line s h
  | .fwdshared e line => wf_execFwdshared e line s h
  | .fwdown e line => wf_execFwdown e line s h
  | .inv e line => wf_execInv e line s h
  | .backinv e line => wf_execBackinv e line s h
  | .wbdirty e line => wf_execWbdirty e line s h
  | .ack e line => wf_execAck e line s h
  | .data e line => wf_execData e line s h
  | .allowanceRequest l ctr => wf_execAllowanceRequest l ctr s h
  | .serve ctr => wf_execServe ctr s h
  | .grant l ctr => wf_execGrant l ctr s h
  | .recall l ctr => wf_execRecall l ctr s h
  | .recallAnswer l ctr => wf_execRecallAnswer l ctr s h
  | .holdingZeroReport l ctr => wf_execHoldingZeroReport l ctr s h
  | .allowanceLeaseEnd l ctr => wf_execAllowanceLeaseEnd l ctr s h
  | .kernelNodeEval e => wf_execKernelNodeEval e s h
  | .condNodeEval e => wf_execCondNodeEval e s h
  | .switchNodeEval e => wf_execSwitchNodeEval e s h
  | .loopNodeEval e => wf_execLoopNodeEval e s h
  | .joinNodeEval e => wf_execJoinNodeEval e s h
  | .gangRetirement e gang => wf_execGangRetirement e gang s h
  | .heldRetirementProceeds e => wf_execHeldRetirementProceeds e s h
  | .gcommit e gang => wf_execGcommit e gang s h
  | .placementRetry e gang slots => wf_execPlacementRetry e gang slots s h
  | .grstatFaultClear e => wf_execGrstatFaultClear e s h
  | .registerWrite r x => wf_execRegisterWrite r x s h
  | .freeze c => wf_execFreeze c s h
  | .controlCoreResume c => wf_execControlCoreResume c s h
  | .restoration old gang e slots => wf_execRestoration old gang e slots s h
  | .katfailPolicy t => wf_execKatfailPolicy t s h
  | .regionMachineResume c => wf_execRegionMachineResume c s h
  | .lockstepConfirm t sig => wf_execLockstepConfirm t sig s h
  | .patrolScrub g => wf_execPatrolScrub g s h
  | .declarationAtHome home e => wf_execDeclarationAtHome home e s h
  | .salvage home e => wf_execSalvage home e s h
  | .declarationAtTundish home e => wf_execDeclarationAtTundish home e s h
  | .powerGood b => wf_execPowerGood b s h
  | .powerOff => wf_execPowerOff s h
  | .deviceReset b => wf_execDeviceReset b s h
  | .tamperAlarm level sensor => wf_execTamperAlarm level sensor s h
  | .junctionTemperature e milli => wf_execJunctionTemperature e milli s h
  | .packagePowerLimit => wf_execPackagePowerLimit s h
  | .loadGraph => wf_execLoadGraph s h
  | .launch => wf_execLaunch s h
  | .map => wf_execMap s h
  | .unmap => wf_execUnmap s h
  | .asidAlloc => wf_execAsidAlloc s h
  | .asidRetire => wf_execAsidRetire s h
  | .ptsync => wf_execPtsync s h
  | .resume => wf_execResume s h
  | .evict => wf_execEvict s h
  | .query => wf_execQuery s h
  | .scrubSet => wf_execScrubSet s h
  | .attest => wf_execAttest s h
  | .writeMem => wf_execWriteMem s h
  | .readMem => wf_execReadMem s h
  | .softError g correctable => wf_execSoftError g correctable s h
  | .writePerformed n => wf_execWritePerformed n s h
  | .cacheRangeOperationComplete t => wf_execCacheRangeOperationComplete t s h

end Sys2Proof.Proofs

namespace Sys2Proof.Proofs
open Sys2Proof Sys2Proof.Machine Sys2Proof.Laws

/-! # A step keeps the memory's form -/

/-! ## Events of the device -/

/-- An event keeps the memory's canonical form. -/
def KeepsForm (f : Event) : Prop := ∀ s, Memory.wf s.mem = true → WfNext (f s)

/-- Every event of a list keeps the memory's canonical form. -/
def AllKeepForm (fs : List Event) : Prop := ∀ f ∈ fs, KeepsForm f

@[simp] theorem allKeepForm_nil : AllKeepForm [] := by simp [AllKeepForm]

@[simp] theorem allKeepForm_cons (f : Event) (fs : List Event) : AllKeepForm (f :: fs) ↔ KeepsForm f ∧ AllKeepForm fs := by
  simp [AllKeepForm]

@[simp] theorem allKeepForm_append (fs gs : List Event) : AllKeepForm (fs ++ gs) ↔ AllKeepForm fs ∧ AllKeepForm gs := by
  simp [AllKeepForm, or_imp, forall_and]

@[simp] theorem allKeepForm_map {α : Type} (f : α → Event) (xs : List α) (h : ∀ x, KeepsForm (f x)) : AllKeepForm (xs.map f) := by
  simp [AllKeepForm, h]

@[simp] theorem allKeepForm_filterMap {α : Type} (f : α → Option Event) (xs : List α) (h : ∀ x g, f x = some g → KeepsForm g) :
    AllKeepForm (xs.filterMap f) := by
  intro g hg
  obtain ⟨x, _, hx⟩ := List.mem_filterMap.1 hg
  exact h x g hx

@[simp] theorem allKeepForm_flatMap {α : Type} (f : α → List Event) (xs : List α) (h : ∀ x, AllKeepForm (f x)) :
    AllKeepForm (xs.flatMap f) := by
  intro g hg
  obtain ⟨x, _, hx⟩ := List.mem_flatMap.1 hg
  exact h x g hx

@[simp] theorem allKeepForm_ite (p : Prop) [Decidable p] (fs gs : List Event) (hf : AllKeepForm fs) (hg : AllKeepForm gs) :
    AllKeepForm (if p then fs else gs) := by
  split
  · exact hf
  · exact hg

theorem keepsForm_exec (i : Instr) : KeepsForm (exec i) := wf_exec i

theorem keepsForm_tagWake (w : TagWord) (want : Bool) : KeepsForm (tagWake w want) := fun s h => by
  unfold tagWake
  split
  · exact wf_exec (.tagChangeWake w) s h
  · exact (wfNext_next _).2 h

theorem keepsForm_evict (l : ClusterId) (line : Nat) : KeepsForm (evict l line) := fun s h => by
  unfold evict
  split
  · exact wf_execLeaseReturn l line s h
  · exact (wfNext_next _).2 h

theorem keepsForm_restore (key : Nat) (images : List Image) : KeepsForm (restore key images) := fun s h => by
  unfold restore
  dsimp only
  split
  · exact (wfNext_next _).2 h
  · split
    · exact wf_execRestoration _ _ _ _ _ h
    · exact (wfNext_next _).2 h

theorem keepsForm_msgEvent (m : Msg) : KeepsForm (msgEvent m) := by
  unfold msgEvent
  split
  · exact keepsForm_exec (.readshared m.dst m.line)
  · exact keepsForm_exec (.readown m.dst m.line)
  · exact keepsForm_exec (.upgrade m.dst m.line)
  · exact keepsForm_exec (.fwdshared m.dst m.line)
  · exact keepsForm_exec (.fwdown m.dst m.line)
  · exact keepsForm_exec (.inv m.dst m.line)
  · exact keepsForm_exec (.backinv m.dst m.line)
  · exact keepsForm_exec (.wbdirty m.dst m.line)
  · exact keepsForm_exec (.ack m.dst m.line)
  · exact keepsForm_exec (.data m.dst m.line)

theorem keepsForm_amsgEvent (m : AMsg) : KeepsForm (amsgEvent m) :=
  match m with
  | .request ctr q => keepsForm_exec (.allowanceRequest (clusterOfKey q.cluster) ctr)
  | .grant k ctr _ _ _ _ => keepsForm_exec (.grant (clusterOfKey k) ctr)
  | .recall k ctr _ => keepsForm_exec (.recall (clusterOfKey k) ctr)
  | .answer k ctr _ _ => keepsForm_exec (.recallAnswer (clusterOfKey k) ctr)
  | .zero k ctr _ => keepsForm_exec (.holdingZeroReport (clusterOfKey k) ctr)

theorem keepsForm_commandEvent (c : Cmd) : KeepsForm (commandEvent c) := by
  unfold commandEvent
  split
  · exact keepsForm_exec .loadGraph
  · exact keepsForm_exec .launch
  · exact keepsForm_exec .map
  · exact keepsForm_exec .unmap
  · exact keepsForm_exec .asidAlloc
  · exact keepsForm_exec .asidRetire
  · exact keepsForm_exec .ptsync
  · exact keepsForm_exec .resume
  · exact keepsForm_exec .evict
  · exact keepsForm_exec .scrubSet
  · exact keepsForm_exec .attest
  · exact keepsForm_exec .writeMem
  · exact keepsForm_exec .readMem
  · exact keepsForm_exec .query

theorem allKeepForm_singleton {f : Event} (hf : KeepsForm f) : AllKeepForm [f] := (allKeepForm_cons _ _).2 ⟨hf, allKeepForm_nil⟩

theorem allKeepForm_pair {f g : Event} (hf : KeepsForm f) (hg : KeepsForm g) : AllKeepForm [f, g] :=
  (allKeepForm_cons _ _).2 ⟨hf, allKeepForm_singleton hg⟩

theorem allKeepForm_strandEvents (k : Nat) (st : Strand) : AllKeepForm (strandEvents k st) := by
  unfold strandEvents
  simp only [allKeepForm_append]
  refine ⟨⟨⟨⟨⟨⟨?_, ?_⟩, ?_⟩, ?_⟩, ?_⟩, ?_⟩, ?_⟩
  · exact allKeepForm_map _ _ fun p => keepsForm_exec (.interlockedResultArrives _ p.seq)
  · exact allKeepForm_ite _ _ _
      (allKeepForm_pair (keepsForm_exec (.tagWaitTimeout _)) (keepsForm_exec (.waitHoldTimeout _))) allKeepForm_nil
  · exact allKeepForm_ite _ _ _ (allKeepForm_singleton (keepsForm_exec (.cacheRangeOperationComplete _))) allKeepForm_nil
  · exact allKeepForm_map _ _ fun j => keepsForm_exec (.barrierArrivalCounted _ j)
  · split
    · exact allKeepForm_singleton (keepsForm_tagWake _ _)
    · exact allKeepForm_nil
  · exact allKeepForm_ite _ _ _ allKeepForm_nil (allKeepForm_singleton (keepsForm_exec (.lockstepConfirm _ 0)))
  · exact allKeepForm_ite _ _ _ (allKeepForm_singleton (keepsForm_exec (.katfailPolicy _))) allKeepForm_nil

theorem allKeepForm_ctxEvents (k : Nat) (x : Context) : AllKeepForm (ctxEvents k x) := by
  unfold ctxEvents
  simp only [allKeepForm_append, allKeepForm_cons]
  refine ⟨⟨?_, ?_, ?_, ?_, allKeepForm_nil⟩, ?_⟩
  · exact keepsForm_exec (.suspensionComplete _)
  · exact keepsForm_exec (.contextWake _)
  · exact keepsForm_exec (.epAging _)
  · exact keepsForm_exec (.regionMachineResume _)
  · exact allKeepForm_map _ _ fun j => keepsForm_exec (.joinBudgetExpiry _ j.addr)

theorem allKeepForm_coreEvents (k : Nat) (o : Core) : AllKeepForm (coreEvents k o) := by
  unfold coreEvents
  simp only [allKeepForm_append]
  refine ⟨⟨⟨?_, ?_⟩, ?_⟩, ?_⟩
  · exact allKeepForm_map _ _ fun n => keepsForm_exec (.bankReservationEnd _ n)
  · exact allKeepForm_ite _ _ _ (allKeepForm_singleton (keepsForm_exec (.arrayWorkComplete _))) allKeepForm_nil
  · exact allKeepForm_flatMap _ _ fun n => allKeepForm_ite _ _ _ allKeepForm_nil
      (allKeepForm_pair (keepsForm_exec (.copyOperationStart _ n 64)) (keepsForm_exec (.copyOperationComplete _ n)))
  · exact allKeepForm_ite _ _ _ allKeepForm_nil
      (allKeepForm_pair (keepsForm_exec (.msOperationStart _ 64)) (keepsForm_exec (.msOperationComplete _)))

theorem allKeepForm_portEvents (k : Nat) (x : Port) : AllKeepForm (portEvents k x) := by
  unfold portEvents
  dsimp only
  refine (allKeepForm_append _ _).2 ⟨?_, ?_⟩
  · split
    · exact allKeepForm_ite _ _ _ (allKeepForm_singleton (keepsForm_exec (.linkSendComplete _ 0))) allKeepForm_nil
    · exact allKeepForm_nil
  · split
    · exact allKeepForm_ite _ _ _ (allKeepForm_singleton (keepsForm_exec (.linkReceiveComplete _ 0))) allKeepForm_nil
    · exact allKeepForm_nil

theorem allKeepForm_clusterEvents (k : Nat) (x : Cluster) : AllKeepForm (clusterEvents k x) := by
  unfold clusterEvents
  simp only [allKeepForm_append, allKeepForm_cons]
  refine ⟨?_, ?_, ?_⟩
  · exact keepsForm_exec (.pickerSwitch _)
  · exact allKeepForm_map _ _ fun e => keepsForm_exec (.allowanceLeaseEnd _ e.1)
  · exact allKeepForm_map _ _ fun e => keepsForm_evict _ e.1

theorem allKeepForm_dieEvents (s : State) (e : DieId) (d : Die) : AllKeepForm (dieEvents s e d) := by
  unfold dieEvents
  simp only [allKeepForm_append]
  refine ⟨⟨⟨⟨⟨⟨?_, ?_⟩, ?_⟩, ?_⟩, ?_⟩, ?_⟩, ?_⟩
  · exact allKeepForm_map _ _ fun o => keepsForm_exec (.deferredAck e o.line)
  · refine allKeepForm_filterMap _ _ fun x g hg => ?_
    split at hg
    · cases hg
      exact keepsForm_exec (.data e x.1)
    · cases hg
  · refine allKeepForm_flatMap _ _ fun x => (allKeepForm_append _ _).2 ⟨?_, ?_⟩
    · exact allKeepForm_ite _ _ _ allKeepForm_nil (allKeepForm_singleton (keepsForm_exec (.serve x.1)))
    · exact allKeepForm_map _ _ fun y => keepsForm_exec (.reclamation _ x.1)
  · refine allKeepForm_ite _ _ _ allKeepForm_nil ?_
    simp only [allKeepForm_cons]
    exact ⟨keepsForm_exec (.kernelNodeEval e), keepsForm_exec (.condNodeEval e), keepsForm_exec (.switchNodeEval e),
      keepsForm_exec (.loopNodeEval e), keepsForm_exec (.joinNodeEval e), allKeepForm_nil⟩
  · exact allKeepForm_ite _ _ _ allKeepForm_nil
      (allKeepForm_singleton fun u hu => (wfNext_next _).2 (wf_settle u e 16 hu))
  · exact allKeepForm_ite _ _ _ allKeepForm_nil (allKeepForm_singleton (keepsForm_exec (.heldRetirementProceeds e)))
  · exact allKeepForm_map _ _ fun w => keepsForm_exec (.placementRetry e w.gang (s.slotsFor e w))

theorem allKeepForm_lossEvents (s : State) : AllKeepForm (lossEvents s) := by
  refine allKeepForm_flatMap _ _ fun e => allKeepForm_flatMap _ _ fun d => ?_
  simp only [allKeepForm_append, allKeepForm_cons]
  refine ⟨?_, ?_, ?_⟩
  · exact keepsForm_exec (.salvage d e)
  · exact allKeepForm_ite _ _ _ allKeepForm_nil (allKeepForm_singleton (keepsForm_exec (.declarationAtHome d e)))
  · exact allKeepForm_ite _ _ _ allKeepForm_nil (allKeepForm_singleton (keepsForm_exec (.declarationAtTundish d e)))

theorem allKeepForm_events (s : State) : AllKeepForm s.events := by
  unfold State.events
  simp only [allKeepForm_append]
  refine ⟨⟨⟨⟨⟨⟨⟨⟨⟨⟨⟨⟨?_, ?_⟩, ?_⟩, ?_⟩, ?_⟩, ?_⟩, ?_⟩, ?_⟩, ?_⟩, ?_⟩, ?_⟩, ?_⟩, ?_⟩
  · exact allKeepForm_flatMap _ _ fun x => allKeepForm_strandEvents x.1 x.2
  · exact allKeepForm_flatMap _ _ fun x => allKeepForm_ctxEvents x.1 x.2
  · exact allKeepForm_flatMap _ _ fun x => allKeepForm_coreEvents x.1 x.2
  · exact allKeepForm_flatMap _ _ fun d => allKeepForm_flatMap _ _ fun l => allKeepForm_clusterEvents l.key _
  · exact allKeepForm_flatMap _ _ fun x => allKeepForm_portEvents x.1 x.2
  · exact allKeepForm_flatMap _ _ fun w =>
      allKeepForm_pair (keepsForm_exec (.writePerformed w.seq)) (keepsForm_exec (.sliceWritePerformed w.seq))
  · exact allKeepForm_map _ _ keepsForm_msgEvent
  · exact allKeepForm_map _ _ keepsForm_amsgEvent
  · exact allKeepForm_flatMap _ _ fun d => allKeepForm_dieEvents s d _
  · refine allKeepForm_flatMap _ _ fun x => ?_
    split
    · exact allKeepForm_singleton (keepsForm_restore _ _)
    · exact allKeepForm_nil
  · exact allKeepForm_map _ _ fun x => keepsForm_exec (.gangRetirement _ _)
  · exact allKeepForm_lossEvents s
  · split
    · exact allKeepForm_singleton (keepsForm_commandEvent _)
    · exact allKeepForm_nil

theorem allKeepForm_rotateLeft (fs : List Event) (n : Nat) (h : AllKeepForm fs) : AllKeepForm (fs.rotateLeft n) := fun f hf => by
  unfold List.rotateLeft at hf
  dsimp only at hf
  split at hf
  · exact h f hf
  · obtain hd | ht := List.mem_append.1 hf
    · exact h f (List.mem_of_mem_drop hd)
    · exact h f (List.mem_of_mem_take ht)

theorem wf_firstChange (s t : State) (fs : List Event) (hk : AllKeepForm fs) (h : Memory.wf s.mem = true)
    (ht : s.firstChange fs = some t) : Memory.wf t.mem = true := by
  induction fs with
  | nil => cases ht
  | cons f r ih =>
    obtain ⟨hf, hr⟩ := (allKeepForm_cons f r).1 hk
    unfold State.firstChange at ht
    split at ht
    · split at ht
      · exact ih hr ht
      · cases ht
        exact hf s h _ ‹_›
    · exact ih hr ht

theorem wf_runEvent (s : State) (h : Memory.wf s.mem = true) : Memory.wf s.runEvent.1.mem = true := by
  unfold State.runEvent
  dsimp only
  split
  · exact wf_firstChange s _ _ (allKeepForm_rotateLeft _ _ (allKeepForm_events s)) h ‹_›
  · exact h

/-! ## The issue of a bundle -/

theorem refetchAll_mem (s : State) (c : CtxId) (fuel : Nat) : (s.refetchAll c fuel).mem = s.mem := by
  induction fuel generalizing s with
  | zero => rfl
  | succ k ih =>
    unfold State.refetchAll
    split
    · rfl
    · split
      · rw [ih, fetchTeam_mem _ _ ‹_›]
      · rfl

theorem nextBundle_mem (s : State) (t : StrandId) {b : Decoded} {u : State} (hu : s.nextBundle t = .got b u) : u.mem = s.mem := by
  have hall (p : Prop) [Decidable p] : (if p then s.refetchAll t.ctxId 64 else s).mem = s.mem := by
    split
    · exact refetchAll_mem _ _ _
    · rfl
  unfold State.nextBundle at hu
  dsimp only at hu
  split at hu
  · split at hu
    · cases hu
      rfl
    · split at hu
      · cases hu
        exact hall _
      · split at hu
        · cases hu
        · have hf := fetchFor_mem _ _ _ ‹_›
          cases hu
          split
          all_goals simp only [refetched_mem, setStrand_mem, hf]
          all_goals exact hall _
  · split at hu
    · cases hu
    · split at hu
      · cases hu
      · rename_i hfetch
        split at hu
        · cases hu
          split at hfetch
          · rw [fetchNew_mem _ _ hfetch, refetchAll_mem]
          · exact fetchPrivate_mem _ _ hfetch
        · cases hu

/-- What comes before the syllables of a bundle leaves the memory of `s` as it was. -/
def OpenKeepsMem (s : State) (x : Opened) : Prop :=
  match x with
  | .done t => t.mem = s.mem
  | .blocked t => t.mem = s.mem
  | .run before start _ => before.mem = s.mem ∧ start.mem = s.mem

theorem openKeepsMem_of_mem {s u : State} {x : Opened} (hu : u.mem = s.mem) (hx : OpenKeepsMem u x) : OpenKeepsMem s x := by
  cases x with
  | done t => exact hx.trans hu
  | blocked t => exact hx.trans hu
  | run before start is => exact ⟨hx.1.trans hu, hx.2.trans hu⟩

@[simp] theorem beginIssue_mem (s : State) (b : Decoded) (is : List (Nat × Instr)) : (s.beginIssue b is).mem = s.mem := by
  simp [State.beginIssue]

theorem openKeepsMem_startBundle (s : State) (b : Decoded) : OpenKeepsMem s (s.startBundle b) := by
  unfold State.startBundle
  dsimp only
  repeat' split
  all_goals simp [OpenKeepsMem]

theorem openKeepsMem_openBundle (s : State) : OpenKeepsMem s s.openBundle := by
  unfold State.openBundle
  dsimp only
  split
  · rfl
  · split
    · exact idleOnce_mem _ _
    · split
      · exact trapOpen_mem _ _ _ _ _
      · split
        · rfl
        · split
          · exact trapOpen_mem _ _ _ _ _
          · rfl
          · rename_i b u hu
            exact openKeepsMem_of_mem (nextBundle_mem _ _ hu) (openKeepsMem_startBundle u b)

theorem openKeepsMem_openCopy (s : State) : OpenKeepsMem s s.openCopy := by
  unfold State.openCopy
  dsimp only
  repeat' split
  all_goals simp [OpenKeepsMem]

theorem openKeepsMem_openTurn (s : State) : OpenKeepsMem s s.openTurn := by
  unfold State.openTurn
  split
  · rfl
  · split
    · exact openKeepsMem_openCopy s
    · exact openKeepsMem_openBundle s

theorem wf_runSyllables (is : List (Nat × Instr)) (s : State) (h : Memory.wf s.mem = true) : WfNext (runSyllables is s) := by
  induction is generalizing s with
  | nil => exact (wfNext_next _).2 h
  | cons x r ih =>
    obtain ⟨p, i⟩ := x
    intro t ht
    unfold runSyllables at ht
    split at ht
    · exact ih _ (wf_exec i (s.atPosition p) h _ ‹_›) t ht
    · cases ht
    · cases ht

/-! ## The step -/

theorem wf_tickOver (s : State) (n : Nat) (h : Memory.wf s.mem = true) : Memory.wf (s.tickOver n).mem = true := by
  rw [tickOver_mem]
  exact h

/-- A step that takes the event at the head of the agenda. -/
theorem wf_agendaStep (s : State) (i : Instr) (r : List Instr) (ha : s.agenda = i :: r) (h : Memory.wf s.mem = true) : WfNext (step s) := by
  unfold step
  rw [ha]
  dsimp only
  split
  · split
    · exact (wfNext_next _).2 (wf_tickOver _ 0 (wf_exec i _ (wf_beforeEvent { s with agenda := r } i h) _ ‹_›))
    · intro t ht
      cases ht
    · intro t ht
      cases ht
  · exact (wfNext_next _).2 (wf_tickOver _ 0 h)

/-- A step without an agenda: a bundle of the strand whose turn it is, or an event of the device's own. -/
theorem wf_turnStep (s : State) (ha : s.agenda = []) (h : Memory.wf s.mem = true) : WfNext (step s) := by
  have h0 := wf_findErrors s h
  have ho := openKeepsMem_openTurn s.findErrors
  unfold step
  rw [ha]
  dsimp only
  split
  · intro t ht
    cases ht
  · split
    · rename_i u hu
      rw [hu] at ho
      exact (wfNext_next _).2 (wf_tickOver _ 0 (ho ▸ h0))
    · rename_i u hu
      rw [hu] at ho
      exact (wfNext_next _).2 (wf_tickOver _ _ (wf_runEvent u (ho ▸ h0)))
    · rename_i before start is hu
      rw [hu] at ho
      obtain ⟨hb, hs⟩ := ho
      split
      · exact (wfNext_next _).2 (wf_tickOver _ 0 (wf_closeTurn _ _ (hb ▸ h0) (wf_runSyllables is start (hs ▸ h0) _ ‹_›)))
      · intro t ht
        cases ht
      · intro t ht
        cases ht

/-- Settles O54: each operation on the state either leaves the memory alone or writes it through `memWrite`, which keeps the
form; so each instruction, each event and the opening and close of a bundle keep it. -/
theorem memoryKeepsItsForm : Obligations.MemoryKeepsItsForm := by
  unfold Obligations.MemoryKeepsItsForm
  intro s t h ht
  cases ha : s.agenda with
  | nil => exact wf_turnStep s ha h t ht
  | cons i r => exact wf_agendaStep s i r ha h t ht

end Sys2Proof.Proofs

namespace Sys2Proof.Proofs
open Sys2Proof Sys2Proof.Machine Sys2Proof.Laws

/-! # Decoding and encoding agree -/

/-- The laws of the single instructions, in the order of the constructors. -/
theorem roundTrip (i : Instr) : RoundTrip.Statement i :=
  Instr.casesOn i
    RoundTrip.nop RoundTrip.add RoundTrip.sub RoundTrip.and RoundTrip.or RoundTrip.xor RoundTrip.andn RoundTrip.shl RoundTrip.shr
    RoundTrip.sra RoundTrip.ror RoundTrip.mul RoundTrip.mulhI RoundTrip.mulhN RoundTrip.divI RoundTrip.divN RoundTrip.remI RoundTrip.remN
    RoundTrip.minI RoundTrip.maxI RoundTrip.minN RoundTrip.maxN RoundTrip.clz RoundTrip.popc RoundTrip.sext RoundTrip.zext RoundTrip.cmpEq
    RoundTrip.cmpLtI RoundTrip.cmpLeI RoundTrip.cmpLtN RoundTrip.cmpLeN RoundTrip.sel RoundTrip.addi RoundTrip.andi RoundTrip.ori
    RoundTrip.xori RoundTrip.shli RoundTrip.shri RoundTrip.srai RoundTrip.cmpiEq RoundTrip.cmpiLtI RoundTrip.cmpiLtN RoundTrip.li
    RoundTrip.lih1 RoundTrip.lih2 RoundTrip.lih3 RoundTrip.addpc RoundTrip.gets RoundTrip.sets RoundTrip.vaddI32 RoundTrip.vsubI32
    RoundTrip.vmulI32 RoundTrip.vmulhI32 RoundTrip.vmulhN32 RoundTrip.vand RoundTrip.vor RoundTrip.vxor RoundTrip.vshlI32
    RoundTrip.vshrI32 RoundTrip.vsraI32 RoundTrip.vminI32 RoundTrip.vmaxI32 RoundTrip.vminN32 RoundTrip.vmaxN32 RoundTrip.vaddI16
    RoundTrip.vsubI16 RoundTrip.vaddsI16 RoundTrip.vsubsI16 RoundTrip.vcmpEqI32 RoundTrip.vcmpLtI32 RoundTrip.vcmpLeI32
    RoundTrip.vcmpLtN32 RoundTrip.vcmpLeN32 RoundTrip.vaddF32 RoundTrip.vsubF32 RoundTrip.vmulF32 RoundTrip.vminF32 RoundTrip.vmaxF32
    RoundTrip.vfmaF32 RoundTrip.vfmsF32 RoundTrip.vcmpEqF32 RoundTrip.vcmpLtF32 RoundTrip.vcmpLeF32 RoundTrip.vrcpF32 RoundTrip.vrsqF32
    RoundTrip.vexp2F32 RoundTrip.vlog2F32 RoundTrip.vsqrtF32 RoundTrip.vcvtBf16F32 RoundTrip.vcvtF32Bf16 RoundTrip.vcvtF16F32
    RoundTrip.vcvtF32F16 RoundTrip.vcvtE4m3F32 RoundTrip.vcvtE5m2F32 RoundTrip.vcvtF32E4m3 RoundTrip.vcvtF32E5m2 RoundTrip.vcvtF4xF32
    RoundTrip.vcvtF32F4x RoundTrip.vcvtI32F32 RoundTrip.vcvtF32I32 RoundTrip.vcvtQF32 RoundTrip.vcvtF32Q RoundTrip.vredaddI32
    RoundTrip.vredaddF32 RoundTrip.vredmaxF32 RoundTrip.vredmaxI32 RoundTrip.vperm RoundTrip.vrot RoundTrip.vbcast RoundTrip.vext
    RoundTrip.vins RoundTrip.vsel RoundTrip.vli RoundTrip.pand RoundTrip.por RoundTrip.pxor RoundTrip.pnot RoundTrip.pset RoundTrip.pany
    RoundTrip.pall RoundTrip.ppop RoundTrip.ldbI RoundTrip.ldbN RoundTrip.ldhI RoundTrip.ldhN RoundTrip.ldwI RoundTrip.ldwN RoundTrip.ldd
    RoundTrip.stb RoundTrip.sth RoundTrip.stw RoundTrip.std RoundTrip.vld RoundTrip.vst RoundTrip.vldg RoundTrip.vsts RoundTrip.pref
    RoundTrip.res RoundTrip.ldt RoundTrip.ldtp RoundTrip.stt RoundTrip.sttn RoundTrip.tagr RoundTrip.tagw RoundTrip.bind RoundTrip.drain
    RoundTrip.fenceAcq RoundTrip.fenceRel RoundTrip.fenceFull RoundTrip.barInit RoundTrip.barArrive RoundTrip.barWait RoundTrip.amoAdd
    RoundTrip.amoMinI RoundTrip.amoMaxI RoundTrip.amoAnd RoundTrip.amoOr RoundTrip.amoSwap RoundTrip.amoCas RoundTrip.ainit RoundTrip.adec
    RoundTrip.ainc RoundTrip.aread RoundTrip.axread RoundTrip.afree RoundTrip.brNz RoundTrip.brZ RoundTrip.brq RoundTrip.jal RoundTrip.jr
    RoundTrip.loop RoundTrip.join RoundTrip.joinAll RoundTrip.yield RoundTrip.exit RoundTrip.trap RoundTrip.fmt RoundTrip.mlatch
    RoundTrip.mgather RoundTrip.mma RoundTrip.mmas RoundTrip.mst RoundTrip.mkat RoundTrip.cpSrc RoundTrip.cpDst RoundTrip.cpDims
    RoundTrip.cpDimd RoundTrip.cpGo RoundTrip.cpQfence RoundTrip.cpStatus RoundTrip.cpWait RoundTrip.msLen RoundTrip.msCw RoundTrip.msZero
    RoundTrip.msCopy RoundTrip.lkCw RoundTrip.lkSend RoundTrip.lkRecv RoundTrip.lkRaddF32 RoundTrip.lkRaddBf16 RoundTrip.lkRaddI32
    RoundTrip.ckpt RoundTrip.commit RoundTrip.guard RoundTrip.assert RoundTrip.abort RoundTrip.copWb RoundTrip.copInv
    RoundTrip.illegalSyllable RoundTrip.suspensionComplete RoundTrip.exposedResultLands RoundTrip.interlockedResultArrives
    RoundTrip.idleStep RoundTrip.pipelineError RoundTrip.bankReservationEnd RoundTrip.arrayWorkComplete RoundTrip.fetchDecode
    RoundTrip.ibufFill RoundTrip.joinBudgetExpiry RoundTrip.tagWaitTimeout RoundTrip.waitHoldTimeout RoundTrip.tagChangeWake
    RoundTrip.barrierArrivalCounted RoundTrip.pickerSwitch RoundTrip.epAging RoundTrip.contextWake RoundTrip.budgetPeriod
    RoundTrip.pageWalk RoundTrip.copyOperationStart RoundTrip.copyOperationComplete RoundTrip.msOperationStart
    RoundTrip.msOperationComplete RoundTrip.linkFlitArrival RoundTrip.linkSendComplete RoundTrip.linkReceiveComplete RoundTrip.linkdown
    RoundTrip.linkCancel RoundTrip.linkUp RoundTrip.timeBeacon RoundTrip.clusterCounterStop RoundTrip.clusterCounterResume
    RoundTrip.clusterFill RoundTrip.leaseReturn RoundTrip.sliceWritePerformed RoundTrip.deferredAck RoundTrip.readshared RoundTrip.readown
    RoundTrip.upgrade RoundTrip.fwdshared RoundTrip.fwdown RoundTrip.inv RoundTrip.backinv RoundTrip.wbdirty RoundTrip.ack RoundTrip.data
    RoundTrip.allowanceRequest RoundTrip.serve RoundTrip.grant RoundTrip.recall RoundTrip.recallAnswer RoundTrip.holdingZeroReport
    RoundTrip.allowanceLeaseEnd RoundTrip.reclamation RoundTrip.kernelNodeEval RoundTrip.condNodeEval RoundTrip.switchNodeEval
    RoundTrip.loopNodeEval RoundTrip.joinNodeEval RoundTrip.gangRetirement RoundTrip.heldRetirementProceeds RoundTrip.gcommit
    RoundTrip.placementRetry RoundTrip.grstatFaultClear RoundTrip.registerWrite RoundTrip.freeze RoundTrip.controlCoreResume
    RoundTrip.restoration RoundTrip.katfailPolicy RoundTrip.regionMachineResume RoundTrip.lockstepConfirm RoundTrip.patrolScrub
    RoundTrip.dieFailureDeclaration RoundTrip.declarationAtHome RoundTrip.salvage RoundTrip.declarationAtTundish RoundTrip.powerGood
    RoundTrip.powerOff RoundTrip.deviceReset RoundTrip.tamperAlarm RoundTrip.junctionTemperature RoundTrip.packagePowerLimit
    RoundTrip.loadGraph RoundTrip.launch RoundTrip.map RoundTrip.unmap RoundTrip.asidAlloc RoundTrip.asidRetire RoundTrip.ptsync
    RoundTrip.resume RoundTrip.evict RoundTrip.query RoundTrip.scrubSet RoundTrip.attest RoundTrip.writeMem RoundTrip.readMem
    RoundTrip.softError RoundTrip.writePerformed RoundTrip.cacheRangeOperationComplete

/-! ## Fields of a word as numbers -/

theorem majorOf_nat (w : W32) : majorOf w = w.toNat / 2 ^ 24 % 2 ^ 7 := extractLsb'_toNat_div w 24 7

theorem stopBit_nat (w : W32) : (BitVec.ofBool (stopBit w)).toNat = w.toNat / 2 ^ 31 := by
  have hw := w.isLt
  have h : stopBit w = decide (w.toNat / 2 ^ 31 % 2 = 1) := Nat.testBit_eq_decide_div_mod_eq
  rw [BitVec.toNat_ofBool, h]
  by_cases h1 : w.toNat / 2 ^ 31 % 2 = 1 <;> simp only [h1, decide_true, decide_false, Bool.toNat_true, Bool.toNat_false] <;> omega

/-- A word is its stop bit before the 31 bits below it (R22). -/
theorem stopBit_append (w : W32) (b : BitVec 31) (h : b.toNat = w.toNat % 2 ^ 31) : BitVec.ofBool (stopBit w) ++ b = w := by
  apply BitVec.eq_of_toNat_eq
  refine (app_nat _ b).trans ?_
  rw [stopBit_nat, h]; omega

/-! ## Reserved fields -/

/-- The mask of the fields with the given places and widths. -/
def masks (fs : List (Nat × Nat)) : W32 := fs.foldr (fun f m => maskBits f.1 f.2 ||| m) 0

theorem field_of_mask {w : W32} {st n : Nat} (h : w &&& maskBits st n = 0) (hn : st + n ≤ 32) : w.toNat / 2 ^ st % 2 ^ n = 0 := by
  have hf : w.extractLsb' st n = 0 := by
    apply BitVec.eq_of_getLsbD_eq; intro i hi
    have hb := congrArg (fun x => x.getLsbD (st + i)) h
    simpa [maskBits, hi, show st + i < 32 by omega, show i < 32 by omega] using hb
  rw [← extractLsb'_toNat_div, hf]; rfl

theorem fields_of_masks {w : W32} (fs : List (Nat × Nat)) (hn : ∀ f ∈ fs, f.1 + f.2 ≤ 32) (h : w &&& masks fs = 0) :
    ∀ f ∈ fs, w.toNat / 2 ^ f.1 % 2 ^ f.2 = 0 := by
  induction fs with
  | nil => exact fun f hf => nomatch hf
  | cons f fs ih =>
    have hs : w &&& maskBits f.1 f.2 ||| w &&& masks fs = 0 := by rw [← BitVec.and_or_distrib_left]; exact h
    obtain ⟨h1, h2⟩ := BitVec.or_eq_zero_iff.1 hs
    exact List.forall_mem_cons.2 ⟨field_of_mask h1 (hn f (by simp)), ih (fun g hg => hn g (by simp [hg])) h2⟩

/-! ## One reading of a word -/

/-- What a reading of a word answers, if an instruction, keeps the limits of R33 and has that word. -/
def Decodes (w : W32) (r : Except Reject Instr) : Prop :=
  ∀ i, r = .ok i → i.wellFormed = true ∧ encode (stopBit w) i = some w

theorem decodes_error (w : W32) (e : Reject) : Decodes w (.error e) := fun _ h => nomatch h

/-- A syllable with reserved fields `fs`: it is enough that the bits which the encoder gives hold the word's number wherever those fields
are 0. -/
theorem decodes_syllable {w res : W32} {i : Instr} {b : BitVec 31} (fs : List (Nat × Nat)) (hb : encodeBody i = some b)
    (hr : res = masks fs) (hn : ∀ f ∈ fs, f.1 + f.2 ≤ 32)
    (h : (∀ f ∈ fs, w.toNat / 2 ^ f.1 % 2 ^ f.2 = 0) → b.toNat = w.toNat % 2 ^ 31) : Decodes w (syllable w res i) := by
  intro j hj
  unfold syllable at hj
  split at hj
  next hz =>
    split at hj
    next hw =>
      obtain rfl := Except.ok.inj hj
      have hv := h (fields_of_masks fs hn (hr ▸ hz))
      exact ⟨hw, by rw [encode, hb, Option.map_some, stopBit_append w b hv]⟩
    next => cases hj
  next => cases hj

/-! ## Layouts that instructions share

Each is named after its operand fields; `m` is the major opcode, `t` the selector. -/

section
variable {w : W32} {m t : Nat} {i : Instr} (hm : majorOf w = m)
include hm

theorem decodes_threeRegs (ht : (w.extractLsb' 0 3).toNat = t)
    (hi : encodeBody i = some (BitVec.ofNat 7 m ++ w.extractLsb' 18 6 ++ w.extractLsb' 12 6 ++ w.extractLsb' 6 6 ++ BitVec.ofNat 6 t)) :
    Decodes w (syllable w 0x00000038 i) :=
  decodes_syllable [(3, 3)] hi (by decide) (by decide) fun h => (app_nat _ _).trans (by
    simp only [List.forall_mem_cons, majorOf_nat, app_nat, extractLsb'_toNat_div, BitVec.toNat_ofNat] at h hm ht ⊢; omega)

theorem decodes_twoRegs (ht : (w.extractLsb' 0 3).toNat = t)
    (hi : encodeBody i = some (BitVec.ofNat 7 m ++ w.extractLsb' 18 6 ++ w.extractLsb' 12 6 ++ BitVec.ofNat 12 t)) :
    Decodes w (syllable w 0x00000FF8 i) :=
  decodes_syllable [(3, 9)] hi (by decide) (by decide) fun h => (app_nat _ _).trans (by
    simp only [List.forall_mem_cons, majorOf_nat, app_nat, extractLsb'_toNat_div, BitVec.toNat_ofNat] at h hm ht ⊢; omega)

theorem decodes_firstReg (ht : (w.extractLsb' 0 3).toNat = t)
    (hi : encodeBody i = some (BitVec.ofNat 7 m ++ w.extractLsb' 18 6 ++ BitVec.ofNat 18 t)) :
    Decodes w (syllable w 0x0003FFF8 i) :=
  decodes_syllable [(3, 15)] hi (by decide) (by decide) fun h => (app_nat _ _).trans (by
    simp only [List.forall_mem_cons, majorOf_nat, app_nat, extractLsb'_toNat_div, BitVec.toNat_ofNat] at h hm ht ⊢; omega)

theorem decodes_regA (ht : (w.extractLsb' 0 3).toNat = t)
    (hi : encodeBody i = some (BitVec.ofNat 7 m ++ BitVec.ofNat 6 0 ++ w.extractLsb' 12 6 ++ BitVec.ofNat 12 t)) :
    Decodes w (syllable w 0x00FC0FF8 i) :=
  decodes_syllable [(3, 9), (18, 6)] hi (by decide) (by decide) fun h => (app_nat _ _).trans (by
    simp only [List.forall_mem_cons, majorOf_nat, app_nat, extractLsb'_toNat_div, BitVec.toNat_ofNat] at h hm ht ⊢; omega)

theorem decodes_regsAB (ht : (w.extractLsb' 0 3).toNat = t)
    (hi : encodeBody i = some (BitVec.ofNat 7 m ++ BitVec.ofNat 6 0 ++ w.extractLsb' 12 6 ++ w.extractLsb' 6 6 ++ BitVec.ofNat 6 t)) :
    Decodes w (syllable w 0x00FC0038 i) :=
  decodes_syllable [(3, 3), (18, 6)] hi (by decide) (by decide) fun h => (app_nat _ _).trans (by
    simp only [List.forall_mem_cons, majorOf_nat, app_nat, extractLsb'_toNat_div, BitVec.toNat_ofNat] at h hm ht ⊢; omega)

theorem decodes_fieldB (ht : (w.extractLsb' 0 3).toNat = t)
    (hi : encodeBody i = some (BitVec.ofNat 7 m ++ BitVec.ofNat 12 0 ++ w.extractLsb' 6 6 ++ BitVec.ofNat 6 t)) :
    Decodes w (syllable w 0x00FFF038 i) :=
  decodes_syllable [(3, 3), (12, 12)] hi (by decide) (by decide) fun h => (app_nat _ _).trans (by
    simp only [List.forall_mem_cons, majorOf_nat, app_nat, extractLsb'_toNat_div, BitVec.toNat_ofNat] at h hm ht ⊢; omega)

theorem decodes_noOperand (ht : (w.extractLsb' 0 3).toNat = t)
    (hi : encodeBody i = some (BitVec.ofNat 7 m ++ BitVec.ofNat 24 t)) :
    Decodes w (syllable w 0x00FFFFF8 i) :=
  decodes_syllable [(3, 21)] hi (by decide) (by decide) fun h => (app_nat _ _).trans (by
    simp only [List.forall_mem_cons, majorOf_nat, extractLsb'_toNat_div, BitVec.toNat_ofNat] at h hm ht ⊢; omega)

theorem decodes_threeRegsPred (ht : (w.extractLsb' 0 3).toNat = t)
    (hi : encodeBody i = some (BitVec.ofNat 7 m ++ w.extractLsb' 18 6 ++ w.extractLsb' 12 6 ++ w.extractLsb' 6 6 ++ w.extractLsb' 3 3 ++
        BitVec.ofNat 3 t)) :
    Decodes w (syllable w 0x00000000 i) :=
  decodes_syllable [] hi (by decide) (by decide) fun _ => (app_nat _ _).trans (by
    simp only [majorOf_nat, app_nat, extractLsb'_toNat_div, BitVec.toNat_ofNat] at hm ht ⊢; omega)

theorem decodes_twoRegsPred (ht : (w.extractLsb' 0 3).toNat = t)
    (hi : encodeBody i = some (BitVec.ofNat 7 m ++ w.extractLsb' 18 6 ++ w.extractLsb' 12 6 ++ BitVec.ofNat 6 0 ++ w.extractLsb' 3 3 ++
        BitVec.ofNat 3 t)) :
    Decodes w (syllable w 0x00000FC0 i) :=
  decodes_syllable [(6, 6)] hi (by decide) (by decide) fun h => (app_nat _ _).trans (by
    simp only [List.forall_mem_cons, majorOf_nat, app_nat, extractLsb'_toNat_div, BitVec.toNat_ofNat] at h hm ht ⊢; omega)

theorem decodes_imm12 (hi : encodeBody i = some (BitVec.ofNat 7 m ++ w.extractLsb' 18 6 ++ w.extractLsb' 12 6 ++ w.extractLsb' 0 12)) :
    Decodes w (syllable w 0x00000000 i) :=
  decodes_syllable [] hi (by decide) (by decide) fun _ => (app_nat _ _).trans (by
    simp only [majorOf_nat, app_nat, extractLsb'_toNat_div, BitVec.toNat_ofNat] at hm ⊢; omega)

theorem decodes_imm18 (hi : encodeBody i = some (BitVec.ofNat 7 m ++ w.extractLsb' 18 6 ++ w.extractLsb' 0 18)) :
    Decodes w (syllable w 0x00000000 i) :=
  decodes_syllable [] hi (by decide) (by decide) fun _ => (app_nat _ _).trans (by
    simp only [majorOf_nat, app_nat, extractLsb'_toNat_div, BitVec.toNat_ofNat] at hm ⊢; omega)

theorem decodes_imm9 (hi : encodeBody i = some (BitVec.ofNat 7 m ++ w.extractLsb' 18 6 ++ w.extractLsb' 12 6 ++ w.extractLsb' 3 9 ++
    BitVec.ofNat 3 0)) :
    Decodes w (syllable w 0x00000007 i) :=
  decodes_syllable [(0, 3)] hi (by decide) (by decide) fun h => (app_nat _ _).trans (by
    simp only [List.forall_mem_cons, majorOf_nat, app_nat, extractLsb'_toNat_div, BitVec.toNat_ofNat] at h hm ⊢; omega)

theorem decodes_imm9Pred (hi : encodeBody i = some (BitVec.ofNat 7 m ++ w.extractLsb' 18 6 ++ w.extractLsb' 12 6 ++ w.extractLsb' 3 9 ++
    w.extractLsb' 0 3)) :
    Decodes w (syllable w 0x00000000 i) :=
  decodes_syllable [] hi (by decide) (by decide) fun _ => (app_nat _ _).trans (by
    simp only [majorOf_nat, app_nat, extractLsb'_toNat_div, BitVec.toNat_ofNat] at hm ⊢; omega)

theorem decodes_shift (ht : (w.extractLsb' 6 2).toNat = t)
    (hi : encodeBody i = some (BitVec.ofNat 7 m ++ w.extractLsb' 18 6 ++ w.extractLsb' 12 6 ++ BitVec.ofNat 6 t ++ w.extractLsb' 0 6)) :
    Decodes w (syllable w 0x00000F00 i) :=
  decodes_syllable [(8, 4)] hi (by decide) (by decide) fun h => (app_nat _ _).trans (by
    simp only [List.forall_mem_cons, majorOf_nat, app_nat, extractLsb'_toNat_div, BitVec.toNat_ofNat] at h hm ht ⊢; omega)

theorem decodes_imm10 (ht : (w.extractLsb' 10 2).toNat = t)
    (hi : encodeBody i = some (BitVec.ofNat 7 m ++ w.extractLsb' 18 6 ++ w.extractLsb' 12 6 ++ BitVec.ofNat 2 t ++ w.extractLsb' 0 10)) :
    Decodes w (syllable w 0x00000000 i) :=
  decodes_syllable [] hi (by decide) (by decide) fun _ => (app_nat _ _).trans (by
    simp only [majorOf_nat, app_nat, extractLsb'_toNat_div, BitVec.toNat_ofNat] at hm ht ⊢; omega)

theorem decodes_matrix (hi : encodeBody i = some (BitVec.ofNat 7 m ++ BitVec.ofNat 12 0 ++ w.extractLsb' 10 2 ++ BitVec.ofNat 3 0 ++
    w.extractLsb' 6 1 ++ BitVec.ofNat 4 0 ++ w.extractLsb' 1 1 ++ w.extractLsb' 0 1)) :
    Decodes w (syllable w 0x00FFF3BC i) :=
  decodes_syllable [(2, 4), (7, 3), (12, 12)] hi (by decide) (by decide) fun h => (app_nat _ _).trans (by
    simp only [List.forall_mem_cons, majorOf_nat, app_nat, extractLsb'_toNat_div, BitVec.toNat_ofNat] at h hm ⊢; omega)

theorem decodes_engineReg (ht : (w.extractLsb' 8 4).toNat = t)
    (hi : encodeBody i = some (BitVec.ofNat 7 m ++ w.extractLsb' 18 6 ++ BitVec.ofNat 18 (t * 256))) :
    Decodes w (syllable w 0x0003F0FF i) :=
  decodes_syllable [(0, 8), (12, 6)] hi (by decide) (by decide) fun h => (app_nat _ _).trans (by
    simp only [List.forall_mem_cons, majorOf_nat, app_nat, extractLsb'_toNat_div, BitVec.toNat_ofNat] at h hm ht ⊢; omega)

theorem decodes_engineRegsNum (ht : (w.extractLsb' 8 4).toNat = t)
    (hi : encodeBody i = some (BitVec.ofNat 7 m ++ w.extractLsb' 18 6 ++ w.extractLsb' 12 6 ++ BitVec.ofNat 4 t ++ w.extractLsb' 3 5 ++
        BitVec.ofNat 3 0)) :
    Decodes w (syllable w 0x00000007 i) :=
  decodes_syllable [(0, 3)] hi (by decide) (by decide) fun h => (app_nat _ _).trans (by
    simp only [List.forall_mem_cons, majorOf_nat, app_nat, extractLsb'_toNat_div, BitVec.toNat_ofNat] at h hm ht ⊢; omega)

theorem decodes_engineRegNum (ht : (w.extractLsb' 8 4).toNat = t)
    (hi : encodeBody i = some (BitVec.ofNat 7 m ++ w.extractLsb' 18 6 ++ BitVec.ofNat 10 t ++ w.extractLsb' 3 5 ++ BitVec.ofNat 3 0)) :
    Decodes w (syllable w 0x0003F007 i) :=
  decodes_syllable [(0, 3), (12, 6)] hi (by decide) (by decide) fun h => (app_nat _ _).trans (by
    simp only [List.forall_mem_cons, majorOf_nat, app_nat, extractLsb'_toNat_div, BitVec.toNat_ofNat] at h hm ht ⊢; omega)
end

/-! ## Layouts of one instruction -/

theorem decodes_nop {w : W32} (hm : majorOf w = 0x00) :
    Decodes w (syllable w 0x00FFF000 (.nop (w.extractLsb' 0 12))) :=
  decodes_syllable [(12, 12)] rfl (by decide) (by decide) fun h => (app_nat _ _).trans (by
    simp only [List.forall_mem_cons, majorOf_nat, app_nat, extractLsb'_toNat_div, BitVec.toNat_ofNat] at h hm ⊢; omega)

theorem decodes_lih3 {w : W32} (hm : majorOf w = 0x11) :
    Decodes w (syllable w 0x0003FC00 (.lih3 (w.extractLsb' 18 6) (w.extractLsb' 0 10))) :=
  decodes_syllable [(10, 8)] rfl (by decide) (by decide) fun h => (app_nat _ _).trans (by
    simp only [List.forall_mem_cons, majorOf_nat, app_nat, extractLsb'_toNat_div, BitVec.toNat_ofNat] at h hm ⊢; omega)

theorem decodes_gets {w : W32} (hm : majorOf w = 0x13) :
    Decodes w (syllable w 0x0003F000 (.gets (w.extractLsb' 18 6) (w.extractLsb' 0 12))) :=
  decodes_syllable [(12, 6)] rfl (by decide) (by decide) fun h => (app_nat _ _).trans (by
    simp only [List.forall_mem_cons, majorOf_nat, app_nat, extractLsb'_toNat_div, BitVec.toNat_ofNat] at h hm ⊢; omega)

theorem decodes_sets {w : W32} (hm : majorOf w = 0x14) :
    Decodes w (syllable w 0x00FC0000 (.sets (w.extractLsb' 12 6) (w.extractLsb' 0 12))) :=
  decodes_syllable [(18, 6)] rfl (by decide) (by decide) fun h => (app_nat _ _).trans (by
    simp only [List.forall_mem_cons, majorOf_nat, app_nat, extractLsb'_toNat_div, BitVec.toNat_ofNat] at h hm ⊢; omega)

theorem decodes_joinAll {w : W32} (hm : majorOf w = 0x5E) (ht : (w.extractLsb' 0 3).toNat = 0) (hk : (w.extractLsb' 6 6).toNat = 1) :
    Decodes w (syllable w 0x00FFF038 (.joinAll)) :=
  decodes_syllable [(3, 3), (12, 12)] rfl (by decide) (by decide) fun h => (app_nat _ _).trans (by
    simp only [List.forall_mem_cons, majorOf_nat, extractLsb'_toNat_div, BitVec.toNat_ofNat] at h hm ht hk ⊢; omega)

theorem decodes_trap {w : W32} (hm : majorOf w = 0x5E) (ht : (w.extractLsb' 0 3).toNat = 3) :
    Decodes w (syllable w 0x00FC0038 (.trap (w.extractLsb' 6 12))) :=
  decodes_syllable [(3, 3), (18, 6)] rfl (by decide) (by decide) fun h => (app_nat _ _).trans (by
    simp only [List.forall_mem_cons, majorOf_nat, app_nat, extractLsb'_toNat_div, BitVec.toNat_ofNat] at h hm ht ⊢; omega)

theorem decodes_fmt {w : W32} (hm : majorOf w = 0x60) :
    Decodes w (syllable w 0x00FC0FFF (.fmt (w.extractLsb' 12 6))) :=
  decodes_syllable [(0, 12), (18, 6)] rfl (by decide) (by decide) fun h => (app_nat _ _).trans (by
    simp only [List.forall_mem_cons, majorOf_nat, app_nat, extractLsb'_toNat_div, BitVec.toNat_ofNat] at h hm ⊢; omega)

theorem decodes_mlatch {w : W32} (hm : majorOf w = 0x61) :
    Decodes w (syllable w 0x00FC03FF (.mlatch (w.extractLsb' 12 6) (w.extractLsb' 10 2))) :=
  decodes_syllable [(0, 10), (18, 6)] rfl (by decide) (by decide) fun h => (app_nat _ _).trans (by
    simp only [List.forall_mem_cons, majorOf_nat, app_nat, extractLsb'_toNat_div, BitVec.toNat_ofNat] at h hm ⊢; omega)

theorem decodes_mgather {w : W32} (hm : majorOf w = 0x62) :
    Decodes w (syllable w 0x00000FC6 (.mgather (w.extractLsb' 18 6) (w.extractLsb' 12 6) (w.extractLsb' 3 3) (w.extractLsb' 0 1))) :=
  decodes_syllable [(1, 2), (6, 6)] rfl (by decide) (by decide) fun h => (app_nat _ _).trans (by
    simp only [List.forall_mem_cons, majorOf_nat, app_nat, extractLsb'_toNat_div, BitVec.toNat_ofNat] at h hm ⊢; omega)

theorem decodes_mst {w : W32} (hm : majorOf w = 0x65) :
    Decodes w (syllable w 0x00FC0C3D (.mst (w.extractLsb' 12 6) (w.extractLsb' 6 4) (w.extractLsb' 1 1))) :=
  decodes_syllable [(0, 1), (2, 4), (10, 2), (18, 6)] rfl (by decide) (by decide) fun h => (app_nat _ _).trans (by
    simp only [List.forall_mem_cons, majorOf_nat, app_nat, extractLsb'_toNat_div, BitVec.toNat_ofNat] at h hm ⊢; omega)

theorem decodes_mkat {w : W32} (hm : majorOf w = 0x66) :
    Decodes w (syllable w 0x00FC0E3F (.mkat (w.extractLsb' 12 6) (w.extractLsb' 6 3))) :=
  decodes_syllable [(0, 6), (9, 3), (18, 6)] rfl (by decide) (by decide) fun h => (app_nat _ _).trans (by
    simp only [List.forall_mem_cons, majorOf_nat, app_nat, extractLsb'_toNat_div, BitVec.toNat_ofNat] at h hm ⊢; omega)

theorem decodes_cpDimd {w : W32} (hm : majorOf w = 0x68) (ht : (w.extractLsb' 8 4).toNat = 3) :
    Decodes w (syllable w 0x00FC0007 (.cpDimd (w.extractLsb' 12 6) (w.extractLsb' 3 5))) :=
  decodes_syllable [(0, 3), (18, 6)] rfl (by decide) (by decide) fun h => (app_nat _ _).trans (by
    simp only [List.forall_mem_cons, majorOf_nat, app_nat, extractLsb'_toNat_div, BitVec.toNat_ofNat] at h hm ht ⊢; omega)

theorem decodes_cpQfence {w : W32} (hm : majorOf w = 0x68) (ht : (w.extractLsb' 8 4).toNat = 5) :
    Decodes w (syllable w 0x00FF8007 (.cpQfence (w.extractLsb' 12 3 ++ w.extractLsb' 3 5))) :=
  decodes_syllable [(0, 3), (15, 9)] rfl (by decide) (by decide) fun h => (app_nat _ _).trans (by
    simp only [List.forall_mem_cons, majorOf_nat, app_nat, extractLsb'_toNat_div, BitVec.toNat_ofNat] at h hm ht ⊢; omega)

theorem decodes_cpWait {w : W32} (hm : majorOf w = 0x68) (ht : (w.extractLsb' 8 4).toNat = 7) :
    Decodes w (syllable w 0x00FFF007 (.cpWait (w.extractLsb' 3 5))) :=
  decodes_syllable [(0, 3), (12, 12)] rfl (by decide) (by decide) fun h => (app_nat _ _).trans (by
    simp only [List.forall_mem_cons, majorOf_nat, app_nat, extractLsb'_toNat_div, BitVec.toNat_ofNat] at h hm ht ⊢; omega)

theorem decodes_msCopy {w : W32} (hm : majorOf w = 0x69) (ht : (w.extractLsb' 8 4).toNat = 3) :
    Decodes w (syllable w 0x000000FF (.msCopy (w.extractLsb' 18 6) (w.extractLsb' 12 6))) :=
  decodes_syllable [(0, 8)] rfl (by decide) (by decide) fun h => (app_nat _ _).trans (by
    simp only [List.forall_mem_cons, majorOf_nat, app_nat, extractLsb'_toNat_div, BitVec.toNat_ofNat] at h hm ht ⊢; omega)

theorem decodes_ckpt {w : W32} (hm : majorOf w = 0x70) :
    Decodes w (syllable w 0x00FC0000 (.ckpt (w.extractLsb' 0 18))) :=
  decodes_syllable [(18, 6)] rfl (by decide) (by decide) fun h => (app_nat _ _).trans (by
    simp only [List.forall_mem_cons, majorOf_nat, app_nat, extractLsb'_toNat_div, BitVec.toNat_ofNat] at h hm ⊢; omega)
/-! ## Every word -/

/-- The reading of a word, major by major: the layouts that several instructions share have their lemma above, the others are read here. -/
theorem decodes_decodeWord (w : W32) : Decodes w (decodeWord w) := by
  unfold decodeWord
  split
  -- scalar, atomic: 0x01 to 0x04, 0x06, 0x07, 0x54
  case h_2 hm | h_3 hm | h_4 hm | h_5 hm | h_7 hm | h_8 hm | h_57 hm =>
    split
    any_goals exact decodes_error w _
    all_goals exact decodes_threeRegs hm ‹_› rfl
  -- vector: 0x20 to 0x26, 0x2C, 0x4D, 0x4E
  case h_22 hm | h_23 hm | h_24 hm | h_25 hm | h_26 hm | h_27 hm | h_28 hm | h_34 hm | h_51 hm | h_52 hm =>
    split
    any_goals exact decodes_error w _
    all_goals exact decodes_threeRegsPred hm ‹_› rfl
  -- vector, one source: 0x27 to 0x2A
  case h_29 hm | h_30 hm | h_31 hm | h_32 hm =>
    split
    any_goals exact decodes_error w _
    all_goals exact decodes_twoRegsPred hm ‹_› rfl
  -- loads and stores: 0x40 to 0x4A, 0x4B, 0x4C
  case h_38 hm | h_39 hm | h_40 hm | h_41 hm | h_42 hm | h_43 hm | h_44 hm | h_45 hm | h_46 hm | h_47 hm | h_48 hm =>
    exact decodes_imm9 hm rfl
  case h_49 hm | h_50 hm => exact decodes_imm9Pred hm rfl
  -- immediates: 0x08 to 0x0B; 0x0E to 0x10, 0x12, 0x2D, 0x58 to 0x5B, 0x5D
  case h_9 hm | h_10 hm | h_11 hm | h_12 hm => exact decodes_imm12 hm rfl
  case h_15 hm | h_16 hm | h_17 hm | h_19 hm | h_35 hm | h_59 hm | h_60 hm | h_61 hm | h_62 hm | h_64 hm => exact decodes_imm18 hm rfl
  case h_13 hm =>
    split
    any_goals exact decodes_error w _
    all_goals exact decodes_shift hm ‹_› rfl
  case h_14 hm =>
    split
    any_goals exact decodes_error w _
    all_goals exact decodes_imm10 hm ‹_› rfl
  -- 0x05
  case h_6 hm =>
    split
    case h_1 ht | h_2 ht => exact decodes_twoRegs hm ht rfl
    case h_3 ht | h_4 ht => exact decodes_threeRegs hm ht rfl
    case h_5 => exact decodes_error w _
  -- 0x2B
  case h_33 hm =>
    split
    case h_1 ht | h_2 ht => exact decodes_threeRegsPred hm ht rfl
    case h_3 ht => exact decodes_twoRegsPred hm ht rfl
    case h_4 ht | h_5 ht => exact decodes_threeRegs hm ht rfl
    case h_6 => exact decodes_error w _
  -- predicates: 0x30, 0x31
  case h_36 hm =>
    split
    case h_1 ht | h_2 ht | h_3 ht => exact decodes_threeRegs hm ht rfl
    case h_4 ht | h_5 ht => exact decodes_twoRegs hm ht rfl
    case h_6 => exact decodes_error w _
  case h_37 hm =>
    split
    any_goals exact decodes_error w _
    all_goals exact decodes_twoRegs hm ‹_› rfl
  -- hints, tags, fences, barriers, counters: 0x4F, 0x50, 0x51, 0x53, 0x55
  case h_53 hm =>
    split
    case h_1 ht => exact decodes_regA hm ht rfl
    case h_2 ht => exact decodes_regsAB hm ht rfl
    case h_3 => exact decodes_error w _
  case h_54 hm =>
    split
    case h_1 ht | h_2 ht | h_5 ht => exact decodes_twoRegs hm ht rfl
    case h_3 ht | h_6 ht => exact decodes_regsAB hm ht rfl
    case h_4 ht => exact decodes_threeRegs hm ht rfl
    case h_7 => exact decodes_error w _
  case h_55 hm =>
    split
    case h_1 ht => exact decodes_threeRegs hm ht rfl
    case h_2 ht => exact decodes_regA hm ht rfl
    case h_3 ht | h_4 ht | h_5 ht => exact decodes_fieldB hm ht rfl
    case h_6 => exact decodes_error w _
  case h_56 hm =>
    split
    case h_1 ht => exact decodes_twoRegs hm ht rfl
    case h_2 ht | h_3 ht => exact decodes_firstReg hm ht rfl
    case h_4 => exact decodes_error w _
  case h_58 hm =>
    split
    case h_1 ht | h_3 ht => exact decodes_regsAB hm ht rfl
    case h_2 ht => exact decodes_threeRegs hm ht rfl
    case h_4 ht | h_5 ht => exact decodes_twoRegs hm ht rfl
    case h_6 ht => exact decodes_regA hm ht rfl
    case h_7 => exact decodes_error w _
  -- jr, assert; guard, cop; commit, abort
  case h_63 hm | h_79 hm =>
    split
    case h_1 ht => exact decodes_regA hm ht rfl
    case h_2 => exact decodes_error w _
  case h_78 hm | h_81 hm =>
    split
    any_goals exact decodes_error w _
    all_goals exact decodes_regsAB hm ‹_› rfl
  case h_77 hm | h_80 hm =>
    split
    case h_1 ht => exact decodes_noOperand hm ht rfl
    case h_2 => exact decodes_error w _
  -- join, yield, exit, trap
  case h_65 hm =>
    split
    case h_1 ht =>
      split
      next hk => exact decodes_joinAll hm ht (congrArg BitVec.toNat hk)
      next => exact decodes_noOperand hm ht rfl
    case h_2 ht | h_3 ht => exact decodes_noOperand hm ht rfl
    case h_4 ht => exact decodes_trap hm ht
    case h_5 => exact decodes_error w _
  -- the matrix unit
  case h_69 hm | h_70 hm => exact decodes_matrix hm rfl
  -- engines: 0x68 to 0x6A
  case h_73 hm =>
    split
    case h_1 ht | h_2 ht | h_7 ht => exact decodes_engineReg hm ht rfl
    case h_3 ht => exact decodes_engineRegsNum hm ht rfl
    case h_4 ht => exact decodes_cpDimd hm ht
    case h_5 ht => exact decodes_engineRegNum hm ht rfl
    case h_6 ht => exact decodes_cpQfence hm ht
    case h_8 ht => exact decodes_cpWait hm ht
    case h_9 => exact decodes_error w _
  case h_74 hm =>
    split
    case h_1 ht | h_2 ht | h_3 ht => exact decodes_engineReg hm ht rfl
    case h_4 ht => exact decodes_msCopy hm ht
    case h_5 => exact decodes_error w _
  case h_75 hm =>
    split
    case h_1 ht => exact decodes_engineRegNum hm ht rfl
    case h_7 => exact decodes_error w _
    all_goals exact decodes_engineRegsNum hm ‹_› rfl
  -- layouts of one instruction
  case h_1 hm => exact decodes_nop hm
  case h_18 hm => exact decodes_lih3 hm
  case h_20 hm => exact decodes_gets hm
  case h_21 hm => exact decodes_sets hm
  case h_66 hm => exact decodes_fmt hm
  case h_67 hm => exact decodes_mlatch hm
  case h_68 hm => exact decodes_mgather hm
  case h_71 hm => exact decodes_mst hm
  case h_72 hm => exact decodes_mkat hm
  case h_76 hm => exact decodes_ckpt hm
  -- no major
  case h_82 => exact decodes_error w _

/-! ## The statement -/

theorem decodeBytes_wordBytes {w : W32} {i : Instr} (h : decodeWord w = .ok i) : decodeBytes (wordBytes w) = .ok (stopBit w, i, []) := by
  simp only [wordBytes, decodeBytes, bytes_of_word, h]

/-- Settles O53: there by the law of each instruction, back by the layout of each word. -/
theorem encodeDecode : Obligations.EncodeDecode := by
  refine ⟨fun i stop w hwf hw => ?_, decodes_decodeWord⟩
  have hd : decodeWord w = .ok i := roundTrip i stop w hwf hw
  have hs : stopBit w = stop := stop_of_encode stop i w hw
  exact ⟨hd, hs, hs ▸ decodeBytes_wordBytes hd⟩

end Sys2Proof.Proofs

namespace Sys2Proof.Proofs
open Sys2Proof Sys2Proof.Machine Sys2Proof.Laws

/-! # The stores of a bundle that commits -/

/-! ## Keys -/

@[simp] theorem coreOfKey_key (o : CoreId) : coreOfKey o.key = o := by
  obtain ⟨⟨d, hd⟩, ⟨l, hl⟩, ⟨c, hc⟩⟩ := o
  simp only [coreOfKey, CoreId.key, Fin.ofNat, CoreId.mk.injEq, Fin.mk.injEq]
  omega

@[simp] theorem clusterOfKey_key (l : ClusterId) : clusterOfKey l.key = l := by
  obtain ⟨⟨d, hd⟩, ⟨c, hc⟩⟩ := l
  simp only [clusterOfKey, ClusterId.key, Fin.ofNat, ClusterId.mk.injEq, Fin.mk.injEq]
  omega

theorem key_coreOfKey (k : Nat) (h : k < 512) : (coreOfKey k).key = k := by
  simp only [coreOfKey, CoreId.key, Fin.ofNat]
  omega

/-! ## Bytes put in a scratchpad -/

/-- Consecutive entries of a table written one after the other. -/
theorem tget_foldl_tset (bs : List Byte) (m : Table Byte) (off k a : Nat) :
    tget (((List.range' k bs.length).zip bs).foldl (fun m b => tset m (off + b.1) b.2) m) a =
      if off + k ≤ a ∧ a < off + k + bs.length then some (bs.getD (a - off - k) 0) else tget m a := by
  induction bs generalizing m k with
  | nil => simp
  | cons b bs ih =>
    simp only [List.length_cons, List.range'_succ, List.zip_cons_cons, List.foldl_cons, ih, tget_tset]
    by_cases ha : a = off + k
    · subst ha; simp
    · by_cases hr : off + k ≤ a ∧ a < off + k + (bs.length + 1)
      · rw [if_pos (by omega), if_pos hr, show a - off - k = a - off - (k + 1) + 1 by omega, List.getD_cons_succ]
      · rw [if_neg (by omega), if_neg hr, if_neg ha]

/-- A byte of a scratchpad after consecutive bytes are put in one. -/
theorem spadRead_spadApply (s : State) (o off c a : Nat) (bs : List Byte) :
    (s.spadApply o off ((List.range bs.length).zip bs)).spadRead c a =
      if (coreOfKey c).key = (coreOfKey o).key ∧ off ≤ a ∧ a < off + bs.length then bs.getD (a - off) 0 else s.spadRead c a := by
  have hg := tget_foldl_tset bs (s.core (coreOfKey o)).spad off 0 a
  rw [← List.range_eq_range', Nat.add_zero, Nat.sub_zero] at hg
  unfold State.spadApply State.spadRead
  dsimp only
  by_cases hk : (coreOfKey c).key = (coreOfKey o).key
  · have hc : s.core (coreOfKey c) = s.core (coreOfKey o) := by simp only [State.core, hk]
    rw [core_setCore, if_pos hk, hc]
    by_cases hr : off ≤ a ∧ a < off + bs.length
    · simp only [Core.spadByte, hg, hk, hr, and_self, if_true]
    · simp only [Core.spadByte, hg, hk, hr, and_false, if_false]
  · rw [core_setCore_other _ _ _ _ hk, if_neg fun h => hk h.1]

theorem spadRead_cleanSpad (s : State) (o off c a : Nat) (b : Bool) : (s.cleanSpad o off b).spadRead c a = s.spadRead c a := by
  unfold State.cleanSpad
  split
  · unfold State.spadRead
    rw [core_setCore]
    split
    next hk => simp only [Core.spadByte, State.core, hk]
    next => rfl
  · rfl

theorem contains_filter (l : List Nat) (p : Nat → Bool) (a : Nat) : (l.filter p).contains a = (l.contains a && p a) := by
  rw [Bool.eq_iff_iff]; simp [List.mem_filter]

/-- Which granules consecutive bytes cover whole. -/
theorem covers_granule (bs : List Byte) (off g : Nat) :
    ((List.range 8).all fun i => ((List.range bs.length).zip bs).any fun b => off + b.1 == 8 * g + i) =
      (decide (off ≤ 8 * g) && decide (8 * g + 8 ≤ off + bs.length)) := by
  have hany : ∀ x, (((List.range bs.length).zip bs).any fun b => off + b.1 == x) = decide (off ≤ x ∧ x < off + bs.length) := by
    intro x
    have hmap : (((List.range bs.length).zip bs).any fun b => off + b.1 == x) =
        (((List.range bs.length).zip bs).map Prod.fst).any fun k => off + k == x := by rw [List.any_map]; rfl
    rw [hmap, List.map_fst_zip (by simp), Bool.eq_iff_iff]
    simp only [List.any_eq_true, List.mem_range, beq_iff_eq, decide_eq_true_eq]
    exact ⟨fun ⟨k, hk, he⟩ => by omega, fun h => ⟨x - off, by omega, by omega⟩⟩
  simp only [hany]
  rw [Bool.eq_iff_iff]
  simp only [List.all_eq_true, List.mem_range, Bool.and_eq_true, decide_eq_true_eq]
  exact ⟨fun h => by have h0 := h 0 (by decide); have h7 := h 7 (by decide); omega, fun h i hi => by omega⟩

theorem spadPoisoned_spadApply (s : State) (o off a : Nat) (bs : List Byte) :
    (s.spadApply o off ((List.range bs.length).zip bs)).spadPoisoned o a =
      (s.spadPoisoned o a && !(decide (off ≤ a / 8 * 8) && decide (a / 8 * 8 + 8 ≤ off + bs.length))) := by
  unfold State.spadApply State.spadPoisoned
  rw [core_setCore_self, contains_filter]
  beta_reduce
  rw [covers_granule, Nat.mul_comm 8]

theorem spadPoisoned_cleanSpad (s : State) (o off a : Nat) (b : Bool) :
    (s.cleanSpad o off b).spadPoisoned o a = (s.spadPoisoned o a && !(b && a / 8 == off / 8)) := by
  unfold State.cleanSpad
  split
  next hb =>
    unfold State.spadPoisoned
    rw [core_setCore_self, nsErase, contains_filter, hb, Bool.true_and]; rfl
  next hb => simp [hb]

/-! ## A store issued -/

/-- A store to the strand's own scratchpad is performed at once (14 R243). -/
theorem issueStore_own (s : State) (t : StrandId) (va : W64) (off clears pos cp : Nat) (ms ro : Bool) (bs : List (Nat × Byte)) :
    s.issueStore t ⟨va, ⟨.spad t.coreId.key off, ms, cp, ro⟩, bs, clears, pos⟩ =
      (s.spadApply t.coreId.key off bs).cleanSpad t.coreId.key off (clears == 8) := by
  have h8 : ((if clears = 8 then 8 else 0) == 8) = (clears == 8) := by split <;> simp_all
  simp only [State.issueStore, State.performAt, if_pos, h8]

theorem cleanSpad_writes (s : State) (o off : Nat) (b : Bool) : (s.cleanSpad o off b).writes = s.writes := by cases b <;> rfl

/-- The write that a store to memory or to another scratchpad becomes: the youngest. -/
def storeWrite (s : State) (t : StrandId) (x : StoreAt) (clears : Nat) : PWrite :=
  ⟨s.seq, t.key, t.clusterId.key, x.at_, x.va.toNat, x.bytes, clears, false⟩

/-- The write path with a write at its young end. -/
def withWrite (s : State) (w : PWrite) : State := { s with seq := s.seq + 1, writes := s.writes ++ [w] }

theorem issueStore_sibling (s : State) (t : StrandId) (x : StoreAt) (o off : Nat) (h : x.at_.loc = .spad o off) (ho : o ≠ t.coreId.key) :
    s.issueStore t x = withWrite s (storeWrite s t x (if x.clears = 8 then 8 else 0)) := by
  simp only [State.issueStore, h, if_neg ho]; rfl

theorem issueStore_phys (s : State) (t : StrandId) (x : StoreAt) (pa : Nat) (h : x.at_.loc = .phys pa) :
    s.issueStore t x = ({ s with seq := s.seq + 1 } : State).putWrite (storeWrite s t x x.clears) := by
  simp only [State.issueStore, h]; rfl

theorem putWrite_waits (s : State) (w : PWrite) (h : ({ s with seq := s.seq + 1 } : State).acceptable w = false) :
    ({ s with seq := s.seq + 1 } : State).putWrite w = withWrite s w := by
  simp only [State.putWrite, h]; rfl

theorem filter_seq_append (ws : List PWrite) (w : PWrite) (h : ∀ y ∈ ws, y.seq ≠ w.seq) : (ws ++
    [w]).filter (fun x => x.seq != w.seq) = ws := by
  simpa [List.filter_append, List.filter_eq_self] using h

theorem putWrite_accepted (s : State) (w : PWrite) (pa : Nat) (hp : w.at_.loc = .phys pa) (hw : ∀ y ∈ s.writes, y.seq ≠ w.seq)
    (h : ({ s with seq := s.seq + 1 } : State).acceptable w = true) :
    ({ s with seq := s.seq + 1 } : State).putWrite w = (withWrite s { w with accepted := true }).dropCopy (clusterOfKey w.cluster) (lineOf pa) := by
  simp only [State.putWrite, h, if_true, State.acceptWrite, hp, filter_seq_append _ _ hw]; rfl

theorem acceptable_cacheable (s : State) (w : PWrite) (h : w.at_.cacheable = false) : s.acceptable w = false := by
  simp [State.acceptable, h]

/-! ## The cluster gives up its copy -/

/-- The cluster's part of it: its cache loses the line. -/
def dropLine (s : State) (l : ClusterId) (line : Nat) : State :=
  if (tget (s.cluster l).cache line).isSome then s.setCluster l { s.cluster l with cache := terase (s.cluster l).cache line } else s

theorem tget_dropLine (s : State) (l : ClusterId) (line n : Nat) :
    tget ((dropLine s l line).cluster l).cache n = if n = line then none else tget (s.cluster l).cache n := by
  unfold dropLine
  split
  · rw [cluster_setCluster_self, tget_terase]
  next h =>
    split
    next hn => rw [hn]; exact Option.not_isSome_iff_eq_none.1 h
    next => rfl

theorem cluster_dropLine_other (s : State) (l m : ClusterId) (line : Nat)
    (h : m.key ≠ l.key) : (dropLine s l line).cluster m = s.cluster m := by
  unfold dropLine
  split
  · exact cluster_setCluster_other _ _ _ _ h
  · rfl

/-- The die's part of it: what the cluster holds of the line no longer counts in what the die owes. -/
def dropOwed (s : State) (l : ClusterId) (line : Nat) : State :=
  let owed := (s.die l.die).owed.map fun o => if o.line = line then { o with holders := nsErase o.holders l.cluster.val } else o
  if owed = (s.die l.die).owed then s else s.setDie l.die { s.die l.die with owed := owed }

theorem dropOwed_eq (s : State) (l : ClusterId) (line : Nat) : ∃ ds, dropOwed s l line = { s with dies := ds } := by
  unfold dropOwed; dsimp only; split <;> exact ⟨_, rfl⟩

/-- What the slices do of it changes the dies alone. -/
theorem dropCopy_eq (s : State) (l : ClusterId) (line : Nat) : ∃ ds, s.dropCopy l line = { dropLine s l line with dies := ds } := by
  obtain ⟨ds, h⟩ := dropOwed_eq (dropLine s l line) l line
  unfold dropOwed dropLine at h
  unfold State.dropCopy dropLine
  dsimp only at h ⊢
  rw [h]
  split
  · split <;> exact ⟨_, rfl⟩
  · exact ⟨_, rfl⟩

theorem dropCopy_holders (s : State) (l : ClusterId) (line : Nat) (x : L2Line) (h : tget ((s.dropCopy l line).die l.die).l2 line = some x) :
    x.holders.contains l.cluster.val = false := by
  unfold State.dropCopy at h
  dsimp only at h
  split at h
  next y hy =>
    split at h
    next =>
      rw [State.setLine, die_setDie_self, tget_tset_self] at h
      rw [← Option.some.inj h]
      simp [nsErase]
    next hc => rw [← Option.some.inj (hy.symm.trans h)]; exact Bool.eq_false_iff.2 hc
  next hy => exact nomatch hy.symm.trans h

/-! ## The commit -/

@[simp] theorem setFrame_region (t : Strand) (j : Fin 2) (f : Frame) (n : W64) : (t.setFrame j f n).region = t.region := by
  unfold Strand.setFrame; split <;> rfl

@[simp] theorem leaveFrame_region (t : Strand) (j : Fin 2) (a : W64) : (t.leaveFrame j a).region = t.region := by
  unfold Strand.leaveFrame; dsimp only; split <;> simp

@[simp] theorem bodyEnd_region (t : Strand) (j : Fin 2) (n : W64) : (t.bodyEnd j n).1.region = t.region := by
  unfold Strand.bodyEnd; split <;> simp

@[simp] theorem bodyEnds_region (t : Strand) (a n m : W64) : (t.bodyEnds a n m).1.region = t.region := by
  unfold Strand.bodyEnds
  split
  · split
    · dsimp only; split <;> simp
    · rfl
  · split <;> simp

@[simp] theorem advance_region (t : Strand) (b : Issue) : (t.advance b).region = t.region := by
  unfold Strand.advance
  split
  · simp
  · simp
  · split <;> simp

theorem committed_region (x : Strand) (b : Issue) (r : Region) (hr : x.region = some r) (hs : b.sets = []) :
    (x.committed b).region = some { r with guards := r.guards ++ b.guards, held := r.held ++ b.stores.map StoreAt.held } := by
  simp [Strand.committed, hs, hr]

theorem commitStores_plain (s : State) (t : StrandId) (b : Issue) (withhold : Bool) (h : b.commits = false) :
    s.commitStores t b withhold = if (s.strand t).region.isSome ∨ withhold then s else s.issueStores t b.stores := by
  simp [State.commitStores, h]

theorem commitStores_commit (s : State) (t : StrandId) (b : Issue) (r : Region) (withhold : Bool) (h : b.commits = true)
    (hr : (s.strand t).region = some r) : s.commitStores t b withhold =
      (s.setStrand t { s.strand t with region := none, mismatched := none }).issueStores t (r.held.flatMap Held.stores) := by
  simp [State.commitStores, h, Strand.heldStores, hr]

/-! ## The statement -/

theorem storesOfACommit_own (s : State) (t : StrandId) (va : W64) (off clears pos : Nat) (ms ro : Bool) (cp : Nat) (bs : List Byte) :
    let o := t.coreId.key
    let s' := s.issueStore t ⟨va, ⟨.spad o off, ms, cp, ro⟩, (List.range bs.length).zip bs, clears, pos⟩
    (∀ i < bs.length, s'.spadRead o (off + i) = bs.getD i 0) ∧ s'.mem = s.mem ∧ s'.writes = s.writes ∧
    (∀ a, a < off ∨ off + bs.length ≤ a → s'.spadRead o a = s.spadRead o a) ∧
    (∀ a, s'.spadPoisoned o a = (s.spadPoisoned o a &&
      !(decide (off ≤ a / 8 * 8) && decide (a / 8 * 8 + 8 ≤ off + bs.length)) && !(clears == 8 && a / 8 == off / 8))) ∧
    ∀ c, c ≠ o → c < 512 → ∀ a, s'.spadRead c a = s.spadRead c a := by
  intro o s'
  have hs : s' = (s.spadApply o off ((List.range bs.length).zip bs)).cleanSpad o off (clears == 8) := issueStore_own _ _ _ _ _ _ _ _ _ _
  rw [hs]
  refine ⟨fun i hi => ?_, by simp, cleanSpad_writes _ _ _ _, fun a ha => ?_, fun a => ?_, fun c hc hl a => ?_⟩
  · rw [spadRead_cleanSpad, spadRead_spadApply, if_pos ⟨rfl, by omega, by omega⟩, Nat.add_sub_cancel_left]
  · rw [spadRead_cleanSpad, spadRead_spadApply, if_neg (by omega)]
  · rw [spadPoisoned_cleanSpad, spadPoisoned_spadApply]
  · have hk : (coreOfKey c).key ≠ (coreOfKey o).key := by rwa [key_coreOfKey c hl, coreOfKey_key]
    rw [spadRead_cleanSpad, spadRead_spadApply, if_neg fun h => hk h.1]

theorem storesOfACommit_dropCopy (s : State) (l : ClusterId) (line : Nat) :
    let s' := s.dropCopy l line
    tget (s'.cluster l).cache line = none ∧ (∀ x, tget (s'.die l.die).l2 line = some x → x.holders.contains l.cluster.val = false) ∧
    s'.writes = s.writes ∧ s'.mem = s.mem ∧ s'.strands = s.strands ∧ s'.cores = s.cores ∧
    (∀ n, n ≠ line → tget (s'.cluster l).cache n = tget (s.cluster l).cache n) ∧
    ∀ m : ClusterId, m.key ≠ l.key → s'.cluster m = s.cluster m := by
  obtain ⟨ds, h⟩ := dropCopy_eq s l line
  have hc : ∀ m, (s.dropCopy l line).cluster m = (dropLine s l line).cluster m := fun m => by rw [h]; rfl
  have hd : dropLine s l line = { s with clusters := (dropLine s l line).clusters } := by unfold dropLine; split <;> rfl
  refine ⟨by rw [hc, tget_dropLine, if_pos rfl], dropCopy_holders s l line, ?_, ?_, ?_, ?_,
    fun n hn => by rw [hc, tget_dropLine, if_neg hn], fun m hm => by rw [hc, cluster_dropLine_other _ _ _ _ hm]⟩
  all_goals rw [h, hd]

/-- Settles O59: the own scratchpad byte by byte, then where other stores join the write path, then what the commit does with them. -/
theorem storesOfACommit : Obligations.StoresOfACommit := by
  refine ⟨fun s t va off clears pos ms ro cp bs _ => storesOfACommit_own s t va off clears pos ms ro cp bs,
    fun s t x => ⟨fun o off hl ho => issueStore_sibling s t x o off hl ho, fun pa hl => ?_⟩, storesOfACommit_dropCopy,
    fun s t b hb => ⟨?_, fun hr => ?_, fun hr => ?_⟩,
    fun x b r hr hs => ⟨_, committed_region x b r hr hs, rfl, rfl, rfl⟩, fun s t b r hb hr => commitStores_commit s t b r false hb hr⟩
  · rw [issueStore_phys s t x pa hl]
    refine ⟨fun hc => putWrite_waits _ _ (acceptable_cacheable _ _ hc), fun ha => putWrite_waits _ _ ha, fun ha hw => ?_⟩
    rw [putWrite_accepted s (storeWrite s t x x.clears) pa hl hw ha, storeWrite, clusterOfKey_key]; rfl
  · rw [commitStores_plain s t b true hb, if_pos (.inr rfl)]
  · rw [commitStores_plain s t b false hb, if_pos (.inl hr)]
  · rw [commitStores_plain s t b false hb, hr]; rfl

end Sys2Proof.Proofs

namespace Sys2Proof.Proofs
open Sys2Proof Sys2Proof.Machine Sys2Proof.Laws

/-! # What stops a bundle -/

/-! ## Marks of positions -/

theorem getLsbD_foldl_mark (ps : List Nat) (m : BitVec 8) (k : Nat) (hk : k < 8) :
    (ps.foldl (fun m p => m ||| (1#8 <<< p)) m).getLsbD k = (m.getLsbD k || decide (k ∈ ps)) := by
  induction ps generalizing m with
  | nil => simp
  | cons p ps ih =>
    have hp : (1#8 <<< p).getLsbD k = decide (k = p) := by
      rw [BitVec.getLsbD_shiftLeft, BitVec.getLsbD_one, Bool.eq_iff_iff]
      simp only [Bool.and_eq_true, Bool.not_eq_true', decide_eq_true_eq, decide_eq_false_iff_not]
      omega
    rw [List.foldl_cons, ih, BitVec.getLsbD_or, hp, Bool.or_assoc, ← Bool.decide_or]
    simp only [List.mem_cons]

theorem getLsbD_maskOf (ps : List Nat) (k : Nat) (hk : k < 8) : (maskOf ps).getLsbD k = decide (k ∈ ps) :=
  (getLsbD_foldl_mark ps 0#8 k hk).trans (by rw [BitVec.getLsbD_zero, Bool.false_or])

theorem getLsbD_maskOf_map {α : Type} (f : α → Nat) (xs : List α) (k : Nat) (hk : k < 8) :
    (maskOf (xs.map f)).getLsbD k = xs.any fun x => f x == k := by
  rw [getLsbD_maskOf _ _ hk, Bool.eq_iff_iff]
  simp [List.any_eq_true, List.mem_map]

theorem marked {α : Type} {f : α → Nat} {xs : List α} {m : BitVec 8} (h : m = maskOf (xs.map f)) :
    ∀ k < 8, m.getLsbD k = xs.any fun x => f x == k := fun k hk => h ▸ getLsbD_maskOf_map f xs k hk

/-- A mask marks something or is 0. -/
theorem mask_ne_zero (m : BitVec 8) : m ≠ 0 ↔ ∃ k < 8, m.getLsbD k = true := by
  constructor
  · intro h
    by_contra hn
    push Not at hn
    exact h (BitVec.eq_of_getLsbD_eq fun k hk => (Bool.eq_false_iff.2 (hn k hk)).trans BitVec.getLsbD_zero.symm)
  · rintro ⟨k, -, hk⟩ rfl
    exact nomatch hk.symm.trans BitVec.getLsbD_zero

/-! ## The words of a bundle by position -/

theorem positions_eq (b : Decoded) : b.positions = (List.range b.words.length).map fun k => (k, b.words.getD k 0) := by
  refine List.ext_getElem (by simp [Decoded.positions]) fun k h1 h2 => ?_
  simp [Decoded.positions] at h1
  simp [Decoded.positions, h1]

theorem syllables_eq (b : Decoded) : b.syllables = (List.range b.words.length).map fun k => (k, instrOf (b.words.getD k 0)) := by
  rw [Decoded.syllables, positions_eq, List.map_map]; rfl

/-- The mark of a position among those that a test of the words finds. -/
theorem mark_iff {α : Type} (n : Nat) (g : Nat → α) (p : Nat × α → Bool) (k : Nat) (hk : k < 8) :
    (maskOf ((((List.range n).map fun k => (k, g k)).filter p).map (·.1))).getLsbD k = true ↔ k < n ∧ p (k, g k) = true := by
  rw [getLsbD_maskOf _ _ hk, decide_eq_true_eq]
  simp [List.mem_filter]

theorem lastWord_eq (b : Decoded) : b.words.getLastD 0 = b.words.getD (b.words.length - 1) 0 := by
  rw [List.getLastD_eq_getLast?, List.getLast?_eq_getElem?, List.getD_eq_getElem?_getD]

/-! ## Limits and conflicts -/

/-- More syllables of its class than R29 allows. -/
def TooMany (b : Decoded) (k : Nat) : Prop :=
  let w := fun k => b.words.getD k 0
  (classOf (w k)).limit < ((List.range b.words.length).filter fun j => decide (classOf (w j) = classOf (w k))).length

/-- It writes a file with more destinations named than R29 allows. -/
def TooWide (b : Decoded) (k : Nat) : Prop :=
  let i := fun k => instrOf (b.words.getD k 0)
  ∃ f < 3, (∃ r ∈ writesOf (i k), r.file = some f) ∧
    fileLimit f < ((List.range b.words.length).flatMap fun j => (writesOf (i j)).filter fun r => decide (r.file = some f)).length

/-- It writes a register that another syllable writes or reads, or reads one that another writes (R31). -/
def Clashes (b : Decoded) (k : Nat) : Prop :=
  let i := fun k => instrOf (b.words.getD k 0)
  ∃ j < b.words.length, j ≠ k ∧
    ((∃ r ∈ writesOf (i k), r ∈ writesOf (i j) ∨ r ∈ readsOf (i j)) ∨ ∃ r ∈ readsOf (i k), r ∈ writesOf (i j))

theorem classMask_iff (b : Decoded) (k : Nat) (hk : k < 8) :
    (classMask b.positions).getLsbD k = true ↔ k < b.words.length ∧ TooMany b k := by
  rw [classMask, positions_eq, mark_iff _ _ _ _ hk, decide_eq_true_eq, List.filter_map, List.length_map]
  rfl

theorem portMask_iff (b : Decoded) (k : Nat) (hk : k < 8) :
    (portMask b.syllables).getLsbD k = true ↔ k < b.words.length ∧ TooWide b k := by
  unfold portMask
  dsimp only
  rw [syllables_eq, mark_iff _ _ _ _ hk]
  have h3 : ∀ f, f ∈ [0, 1, 2] ↔ f < 3 := fun f => by simp only [List.mem_cons, List.not_mem_nil, or_false]; omega
  simp only [List.any_eq_true, List.mem_filter, beq_eq_decide, decide_eq_true_eq, List.flatMap_map, h3]
  exact and_congr_right fun _ => ⟨fun ⟨r, hr, f, ⟨hf, hl⟩, he⟩ => ⟨f, hf, ⟨r, hr, he⟩, hl⟩,
    fun ⟨f, hf, ⟨r, hr, he⟩, hl⟩ => ⟨r, hr, f, ⟨hf, hl⟩, he⟩⟩

theorem conflictMask_iff (b : Decoded) (k : Nat) (hk : k < 8) :
    (conflictMask b.syllables).getLsbD k = true ↔ k < b.words.length ∧ Clashes b k := by
  unfold conflictMask
  rw [syllables_eq, mark_iff _ _ _ _ hk]
  simp only [List.any_eq_true, List.mem_map, List.mem_range, Bool.and_eq_true, Bool.or_eq_true, List.contains_iff_mem, bne_iff_ne, ne_eq]
  exact and_congr_right fun _ => ⟨fun ⟨_, ⟨j, hj, rfl⟩, hne, h⟩ => ⟨j, hj, Ne.symm hne, h⟩,
    fun ⟨j, hj, hne, h⟩ => ⟨_, ⟨j, hj, rfl⟩, Ne.symm hne, h⟩⟩

/-- The mask of the syllables that break a limit or conflict. -/
def limitMask (b : Decoded) : BitVec 8 := classMask b.positions ||| portMask b.syllables ||| conflictMask b.syllables

theorem limitMask_iff (b : Decoded) (k : Nat) (hk : k < 8) :
    (limitMask b).getLsbD k = true ↔ k < b.words.length ∧ (TooMany b k ∨ TooWide b k ∨ Clashes b k) := by
  rw [limitMask, BitVec.getLsbD_or, BitVec.getLsbD_or, Bool.or_eq_true, Bool.or_eq_true, classMask_iff b k hk, portMask_iff b k hk,
    conflictMask_iff b k hk, or_assoc, ← and_or_left, ← and_or_left]

/-! ## A bundle presented to issue -/

/-- An `mkat` that is not the last syllable. -/
def Stray (b : Decoded) (k : Nat) : Prop := k + 1 < b.words.length ∧ majorOf (b.words.getD k 0) = 0x66

/-- The positions of such ones. -/
def strays (b : Decoded) : List Nat :=
  (b.positions.filter fun x => decide (x.1 + 1 < b.positions.length) && majorOf x.2 == 0x66).map (·.1)

theorem mem_strays (b : Decoded) (k : Nat) : k ∈ strays b ↔ Stray b k := by
  unfold strays Stray
  rw [positions_eq]
  simp only [List.mem_map, List.mem_filter, List.mem_range, List.length_map, List.length_range, Bool.and_eq_true, decide_eq_true_eq, beq_iff_eq]
  exact ⟨fun ⟨_, ⟨⟨_, _, rfl⟩, h⟩, hk⟩ => hk ▸ h, fun h => ⟨_, ⟨⟨k, by omega, rfl⟩, h⟩, rfl⟩⟩

theorem encodingOk_all (s : State) (b : Decoded) :
    (b.positions.any fun x => !s.encodingOk s.turn x.2) = true ↔ ∃ k < b.words.length, s.encodingOk s.turn (b.words.getD k 0) = false := by
  rw [positions_eq]
  simp [List.any_eq_true]

theorem startBundle_open (s : State) (b : Decoded) (h : stopBit (b.words.getLastD 0) = false) :
    s.startBundle b = .done (s.trapAtIssue s.turn 2 0xFF) := by
  unfold State.startBundle
  dsimp only
  rw [if_pos (by rw [h]; rfl)]

theorem startBundle_stray (s : State) (b : Decoded) (h : stopBit (b.words.getLastD 0) = true) (hs : strays b ≠ []) :
    s.startBundle b = .done (s.trapAtIssue s.turn 2 (maskOf (strays b))) := by
  unfold State.startBundle
  unfold strays at hs ⊢
  dsimp only
  rw [if_neg (by rw [h]; decide), if_pos (by simpa using hs)]

section
variable (s : State) (b : Decoded) (hstop : stopBit (b.words.getLastD 0) = true) (hstray : strays b = [])
include hstop hstray

theorem startBundle_encoding (he : (b.positions.any fun x => !s.encodingOk s.turn x.2) = true) :
    s.startBundle b = .run s (s.beginIssue b b.syllables) b.syllables := by
  unfold State.startBundle
  unfold strays at hstray
  dsimp only
  rw [if_neg (by rw [hstop]; decide), if_neg (by rw [hstray]; decide), if_pos he]

theorem startBundle_limits (he : ¬(b.positions.any fun x => !s.encodingOk s.turn x.2) = true) (hm : limitMask b ≠ 0) :
    s.startBundle b = .done (s.trapAtIssue s.turn 2 (limitMask b)) := by
  unfold State.startBundle
  unfold strays at hstray
  unfold limitMask at hm ⊢
  dsimp only
  rw [if_neg (by rw [hstop]; decide), if_neg (by rw [hstray]; decide), if_neg he, if_pos hm]

theorem startBundle_length (he : ¬(b.positions.any fun x => !s.encodingOk s.turn x.2) = true) (hm : limitMask b = 0)
    (hl : (s.strand s.turn).lengthOut = true) (hf : (s.strand s.turn).loopFails b = false) (hc : (s.chargeIssue s.turn).1 = true) :
    s.startBundle b = .done ((s.issueOnce s.turn).rollback s.turn 6 b.addr) := by
  unfold State.startBundle
  unfold strays at hstray
  unfold limitMask at hm
  dsimp only
  rw [if_neg (by rw [hstop]; decide), if_neg (by rw [hstray]; decide), if_neg he, if_neg (by rw [hm]; decide), if_pos (by rw [hl, hf]; decide),
    if_pos hc]
end

theorem lengthOut_iff (x : Strand) (r : Region) (h : x.region = some r) : x.lengthOut = true ↔ 65536 ≤ (x.step + 1 - r.step).toNat := by
  simp only [Strand.lengthOut, h, decide_eq_true_eq]

/-! ## The fault that takes effect -/

/-- The lower of a fault found so far and another. -/
def lower (acc : Option FaultAt) (f : FaultAt) : Option FaultAt :=
  match acc with | none => some f | some g => if f.pos < g.pos then some f else some g

theorem lowest_eq_foldl (fs : List FaultAt) : lowest fs = fs.foldl lower none := rfl

theorem foldl_lower_found (fs : List FaultAt) (f : FaultAt) (h : ∀ g ∈ fs, g = f ∨ f.pos < g.pos) : fs.foldl lower (some f) = some f := by
  induction fs with
  | nil => rfl
  | cons g fs ih =>
    obtain ⟨hg, hr⟩ := List.forall_mem_cons.1 h
    have hstep : lower (some f) g = some f := by
      obtain rfl | hlt := hg
      · exact ite_self _
      · exact if_neg (by omega)
    rw [List.foldl_cons, hstep, ih hr]

theorem foldl_lower (fs : List FaultAt) (f : FaultAt) (hf : f ∈ fs) (h : ∀ g ∈ fs, g = f ∨ f.pos < g.pos) (acc : Option FaultAt)
    (ha : ∀ g ∈ acc, f.pos < g.pos) : fs.foldl lower acc = some f := by
  induction fs generalizing acc with
  | nil => exact nomatch hf
  | cons g fs ih =>
    obtain ⟨hg, hr⟩ := List.forall_mem_cons.1 h
    rw [List.foldl_cons]
    by_cases he : g = f
    · have hstep : lower acc g = some f := by
        cases acc with
        | none => rw [he]; rfl
        | some a => rw [he]; exact if_pos (ha a rfl)
      rw [hstep, foldl_lower_found fs f hr]
    · refine ih ((List.mem_cons.1 hf).resolve_left (Ne.symm he)) hr _ fun a hmem => ?_
      cases acc with
      | none => cases hmem; exact hg.resolve_left he
      | some c =>
        simp only [lower] at hmem
        split at hmem
        · cases hmem; exact hg.resolve_left he
        · cases hmem; exact ha _ rfl

theorem lowest_of_min (fs : List FaultAt) (f : FaultAt) (hf : f ∈ fs) (h : ∀ g ∈ fs, g = f ∨ f.pos < g.pos) : lowest fs = some f := by
  rw [lowest_eq_foldl]; exact foldl_lower fs f hf h none fun g hg => nomatch hg

/-! ## The strand after its trap -/

theorem trapRecord_cause_first (s : State) (t : StrandId) (cause mask : BitVec 8) (sub : BitVec 4) (faddr bundle n : W64) (region : W32)
    (restart : W64) (h : (s.strand t).lastFault = none) :
    ((s.trapRecord t cause mask sub faddr bundle n region restart).strand t).trap.cause = cause :=
  trapRecord_cause _ _ _ _ _ _ _ _ _ _ (.inl (by rw [h]; exact nofun))

theorem trapRecord_region (s : State) (t : StrandId) (cause mask : BitVec 8) (sub : BitVec 4) (faddr bundle n : W64) (region : W32)
    (restart : W64) :
    let x := (s.trapRecord t cause mask sub faddr bundle n region restart).strand t
    x.region = (s.strand t).region ∧ x.rbcause = (s.strand t).rbcause := by
  simp [State.trapRecord]

theorem trapRecord_cores (s : State) (t : StrandId) (cause mask : BitVec 8) (sub : BitVec 4) (faddr bundle n : W64) (region : W32)
    (restart : W64) : (s.trapRecord t cause mask sub faddr bundle n region restart).cores = s.cores := rfl

theorem issueOnce_cores (s : State) (t : StrandId) : (s.issueOnce t).cores = s.cores := by
  unfold State.issueOnce State.chargeIssue
  dsimp only
  rw [setCtx_cores]
  obtain ⟨x, h | h⟩ := charge_eq s t.die (s.bindOf t.ctxId).bclass.toNat _ _ 1 _ _ <;> rw [h]
  rfl

/-! ## The strand after its rollback -/

/-- Its region is closed, with the cause recorded and the last fault as it was. -/
def Closed (x : Strand) (cause : BitVec 4) (fault : Option (W64 × BitVec 8 × BitVec 4 × W64)) : Prop :=
  x.region = none ∧ x.rbcause = cause ∧ x.lastFault = fault

section
variable {cause : BitVec 4} {fault : Option (W64 × BitVec 8 × BitVec 4 × W64)}

theorem closed_put {x : Strand} (tg : Tgt) (d : Dat) (p : Bool) (h : Closed x cause fault) : Closed (x.put tg d p) cause fault := by
  unfold Strand.put
  split
  · unfold Strand.wg; split <;> exact h
  · exact h
  · unfold Strand.wk; split <;> exact h
  · exact h
  · exact h

theorem closed_landOne {s : State} {t : StrandId} (tg : Tgt) (d : Dat) (p : Bool) (n : W64) (h : Closed (s.strand t) cause fault) :
    Closed ((s.landOne t tg d p n).strand t) cause fault := by
  unfold State.landOne
  dsimp only
  split
  · exact h
  · exact h
  · exact h
  · obtain ⟨hr, hc, hf⟩ := closed_put tg d p h
    rw [strand_setStrand_self]
    exact ⟨by simp only [hr, Option.map_none], hc, hf⟩

theorem closed_landAll (xs : List Exposed) {s : State} {t : StrandId} (h : Closed (s.strand t) cause fault) :
    Closed ((s.landAll t xs).strand t) cause fault := by
  induction xs generalizing s with
  | nil => exact h
  | cons x r ih => exact ih (closed_landOne _ _ _ _ h)

theorem closed_landDue {s : State} {t : StrandId} (h : Closed (s.strand t) cause fault) : Closed ((s.landDue t).strand t) cause fault :=
  closed_landAll _ (by rw [strand_setStrand_self]; exact h)

theorem closed_rollbackCopy {s : State} {t : StrandId} (c : Nat) (bundle next : W64) (h : Closed (s.strand t) cause fault) :
    Closed ((s.rollbackCopy t c bundle next).strand t) cause fault := by
  unfold State.rollbackCopy
  dsimp only
  split
  next r _ hr =>
    have hk : t.key ≠ (s.mateStrand t).key := fun hk => by
      rw [← strand_key_inj _ _ hk, h.1] at hr; exact nomatch hr
    rw [strand_setStrand_other _ _ _ _ hk]; exact h
  next => exact h
end

theorem closed_rollback (s : State) (t : StrandId) (bundle : W64) (r : Region) (h : (s.strand t).region = some r) :
    Closed ((s.rollback t 7 bundle).strand t) 7 (s.strand t).lastFault := by
  rw [rollback_some s t 7 bundle r h (by decide)]
  refine closed_rollbackCopy _ _ _ (closed_landDue ?_)
  rw [strand_setStrand_self]
  exact ⟨rfl, rfl, rfl⟩

/-! ## A trap of the bundle that was issuing -/

theorem bundleTrap_none (s : State) (t : StrandId) (b : Issue) (cause mask : BitVec 8) (sub : BitVec 4) (faddr : W64)
    (h : (s.strand t).region = none) :
    s.bundleTrap t b cause mask sub faddr = s.trapRecord t cause mask sub faddr b.addr ((s.strand t).step + 1) 0 b.addr := by
  unfold State.bundleTrap; dsimp only; rw [h]

theorem bundleTrap_some (s : State) (t : StrandId) (b : Issue) (cause mask : BitVec 8) (sub : BitVec 4) (faddr : W64) (r : Region)
    (h : (s.strand t).region = some r) :
    s.bundleTrap t b cause mask sub faddr =
      (s.rollback t 7 b.addr).trapRecord t cause mask sub faddr b.addr ((s.strand t).step + 1) b.regionWas r.bundle := by
  unfold State.bundleTrap; dsimp only; rw [h]

/-- Outside a region a bundle that traps has done nothing. -/
theorem bundleTrap_outside (s : State) (t : StrandId) (b : Issue) (cause mask : BitVec 8) (sub : BitVec 4) (faddr : W64)
    (hr : (s.strand t).region = none) (hf : (s.strand t).lastFault = none) :
    let s' := s.bundleTrap t b cause mask sub faddr
    let x := s'.strand t
    let old := s.strand t
    x.trap.cause = cause ∧ x.trap.mask = mask ∧ x.trap.sub = sub ∧ x.trap.faddr = faddr ∧ x.trap.bundle = b.addr ∧ x.trap.restart = b.addr ∧
      x.pc = b.addr ∧ x.trapping = true ∧ x.g = old.g ∧ x.v = old.v ∧ x.k = old.k ∧ x.inflight = old.inflight ∧ x.step = old.step ∧
      s'.mem = s.mem ∧ s'.writes = s.writes ∧ s'.cores = s.cores := by
  rw [bundleTrap_none s t b cause mask sub faddr hr]
  obtain ⟨hg, hv, hk, hstep, hin, hpc, htr, -, hmask, hsub, hfaddr, hbundle, hrestart⟩ :=
    trapRecord_strand s t cause mask sub faddr b.addr ((s.strand t).step + 1) 0 b.addr
  exact ⟨trapRecord_cause_first _ _ _ _ _ _ _ _ _ _ hf, hmask, hsub, hfaddr, hbundle, hrestart, hpc, htr, hg, hv, hk, hin, hstep, rfl, rfl, rfl⟩

/-- In a region the rollback comes first. -/
theorem bundleTrap_inside (s : State) (t : StrandId) (b : Issue) (cause mask : BitVec 8) (sub : BitVec 4) (faddr : W64) (r : Region)
    (hr : (s.strand t).region = some r) (hf : (s.strand t).lastFault = none) :
    let s' := s.bundleTrap t b cause mask sub faddr
    let x := s'.strand t
    x.trap.cause = cause ∧ x.trap.mask = mask ∧ x.trap.faddr = faddr ∧ x.trap.bundle = b.addr ∧ x.trap.restart = r.bundle ∧
      x.pc = r.bundle ∧ x.trapping = true ∧ x.region = none ∧ x.rbcause = 7 ∧ s'.mem = s.mem ∧ s'.writes = s.writes := by
  rw [bundleTrap_some s t b cause mask sub faddr r hr]
  obtain ⟨hregion, hrb, hlast⟩ := closed_rollback s t b.addr r hr
  obtain ⟨-, -, -, -, -, hpc, htr, -, hmask, -, hfaddr, hbundle, hrestart⟩ :=
    trapRecord_strand (s.rollback t 7 b.addr) t cause mask sub faddr b.addr ((s.strand t).step + 1) b.regionWas r.bundle
  obtain ⟨hregion', hrb'⟩ :=
    trapRecord_region (s.rollback t 7 b.addr) t cause mask sub faddr b.addr ((s.strand t).step + 1) b.regionWas r.bundle
  exact ⟨trapRecord_cause_first _ _ _ _ _ _ _ _ _ _ (hlast.trans hf), hmask, hfaddr, hbundle, hrestart, hpc, htr, hregion'.trans hregion,
    hrb'.trans hrb, by rw [trapRecord_mem, rollback_mem], by rw [trapRecord_writes, rollback_writes]⟩

/-! ## A bundle closed -/

@[simp] theorem orderedFaults_illegal (b : Issue) (r : Bool) : (b.orderedFaults r).illegal = b.illegal := by
  unfold Issue.orderedFaults; split <;> rfl

@[simp] theorem orderedFaults_addr (b : Issue) (r : Bool) : (b.orderedFaults r).addr = b.addr := by
  unfold Issue.orderedFaults; split <;> rfl

@[simp] theorem overfull_orderedFaults (xs : List Exposed) (b : Issue) (r : Bool) : overfull xs (b.orderedFaults r) = overfull xs b := by
  unfold Issue.orderedFaults; split <;> rfl

theorem orderedFaults_nil (b : Issue) (r : Bool) (h : b.faults = []) : b.orderedFaults r = b := by
  unfold Issue.orderedFaults; rw [h]; simp

theorem orderedFaults_outside (b : Issue) :
    (b.orderedFaults false).faults = if b.faults.all fun f => f.cause == 3 then b.faults else b.faults.filter fun f => f.cause != 3 := by
  simp only [Issue.orderedFaults, Bool.false_or]; split <;> rfl

/-- Unless the bundle's own `ckpt` opened a region, what it leaves behind starts from the state before it. -/
theorem withRegionOf_same (before after_ : State) (t : StrandId)
    (h : (before.strand t).region.isSome = true ∨ (after_.strand t).region = none) : before.withRegionOf after_ t = before := by
  unfold State.withRegionOf
  dsimp only
  split
  next r hb ha =>
    obtain h | h := h
    · rw [hb] at h; exact nomatch h
    · rw [h] at ha; exact nomatch ha
  next => rfl

/-- A trap found at issue, outside a region. -/
theorem trapAtIssue_outside (s : State) (t : StrandId) (cause mask : BitVec 8) (h : (s.strand t).region = none) :
    s.trapAtIssue t cause mask = s.trapRecord t cause mask 0 0 (s.strand t).pc ((s.strand t).step + 1) 0 (s.strand t).pc := by
  rw [State.trapAtIssue, h, Option.isSome_none, if_neg (by decide), takeTrap_none _ _ _ _ _ _ h]

theorem lowest_nil : lowest [] = none := rfl

section
variable (before after_ : State)

theorem closeBundle_illegal (h : after_.iss.illegal ≠ 0) :
    before.closeBundle after_ = before.trapAtIssue before.turn 1 after_.iss.illegal := by
  unfold State.closeBundle
  dsimp only
  rw [orderedFaults_illegal, if_pos h]

variable (hi : after_.iss.illegal = 0)
include hi

theorem closeBundle_overfull (ho : overfull (after_.strand before.turn).inflight after_.iss = true) :
    before.closeBundle after_ = (before.setStrand before.turn { before.strand before.turn with idle := 1 }).idleOnce before.turn := by
  unfold State.closeBundle
  dsimp only
  rw [orderedFaults_illegal, if_neg (by rw [hi]; decide), overfull_orderedFaults, if_pos ho]

variable (ho : overfull (after_.strand before.turn).inflight after_.iss = false)
include ho

/-- Outside a region the fault of the lowest position is the cause. -/
theorem closeBundle_fault (hr : (before.strand before.turn).region = none) (ha : (after_.strand before.turn).region = none)
    (hc : ∀ f ∈ after_.iss.faults, f.cause ≠ 1) (f : FaultAt) (hl : lowest (after_.iss.orderedFaults false).faults = some f) :
    before.closeBundle after_ = before.bundleTrap before.turn (after_.iss.orderedFaults false) f.cause
      (maskOf ((after_.iss.orderedFaults false).faults.map (·.pos))) f.sub f.faddr := by
  have hsub : ∀ f ∈ (after_.iss.orderedFaults false).faults, f ∈ after_.iss.faults := by
    rw [orderedFaults_outside]; intro f hf
    split at hf
    · exact hf
    · exact List.mem_of_mem_filter hf
  have hnone : ((after_.iss.orderedFaults false).faults.filter fun f => f.cause == 1) = [] :=
    List.filter_eq_nil_iff.2 fun f hf => by simpa using hc f (hsub f hf)
  unfold State.closeBundle
  dsimp only
  rw [hr, Option.isSome_none, orderedFaults_illegal, if_neg (by rw [hi]; decide), overfull_orderedFaults, if_neg (by rw [ho]; decide), hnone,
    if_neg (by decide), hl, if_neg (by decide), withRegionOf_same before after_ _ (.inr ha)]

variable (hf : after_.iss.faults = []) (hh : after_.iss.hold = none)
  (hb : (after_.iss.bad || (after_.iss.commits && (before.strand before.turn).heldStores.any fun h => h.bad)) = false)
  (hw : (before.strand before.turn).region.isSome = true ∨ (after_.strand before.turn).region = none)
include hf hh hb hw

theorem closeBundle_poisoned (p : Nat × W64) (hp : p ∈ after_.iss.poisoned) (hl : ∀ q ∈ after_.iss.poisoned, q = p ∨ p.1 < q.1) :
    before.closeBundle after_ =
      (before.issueOnce before.turn).bundleTrap before.turn after_.iss 7 (maskOf (after_.iss.poisoned.map (·.1))) 0 p.2 := by
  have hlow : lowest (after_.iss.poisoned.map fun x => ⟨x.1, 7, 0, x.2⟩) = some ⟨p.1, 7, 0, p.2⟩ :=
    lowest_of_min _ _ (List.mem_map.2 ⟨p, hp, rfl⟩) fun g hg => by
      obtain ⟨q, hq, rfl⟩ := List.mem_map.1 hg
      obtain rfl | hlt := hl q hq
      · exact .inl rfl
      · exact .inr hlt
  unfold State.closeBundle
  dsimp only
  rw [orderedFaults_nil _ _ hf, if_neg (by rw [hi]; decide), if_neg (by rw [ho]; decide), hf, hh, hb, withRegionOf_same before after_ _ hw]
  cases hs : after_.iss.poisoned with
  | nil => rw [hs] at hp; exact nomatch hp
  | cons q r =>
    rw [hs] at hlow
    rw [List.filter_nil, if_neg (by decide), lowest_nil]
    dsimp only
    rw [if_neg (by decide), hlow]

variable (hp : after_.iss.poisoned = [])
include hp

theorem closeBundle_rollback (c : Nat) (hc : rollbackCause (after_.strand before.turn) after_.iss = some c) :
    before.closeBundle after_ = (before.issueOnce before.turn).rollback before.turn c after_.iss.addr := by
  unfold State.closeBundle
  dsimp only
  rw [orderedFaults_nil _ _ hf, if_neg (by rw [hi]; decide), if_neg (by rw [ho]; decide), hf, hh, hb, hp, hc, withRegionOf_same before after_ _ hw]
  rfl

theorem closeBundle_katfail (hc : rollbackCause (after_.strand before.turn) after_.iss = none) (pos : Nat) (faddr : W64)
    (hk : after_.iss.katfail = some (pos, faddr)) :
    before.closeBundle after_ = (before.issueOnce before.turn).bundleTrap before.turn after_.iss 8 (1#8 <<< pos) 0 faddr := by
  unfold State.closeBundle
  dsimp only
  rw [orderedFaults_nil _ _ hf, if_neg (by rw [hi]; decide), if_neg (by rw [ho]; decide), hf, hh, hb, hp, hc, hk,
    withRegionOf_same before after_ _ hw]
  rfl
end

/-! ## The statement -/

/-- What stops a bundle that is presented, in the order in which it is checked. -/
theorem bundleOutcome_start (s : State) (b : Decoded) (hn : b.words.length ≤ 8) :
    let t := s.turn
    let n := b.words.length
    let w := fun k => b.words.getD k 0
    let bad := fun k => k < n ∧ (TooMany b k ∨ TooWide b k ∨ Clashes b k)
    (stopBit (w (n - 1)) = false → s.startBundle b = .done (s.trapAtIssue t 2 0xFF)) ∧
    (stopBit (w (n - 1)) = true → (∃ k, Stray b k) → ∃ mask : BitVec 8, s.startBundle b = .done (s.trapAtIssue t 2 mask) ∧
      ∀ k < 8, mask.getLsbD k = true ↔ Stray b k) ∧
    (stopBit (w (n - 1)) = true → (∀ k, ¬Stray b k) →
      ((∃ k < n, s.encodingOk t (w k) = false) → s.startBundle b = .run s (s.beginIssue b b.syllables) b.syllables) ∧
      ((∀ k < n, s.encodingOk t (w k) = true) →
        ((∃ k, bad k) → ∃ mask : BitVec 8, s.startBundle b = .done (s.trapAtIssue t 2 mask) ∧ ∀ k < 8, mask.getLsbD k = true ↔ bad k) ∧
        ((∀ k, ¬bad k) → ∀ r, (s.strand t).region = some r → 65536 ≤ ((s.strand t).step + 1 - r.step).toNat →
          (s.strand t).loopFails b = false → (s.chargeIssue t).1 = true →
          s.startBundle b = .done ((s.issueOnce t).rollback t 6 b.addr)))) := by
  dsimp only
  rw [← lastWord_eq]
  refine ⟨startBundle_open s b, fun hs ⟨k, hk⟩ => ⟨_, startBundle_stray s b hs fun h => ?_, fun k hk => ?_⟩, fun hs hk => ?_⟩
  · have hmem := (mem_strays b k).2 hk
    rw [h] at hmem; exact nomatch hmem
  · rw [getLsbD_maskOf _ _ hk, decide_eq_true_eq, mem_strays]
  have hstray : strays b = [] := List.eq_nil_iff_forall_not_mem.2 fun k h => hk k ((mem_strays b k).1 h)
  refine ⟨fun he => startBundle_encoding s b hs hstray ((encodingOk_all s b).2 he), fun he => ?_⟩
  have hok : ¬(b.positions.any fun x => !s.encodingOk s.turn x.2) = true := fun h => by
    obtain ⟨k, hk, hf⟩ := (encodingOk_all s b).1 h
    exact nomatch hf.symm.trans (he k hk)
  refine ⟨fun ⟨k, hb⟩ => ⟨_, startBundle_limits s b hs hstray hok ?_, limitMask_iff b⟩, fun hb r hr hl hf hc => ?_⟩
  · exact (mask_ne_zero _).2 ⟨k, by omega, (limitMask_iff b k (by omega)).2 hb⟩
  · refine startBundle_length s b hs hstray hok ?_ ((lengthOut_iff _ r hr).2 hl) hf hc
    by_contra hm
    obtain ⟨k, hk, hbit⟩ := (mask_ne_zero _).1 hm
    exact hb k ((limitMask_iff b k hk).1 hbit)

theorem asked_iff (b : Issue) (c : Nat) : (b.rollbacks.map (·.2)).contains c = true ↔ ∃ p, (p, c) ∈ b.rollbacks := by
  simp

/-- The rollback causes in their rank (06 R126). -/
theorem rollbackCause_rank (x : Strand) (b : Issue) (r : Region) (h : x.region = some r) :
    let has := fun c => ∃ p, (p, c) ∈ b.rollbacks
    let aliased := ∃ x ∈ b.stores, guarded r.guards x = true
    (has 4 → rollbackCause x b = some 4) ∧ (¬has 4 → has 3 → rollbackCause x b = some 3) ∧
    (¬has 4 → ¬has 3 → has 2 → rollbackCause x b = some 2) ∧ (¬has 4 → ¬has 3 → ¬has 2 → aliased → rollbackCause x b = some 1) ∧
    (¬has 4 → ¬has 3 → ¬has 2 → ¬aliased → has 5 ∨ 128 < r.held.length + b.stores.length → rollbackCause x b = some 5) := by
  intro has aliased
  have yes : ∀ {c}, has c → (b.rollbacks.map (·.2)).contains c = true := fun hc => (asked_iff b _).2 hc
  have no : ∀ {c}, ¬has c → ¬(b.rollbacks.map (·.2)).contains c = true := fun hc => mt (asked_iff b _).1 hc
  unfold rollbackCause
  dsimp only
  rw [h]
  dsimp only
  refine ⟨fun h4 => ?_, fun h4 h3 => ?_, fun h4 h3 h2 => ?_, fun h4 h3 h2 h1 => ?_, fun h4 h3 h2 h1 h5 => ?_⟩
  · rw [if_pos (yes h4)]
  · rw [if_neg (no h4), if_pos (yes h3)]
  · rw [if_neg (no h4), if_neg (no h3), if_pos (yes h2)]
  · rw [if_neg (no h4), if_neg (no h3), if_neg (no h2), if_pos (List.any_eq_true.2 h1)]
  · rw [if_neg (no h4), if_neg (no h3), if_neg (no h2), if_neg (mt List.any_eq_true.1 h1), if_pos (h5.imp_left yes)]

theorem rollbackCause_outside (x : Strand) (b : Issue) (h : x.region = none) : rollbackCause x b = none := by
  unfold rollbackCause; dsimp only; rw [h]

/-- No store that the bundle performs has failed its check. -/
theorem stores_sound (b : Issue) (hs : List Held) (hb : b.bad = false) (hc : b.commits = true → ∀ h ∈ hs, h.bad = false) :
    (b.bad || (b.commits && hs.any fun h => h.bad)) = false := by
  rw [hb, Bool.false_or]
  cases h : b.commits with
  | false => rfl
  | true => rw [Bool.true_and, List.any_eq_false]; exact fun x hx => Bool.eq_false_iff.1 (hc h x hx)

/-- ILLEGAL by encoding comes first (02 R33). -/
theorem closeBundle_illegal_outside (before after_ : State) (hi : after_.iss.illegal ≠ 0) (hr : (before.strand before.turn).region = none)
    (hl : (before.strand before.turn).lastFault = none) :
    let old := before.strand before.turn
    let s := before.closeBundle after_
    let x := s.strand before.turn
    x.trap.cause = 1 ∧ x.trap.mask = after_.iss.illegal ∧ x.trap.bundle = old.pc ∧ x.trap.restart = old.pc ∧ s.mem = before.mem := by
  intro old
  rw [closeBundle_illegal before after_ hi, trapAtIssue_outside before before.turn 1 after_.iss.illegal hr]
  obtain ⟨-, -, -, -, -, -, -, -, hmask, -, -, hbundle, hrestart⟩ :=
    trapRecord_strand before before.turn 1 after_.iss.illegal 0 0 old.pc (old.step + 1) 0 old.pc
  exact ⟨trapRecord_cause_first _ _ _ _ _ _ _ _ _ _ hl, hmask, hbundle, hrestart, rfl⟩

/-- Settles O58: the checks of a bundle that is presented, then its faults outside a region, poison and KATFAIL, the rollback causes. -/
theorem bundleOutcome : Obligations.BundleOutcome := by
  refine ⟨⟨fun c => by cases c <;> rfl, rfl, rfl, rfl, fun s b _ hn => bundleOutcome_start s b hn⟩, fun before after_ => ?_, fun before after_ => ?_,
    fun before after_ r => ?_⟩
  · intro t b old s x hr ha hl
    refine ⟨fun hi ho => closeBundle_overfull before after_ hi ho, fun hi => closeBundle_illegal_outside before after_ hi hr hl, ?_⟩
    intro hi ho hc fs f hf hmin
    have hfs : (b.orderedFaults false).faults = fs := orderedFaults_outside b
    have hs : s = before.bundleTrap t (b.orderedFaults false) f.cause (maskOf (fs.map (·.pos))) f.sub f.faddr :=
      hfs ▸ closeBundle_fault before after_ hi ho hr ha (fun g hg => (hc g hg).1) f (by rw [hfs]; exact lowest_of_min fs f hf hmin)
    have h := bundleTrap_outside before t (b.orderedFaults false) f.cause (maskOf (fs.map (·.pos))) f.sub f.faddr hr hl
    dsimp only at h
    rw [← hs, orderedFaults_addr] at h
    obtain ⟨hcause, hmask, hsub, hfaddr, hbundle, hrestart, -, h⟩ := h
    exact ⟨hcause, hsub, hfaddr, hbundle, hrestart, marked hmask, h⟩
  · intro t b old s x hl hi ho hf hh hb hc
    have hb := stores_sound b old.heldStores hb hc
    refine ⟨fun _ p hp hmin => ⟨fun hr ha => ?_, fun r hr => ?_⟩, fun hp hr ha pos faddr hk => ?_⟩
    · have hs : s = _ := closeBundle_poisoned before after_ hi ho hf hh hb (.inr ha) p hp hmin
      have h := bundleTrap_outside (before.issueOnce t) t b 7 (maskOf (b.poisoned.map (·.1))) 0 p.2 (by rwa [issueOnce_strand])
        (by rwa [issueOnce_strand])
      dsimp only at h
      rw [← hs, issueOnce_strand, issueOnce_mem, issueOnce_writes, issueOnce_cores] at h
      obtain ⟨hcause, hmask, -, hfaddr, hbundle, hrestart, hpc, htr, h⟩ := h
      exact ⟨hcause, hfaddr, hbundle, hrestart, hpc, htr, marked hmask, h⟩
    · have hs : s = _ := closeBundle_poisoned before after_ hi ho hf hh hb (.inl (by rw [hr]; rfl)) p hp hmin
      have h := bundleTrap_inside (before.issueOnce t) t b 7 (maskOf (b.poisoned.map (·.1))) 0 p.2 r (by rwa [issueOnce_strand])
        (by rwa [issueOnce_strand])
      dsimp only at h
      rw [← hs, issueOnce_mem, issueOnce_writes] at h
      obtain ⟨hcause, hmask, hfaddr, hbundle, hrestart, hpc, htr, h⟩ := h
      exact ⟨hcause, hfaddr, hbundle, hrestart, hpc, htr, marked hmask, h⟩
    · have hs : s = _ := closeBundle_katfail before after_ hi ho hf hh hb (.inr ha) hp (rollbackCause_outside _ _ ha) pos faddr hk
      have h := bundleTrap_outside (before.issueOnce t) t b 8 (1#8 <<< pos) 0 faddr (by rwa [issueOnce_strand]) (by rwa [issueOnce_strand])
      dsimp only at h
      rw [← hs, issueOnce_strand, issueOnce_mem, issueOnce_writes, issueOnce_cores] at h
      obtain ⟨hcause, hmask, -, hfaddr, hbundle, hrestart, -, htr, hg, hv, hkr, -, h⟩ := h
      exact ⟨hcause, hmask, hfaddr, hbundle, hrestart, htr, hg, hv, hkr, h⟩
  · intro t b hr ha hi ho hf hh hb hheld hp has aliased
    have hb := stores_sound b (before.strand t).heldStores hb fun _ => by rwa [Strand.heldStores, hr]
    have roll := closeBundle_rollback before after_ hi ho hf hh hb (.inl (by rw [hr]; rfl)) hp
    obtain ⟨r4, r3, r2, r1, r5⟩ := rollbackCause_rank (after_.strand t) b r ha
    exact ⟨fun h4 => roll 4 (r4 h4), fun h4 h3 => roll 3 (r3 h4 h3), fun h4 h3 h2 => roll 2 (r2 h4 h3 h2),
      fun h4 h3 h2 h1 => roll 1 (r1 h4 h3 h2 h1), fun h4 h3 h2 h1 h5 => roll 5 (r5 h4 h3 h2 h1 h5)⟩

end Sys2Proof.Proofs

namespace Sys2Proof.Proofs
open Sys2Proof Sys2Proof.Machine Sys2Proof.Laws

/-! # What `gets` lands -/

/-- Bits set one after the other in a word of any width. -/
theorem getLsbD_foldl_setBit {α : Type} {w : Nat} (f : α → Nat) (xs : List α) (m : BitVec w) (k : Nat) (hk : k < w) :
    (xs.foldl (fun m x => m ||| (1#w <<< f x)) m).getLsbD k = (m.getLsbD k || decide (∃ x ∈ xs, f x = k)) := by
  induction xs generalizing m with
  | nil => simp
  | cons x xs ih =>
    have hbit : (1#w <<< f x).getLsbD k = decide (f x = k) := by
      rw [BitVec.getLsbD_shiftLeft, BitVec.getLsbD_one, Bool.eq_iff_iff]
      simp only [Bool.and_eq_true, Bool.not_eq_true', decide_eq_true_eq, decide_eq_false_iff_not]
      omega
    rw [List.foldl_cons, ih, BitVec.getLsbD_or, hbit, Bool.or_assoc, ← Bool.decide_or]
    simp only [List.mem_cons, exists_eq_or_imp]

theorem mem_strands (c : CtxId) (t : StrandId) : t ∈ c.strands ↔ ∃ n, t = c.strand n := by
  rw [CtxId.strands, Fin.exists_fin_succ, Fin.exists_fin_succ, Fin.exists_fin_two]
  simp

/-- %attach holds the bit of each core whose strand is attached and has not exited (07 R135). -/
theorem attachMask_bit (s : State) (c : CtxId) (k : Nat) (hk : k < 64) : (s.attachMask c).getLsbD k =
    decide (∃ h : k < 4, (s.strand (c.strand ⟨k, h⟩)).attached ∧ ¬(s.strand (c.strand ⟨k, h⟩)).exited) := by
  unfold State.attachMask State.attachedSet
  rw [getLsbD_foldl_setBit _ _ _ k hk, BitVec.ofNat_eq_ofNat, BitVec.getLsbD_zero, Bool.false_or, decide_eq_decide]
  simp only [List.mem_filter, mem_strands, Bool.and_eq_true, Bool.not_eq_true']
  constructor
  · rintro ⟨_, ⟨⟨n, rfl⟩, hatt, hex⟩, rfl⟩
    exact ⟨n.isLt, hatt, Bool.eq_false_iff.1 hex⟩
  · rintro ⟨h, hatt, hex⟩
    exact ⟨_, ⟨⟨⟨k, h⟩, rfl⟩, hatt, Bool.eq_false_iff.2 hex⟩, rfl⟩

/-- The entries of the gated store buffer in use are those that the open region holds (06 R113). -/
theorem gsbn_eq (t : Strand) : t.gsbn = t.heldStores.length := by
  unfold Strand.gsbn Strand.heldStores
  split <;> rfl

/-- A `gets` lands with latency 1 the value that its register reads as. -/
theorem gets_lands (s : State) (d : Reg) (i : BitVec 12) (x : W64) (hi : i.toNat ≤ 19) (hx : s.sregValue i.toNat = x) :
    LandsG (.gets d i) s d 1 x := by
  unfold LandsG
  rw [exec_gets, execGets, if_pos hi, hx, resultG_eq]

/-- Settles O4: one register after the other; the narrow ones widened, %attach bit by bit. -/
theorem specialRegisterReads : Obligations.SpecialRegisterReads := by
  intro s d st t
  have wide {w : Nat} (x : BitVec w) : zx x = BitVec.ofNat 64 x.toNat := (BitVec.ofNat_toNat 64 x).symm
  have read (i : BitVec 12) (x : W64) (hi : i.toNat ≤ 19) (hx : s.sregValue i.toNat = x) := gets_lands s d i x hi hx
  exact ⟨read 0 _ (by decide) rfl, read 1 _ (by decide) rfl, read 2 _ (by decide) rfl, read 3 _ (by decide) rfl, read 4 _ (by decide) rfl,
    read 5 _ (by decide) rfl, ⟨_, read 6 _ (by decide) rfl, attachMask_bit s t.ctxId⟩, read 7 _ (by decide) rfl,
    read 8 _ (by decide) (wide _), read 9 _ (by decide) rfl, read 10 _ (by decide) rfl, read 11 _ (by decide) (wide _),
    read 12 _ (by decide) (wide _), read 13 _ (by decide) rfl, read 14 _ (by decide) (congrArg (BitVec.ofNat 64) (gsbn_eq st)),
    read 15 _ (by decide) (wide _), read 16 _ (by decide) (wide _), read 17 _ (by decide) (wide _), read 18 _ (by decide) (wide _),
    read 19 _ (by decide) (wide _)⟩

end Sys2Proof.Proofs

namespace Sys2Proof.Proofs
open Sys2Proof Sys2Proof.Machine Sys2Proof.Laws

/-! # Results land -/

/-! ## Registers after a write of one (03 R48) -/

@[simp] theorem wg_region (t : Strand) (r : Reg) (x : W64) (p : Bool) : (t.wg r x p).region = t.region := by
  unfold Strand.wg; split <;> rfl

/-- A write of a scalar register changes that register and its poison mark alone, and a write of g0 nothing. -/
theorem wg_eq (t : Strand) (r : Reg) (x : W64) (p : Bool) : ∃ g gp, t.wg r x p = { t with g := g, gp := gp } := by
  unfold Strand.wg; split <;> exact ⟨_, _, rfl⟩

/-- A write of a predicate register changes that register and its poison mark alone, and a write of k0 nothing. -/
theorem wk_eq (t : Strand) (r : Reg) (x : W64) (p : Bool) : ∃ k kp, t.wk r x p = { t with k := k, kp := kp } := by
  unfold Strand.wk; split <;> exact ⟨_, _, rfl⟩

theorem rg_wg (t : Strand) (r n : Reg) (x : W64) (p : Bool) : (t.wg r x p).rg n = if n = r ∧ r ≠ 0 then x else t.rg n := by
  unfold Strand.wg
  by_cases hr : r = 0
  · rw [if_pos hr, if_neg fun h => h.2 hr]
  · unfold Strand.rg
    rw [if_neg hr]
    by_cases hn : n = r
    · subst hn
      rw [if_neg hr, if_pos ⟨rfl, hr⟩, Vector.getElem_set_self]
    · have hne : r.toNat ≠ n.toNat := fun h => hn (BitVec.eq_of_toNat_eq h.symm)
      rw [Vector.getElem_set_ne _ _ hne, if_neg (c := n = r ∧ r ≠ 0) fun h => hn h.1]

theorem rv_wv (t : Strand) (r n : Reg) (x : VReg) (p : Bool) : (t.wv r x p).rv n = if n = r then x else t.rv n := by
  unfold Strand.wv Strand.rv
  by_cases hn : n = r
  · subst hn; simp
  · have hne : r.toNat ≠ n.toNat := fun h => hn (BitVec.eq_of_toNat_eq h.symm)
    simp [hn, Vector.getElem_set_ne _ _ hne]

theorem rk_wk (t : Strand) (r : Reg) (x : W64) (p : Bool) (n : Nat) (hr : r.toNat < 8) (hn : n < 8) :
    (t.wk r x p).rk n = if n = r.toNat ∧ n ≠ 0 then x else t.rk n := by
  unfold Strand.wk Strand.rk
  simp only [Nat.mod_eq_of_lt hr, Nat.mod_eq_of_lt hn]
  by_cases hz : n = 0
  · simp [hz]
  · by_cases h0 : r.toNat = 0
    · simp [hz, h0]
    · by_cases he : n = r.toNat
      · subst he; simp [hz]
      · simp [hz, h0, he, Vector.getElem_set_ne _ _ (Ne.symm he)]

/-! ## The last result in flight lands -/

/-- What a register takes: the strand, and the snapshot of its open region where the result was issued before it (06 R112). -/
def landed (t : Strand) (tg : Tgt) (d : Dat) (p : Bool) (issued : W64) : Strand :=
  let x := t.put tg d p
  { x with region := x.region.map fun r => if stepBefore issued r.step then { r with snap := r.snap.put tg d p } else r }

theorem landOne_register (s : State) (t : StrandId) (tg : Tgt) (d : Dat) (p : Bool) (issued : W64) (h : tg.inMatrix = false) :
    s.landOne t tg d p issued = s.setStrand t (landed (s.strand t) tg d p issued) := by
  cases tg with
  | g r => rfl
  | v r => rfl
  | k r => rfl
  | fmt => rfl
  | latch w => exact nomatch h
  | stage n => exact nomatch h
  | acc n => exact nomatch h

/-- One result is due at the end of the step, after others that are not: it lands, and those stay in flight. -/
theorem landDue_last (s : State) (t : StrandId) (rest : List Exposed) (x : Exposed) (hrest : ∀ e ∈ rest, e.due ≠ (s.strand t).step)
    (hdue : x.due = (s.strand t).step) (hin : (s.strand t).inflight = rest ++ [x]) (hm : x.tgt.inMatrix = false) :
    s.landDue t = s.setStrand t (landed { s.strand t with inflight := rest } x.tgt x.dat x.poison x.issued) := by
  have hkept : (rest ++ [x]).filter (fun e => e.due != (s.strand t).step) = rest := by
    simpa [List.filter_append, hdue, List.filter_eq_self] using hrest
  have hlands : (rest ++ [x]).filter (fun e => e.due == (s.strand t).step) = [x] := by
    simpa [List.filter_append, hdue, List.filter_eq_nil_iff] using hrest
  unfold State.landDue
  dsimp only
  rw [hin, hkept, hlands, State.landAll, State.landAll, landOne_register _ _ _ _ _ _ hm, strand_setStrand_self]
  exact congrArg (fun m => ({ s with strands := m } : State)) (tset_tset _ _ _ _)

section
variable (s : State) (t : StrandId) (rest : List Exposed) (r : Reg) (issued : W64) (p : Bool) (hrest : ∀ e ∈ rest, e.due ≠ (s.strand t).step)
include hrest

/-- A scalar result lands in its register alone; g0 discards it. -/
theorem landDue_g (x : W64) (hin : (s.strand t).inflight = rest ++ [⟨.g r, .w x, (s.strand t).step, issued, p⟩]) :
    let y := (s.landDue t).strand t
    y.inflight = rest ∧ (∀ n : Reg, y.rg n = if n = r ∧ r ≠ 0 then x else (s.strand t).rg n) ∧ y.v = (s.strand t).v ∧ y.k = (s.strand t).k ∧
      y.pc = (s.strand t).pc ∧ y.step = (s.strand t).step ∧ y.idle = (s.strand t).idle := by
  rw [landDue_last s t rest _ hrest rfl hin rfl, strand_setStrand_self]
  obtain ⟨g, gp, h⟩ := wg_eq { s.strand t with inflight := rest } r x p
  have hrg (n : Reg) := rg_wg { s.strand t with inflight := rest } r n x p
  simp only [landed, Strand.put]
  rw [h] at hrg ⊢
  exact ⟨rfl, hrg, rfl, rfl, rfl, rfl, rfl⟩

/-- A vector result lands in its register alone. -/
theorem landDue_v (v : VReg) (hin : (s.strand t).inflight = rest ++ [⟨.v r, .v v, (s.strand t).step, issued, p⟩]) :
    let y := (s.landDue t).strand t
    y.inflight = rest ∧ (∀ n : Reg, y.rv n = if n = r then v else (s.strand t).rv n) ∧ y.g = (s.strand t).g ∧ y.k = (s.strand t).k := by
  rw [landDue_last s t rest _ hrest rfl hin rfl, strand_setStrand_self]
  exact ⟨rfl, fun n => rv_wv { s.strand t with inflight := rest } r n v p, rfl, rfl⟩

/-- A predicate result lands in its register alone; k0 discards it. -/
theorem landDue_k (x : W64) (hr : r.toNat < 8) (hin : (s.strand t).inflight = rest ++ [⟨.k r, .w x, (s.strand t).step, issued, p⟩]) :
    let y := (s.landDue t).strand t
    y.inflight = rest ∧ (∀ n < 8, y.rk n = if n = r.toNat ∧ n ≠ 0 then x else (s.strand t).rk n) ∧ y.g = (s.strand t).g ∧
      y.v = (s.strand t).v := by
  rw [landDue_last s t rest _ hrest rfl hin rfl, strand_setStrand_self]
  obtain ⟨k, kp, h⟩ := wk_eq { s.strand t with inflight := rest } r x p
  have hrk (n : Nat) (hn : n < 8) := rk_wk { s.strand t with inflight := rest } r x p n hr hn
  simp only [landed, Strand.put]
  rw [h] at hrk ⊢
  exact ⟨rfl, hrk, rfl, rfl⟩
end

/-- In a region the snapshot takes it too, if it was issued before the `ckpt` bundle. -/
theorem landDue_region (s : State) (t : StrandId) (reg : Region) (r : Reg) (x issued : W64) (hreg : (s.strand t).region = some reg)
    (hin : (s.strand t).inflight = [⟨.g r, .w x, (s.strand t).step, issued, false⟩]) (hr : r ≠ 0) :
    ∃ reg', ((s.landDue t).strand t).region = some reg' ∧ ((s.landDue t).strand t).rg r = x ∧
      reg'.snap.g = (if stepBefore issued reg.step then reg.snap.g.set r.toNat x r.isLt else reg.snap.g) ∧
      reg'.held = reg.held ∧ reg'.guards = reg.guards := by
  obtain ⟨-, hrg, -⟩ := landDue_g s t [] r issued false (fun e he => nomatch he) x hin
  refine ⟨if stepBefore issued reg.step then { reg with snap := reg.snap.put (.g r) (.w x) false } else reg, ?_,
    (hrg r).trans (if_pos ⟨rfl, hr⟩), ?_, ?_, ?_⟩
  · rw [landDue_last s t [] _ (fun e he => nomatch he) rfl hin rfl, strand_setStrand_self]
    simp [landed, Strand.put, hreg]
  · split
    · rw [Snapshot.put, if_neg hr]
    · rfl
  · split <;> rfl
  · split <;> rfl

/-! ## Idle steps -/

theorem idleStep_runs (s : State) (t : StrandId) (hi : 0 < (s.strand t).idle) (hr : s.runs t.ctxId = true) (hp : s.presents t = true) :
    exec (.idleStep t) s = .next (s.idleOnce t) := by
  simp [execIdleStep, hr, hp, Nat.pos_iff_ne_zero.1 hi]

theorem idleOnce_empty (s : State) (t : StrandId) (h : (s.strand t).inflight = []) :
    s.idleOnce t = s.setStrand t { s.strand t with step := (s.strand t).step + 1, idle := (s.strand t).idle - 1 } := by
  unfold State.idleOnce
  dsimp only
  rw [landDue_nil _ _ (by rw [strand_setStrand_self]; exact h), strand_setStrand_self, ← h]
  exact congrArg (fun m => ({ s with strands := m } : State)) (tset_tset _ _ _ _)

theorem idleOnce_g (s : State) (t : StrandId) (rest : List Exposed) (r : Reg) (x issued : W64) (p : Bool)
    (hrest : ∀ e ∈ rest, e.due ≠ (s.strand t).step + 1)
    (hin : (s.strand t).inflight = rest ++ [⟨.g r, .w x, (s.strand t).step + 1, issued, p⟩]) :
    let st := s.strand t; let y := (s.idleOnce t).strand t
    y.step = st.step + 1 ∧ y.idle = st.idle - 1 ∧ y.inflight = rest ∧ (∀ n : Reg, y.rg n = if n = r ∧ r ≠ 0 then x else st.rg n) ∧
      y.v = st.v ∧ y.k = st.k ∧ y.pc = st.pc ∧ ∀ u, u.key ≠ t.key → (s.idleOnce t).strand u = s.strand u := by
  intro st y
  let s1 := s.setStrand t { st with step := st.step + 1, idle := st.idle - 1 }
  have hst : s1.strand t = { st with step := st.step + 1, idle := st.idle - 1 } := strand_setStrand_self _ _ _
  obtain ⟨hfl, hrg, hv, hk, hpc, hstep, hidle⟩ := landDue_g s1 t rest r issued p (by rw [hst]; exact hrest) x (by rw [hst]; exact hin)
  rw [hst] at hrg hv hk hpc hstep hidle
  exact ⟨hstep, hidle, hfl, hrg, hv, hk, hpc, fun u hu => (landDue_other s1 t u hu).trans (strand_setStrand_other _ _ _ _ hu)⟩

/-- Settles O13: the result that is due lands in its register, in the snapshot, at an idle step. -/
theorem resultsLand : Obligations.ResultsLand := by
  refine ⟨fun s t rest r x v issued p hrest => ⟨fun hin => ?_, fun hin => ?_, fun hin hr => ?_⟩, fun s t reg r x issued hreg hin hr => ?_,
    fun s i => rfl, fun s t hi hruns hpres => ⟨fun hin => ?_, fun rest r x issued p hrest hin => ?_⟩⟩
  · obtain ⟨hfl, hrg, hv, hk, -⟩ := landDue_g s t rest r issued p hrest x hin
    exact ⟨_, rfl, hfl, hrg, fun n => by simp only [Strand.rv, hv], fun n => by simp only [Strand.rk, hk], landDue_mem s t,
      landDue_other s t⟩
  · obtain ⟨hfl, hrv, hg, hk⟩ := landDue_v s t rest r issued p hrest v hin
    exact ⟨_, rfl, hfl, hrv, fun n => by simp only [Strand.rg, hg], fun n => by simp only [Strand.rk, hk], landDue_mem s t,
      landDue_other s t⟩
  · obtain ⟨hfl, hrk, hg, hv⟩ := landDue_k s t rest r issued p hrest x hr hin
    exact ⟨_, rfl, hfl, hrk, fun n => by simp only [Strand.rg, hg], fun n => by simp only [Strand.rv, hv], landDue_mem s t,
      landDue_other s t⟩
  · obtain ⟨reg', h⟩ := landDue_region s t reg r x issued hreg hin hr
    exact ⟨_, reg', rfl, h⟩
  · rw [idleStep_runs s t hi hruns hpres, idleOnce_empty s t hin]
    rfl
  · obtain ⟨hstep, hidle, hfl, hrg, hv, hk, hpc, hother⟩ := idleOnce_g s t rest r x issued p hrest hin
    exact ⟨_, idleStep_runs s t hi hruns hpres, hstep, hidle, hfl, hrg, hv, hk, hpc, idleOnce_mem s t, hother⟩

end Sys2Proof.Proofs

namespace Sys2Proof.Proofs
open Sys2Proof Sys2Proof.Machine Sys2Proof.Laws

/-! # Matrix and engine syllables -/

@[simp] theorem setCore_setCore (s : State) (o : CoreId) (x y : Core) : (s.setCore o x).setCore o y = s.setCore o y :=
  congrArg (fun m => ({ s with cores := m } : State)) (tset_tset _ _ _ _)

/-- Outside a region of a matrix-using context such a syllable does its work. -/
theorem matrixOnly_free (s : State) (f : State → State) (hm : s.matrix s.turn = true) (hr : s.cur.region = none) : s.matrixOnly f = f s := by
  rw [matrixOnly_bound s f hm, outsideRegion_none s f hr]

/-- In another context it is ILLEGAL, in a region excluded (03 R50, 06 R118). -/
theorem matrixOnly_guards (i : Instr) (s : State) (f : State → State) (h : exec i s = .next (s.matrixOnly f)) :
    (s.matrix s.turn = false → IllegalHere i s) ∧ (s.matrix s.turn = true → s.cur.region ≠ none → Excluded i s) := by
  refine ⟨fun hm => ?_, fun hm hr => ⟨(s.outsideRegion f).iss, ?_, ?_⟩⟩
  · rw [IllegalHere, h, matrixOnly_unbound s f hm]; rfl
  · rw [h, matrixOnly_bound s f hm, outsideRegion_some s f hr]; rfl
  · rw [outsideRegion_some s f hr]; rfl

/-- The X and E syllables are guarded so. -/
theorem matrixSyllables_guarded (s : State) (a b : Reg) (w : BitVec 2) (z c t : BitVec 1) (q : PReg) (m : BitVec 8) (n : BitVec 3) :
    ∀ i ∈ [Instr.fmt a, .mlatch a w, .mgather a b q t, .mma w z c t, .mmas w z c t, .mst a 0 c, .mkat a n, .cpSrc a, .cpDst a,
        .cpDims a b 0, .cpDimd b 0, .cpGo a 0, .cpQfence m, .cpStatus a, .cpWait 0, .msLen a, .msCw a, .msZero a, .msCopy a b,
        .lkCw a 0, .lkSend a b 0, .lkRecv a b 0, .lkRaddF32 a b 0, .lkRaddBf16 a b 0, .lkRaddI32 a b 0],
      ∃ f, exec i s = .next (s.matrixOnly f) := by
  simp only [List.forall_mem_cons]
  refine ⟨?_, ?_, ?_, ?_, ?_, ?_, ?_, ?_, ?_, ?_, ?_, ?_, ?_, ?_, ?_, ?_, ?_, ?_, ?_, ?_, ?_, ?_, ?_, ?_, ?_, List.forall_mem_nil _⟩ <;> exact ⟨_, rfl⟩

/-! ## %fmt (09 R162) -/

theorem getLsbD_field {w : Nat} (x : BitVec w) (lo n k : Nat) (hk : k < n) : (x.extractLsb' lo n).getLsbD k = x.getLsbD (lo + k) := by
  simp [hk]

/-- A field of three bits holds 6 or 7 where its two upper bits are set. -/
theorem six_le_field (x : W32) (lo : Nat) : 6 ≤ (x.extractLsb' lo 3).toNat ↔ (x.getLsbD (lo + 2) && x.getLsbD (lo + 1)) = true := by
  have h : ∀ v : BitVec 3, 6 ≤ v.toNat ↔ (v.getLsbD 2 && v.getLsbD 1) = true := by decide
  rw [h, getLsbD_field x lo 3 2 (by decide), getLsbD_field x lo 3 1 (by decide)]

/-- The bits that a condition clears. -/
theorem getLsbD_ite_and (p : Prop) [Decidable p] (x m : W32) (k : Nat) :
    (if p then x &&& m else x).getLsbD k = (x.getLsbD k && (!decide p || m.getLsbD k)) := by
  split <;> simp [*]

theorem fmtStored_bit (x : W32) (k : Nat) (hk : k < 32) : (fmtStored x).getLsbD k =
    if k < 3 then x.getLsbD k && !(x.getLsbD 2 && x.getLsbD 1)
    else if k < 6 then x.getLsbD k && !(x.getLsbD 5 && x.getLsbD 4)
    else if 9 ≤ k ∧ k < 16 then false else x.getLsbD k := by
  have reserved : ∀ k < 32, (0xFFFF01FF#32).getLsbD k = !(decide (9 ≤ k) && decide (k < 16)) := by decide
  have af : ∀ k < 32, (0xFFFFFFF8#32).getLsbD k = !decide (k < 3) := by decide
  have wf : ∀ k < 32, (0xFFFFFFC7#32).getLsbD k = !(decide (3 ≤ k) && decide (k < 6)) := by decide
  have haf (y : W32) : decide (fmtAF y ≥ 6) = (y.getLsbD 2 && y.getLsbD 1) := by
    rw [Bool.eq_iff_iff, decide_eq_true_eq]; exact six_le_field y 0
  have hwf (y : W32) : decide (fmtWF y ≥ 6) = (y.getLsbD 5 && y.getLsbD 4) := by
    rw [Bool.eq_iff_iff, decide_eq_true_eq]; exact six_le_field y 3
  simp only [fmtStored, getLsbD_ite_and, haf, hwf, BitVec.getLsbD_and, reserved k hk, af k hk, wf k hk, reserved 1, reserved 2, reserved 4,
    reserved 5, af 4, af 5, Nat.reduceLT, Nat.reduceLeDiff]
  by_cases h3 : k < 3
  · simp [h3, show ¬9 ≤ k by omega, show ¬3 ≤ k by omega]
  · by_cases h6 : k < 6
    · simp [h3, h6, show ¬9 ≤ k by omega, show 3 ≤ k by omega]
    · by_cases h9 : 9 ≤ k ∧ k < 16
      · simp [h3, h6, h9]
      · simp [h3, h6, h9]
        omega

theorem execFmt_free (s : State) (a : Reg) (hm : s.matrix s.turn = true) (hr : s.cur.region = none) :
    exec (.fmt a) s = .next (s.inFlight .fmt (.fmt (fmtStored (BitVec.ofNat 32 (s.cur.rg a).toNat))) 2) := by
  rw [exec_fmt, execFmt, matrixOnly_free s _ hm hr, result_eq, BitVec.ofNat_toNat]

/-! ## Ranges of the scratchpad (11 R196, R198) -/

theorem matrixRange_ready (s : State) (a : Reg) (n align off : Nat) (h : RangeReady s a n align off) :
    s.matrixRange (s.cur.rg a) n align = .ok off := by
  obtain ⟨-, -, halign, hin, hpart, hn, rfl, -⟩ := h
  have hlocal : isLocal (s.cur.rg a) = true := decide_eq_true (by omega)
  unfold State.matrixRange
  dsimp only
  rw [if_neg (not_not.2 halign), hlocal, if_neg (by simp; omega), if_neg (by omega)]

/-- On a range that is ready the syllable does its work, once the array is free where it needs it. -/
theorem onRange_ready (s : State) (a : Reg) (n align off : Nat) (array : Bool) (f : Nat → State → State) (h : RangeReady s a n align off)
    (ha : (array && (s.core s.turn.coreId).arrayBusy) = false) : s.onRange (s.cur.rg a) n align array f = f off s := by
  obtain ⟨-, -, -, -, -, -, -, hbanks⟩ := id h
  unfold State.onRange
  rw [matrixRange_ready s a n align off h]
  dsimp only
  rw [ha, hbanks]
  rfl

theorem workArray_eq (s : State) (banks : BitVec 32) : s.workArray banks = s.setCore s.turn.coreId { s.core s.turn.coreId with
    arrayBusy := true, reservations := (s.core s.turn.coreId).reservations ++ [⟨banks, true⟩] } := by
  simp [State.workArray, State.reserveBanks]

theorem execMlatch_ready (s : State) (a : Reg) (w : BitVec 2) (off : Nat) :
    let rb := rowBytes s.cur.fmt (s.cur.fmt.extractLsb' 3 3).toNat
    let o := s.core s.turn.coreId
    RangeReady s a (128 * rb) 64 off → o.arrayBusy = false → exec (.mlatch a w) s =
      .next ((s.setCore s.turn.coreId { o with
          arrayBusy := true, reservations := o.reservations ++ [⟨bankBits off (128 * rb), true⟩] }).inFlight
        (.latch w.toFin) (.rows ((List.range 128).map fun i => s.rowAt (off + i * rb) rb) 0) 20) := by
  intro rb o h ha
  obtain ⟨hm, hr, -⟩ := id h
  rw [exec_mlatch, execMlatch, matrixOnly_free s _ hm hr, State.loadLatch]
  exact congrArg Host.Outcome.next ((onRange_ready s a (128 * rb) 64 off true _ h (by simp [o, ha])).trans (by rw [workArray_eq, result_eq]; rfl))

/-! ## Gathers (11 R203) -/

/-- The address of the row that a lane names, an exact sum (00 R13). -/
def rowSum (base : W64) (v : VReg) (rb j : Nat) : Nat := base.toNat + (lane v j).toNat * rb

/-- A row lies in the strand's partition and in the local window. -/
def RowFits (k : Bind) (rb x : Nat) : Prop := x < 0x80000 ∧ x < k.psize.toNat * 16384 ∧ x + rb ≤ k.psize.toNat * 16384

/-- What a lane's row comes to. -/
def rowRange (s : State) (rb x : Nat) : Except AddrFault Nat :=
  if 2 ^ 64 ≤ x then .error (causeBounds, 0, BitVec.ofNat 64 x) else s.matrixRange (BitVec.ofNat 64 x) rb 1

theorem rowRange_ok (s : State) (rb x : Nat) (h : RowFits (s.bindOf s.turn.ctxId) rb x) :
    rowRange s rb x = .ok (((s.bindOf s.turn.ctxId).pbase.toNat * 16384 + x) % 0x80000) := by
  obtain ⟨hlocal, hpart, hend⟩ := h
  have hx : (BitVec.ofNat 64 x).toNat = x := by rw [BitVec.toNat_ofNat]; omega
  unfold rowRange State.matrixRange isLocal Bind.partBytes Bind.partBase
  dsimp only
  rw [hx, if_neg (by omega), if_neg (by omega), if_neg (by simp; omega), if_neg (by omega)]

theorem rowRange_error (s : State) (rb x : Nat) (h : ¬RowFits (s.bindOf s.turn.ctxId) rb x) : ∃ e, rowRange s rb x = .error e := by
  unfold rowRange
  split
  · exact ⟨_, rfl⟩
  · have hx : (BitVec.ofNat 64 x).toNat = x := by rw [BitVec.toNat_ofNat]; omega
    unfold State.matrixRange isLocal Bind.partBytes
    dsimp only
    rw [hx]
    split
    · exact ⟨_, rfl⟩
    split
    · exact ⟨_, rfl⟩
    next hout =>
      split
      · exact ⟨_, rfl⟩
      next hend =>
        simp only [Bool.or_eq_true, Bool.not_eq_true', decide_eq_false_iff_not, decide_eq_true_eq, not_or, not_not, Nat.not_le] at hout
        exact absurd ⟨hout.1, hout.2, Nat.not_lt.1 hend⟩ h

theorem gatherRows_cons (s : State) (base : W64) (v : VReg) (rb j : Nat) (ls : List Nat) : s.gatherRows base v rb (j :: ls) =
    match rowRange s rb (rowSum base v rb j) with
    | .error _ => .error (causeBounds, 0, BitVec.ofNat 64 (rowSum base v rb j))
    | .ok off => (match s.gatherRows base v rb ls with | .error e => .error e | .ok xs => .ok (off :: xs)) := by
  rfl

section
variable (s : State) (base : W64) (v : VReg) (rb : Nat)

/-- Every row lies in the partition: their offsets, in lane order. -/
theorem gatherRows_ok (ls : List Nat) (h : ∀ j ∈ ls, RowFits (s.bindOf s.turn.ctxId) rb (rowSum base v rb j)) :
    s.gatherRows base v rb ls = .ok (ls.map fun j => ((s.bindOf s.turn.ctxId).pbase.toNat * 16384 + rowSum base v rb j) % 0x80000) := by
  induction ls with
  | nil => rfl
  | cons j ls ih =>
    obtain ⟨hj, hls⟩ := List.forall_mem_cons.1 h
    rw [gatherRows_cons, rowRange_ok s rb _ hj, ih hls]
    rfl

/-- The lowest lane whose row leaves it is BOUNDS. -/
theorem gatherRows_error (pre : List Nat) (j : Nat) (rest : List Nat)
    (hpre : ∀ i ∈ pre, RowFits (s.bindOf s.turn.ctxId) rb (rowSum base v rb i))
    (hj : ¬RowFits (s.bindOf s.turn.ctxId) rb (rowSum base v rb j)) :
    s.gatherRows base v rb (pre ++ j :: rest) = .error (causeBounds, 0, BitVec.ofNat 64 (rowSum base v rb j)) := by
  induction pre with
  | nil =>
    obtain ⟨e, he⟩ := rowRange_error s rb _ hj
    rw [List.nil_append, gatherRows_cons, he]
  | cons i pre ih =>
    obtain ⟨hi, hpre⟩ := List.forall_mem_cons.1 hpre
    rw [List.cons_append, gatherRows_cons, rowRange_ok s rb _ hi, ih hpre]
end

/-- The active lanes of a predicate. -/
def activeLanes (q : W64) : List Nat := (List.range 64).filter fun i => q.getLsbD i

section
variable (s : State) (c a : Reg) (q : PReg) (t : Fin 2)

/-- The row length that a gather takes from AF. -/
def gatherLength (s : State) : Nat := rowBytes s.cur.fmt (fmtAF s.cur.fmt)

theorem gatherStage_align (j : Nat) (rest : List Nat) (hl : activeLanes (s.cur.rk q.toNat) = j :: rest) (ha : (s.cur.rg a).toNat % 16 ≠ 0) :
    s.gatherStage c a q t = s.faultAt causeAlign 0 (BitVec.ofNat 64 (rowSum (s.cur.rg a) (s.cur.rv c) (gatherLength s) j)) := by
  unfold activeLanes at hl
  unfold State.gatherStage
  dsimp only
  rw [hl, if_pos (by simpa using ha), rowSum, BitVec.ofNat_add, BitVec.ofNat_toNat, BitVec.setWidth_eq]
  rfl

variable (ha : activeLanes (s.cur.rk q.toNat) = [] ∨ (s.cur.rg a).toNat % 16 = 0)
include ha

theorem gatherStage_aligned : s.gatherStage c a q t =
    match s.gatherRows (s.cur.rg a) (s.cur.rv c) (gatherLength s) (activeLanes (s.cur.rk q.toNat)) with
    | .error (cause, sub, faddr) => s.faultAt cause sub faddr
    | .ok offs =>
      let banks := offs.foldl (fun m off => m ||| bankBits off (gatherLength s)) 0
      if s.bankBusy s.turn.coreId.key banks then s.holdFor (.bank [(s.turn.coreId.key, banks)])
      else (if banks = 0 then s else s.reserveBanks s.turn.coreId banks false).result (.stage t)
        (.rows (offs.map fun off => s.rowAt off (gatherLength s)) banks) (8 + (offs.length + 15) / 16) := by
  have hc : (!(activeLanes (s.cur.rk q.toNat)).isEmpty && decide ((s.cur.rg a).toNat % 16 ≠ 0)) = false := by
    obtain h | h := ha <;> simp [h]
  unfold activeLanes at hc
  unfold State.gatherStage
  dsimp only
  rw [hc]
  rfl
end

/-- With no active lane an empty stage lands. -/
theorem gatherStage_empty (s : State) (c a : Reg) (q : PReg) (t : Fin 2) (hq : s.cur.rk q.toNat = 0)
    (hb : s.bankBusy s.turn.coreId.key 0 = false) : s.gatherStage c a q t = s.inFlight (.stage t) (.rows [] 0) 8 := by
  have hl : activeLanes (s.cur.rk q.toNat) = [] := by simp [activeLanes, hq]
  rw [gatherStage_aligned s c a q t (.inl hl), hl, State.gatherRows]
  exact (if_neg (Bool.eq_false_iff.1 hb)).trans rfl

section
variable (s : State) (c a : Reg) (q : PReg) (t : BitVec 1)

/-- The offset in the scratchpad of the row that a lane names. -/
def rowOffset (s : State) (c a : Reg) (j : Nat) : Nat :=
  ((s.bindOf s.turn.ctxId).pbase.toNat * 16384 + rowSum (s.cur.rg a) (s.cur.rv c) (gatherLength s) j) % 0x80000

/-- The banks of the rows that a gather reads. -/
def gatherBanks (s : State) (c a : Reg) (ls : List Nat) : BitVec 32 :=
  ls.foldl (fun m j => m ||| bankBits (rowOffset s c a j) (gatherLength s)) 0

theorem gatherStage_fits (ha : (s.cur.rg a).toNat % 16 = 0) (ls : List Nat) (hl : activeLanes (s.cur.rk q.toNat) = ls)
    (h : ∀ j ∈ ls, RowFits (s.bindOf s.turn.ctxId) (gatherLength s) (rowSum (s.cur.rg a) (s.cur.rv c) (gatherLength s) j)) :
    s.gatherStage c a q t.toFin =
      if s.bankBusy s.turn.coreId.key (gatherBanks s c a ls) then s.holdFor (.bank [(s.turn.coreId.key, gatherBanks s c a ls)])
      else (if gatherBanks s c a ls = 0 then s else s.reserveBanks s.turn.coreId (gatherBanks s c a ls) false).result (.stage t.toFin)
        (.rows (ls.map fun j => s.rowAt (rowOffset s c a j) (gatherLength s)) (gatherBanks s c a ls)) (8 + (ls.length + 15) / 16) := by
  rw [gatherStage_aligned s c a q t.toFin (.inr ha), hl, gatherRows_ok s _ _ _ ls h]
  dsimp only
  rw [List.foldl_map, List.map_map, List.length_map]
  rfl

theorem reserveBanks_cur (o : CoreId) (banks : BitVec 32) (array : Bool) : (s.reserveBanks o banks array).cur = s.cur := rfl

/-- What a gather lands with its banks free, and what it leaves of memory. -/
theorem gatherStage_lands (banks : BitVec 32) (rows : List (ByteRow × Bool)) (n : Nat) :
    let s' := (if banks = 0 then s else s.reserveBanks s.turn.coreId banks false).result (.stage t.toFin) (.rows rows banks) (8 + (n + 15) / 16)
    (s'.strand s.turn).inflight = s.cur.inflight ++
      [⟨.stage t.toFin, .rows rows banks, s.cur.step + BitVec.ofNat 64 (7 + (n + 15) / 16), s.cur.step, false⟩] ∧ s'.mem = s.mem := by
  intro s'
  have hlat : 8 + (n + 15) / 16 - 1 = 7 + (n + 15) / 16 := by omega
  simp only [s', State.result, State.resultP, hlat]
  split <;> exact ⟨congrArg Strand.inflight (strand_setStrand_self _ _ _), rfl⟩

variable (hm : s.matrix s.turn = true) (hr : s.cur.region = none)
include hm hr

theorem execMgather_free : exec (.mgather c a q t) s = .next (s.gatherStage c a q t.toFin) :=
  congrArg Host.Outcome.next (matrixOnly_free s _ hm hr)

/-- A base that is not aligned is ALIGN at the lowest active lane's row. -/
theorem mgather_align (j : Nat) (rest : List Nat) (hl : activeLanes (s.cur.rk q.toNat) = j :: rest) (ha : (s.cur.rg a).toNat % 16 ≠ 0) :
    Finds (.mgather c a q t) s 4 0 (BitVec.ofNat 64 (rowSum (s.cur.rg a) (s.cur.rv c) (gatherLength s) j)) := by
  rw [Finds, execMgather_free s c a q t hm hr, gatherStage_align s c a q t.toFin j rest hl ha]
  rfl

variable (ha : (s.cur.rg a).toNat % 16 = 0)
include ha

/-- A row outside the partition or the window is BOUNDS at the lowest such lane's row. -/
theorem mgather_bounds (pre : List Nat) (j : Nat) (rest : List Nat) (hl : activeLanes (s.cur.rk q.toNat) = pre ++ j :: rest)
    (hpre : ∀ i ∈ pre, RowFits (s.bindOf s.turn.ctxId) (gatherLength s) (rowSum (s.cur.rg a) (s.cur.rv c) (gatherLength s) i))
    (hj : ¬RowFits (s.bindOf s.turn.ctxId) (gatherLength s) (rowSum (s.cur.rg a) (s.cur.rv c) (gatherLength s) j)) :
    Finds (.mgather c a q t) s 6 0 (BitVec.ofNat 64 (rowSum (s.cur.rg a) (s.cur.rv c) (gatherLength s) j)) := by
  rw [Finds, execMgather_free s c a q t hm hr, gatherStage_aligned s c a q t.toFin (.inr ha), hl,
    gatherRows_error s (s.cur.rg a) (s.cur.rv c) (gatherLength s) pre j rest hpre hj]
  rfl

variable (ls : List Nat) (hl : activeLanes (s.cur.rk q.toNat) = ls)
  (h : ∀ j ∈ ls, RowFits (s.bindOf s.turn.ctxId) (gatherLength s) (rowSum (s.cur.rg a) (s.cur.rv c) (gatherLength s) j))
include hl h

theorem mgather_holds (hb : s.bankBusy s.turn.coreId.key (gatherBanks s c a ls) = true) :
    Holds (.mgather c a q t) s s (.bank [(s.turn.coreId.key, gatherBanks s c a ls)]) := by
  rw [Holds, execMgather_free s c a q t hm hr, gatherStage_fits s c a q t ha ls hl h, if_pos hb]
  rfl

theorem mgather_lands (hb : s.bankBusy s.turn.coreId.key (gatherBanks s c a ls) = false) :
    ∃ s', exec (.mgather c a q t) s = .next s' ∧ (s'.strand s.turn).inflight = s.cur.inflight ++
      [⟨.stage t.toFin, .rows (ls.map fun j => s.rowAt (rowOffset s c a j) (gatherLength s)) (gatherBanks s c a ls),
        s.cur.step + BitVec.ofNat 64 (7 + (ls.length + 15) / 16), s.cur.step, false⟩] ∧ s'.mem = s.mem := by
  rw [execMgather_free s c a q t hm hr, gatherStage_fits s c a q t ha ls hl h, if_neg (Bool.eq_false_iff.1 hb)]
  exact ⟨_, rfl, gatherStage_lands s t (gatherBanks s c a ls) _ ls.length⟩
end

/-! ## Accumulator rows in their store codes (11 R207) -/

/-- The bytes of a number, by their places. -/
theorem leBytes_eq_map (n v : Nat) : leBytes n v = (List.range n).map fun j => BitVec.ofNat 8 (v / 256 ^ j) := by
  induction n generalizing v with
  | zero => rfl
  | succ n ih =>
    rw [leBytes, ih, List.range_succ_eq_map, List.map_cons, List.map_map, Nat.pow_zero, Nat.div_one]
    congr 1
    refine List.map_congr_left fun j _ => ?_
    rw [Function.comp_apply, Nat.div_div_eq_div_mul, Nat.pow_succ']

theorem withOffsets_map_range (n : Nat) (f : Nat → Byte) : withOffsets ((List.range n).map f) = (List.range n).map fun j => (j, f j) := by
  rw [withOffsets, List.length_map, List.length_range, List.zip_map_right, List.zip_eq_zipWith, List.zipWith_self, List.map_map]
  rfl

/-- Two bytes for each element, by their places. -/
theorem flatMap_leBytes_two (n : Nat) (g : Nat → Nat) :
    ((List.range n).flatMap fun i => leBytes 2 (g i)) = (List.range (2 * n)).map fun j => BitVec.ofNat 8 (g (j / 2) / 256 ^ (j % 2)) := by
  induction n with
  | zero => rfl
  | succ n ih =>
    rw [List.range_succ, List.flatMap_append, ih, show 2 * (n + 1) = 2 * n + 1 + 1 by omega, List.range_succ, List.range_succ]
    have h1 : (2 * n + 1) / 2 = n := by omega
    simp [leBytes_eq_map, List.range_succ, h1]

/-- Byte j of an accumulator row in a store code. -/
def storeByte (f : W32) (code : Nat) (r : AccRow) (j : Nat) : Nat :=
  let q := fun n => narrowCode f rne (f32 (accLane r n))
  match code with
  | 0 => r.toNat / 256 ^ j
  | 1 => bf16.encode rne false (f32 (accLane r (j / 2))) / 256 ^ (j % 2)
  | _ => if fmtQW f then q (2 * j) + 16 * q (2 * j + 1) else q j

theorem storeRow_eq (f : W32) (code : Nat) (r : AccRow) :
    storeRow f code r = (List.range (storeBytes f code)).map fun j => BitVec.ofNat 8 (storeByte f code r j) := by
  match code with
  | 0 => exact leBytes_eq_map 512 r.toNat
  | 1 => exact flatMap_leBytes_two 128 fun n => bf16.encode rne false (f32 (accLane r n))
  | _ + 2 =>
    unfold storeRow storeBytes storeByte
    cases fmtQW f <;> simp only [if_true, if_false, Bool.false_eq_true]

/-- An accumulator with no poisoned row is stored row by row. -/
theorem storeAcc_ready (s : State) (a : Reg) (code : Nat) (c : Fin 2) (off : Nat) :
    let rb := storeBytes s.cur.fmt code
    let o := s.core s.turn.coreId
    RangeReady s a (64 * rb) 64 off → o.accPoison[c] = [] → s.storeAcc a code c =
      State.gathering (s.setCore s.turn.coreId { o with reservations := o.reservations ++ [⟨bankBits off (64 * rb), false⟩] })
        { s.iss with stores := s.iss.stores ++ (List.range 64).map fun m =>
            { va := s.cur.rg a + BitVec.ofNat 64 (m * rb), at_ := ⟨.spad s.turn.coreId.key (off + m * rb), false, 0, false⟩
              bytes := (List.range rb).map fun j => (j, BitVec.ofNat 8 (storeByte s.cur.fmt code ((o.acc[c]).getD m 0) j))
              clears := 0, pos := s.iss.pos } } := by
  intro rb o h hp
  have hclean : (o.accPoison[c.val]).isEmpty = true := List.isEmpty_iff.2 hp
  refine (onRange_ready s a (64 * rb) 64 off false _ h rfl).trans ?_
  dsimp only
  rw [if_pos hclean]
  simp only [storeRow_eq, withOffsets_map_range]
  rfl

theorem execMst_illegal (s : State) (a : Reg) (code : BitVec 4) (c : BitVec 1) (h : 3 ≤ code.toNat) : IllegalHere (.mst a code c) s := by
  rw [IllegalHere, exec_mst, execMst, if_pos (Nat.lt_of_succ_le h)]; rfl

theorem execMst_code (s : State) (a : Reg) (code : BitVec 4) (c : BitVec 1) (h : code.toNat < 3) (hm : s.matrix s.turn = true)
    (hr : s.cur.region = none) : exec (.mst a code c) s = .next (s.storeAcc a code.toNat c.toFin) := by
  rw [exec_mst, execMst, if_neg (by omega), matrixOnly_free s _ hm hr]

/-! ## Known answers (11 R208) -/

theorem heldByte_append (hs : List Held) (h : Held) (l : Loc) (b : Byte) (hb : heldByte [h] l = some b) : heldByte (hs ++ [h]) l = some b := by
  induction hs with
  | nil => exact hb
  | cons x hs ih => rw [List.cons_append, heldByte, ih]

/-- The youngest store of the strand gives the byte. -/
theorem ownByte_youngest (s : State) (hs : List Held) (h : Held) (b : Byte) (x : Nat) (hh : s.cur.withheld ++ s.cur.heldStores = hs ++ [h])
    (hl : h.at_.loc = .spad s.turn.coreId.key x) (hb : h.bytes = [(0, b)]) : s.ownByte x = (b, false) := by
  have h1 : heldByte [h] (.spad s.turn.coreId.key x) = some b := by
    simp [heldByte, hl, hb, offsetFrom, byteAt]
  unfold State.ownByte
  dsimp only
  rw [hh, heldByte_append hs h _ b h1]

/-- With none the scratchpad does. -/
theorem ownByte_plain (s : State) (hu : s.cur.unconfirmed = []) (hr : s.cur.region = none) (x : Nat) :
    s.ownByte x = (s.spadRead s.turn.coreId.key x, s.spadPoisoned s.turn.coreId.key x) := by
  simp [State.ownByte, Strand.withheld, Strand.heldStores, hu, hr, heldByte]

theorem firstMismatch_none (ws ls : List W32) (i : Nat) (h : ∀ k, k < ws.length → k < ls.length → ls[k]? = ws[k]?) :
    firstMismatch ws ls i = none := by
  induction ws generalizing ls i with
  | nil => rfl
  | cons w ws ih =>
    cases ls with
    | nil => rfl
    | cons l ls =>
      have h0 : l = w := by simpa using h 0
      rw [firstMismatch, if_pos h0.symm]
      exact ih ls (i + 1) fun k hw hl => by simpa using h (k + 1) (Nat.succ_lt_succ hw) (Nat.succ_lt_succ hl)

theorem firstMismatch_some (ws ls : List W32) (i n : Nat) (hw : n < ws.length) (hl : n < ls.length) (h : ∀ k < n, ls[k]? = ws[k]?)
    (hn : ls[n]? ≠ ws[n]?) : firstMismatch ws ls i = some (i + n) := by
  induction n generalizing ws ls i with
  | zero =>
    obtain ⟨w, ws, rfl⟩ := List.exists_cons_of_length_pos hw
    obtain ⟨l, ls, rfl⟩ := List.exists_cons_of_length_pos hl
    rw [firstMismatch, if_neg fun he => hn (by simp [he])]
    rfl
  | succ n ih =>
    obtain ⟨w, ws, rfl⟩ := List.exists_cons_of_length_pos (Nat.zero_lt_of_lt hw)
    obtain ⟨l, ls, rfl⟩ := List.exists_cons_of_length_pos (Nat.zero_lt_of_lt hl)
    have h0 : l = w := by simpa using h 0 (Nat.succ_pos n)
    rw [firstMismatch, if_pos h0.symm, ih ws ls (i + 1) (Nat.lt_of_succ_lt_succ hw) (Nat.lt_of_succ_lt_succ hl)
      (fun k hk => by simpa using h (k + 1) (Nat.succ_lt_succ hk)) (by simpa using hn)]
    congr 1
    omega

/-- Word i from a scratchpad offset, as the strand that issues finds it. -/
def katWord (s : State) (off i : Nat) : W32 := BitVec.ofNat 32 (leNat (s.ownBytes (off + 4 * i) 4))

section
variable (s : State) (a : Reg) (n : BitVec 3) (off : Nat) (h : RangeReady s a (4 * (n.toNat + 1)) 4 off)
  (hclean : ∀ j < 4 * (n.toNat + 1), (s.ownByte (off + j)).2 = false)
include h hclean

theorem execMkat_clean : exec (.mkat a n) s = .next
    (match firstMismatch ((List.range (n.toNat + 1)).map (katWord s off)) s.iss.lits 0 with
     | some i => s.setIss { s.iss with katfail := some (s.iss.pos, s.cur.rg a + BitVec.ofNat 64 (4 * i)) }
     | none => s) := by
  obtain ⟨hm, hr, -⟩ := id h
  have hfirst : s.firstPoison off (4 * (n.toNat + 1)) = none := by
    rw [State.firstPoison, List.find?_eq_none]
    exact fun j hj => Bool.eq_false_iff.1 (hclean j (List.mem_range.1 hj))
  rw [exec_mkat, execMkat, matrixOnly_free s _ hm hr, State.knownAnswer]
  dsimp only
  rw [onRange_ready s a (4 * (n.toNat + 1)) 4 off false _ h rfl, hfirst]
  rfl

theorem execMkat_equal (hw : ∀ i < n.toNat + 1, s.iss.lits[i]? = some (katWord s off i)) : exec (.mkat a n) s = .next s := by
  rw [execMkat_clean s a n off h hclean, firstMismatch_none _ _ _ fun k hk _ => ?_]
  rw [List.length_map, List.length_range] at hk
  simpa [hk] using hw k hk

theorem execMkat_differs (hlits : s.iss.lits.length = n.toNat + 1) (i : Nat) (hi : i < n.toNat + 1) (hw : ∀ j < i, s.iss.lits[j]? = some (katWord s off j))
    (hne : s.iss.lits[i]? ≠ some (katWord s off i)) : exec (.mkat a n) s =
      .next (s.gathering { s.iss with katfail := some (s.iss.pos, s.cur.rg a + BitVec.ofNat 64 (4 * i)) }) := by
  have hat (j : Nat) (hj : j < n.toNat + 1) : ((List.range (n.toNat + 1)).map (katWord s off))[j]? = some (katWord s off j) := by simp [hj]
  rw [execMkat_clean s a n off h hclean, firstMismatch_some _ _ 0 i (by simpa using hi) (by omega)
    (fun j hj => (hw j hj).trans (hat j (Nat.lt_trans hj hi)).symm) (by rwa [hat i hi]), Nat.zero_add]
  rfl
end

/-- Settles O28: the guards of X and E syllables, then `fmt`, `mlatch`, `mgather`, `mst` by its code, and `mkat`. -/
theorem matrixOperands : Obligations.MatrixOperands := by
  refine ⟨fun s a b w z c t q m n i hi => ?_, ⟨execFmt_free, fmtStored_bit⟩, execMlatch_ready, fun s c a q t => ?_, fun s a code c off => ?_,
    ownByte_youngest, fun s a n off => ?_⟩
  · obtain ⟨f, hf⟩ := matrixSyllables_guarded s a b w z c t q m n i hi
    exact matrixOnly_guards i s f hf
  · intro rb k sum fits off ls banks hm hr
    refine ⟨fun hq hb => ?_, fun j rest => mgather_align s c a q t hm hr j rest,
      fun pre j rest hl ha => mgather_bounds s c a q t hm hr ha pre j rest hl,
      fun _ ha hfits => ⟨mgather_holds s c a q t hm hr ha ls rfl hfits, mgather_lands s c a q t hm hr ha ls rfl hfits⟩⟩
    rw [execMgather_free s c a q t hm hr, gatherStage_empty s c a q t.toFin hq hb]
  · refine ⟨execMst_illegal s a code c, fun hcode h hp => ?_⟩
    obtain ⟨hm, hr, -⟩ := id h
    rw [execMst_code s a code c hcode hm hr]
    have hcases : code = 0 ∨ code = 1 ∨ code = 2 := by bv_omega
    obtain rfl | rfl | rfl := hcases
    · exact congrArg Host.Outcome.next (storeAcc_ready s a 0 c.toFin off h hp)
    · exact congrArg Host.Outcome.next (storeAcc_ready s a 1 c.toFin off h hp)
    · exact congrArg Host.Outcome.next (storeAcc_ready s a 2 c.toFin off h hp)
  · intro k h hlits hclean word
    obtain ⟨-, hr, -⟩ := id h
    exact ⟨fun hu => ownByte_plain s hu hr, execMkat_equal s a n off h hclean,
      fun i hi hw hne => execMkat_differs s a n off h hclean hlits i hi hw hne⟩

end Sys2Proof.Proofs

namespace Sys2Proof.Proofs
open Sys2Proof Sys2Proof.Machine Sys2Proof.Laws

/-! # Commands of the engines -/

/-! ## Entries of vectors at an index below their length -/

theorem set!_of_lt {α : Type} {n : Nat} (xs : Vector α n) (i : Nat) (x : α) (h : i < n) : xs.set! i x = xs.set i x h := by
  ext j hj
  rw [Vector.set!_eq_setIfInBounds, Vector.getElem_setIfInBounds hj, Vector.getElem_set]

theorem getD_of_lt {α : Type} {n : Nat} (xs : Vector α n) (i : Nat) (x : α) (h : i < n) : xs.getD i x = xs[i] := by
  simp [Vector.getD, h]

theorem copyq!_of_lt (o : Core) (n : Nat) (h : n < 8) : o.copyq[n]! = o.copyq[n] := getElem!_pos o.copyq n h

/-! ## Faults found at issue -/

/-- A check of an address that fails is a fault of the syllable (05 R96). -/
theorem finds_of_error (i : Instr) (s : State) (e : AddrFault) (h : exec i s = .next (s.faultAt e.1 e.2.1 e.2.2)) :
    Finds i s e.1.toNat e.2.1.toNat e.2.2 := by
  rw [Finds, h, BitVec.ofNat_toNat, BitVec.ofNat_toNat, BitVec.setWidth_eq, BitVec.setWidth_eq]
  rfl

/-- A sync word that is not aligned is ALIGN. -/
theorem cwordAt_align (s : State) (va : W64) (hg : isGlobal va = true) (ha : va.toNat % 8 ≠ 0) : s.cwordAt va = .error (causeAlign, 0, va) := by
  have hw : windowOf va = .global := by
    have h := of_decide_eq_true hg
    unfold windowOf
    dsimp only
    rw [if_neg (by omega), if_neg (by omega), if_neg (by omega), if_neg (by omega), if_pos h.2]
  have ht : s.tagWord s.turn va needW = .error (causeAlign, 0, va) := by
    unfold State.tagWord
    rw [hw]
    dsimp only
    rw [if_pos ha]
  rw [State.cwordAt, ht]

/-! ## Registers (11 R210, 21 R341, R349) -/

theorem onCore_eq (s : State) (f : Core → Core) : s.onCore f = s.setCore s.turn.coreId (f (s.core s.turn.coreId)) := rfl

/-- What a completion-word register holds after a write of ga. -/
theorem cwReg_eq (s : State) (a : Reg) (old : CwReg) : s.cwReg a old =
    if a = 0 then { old with valid := false } else { valid := true, addr := BitVec.ofNat 57 (s.cur.rg a).toNat } := by
  unfold State.cwReg
  rw [BitVec.ofNat_toNat]

section
variable (s : State) (a b : Reg) (hm : s.matrix s.turn = true) (hr : s.cur.region = none)
include hm hr

/-- A sub-command that changes its core alone. -/
theorem onCore_free (i : Instr) (f : State → Core → Core) (h : exec i s = .next (s.matrixOnly fun s => s.onCore (f s))) :
    exec i s = .next (s.setCore s.turn.coreId (f s (s.core s.turn.coreId))) := by
  rw [h, matrixOnly_free s _ hm hr, onCore_eq]

theorem execCpDims_free (n : BitVec 5) (h : n.toNat < 6) : let o := s.core s.turn.coreId
    exec (.cpDims a b n) s = .next (s.setCore s.turn.coreId { o with geo := { o.geo with
      ccount := o.geo.ccount.set n.toNat (BitVec.ofNat 32 (s.cur.rg a).toNat) h, csstr := o.geo.csstr.set n.toNat (s.cur.rg b) h } }) := by
  rw [exec_cpDims, execCpDims, if_neg (by omega), matrixOnly_free s _ hm hr, State.onGeo, onCore_eq, set!_of_lt _ _ _ h, set!_of_lt _ _ _ h,
    BitVec.ofNat_toNat]

theorem execCpDimd_free (n : BitVec 5) (h : n.toNat < 6) : let o := s.core s.turn.coreId
    exec (.cpDimd b n) s = .next (s.setCore s.turn.coreId { o with geo := { o.geo with
      cdstr := o.geo.cdstr.set n.toNat (s.cur.rg b) h } }) := by
  rw [exec_cpDimd, execCpDimd, if_neg (by omega), matrixOnly_free s _ hm hr, State.onGeo, onCore_eq, set!_of_lt _ _ _ h]

theorem execMsCw_free : let o := s.core s.turn.coreId
    exec (.msCw a) s = .next (s.setCore s.turn.coreId { o with mcw :=
      if a = 0 then { o.mcw with valid := false } else { valid := true, addr := BitVec.ofNat 57 (s.cur.rg a).toNat } }) := by
  rw [exec_msCw, execMsCw, matrixOnly_free s _ hm hr, onCore_eq, cwReg_eq]

theorem execLkCw_free (p : BitVec 5) (h : p.toNat < 16) : let o := s.core s.turn.coreId
    let old := o.lcw[p.toNat]
    let x : CwReg := if a = 0 then { old with valid := false } else { valid := true, addr := BitVec.ofNat 57 (s.cur.rg a).toNat }
    exec (.lkCw a p) s = .next (s.setCore s.turn.coreId { o with lcw := o.lcw.set p.toNat x h }) := by
  rw [exec_lkCw, execLkCw, if_neg (by omega), matrixOnly_free s _ hm hr, onCore_eq, set!_of_lt _ _ _ h, getD_of_lt _ _ _ h, cwReg_eq]

/-! ## Copies (11 R211, R213, R215) -/

theorem execCpGo_free (n : BitVec 5) (h : n.toNat < 8) : exec (.cpGo a n) s = .next (if a = 0 then s.enqueueCopy n.toNat none
    else match s.cwordAt (s.cur.rg a) with
      | .error (cause, sub, faddr) => s.faultAt cause sub faddr
      | .ok w => s.enqueueCopy n.toNat (some w)) := by
  rw [exec_cpGo, execCpGo, if_neg (by omega)]
  exact congrArg Host.Outcome.next (matrixOnly_free s _ hm hr)

theorem cpGo_error (n : BitVec 5) (h : n.toNat < 8) (e : AddrFault) (ha : a ≠ 0) (he : s.cwordAt (s.cur.rg a) = .error e) :
    Finds (.cpGo a n) s e.1.toNat e.2.1.toNat e.2.2 := by
  refine finds_of_error _ s e ?_
  rw [execCpGo_free s a hm hr n h, if_neg ha, he]

/-- With its completion word checked, or without one, the copy goes to its queue. -/
theorem cpGo_enqueues (n : BitVec 5) (h : n.toNat < 8) (cw : Option CWord)
    (hcw : a = 0 ∧ cw = none ∨ a ≠ 0 ∧ ∃ w, cw = some w ∧ s.cwordAt (s.cur.rg a) = .ok w) :
    exec (.cpGo a n) s = .next (s.enqueueCopy n.toNat cw) := by
  rw [execCpGo_free s a hm hr n h]
  obtain ⟨ha, rfl⟩ | ⟨ha, w, rfl, hw⟩ := hcw
  · rw [if_pos ha]
  · rw [if_neg ha, hw]

theorem execCpWait_free (n : BitVec 5) (h : n.toNat < 8) : exec (.cpWait n) s = .next
    (if (s.core s.turn.coreId).copyq[n.toNat] = [] then s else s.holdFor (.cpWait n.toNat)) := by
  rw [exec_cpWait, execCpWait, if_neg (by omega), matrixOnly_free s _ hm hr, copyq!_of_lt _ _ h]
  simp only [List.isEmpty_iff]
end

section
variable (s : State) (n : Nat) (w : Option CWord) (h : n < 8)

/-- The copy that `cp.go` appends. -/
def newCopy (s : State) (n : Nat) (w : Option CWord) : CopyOp :=
  let o := s.core s.turn.coreId
  let b := s.bindOf s.turn.ctxId
  { geo := o.geo, asid := b.asid, gen := b.gen, ctx := s.turn.ctx.val, core := s.turn.core.val, cw := w, seq := s.seq
    after := o.qfence.getD n [], moved := 0, chunk := [], prior := [], begun := false, corrupt := false, status := none }

theorem enqueueCopy_full (hq : 16 ≤ (s.core s.turn.coreId).copyq[n].length) : s.enqueueCopy n w = s.holdFor (.queue (.copies n)) := by
  unfold State.enqueueCopy
  dsimp only
  rw [if_pos (by rwa [copyq!_of_lt _ _ h])]

variable (hq : (s.core s.turn.coreId).copyq[n].length < 16)
include hq

theorem enqueueCopy_bank (hb : s.busyOf (s.copyNeeds (s.core s.turn.coreId).geo) = true) :
    s.enqueueCopy n w = s.holdFor (.bank (s.copyNeeds (s.core s.turn.coreId).geo)) := by
  unfold State.enqueueCopy
  dsimp only
  rw [if_neg (by rw [copyq!_of_lt _ _ h]; omega), if_pos hb]

theorem enqueueCopy_appends (hb : s.busyOf (s.copyNeeds (s.core s.turn.coreId).geo) = false) : let o := s.core s.turn.coreId
    s.enqueueCopy n w = ({ s with seq := s.seq + 1 } : State).setCore s.turn.coreId
      { o with copyq := o.copyq.set n (o.copyq[n] ++ [newCopy s n w]) h } := by
  intro o
  unfold State.enqueueCopy
  dsimp only [State.fresh]
  rw [if_neg (by rw [copyq!_of_lt _ _ h]; omega), if_neg (by rw [hb]; decide), onCore_eq, set!_of_lt _ _ _ h, newCopy, getD_of_lt _ _ _ h,
    getElem!_pos (s.core s.turn.coreId).qfence n h]
  dsimp only
  rw [copyq!_of_lt _ _ h]
  rfl
end

/-! ## Fences of copy queues (11 R213) -/

theorem mem_nsInsert (t : NatSet) (k x : Nat) : x ∈ nsInsert t k ↔ x = k ∨ x ∈ t := by
  induction t with
  | nil => simp [nsInsert]
  | cons y r ih =>
    unfold nsInsert
    split
    · simp
    · split
      next h => subst h; simp
      next => simp [ih, or_left_comm]

theorem mem_foldl_nsInsert (xs t : List Nat) (x : Nat) : x ∈ xs.foldl nsInsert t ↔ x ∈ t ∨ x ∈ xs := by
  induction xs generalizing t with
  | nil => simp
  | cons y r ih => rw [List.foldl_cons, ih, mem_nsInsert, List.mem_cons, or_comm (a := x = y), or_assoc]

/-- The ages in some of the queues, added to a set. -/
theorem mem_foldl_ages (o : Core) (m : BitVec 8) (qs : List Nat) (t : NatSet) (x : Nat) :
    x ∈ qs.foldl (fun ns q => if m.getLsbD q then (o.copyq[q]!).foldl (fun ns x => nsInsert ns x.seq) ns else ns) t ↔
      x ∈ t ∨ ∃ q ∈ qs, m.getLsbD q = true ∧ ∃ op ∈ o.copyq[q]!, op.seq = x := by
  induction qs generalizing t with
  | nil => simp
  | cons q r ih =>
    rw [List.foldl_cons, ih, List.exists_mem_cons_iff, ← or_assoc]
    refine or_congr_left ?_
    by_cases hq : m.getLsbD q = true
    · rw [if_pos hq, ← List.foldl_map (f := CopyOp.seq), mem_foldl_nsInsert]
      simp [hq]
    · simp [hq]

theorem mem_agesIn (o : Core) (m : BitVec 8) (x : Nat) :
    x ∈ agesIn o m ↔ ∃ r : Fin 8, m.getLsbD r.val = true ∧ ∃ op ∈ o.copyq[r], op.seq = x := by
  unfold agesIn
  rw [mem_foldl_ages]
  constructor
  · rintro (h | ⟨q, hq, h⟩)
    · exact nomatch h
    · rw [copyq!_of_lt _ _ (List.mem_range.1 hq)] at h
      exact ⟨⟨q, List.mem_range.1 hq⟩, h⟩
  · rintro ⟨r, h⟩
    refine .inr ⟨r.val, List.mem_range.2 r.isLt, ?_⟩
    rwa [copyq!_of_lt _ _ r.isLt]

theorem execCpQfence_parts (s : State) (m : BitVec 8) (hm : s.matrix s.turn = true) (hr : s.cur.region = none) :
    let o := s.core s.turn.coreId
    ∃ o', exec (.cpQfence m) s = .next (s.setCore s.turn.coreId o') ∧ o'.copyq = o.copyq ∧ o'.geo = o.geo ∧
      ∀ q : Fin 8, ∀ x, x ∈ o'.qfence[q] ↔ x ∈ o.qfence[q] ∨ m.getLsbD q.val = true ∧
        ∃ r : Fin 8, m.getLsbD r.val = true ∧ ∃ op ∈ o.copyq[r], op.seq = x := by
  intro o
  refine ⟨_, congrArg Host.Outcome.next (matrixOnly_free s _ hm hr), rfl, rfl, fun q x => ?_⟩
  rw [← mem_agesIn]
  simp only [Fin.getElem_fin, Vector.getElem_ofFn]
  by_cases hq : m.getLsbD q.val = true
  · rw [if_pos hq, mem_foldl_nsInsert]
    simp only [hq, true_and, o]
  · rw [if_neg hq]
    simp only [hq, false_and, or_false, o, Bool.false_eq_true]

/-! ## Row operations (21 R341, R342) -/

theorem leavesGlobal_outside (va : W64) (n : Nat) (hn : 0 < n) (h : isGlobal va = false) : leavesGlobal va n = some va := by
  rw [leavesGlobal, if_neg (by omega), h]; rfl

theorem leavesGlobal_past (va : W64) (n : Nat) (hn : 0 < n) (h : isGlobal va = true) (he : 2 ^ 57 < va.toNat + n) :
    leavesGlobal va n = some (BitVec.ofNat 64 (2 ^ 57)) := by
  rw [leavesGlobal, if_neg (by omega), h, if_pos he]; rfl

theorem leavesGlobal_inside (va : W64) (n : Nat) (h : isGlobal va = true ∧ va.toNat + n ≤ 2 ^ 57) : leavesGlobal va n = none := by
  rw [leavesGlobal, h.1, if_neg (c := 2 ^ 57 < va.toNat + n) (by omega)]
  simp

/-- What the completion-word register of an engine comes to at issue. -/
theorem cwChecked_ok (s : State) (r : CwReg) (cw : Option CWord)
    (h : r.valid = false ∧ cw = none ∨ r.valid = true ∧ ∃ w, cw = some w ∧ s.cwordAt (r.addr.setWidth 64) = .ok w) : s.cwChecked r = .ok cw := by
  unfold State.cwChecked
  obtain ⟨hv, rfl⟩ | ⟨hv, w, rfl, hw⟩ := h
  · rw [hv]; rfl
  · rw [hv, if_pos rfl, hw]

theorem cwChecked_error (s : State) (r : CwReg) (e : AddrFault) (hv : r.valid = true) (he : s.cwordAt (r.addr.setWidth 64) = .error e) :
    s.cwChecked r = .error e := by
  rw [State.cwChecked, hv, if_pos rfl, he]

/-- The first address at which an operation's ranges leave the global window. -/
def rowLeaves (copy : Bool) (dst src : W64) (n : Nat) : Option W64 :=
  match leavesGlobal dst n with
  | some a => some a
  | none => if copy then leavesGlobal src n else none

theorem rowLeaves_dst (copy : Bool) (dst src a : W64) (n : Nat) (h : leavesGlobal dst n = some a) : rowLeaves copy dst src n = some a := by
  rw [rowLeaves, h]

theorem rowLeaves_src (dst src : W64) (n : Nat) (h : leavesGlobal dst n = none) : rowLeaves true dst src n = leavesGlobal src n := by
  rw [rowLeaves, h]; rfl

theorem rowLeaves_none (copy : Bool) (dst src : W64) (n : Nat) (hd : leavesGlobal dst n = none)
    (hs : copy = true → leavesGlobal src n = none) : rowLeaves copy dst src n = none := by
  rw [rowLeaves, hd]
  cases copy with
  | false => rfl
  | true => exact hs rfl

/-- The row operation that joins the queue. -/
def newRow (s : State) (copy : Bool) (dst src : W64) (w : Option CWord) : MsOp :=
  let b := s.bindOf s.turn.ctxId
  { copy := copy, dst := dst, src := src, len := (s.core s.turn.coreId).mlen.toNat, asid := b.asid, gen := b.gen, strand := s.turn.key
    cw := w, seq := s.seq, moved := 0, prior := [], begun := false, corrupt := false, status := none }

/-- With length and addresses in order there remain the window, the completion word and the queue. -/
theorem rowOp_aligned (s : State) (copy : Bool) (dst src : W64) (hn : (s.core s.turn.coreId).mlen.toNat % 1024 = 0)
    (hl : (s.core s.turn.coreId).mlen.toNat ≤ 2 ^ 30) (hd : dst.toNat % 1024 = 0) (hs : src.toNat % 1024 = 0) : s.rowOp copy dst src =
    match rowLeaves copy dst src (s.core s.turn.coreId).mlen.toNat with
    | some a => s.faultAt causeBounds 0 a
    | none =>
      match s.cwChecked (s.core s.turn.coreId).mcw with
      | .error (cause, sub, faddr) => s.faultAt cause sub faddr
      | .ok w => if 8 ≤ (s.core s.turn.coreId).msq.length then s.holdFor (.queue .rows)
        else ({ s with seq := s.seq + 1 } : State).onCore fun o => { o with msq := o.msq ++ [newRow s copy dst src w] } := by
  unfold State.rowOp
  dsimp only
  rw [if_neg (by omega), if_neg (by omega), if_neg fun hc => hc.2 hs]; rfl

section
variable (s : State) (i : Instr) (copy : Bool) (dst src : W64) (h : exec i s = .next (s.rowOp copy dst src))
include h

theorem rowOp_length (hn : (s.core s.turn.coreId).mlen.toNat % 1024 ≠ 0 ∨ 2 ^ 30 < (s.core s.turn.coreId).mlen.toNat) :
    Finds i s 6 0 (s.core s.turn.coreId).mlen := by
  rw [Finds, h, State.rowOp]
  dsimp only
  rw [if_pos hn]; rfl

variable (hn : (s.core s.turn.coreId).mlen.toNat % 1024 = 0) (hl : (s.core s.turn.coreId).mlen.toNat ≤ 2 ^ 30)
include hn hl

theorem rowOp_dst (hd : dst.toNat % 1024 ≠ 0) : Finds i s 4 0 dst := by
  rw [Finds, h, State.rowOp]
  dsimp only
  rw [if_neg (by omega), if_pos hd]; rfl

variable (hd : dst.toNat % 1024 = 0)
include hd

theorem rowOp_src (hc : copy = true) (hs : src.toNat % 1024 ≠ 0) : Finds i s 4 0 src := by
  rw [Finds, h, State.rowOp]
  dsimp only
  rw [if_neg (by omega), if_neg (by omega), if_pos ⟨hc, hs⟩]; rfl

variable (hs : src.toNat % 1024 = 0)
include hs

theorem rowOp_window (a : W64) (hw : rowLeaves copy dst src (s.core s.turn.coreId).mlen.toNat = some a) : Finds i s 6 0 a := by
  rw [Finds, h, rowOp_aligned s copy dst src hn hl hd hs, hw]; rfl

variable (hw : rowLeaves copy dst src (s.core s.turn.coreId).mlen.toNat = none)
include hw

theorem rowOp_word (e : AddrFault) (he : s.cwChecked (s.core s.turn.coreId).mcw = .error e) : Finds i s e.1.toNat e.2.1.toNat e.2.2 := by
  refine finds_of_error i s e ?_
  rw [h, rowOp_aligned s copy dst src hn hl hd hs, hw]
  dsimp only
  rw [he]

variable (cw : Option CWord) (hcw : s.cwChecked (s.core s.turn.coreId).mcw = .ok cw)
include hcw

theorem rowOp_full (hq : 8 ≤ (s.core s.turn.coreId).msq.length) : Holds i s s (.queue .rows) := by
  rw [Holds, h, rowOp_aligned s copy dst src hn hl hd hs, hw]
  dsimp only
  rw [hcw]
  dsimp only
  rw [if_pos hq]; rfl

theorem rowOp_appends (hq : (s.core s.turn.coreId).msq.length < 8) : let o := s.core s.turn.coreId
    exec i s = .next (({ s with seq := s.seq + 1 } : State).setCore s.turn.coreId { o with msq := o.msq ++ [newRow s copy dst src cw] }) := by
  rw [h, rowOp_aligned s copy dst src hn hl hd hs, hw]
  dsimp only
  rw [hcw]
  dsimp only
  rw [if_neg (by omega)]; rfl
end

theorem rowOps_exec (s : State) (a b : Reg) (hm : s.matrix s.turn = true) (hr : s.cur.region = none) :
    ∀ x ∈ [(Instr.msZero a, false, s.cur.rg a, (0 : W64)), (.msCopy a b, true, s.cur.rg a, s.cur.rg b)],
      exec x.1 s = .next (s.rowOp x.2.1 x.2.2.1 x.2.2.2) := by
  simp only [List.forall_mem_cons]
  exact ⟨congrArg Host.Outcome.next (matrixOnly_free s _ hm hr), congrArg Host.Outcome.next (matrixOnly_free s _ hm hr), List.forall_mem_nil _⟩

/-! ## Link transfers (21 R348 to R350) -/

/-- The operations of the core among those of a port that a form joins. -/
def portOps (f : LinkForm) (q : Port) : List LinkOp := if f = .send then q.sends else q.recvs

/-- The link operation that joins its port. -/
def newLink (s : State) (f : LinkForm) (a b : Reg) (w : Option CWord) : LinkOp :=
  let k := s.bindOf s.turn.ctxId
  { form := f, base := k.partBase + (s.cur.rg a).toNat, len := (s.cur.rg b).toNat, core := s.turn.coreId.key, cw := w, seq := s.seq
    cls := k.bclass.toNat, moved := 0, poison := false, corrupt := false }

section
variable (s : State) (i : Instr) (f : LinkForm) (a b : Reg) (p : Nat) (h : exec i s = .next (s.linkOp f a b p))
include h

theorem linkOp_port (hp : p / 4 ≠ s.turn.die.val) : Finds i s 6 0 (BitVec.ofNat 64 p) := by
  rw [Finds, h, State.linkOp]
  dsimp only
  rw [if_pos hp]; rfl

variable (hp : p / 4 = s.turn.die.val)
include hp

theorem linkOp_align (ha : (s.cur.rg a).toNat % 64 ≠ 0) : Finds i s 4 0 (s.cur.rg a) := by
  rw [Finds, h, State.linkOp]
  dsimp only
  rw [if_neg (not_not.2 hp), if_pos ha]; rfl

variable (ha : (s.cur.rg a).toNat % 64 = 0)
include ha

theorem linkOp_length (hn : (s.cur.rg b).toNat % 64 ≠ 0) : Finds i s 6 0 (s.cur.rg a) := by
  rw [Finds, h, State.linkOp]
  dsimp only
  rw [if_neg (not_not.2 hp), if_neg (not_not.2 ha), if_pos hn]; rfl

variable (hn : (s.cur.rg b).toNat % 64 = 0)
include hn

theorem linkOp_outside (h0 : 0 < (s.cur.rg b).toNat)
    (hout : 0x80000 ≤ (s.cur.rg a).toNat ∨ (s.bindOf s.turn.ctxId).partBytes ≤ (s.cur.rg a).toNat) : Finds i s 6 0 (s.cur.rg a) := by
  rw [Finds, h, State.linkOp]
  dsimp only
  rw [if_neg (not_not.2 hp), if_neg (not_not.2 ha), if_neg (not_not.2 hn), if_pos ⟨by omega, hout.imp_left fun h => by simpa [isLocal] using h⟩]
  rfl

theorem linkOp_past (h0 : 0 < (s.cur.rg b).toNat) (hl : (s.cur.rg a).toNat < 0x80000)
    (hin : (s.cur.rg a).toNat < (s.bindOf s.turn.ctxId).partBytes)
    (hpast : (s.bindOf s.turn.ctxId).partBytes < (s.cur.rg a).toNat + (s.cur.rg b).toNat) :
    Finds i s 6 0 (BitVec.ofNat 64 (s.bindOf s.turn.ctxId).partBytes) := by
  rw [Finds, h, State.linkOp]
  dsimp only
  rw [if_neg (not_not.2 hp), if_neg (not_not.2 ha), if_neg (not_not.2 hn), if_neg (by simp [isLocal]; omega), if_pos ⟨by omega, hpast⟩]
  rfl
end

section
variable (s : State) (i : Instr) (f : LinkForm) (a b : Reg) (p : Nat) (hp : p / 4 = s.turn.die.val) (ha : (s.cur.rg a).toNat % 64 = 0)
  (hn : (s.cur.rg b).toNat % 64 = 0)
  (hin : (s.cur.rg b).toNat = 0 ∨ (s.cur.rg a).toNat < 0x80000 ∧
    (s.cur.rg a).toNat + (s.cur.rg b).toNat ≤ (s.bindOf s.turn.ctxId).partBytes)
include hp ha hn hin

/-- With port, address, length and range in order there remain the completion word, the queue and the banks. -/
theorem linkOp_ranged : s.linkOp f a b p =
    match s.cwChecked ((s.core s.turn.coreId).lcw.getD p ⟨false, 0⟩) with
    | .error (cause, sub, faddr) => s.faultAt cause sub faddr
    | .ok w =>
      let me := s.turn.coreId.key
      let banks := bankBits ((s.bindOf s.turn.ctxId).partBase + (s.cur.rg a).toNat) (s.cur.rg b).toNat
      let q := s.port p
      if 8 ≤ ofCore me (portOps f q) then s.holdFor (.queue (.link p (f == .send)))
      else if (s.cur.rg b).toNat ≠ 0 ∧ s.bankBusy me banks then s.holdFor (.bank [(me, banks)])
      else ({ s with seq := s.seq + 1 } : State).setPort p
        (if f = .send then { q with sends := q.sends ++ [newLink s f a b w] } else { q with recvs := q.recvs ++ [newLink s f a b w] }) := by
  have hwindow : ¬((s.cur.rg b).toNat ≠ 0 ∧ (!isLocal (s.cur.rg a) ∨ (s.bindOf s.turn.ctxId).partBytes ≤ (s.cur.rg a).toNat)) := by
    simp [isLocal]; omega
  unfold State.linkOp
  dsimp only
  rw [if_neg (not_not.2 hp), if_neg (not_not.2 ha), if_neg (not_not.2 hn), if_neg hwindow, if_neg (by omega)]
  rfl

variable (h : exec i s = .next (s.linkOp f a b p))
include h

theorem linkOp_word (e : AddrFault) (he : s.cwChecked ((s.core s.turn.coreId).lcw.getD p ⟨false, 0⟩) = .error e) :
    Finds i s e.1.toNat e.2.1.toNat e.2.2 := by
  refine finds_of_error i s e ?_
  rw [h, linkOp_ranged s f a b p hp ha hn hin, he]

variable (cw : Option CWord) (hcw : s.cwChecked ((s.core s.turn.coreId).lcw.getD p ⟨false, 0⟩) = .ok cw)
include hcw

theorem linkOp_full (hq : 8 ≤ ofCore s.turn.coreId.key (portOps f (s.port p))) : Holds i s s (.queue (.link p (f == .send))) := by
  rw [Holds, h, linkOp_ranged s f a b p hp ha hn hin, hcw]
  dsimp only
  rw [if_pos hq]; rfl

theorem linkOp_appends (hq : ofCore s.turn.coreId.key (portOps f (s.port p)) < 8)
    (hb : (s.cur.rg b).toNat ≠ 0 → s.bankBusy s.turn.coreId.key
      (bankBits ((s.bindOf s.turn.ctxId).partBase + (s.cur.rg a).toNat) (s.cur.rg b).toNat) = false) : let q := s.port p
    exec i s = .next (({ s with seq := s.seq + 1 } : State).setPort p
      (if f = .send then { q with sends := q.sends ++ [newLink s f a b cw] } else { q with recvs := q.recvs ++ [newLink s f a b cw] })) := by
  rw [h, linkOp_ranged s f a b p hp ha hn hin, hcw]
  dsimp only
  rw [if_neg (by omega), if_neg fun hc => Bool.eq_false_iff.1 (hb hc.1) hc.2]
end

theorem linkOps_exec (s : State) (a b : Reg) (p : BitVec 5) (hm : s.matrix s.turn = true) (hr : s.cur.region = none) (hp : p.toNat < 16) :
    ∀ x ∈ [(Instr.lkSend a b p, LinkForm.send), (.lkRecv a b p, .recv), (.lkRaddF32 a b p, .raddF32), (.lkRaddBf16 a b p, .raddBf16),
        (.lkRaddI32 a b p, .raddI32)], exec x.1 s = .next (s.linkOp x.2 a b p.toNat) := by
  have hlink (f : LinkForm) : s.link f a b p = s.linkOp f a b p.toNat := by
    rw [State.link, if_neg (by omega), matrixOnly_free s _ hm hr]
  simp only [List.forall_mem_cons]
  exact ⟨congrArg Host.Outcome.next (hlink _), congrArg Host.Outcome.next (hlink _), congrArg Host.Outcome.next (hlink _),
    congrArg Host.Outcome.next (hlink _), congrArg Host.Outcome.next (hlink _), List.forall_mem_nil _⟩

/-- Settles O30: the registers of the engines, then copies, row operations and link transfers, each check by check to its queue. -/
theorem engineCommands : Obligations.EngineCommands := by
  refine ⟨fun s a b hm hr => ?_, fun s d n m hm hr => ?_, fun s a b hm hr => ?_, fun s a b p hm hr hp => ?_⟩
  · intro o cw ends
    exact ⟨onCore_free s hm hr (.cpSrc a) (fun s o => { o with geo := { o.geo with csrc := s.cur.rg a } }) rfl,
      onCore_free s hm hr (.cpDst a) (fun s o => { o with geo := { o.geo with cdst := s.cur.rg a } }) rfl,
      fun n h => ⟨execCpDims_free s a b hm hr n h, execCpDimd_free s b hm hr n h⟩,
      onCore_free s hm hr (.msLen a) (fun s o => { o with mlen := s.cur.rg a }) rfl, execMsCw_free s a hm hr, execLkCw_free s a hm hr⟩
  · intro o b op s1
    refine ⟨fun h => ⟨fun a cw hcw => ⟨fun hq hb => ?_, fun hq hb => ?_, fun hq => ?_⟩, fun a e ha he => cpGo_error s a hm hr n h e ha he,
      fun a ha hg hal => cpGo_error s a hm hr n h _ ha (cwordAt_align s _ hg hal), fun hq => ?_, fun hq => ?_⟩,
      congrArg Host.Outcome.next (matrixOnly_free s _ hm hr), execCpQfence_parts s m hm hr⟩
    · rw [cpGo_enqueues s a hm hr n h cw hcw, enqueueCopy_appends s n.toNat cw h hq hb]
      rfl
    · rw [Holds, cpGo_enqueues s a hm hr n h cw hcw, enqueueCopy_bank s n.toNat cw h hq hb]
      rfl
    · rw [Holds, cpGo_enqueues s a hm hr n h cw hcw, enqueueCopy_full s n.toNat cw h hq]
      rfl
    · rw [execCpWait_free s hm hr n h, if_pos hq]
    · rw [Holds, execCpWait_free s hm hr n h, if_neg hq]
      rfl
  · intro o k n x hx dst src
    have hx := rowOps_exec s a b hm hr x hx
    refine ⟨rowOp_length s x.1 x.2.1 dst src hx, rowOp_dst s x.1 x.2.1 dst src hx, rowOp_src s x.1 x.2.1 dst src hx,
      fun hn hl hd hs h0 => ?_, fun cw hn hl hd hs hdst hsrc => ?_⟩
    · have window (a : W64) (hw : rowLeaves x.2.1 dst src n = some a) := rowOp_window s x.1 x.2.1 dst src hx hn hl hd hs a hw
      have source (a : W64) (hin : isGlobal dst = true ∧ dst.toNat + n ≤ 2 ^ 57) (hc : x.2.1 = true) (hw : leavesGlobal src n = some a) := window a
        ((congrArg (rowLeaves · dst src n) hc).trans ((rowLeaves_src dst src n (leavesGlobal_inside dst n hin)).trans hw))
      exact ⟨fun hg => window dst (rowLeaves_dst _ _ _ _ _ (leavesGlobal_outside dst n h0 hg)),
        fun hg he => window _ (rowLeaves_dst _ _ _ _ _ (leavesGlobal_past dst n h0 hg he)),
        fun hin hc hg => source src hin hc (leavesGlobal_outside src n h0 hg),
        fun hin hc hg he => source _ hin hc (leavesGlobal_past src n h0 hg he)⟩
    · have hw := rowLeaves_none x.2.1 dst src n hdst hsrc
      exact ⟨fun e hv he => rowOp_word s x.1 x.2.1 dst src hx hn hl hd hs hw e (cwChecked_error s _ e hv he),
        fun hcw => ⟨rowOp_full s x.1 x.2.1 dst src hx hn hl hd hs hw cw (cwChecked_ok s _ cw hcw),
          rowOp_appends s x.1 x.2.1 dst src hx hn hl hd hs hw cw (cwChecked_ok s _ cw hcw)⟩⟩
  · intro va n k q me x hx mine
    have hx := linkOps_exec s a b p hm hr hp x hx
    refine ⟨linkOp_port s x.1 x.2 a b p.toNat hx, linkOp_align s x.1 x.2 a b p.toNat hx, linkOp_length s x.1 x.2 a b p.toNat hx,
      fun hp ha hn h0 => ⟨linkOp_outside s x.1 x.2 a b p.toNat hx hp ha hn h0, linkOp_past s x.1 x.2 a b p.toNat hx hp ha hn h0⟩,
      fun cw hp ha hn hin => ⟨fun e hv he => ?_, fun hcw => ⟨?_, ?_⟩⟩⟩
    · exact linkOp_word s x.1 x.2 a b p.toNat hp ha hn hin hx e (cwChecked_error s _ e hv he)
    · exact linkOp_full s x.1 x.2 a b p.toNat hp ha hn hin hx cw (cwChecked_ok s _ cw hcw)
    · exact linkOp_appends s x.1 x.2 a b p.toNat hp ha hn hin hx cw (cwChecked_ok s _ cw hcw)

end Sys2Proof.Proofs

namespace Sys2Proof.Proofs
open Sys2Proof Sys2Proof.Machine Sys2Proof.Laws

/-! # Engines at work -/

/-! ## Bytes put in memory at their home -/

/-- Consecutive bytes with their offsets are written as bytes in a row are. -/
theorem memApply_range' (bs : List Byte) (m : Memory) (pa k : Nat) :
    memApply m pa ((List.range' k bs.length).zip bs) = memWriteBytes m (pa + k) bs := by
  induction bs generalizing m k with
  | nil => simp [memApply, memWriteBytes]
  | cons b bs ih => rw [List.length_cons, List.range'_succ, List.zip_cons_cons, memApply, ih, memWriteBytes, Nat.add_assoc]

theorem memApply_withOffsets (bs : List Byte) (m : Memory) (pa : Nat) : memApply m pa (withOffsets bs) = memWriteBytes m pa bs := by
  rw [withOffsets, List.range_eq_range', memApply_range', Nat.add_zero]

@[simp] theorem homeWrite_cores (s : State) (pa : Nat) (bs : List (Nat × Byte)) (n : Nat) : (s.homeWrite pa bs n).cores = s.cores := by
  unfold State.homeWrite State.clearHbm; split <;> rfl
@[simp] theorem homeWrite_writes (s : State) (pa : Nat) (bs : List (Nat × Byte)) (n : Nat) : (s.homeWrite pa bs n).writes = s.writes := by
  unfold State.homeWrite State.clearHbm; split <;> rfl
@[simp] theorem homeWrite_msTags (s : State) (pa : Nat) (bs : List (Nat × Byte)) (n : Nat) : (s.homeWrite pa bs n).msTags = s.msTags := by
  unfold State.homeWrite State.clearHbm; split <;> rfl

@[simp] theorem chargeMem_cores (s : State) (cls pa bytes who : Nat) : (s.chargeMem cls pa bytes who).2.cores = s.cores := by
  unfold State.chargeMem
  split
  · rfl
  · obtain ⟨x, h | h⟩ := charge_eq s (homeDie pa) cls _ _ bytes _ who <;> rw [h]
    rfl

/-- What the engines leave of the state: strands, cores and the write paths. -/
def SameAgents (s t : State) : Prop := t.strands = s.strands ∧ t.cores = s.cores ∧ t.writes = s.writes

theorem SameAgents.trans {s t u : State} (h : SameAgents s t) (k : SameAgents t u) : SameAgents s u :=
  ⟨k.1.trans h.1, k.2.1.trans h.2.1, k.2.2.trans h.2.2⟩

theorem homeWrite_agents (s : State) (pa : Nat) (bs : List (Nat × Byte)) (n : Nat) : SameAgents s (s.homeWrite pa bs n) :=
  ⟨homeWrite_strands s pa bs n, homeWrite_cores s pa bs n, homeWrite_writes s pa bs n⟩

theorem cleanLine_agents (s : State) (line : Nat) : SameAgents s (s.cleanLine line) := by
  unfold State.cleanLine
  refine foldl_keeps (fun t : State => SameAgents s t) _ (fun t d ht => ht.trans ?_) _ _ ⟨rfl, rfl, rfl⟩
  split
  · split <;> exact ⟨rfl, rfl, rfl⟩
  · exact ⟨rfl, rfl, rfl⟩

theorem admitPiece_agents (s : State) (op : MsOp) (pa n : Nat) : SameAgents s (s.admitPiece op pa n).2 :=
  ⟨chargeMem_strands _ _ _ _ _, chargeMem_cores _ _ _ _ _, chargeMem_writes _ _ _ _ _⟩

/-! ## Reservations (03 R64) -/

theorem execBankReservationEnd_ends (s : State) (o : CoreId) (n : Nat) (r : Reservation) (h : (s.core o).reservations[n]? = some r)
    (ha : r.array = false) : exec (.bankReservationEnd o n) s =
      .next (s.setCore o { s.core o with reservations := (s.core o).reservations.eraseIdx n }) := by
  rw [exec_bankReservationEnd, execBankReservationEnd]
  dsimp only
  rw [h]
  dsimp only
  rw [if_neg (by rw [ha]; decide)]

/-! ## Copies (11 R212 to R214) -/

/-- A copy moves the byte that its source reads: it is written to the destination, and what stood there is noted. -/
theorem copyByte_moves (s : State) (o : CoreId) (op : CopyOp) (p q : Place) (b was : Byte) (x y : Option Nat) (z : Bool) (s1 : State) :
    let t : StrandId := ⟨o.die, o.cluster, Fin.ofNat 8 op.ctx, Fin.ofNat 4 op.core⟩
    let sa := op.geo.addr op.geo.csrc op.geo.csstr op.moved
    let da := op.geo.addr op.geo.cdst op.geo.cdstr op.moved
    s.resolveIn t op.asid op.gen sa needR = .ok p → s.lookUp t [.at_ p] = s → s.admitByte t op.seq p = (true, s1) →
      s.view t op.seq p = some (b, false, x) → s.resolveIn t op.asid op.gen da needW = .ok q → s.view t op.seq q = some (was, z, y) →
      op.prior = [] → s.copyByte o op =
        ({ op with moved := op.moved + 1, prior := [(q.loc, was)] }, s1.engineWrite t (engineKey op.seq t.key) da q b, true) := by
  intro t sa da hp hl ha hb hq hw hprior
  unfold State.copyByte
  dsimp only
  rw [hp]
  dsimp only
  rw [hl, hb]
  dsimp only
  rw [hq]
  dsimp only
  rw [hw]
  dsimp only
  rw [ha, hprior]
  rfl

theorem copyStart_moves (s : State) (o : CoreId) (n : Fin 8) (op : CopyOp) (r : List CopyOp) (op1 : CopyOp) (s1 : State)
    (hq : (s.core o).copyq[n.val] = op :: r) (hst : op.status = none) (hc : op.corrupt = false)
    (ha : ∀ k ∈ op.after, k ∉ agesIn (s.core o) 255) (hm : op.moved < op.geo.total)
    (h : s.copyByte o { op with begun := true } = (op1, s1, true)) (h1 : op1.status = none) :
    exec (.copyOperationStart o n 1) s = .next (s1.setCopyq o n ({ op1 with chunk := s1.nextChunk o op1 } :: r)) := by
  have hfence : ((agesIn (s.core o) 255).any fun x => op.after.contains x) = false := by
    rw [List.any_eq_false]
    exact fun x hx hin => ha x (by simpa using hin) hx
  have hrun : s.copyRun o { op with begun := true } 1 = (op1, s1) := by
    rw [State.copyRun, if_neg (Nat.not_le.2 hm)]
    dsimp only
    rw [h]
    rfl
  rw [exec_copyOperationStart, execCopyOperationStart, hq]
  dsimp only
  rw [if_neg (by rw [hst]; decide), if_neg (by rw [hfence]; decide), if_neg (by rw [hc]; decide), hrun]
  dsimp only
  rw [if_neg (by rw [h1]; decide)]

theorem copyComplete_fills (s : State) (o : CoreId) (n : Fin 8) (op : CopyOp) (r : List CopyOp) (hq : (s.core o).copyq[n.val] = op :: r)
    (hst : op.status = none) (hm : op.geo.total ≤ op.moved) (hp : op.prior = []) (hw : s.writes = []) :
    exec (.copyOperationComplete o n) s = .next ((s.setCopyq o n r).fillWord op.cw 0) := by
  rw [exec_copyOperationComplete, execCopyOperationComplete, hq]
  dsimp only
  rw [hw, List.any_nil, if_neg (by decide), hst, hp]
  dsimp only
  rw [if_pos hm]
  rfl

/-- One more dimension of a tuple's address. -/
def dimStep (g : Geometry) (strides : Vector W64 6) (x : W64 × Nat) (n : Nat) : W64 × Nat :=
  (x.1 + BitVec.ofNat 64 (x.2 % dimCount g n) * strides[n]!, x.2 / dimCount g n)

theorem addr_eq (g : Geometry) (base : W64) (strides : Vector W64 6) (i : Nat) :
    g.addr base strides i = ((List.range 6).foldl (dimStep g strides) (base, i)).1 := rfl

/-- Dimensions of one index each, all tuples counted, add nothing. -/
theorem dimSteps_flat (g : Geometry) (strides : Vector W64 6) (ns : List Nat) (x : W64) (h : ∀ n ∈ ns, dimCount g n = 1) :
    ns.foldl (dimStep g strides) (x, 0) = (x, 0) := by
  induction ns with
  | nil => rfl
  | cons n ns ih =>
    obtain ⟨-, hns⟩ := List.forall_mem_cons.1 h
    rw [List.foldl_cons, dimStep, Nat.zero_mod, Nat.zero_div, BitVec.zero_mul, BitVec.add_zero, ih hns]

/-- Two dimensions: the address is the base and the two strides as often as the indices say. -/
theorem addr_two (g : Geometry) (base : W64) (strides : Vector W64 6) (i j : Nat) (h : ∀ n : Fin 6, 2 ≤ n.val → (g.ccount[n]).toNat ≤ 1)
    (hi : i < dimCount g 0) (hj : j < dimCount g 1) : g.addr base strides (i + dimCount g 0 * j) =
      base + BitVec.ofNat 64 i * strides[0] + BitVec.ofNat 64 j * strides[1] := by
  have hflat : ∀ n ∈ [2, 3, 4, 5], dimCount g n = 1 := by
    intro n hn
    have h6 : 2 ≤ n ∧ n < 6 := by simp only [List.mem_cons, List.not_mem_nil, or_false] at hn; omega
    have hc := h ⟨n, h6.2⟩ h6.1
    rw [dimCount, getElem!_pos g.ccount n h6.2]
    exact Nat.max_eq_left hc
  have h0 : dimStep g strides (base, i + dimCount g 0 * j) 0 = (base + BitVec.ofNat 64 i * strides[0], j) := by
    rw [dimStep, Nat.add_mul_mod_self_left, Nat.mod_eq_of_lt hi, Nat.add_mul_div_left _ _ (by omega), Nat.div_eq_of_lt hi, Nat.zero_add,
      getElem!_pos strides 0 (by decide)]
  have h1 (x : W64) : dimStep g strides (x, j) 1 = (x + BitVec.ofNat 64 j * strides[1], 0) := by
    rw [dimStep, Nat.mod_eq_of_lt hj, Nat.div_eq_of_lt hj, getElem!_pos strides 1 (by decide)]
  rw [addr_eq, show List.range 6 = 0 :: 1 :: [2, 3, 4, 5] from rfl, List.foldl_cons, List.foldl_cons, h0, h1, dimSteps_flat g strides _ _ hflat]

/-! ## Completion words (11 R214) -/

theorem tagOf_setTag_sync (s : State) (pa : Nat) : (s.setTag (.sync pa) true).tagOf (.sync pa) = true := by
  simp [State.setTag, State.tagOf, nsPut, mem_nsInsert]

theorem fillWord_sync (s : State) (status pa va : Nat) (asid : BitVec 11) (hl : s.lostAt pa = false) (hs : status < 256) :
    let s' := s.fillWord (some (.sync pa va asid)) status
    memWord s'.mem pa = BitVec.ofNat 64 status ∧ s'.tagOf (.sync pa) = true ∧ ∀ a, a < pa ∨ pa + 8 ≤ a → memRead s'.mem a = memRead s.mem a := by
  have hfill : s.fillWord (some (.sync pa va asid)) status = (s.homeWrite pa (withOffsets (leBytes 8 status)) 0).setTag (.sync pa) true := by
    rw [State.fillWord, if_neg (by rw [hl]; decide), State.performAt]
  have hn : (BitVec.ofNat 64 status).toNat = status := by rw [BitVec.toNat_ofNat]; omega
  have hmem : (s.fillWord (some (.sync pa va asid)) status).mem = memSetWord s.mem pa (BitVec.ofNat 64 status) := by
    rw [hfill, setTag_mem, homeWrite_mem, memApply_withOffsets, memSetWord, hn]
  obtain ⟨hword, hframe⟩ := memWord_memSetWord_frame s.mem pa (BitVec.ofNat 64 status)
  dsimp only
  rw [hmem]
  exact ⟨hword, hfill ▸ tagOf_setTag_sync _ pa, hframe⟩

/-! ## Row operations (21 R343, R346) -/

/-- The granules of a piece written one after the other. -/
theorem writeGranules (bs : List Byte) (s : State) (pa n : Nat) (hn : 64 * n ≤ bs.length) :
    let s' := (List.range n).foldl (fun s i => s.homeWrite (pa + 64 * i) (withOffsets ((bs.drop (64 * i)).take 64)) 64) s
    SameAgents s s' ∧ ∀ a, memRead s'.mem a = if pa ≤ a ∧ a < pa + 64 * n then bs.getD (a - pa) 0 else memRead s.mem a := by
  induction n with
  | zero => exact ⟨⟨rfl, rfl, rfl⟩, fun a => (if_neg (by omega)).symm⟩
  | succ n ih =>
    obtain ⟨hagents, hread⟩ := ih (by omega)
    rw [List.range_succ, List.foldl_append, List.foldl_cons, List.foldl_nil]
    refine ⟨hagents.trans (homeWrite_agents _ _ _ _), fun a => ?_⟩
    have hlen : ((bs.drop (64 * n)).take 64).length = 64 := by simp; omega
    rw [homeWrite_mem, memApply_withOffsets, memRead_memWriteBytes, hlen, hread]
    by_cases hlast : pa + 64 * n ≤ a ∧ a < pa + 64 * n + 64
    · rw [if_pos hlast, if_pos (by omega), List.getD_eq_getElem?_getD, List.getElem?_take, if_pos (by omega), List.getElem?_drop,
        List.getD_eq_getElem?_getD, show 64 * n + (a - (pa + 64 * n)) = a - pa by omega]
    · rw [if_neg hlast]
      by_cases hfirst : pa ≤ a ∧ a < pa + 64 * n
      · rw [if_pos hfirst, if_pos (by omega)]
      · rw [if_neg hfirst, if_neg (by omega)]

/-- A piece of 512 bytes is written at its home, and no other byte. -/
theorem writePiece_parts (s : State) (pa : Nat) (bs : List Byte) (h : bs.length = 512) : SameAgents s (s.writePiece pa bs) ∧
    (∀ i < 512, memRead (s.writePiece pa bs).mem (pa + i) = bs.getD i 0) ∧
    ∀ a, a < pa ∨ pa + 512 ≤ a → memRead (s.writePiece pa bs).mem a = memRead s.mem a := by
  obtain ⟨hagents, hread⟩ := writeGranules bs s pa 8 (by omega)
  refine ⟨hagents, fun i hi => ?_, fun a ha => ?_⟩
  · exact (hread (pa + i)).trans (by rw [if_pos (by omega), Nat.add_sub_cancel_left])
  · exact (hread a).trans (if_neg (by omega))

section
variable (s : State) (o : CoreId) (op : MsOp) (r : List MsOp) (hq : (s.core o).msq = op :: r)
include hq

/-- The head of the queue moves one piece. -/
theorem msStart_moves (hst : op.status = none) (hc : op.corrupt = false) (hm : op.moved < op.len) (op1 : MsOp) (s1 : State)
    (h : s.rowPiece o { op with begun := true } = (op1, s1, true)) (h1 : op1.status = none) :
    exec (.msOperationStart o 1) s = .next (s1.setMsq o (op1 :: r)) := by
  have hrun : s.rowRun o { op with begun := true } 1 = (op1, s1) := by
    rw [State.rowRun, if_neg (Nat.not_le.2 hm)]
    dsimp only
    rw [h]
    rfl
  rw [exec_msOperationStart, execMsOperationStart, hq]
  dsimp only
  rw [if_neg (by rw [hst]; decide), if_neg (by rw [hc]; decide), hrun]
  dsimp only
  rw [if_neg (by rw [h1]; decide)]

/-- The piece is in memory, and nothing else has changed there. -/
theorem msStart_writes (hst : op.status = none) (hc : op.corrupt = false) (hm : op.moved < op.len) (op1 : MsOp) (s2 : State) (pa : Nat)
    (bs : List Byte) (h : s.rowPiece o { op with begun := true } = (op1, s2.writePiece pa bs, true)) (h1 : op1.status = none)
    (hbs : bs.length = 512) (hs2 : SameAgents s s2) : ∃ s', exec (.msOperationStart o 1) s = .next s' ∧ (s'.core o).msq = op1 :: r ∧
      (∀ i < 512, memRead s'.mem (pa + i) = bs.getD i 0) ∧ (∀ a, a < pa ∨ pa + 512 ≤ a → memRead s'.mem a = memRead s2.mem a) ∧
      s'.strands = s.strands ∧ s'.writes = s.writes := by
  obtain ⟨hagents, hread, hframe⟩ := writePiece_parts s2 pa bs hbs
  obtain ⟨hstrands, -, hwrites⟩ := hs2.trans hagents
  refine ⟨_, msStart_moves s o op r hq hst hc hm op1 _ h h1, ?_, hread, hframe, hstrands, hwrites⟩
  rw [State.setMsq, core_setCore_self]

theorem msComplete_moved (hst : op.status = none) (hm : op.len ≤ op.moved) :
    exec (.msOperationComplete o) s = .next ((s.setMsq o r).fillWord op.cw 0) := by
  rw [exec_msOperationComplete, execMsOperationComplete, hq]
  dsimp only
  rw [hst]
  dsimp only
  rw [if_pos hm]

theorem msComplete_stopped (st : Nat) (hst : op.status = some st) :
    exec (.msOperationComplete o) s = .next ((s.setMsq o r).fillWord op.cw st) := by
  rw [exec_msOperationComplete, execMsOperationComplete, hq]
  dsimp only
  rw [hst]
end

theorem rowPiece_zero (s : State) (o : CoreId) (op : MsOp) (pa : Nat) (hc : op.copy = false)
    (hp : s.pieceAt o op (op.dst + BitVec.ofNat 64 op.moved) needW = .ok (pa, true)) (hs : s.storesBefore op.strand op.seq pa 512 = false)
    (hh : s.pathHolds o.clusterId.key pa 512 = false) (ha : (s.admitPiece op pa 512).1 = true) : s.rowPiece o op =
      ({ op with moved := op.moved + 512 }, (s.admitPiece op pa 512).2.writePiece pa (List.replicate 512 0), true) := by
  unfold State.rowPiece
  dsimp only
  rw [hp]
  dsimp only
  rw [hs, hh, hc]
  rw [if_neg (by decide), if_pos rfl]
  exact (if_pos rfl).trans (if_pos ha)

/-- The bytes of a source with its dirty lines gone to HBM. -/
theorem rowPiece_copy (s : State) (o : CoreId) (op : MsOp) (pa qa : Nat) (m : Bool) (hc : op.copy = true) (hprior : op.prior = [])
    (hp : s.pieceAt o op (op.dst + BitVec.ofNat 64 op.moved) needW = .ok (pa, true))
    (hq : s.pieceAt o op (op.src + BitVec.ofNat 64 op.moved) needR = .ok (qa, m))
    (hfree : ∀ a ∈ [pa, qa], s.storesBefore op.strand op.seq a 512 = false ∧ s.pathHolds o.clusterId.key a 512 = false) :
    let s1 := (List.range 4).foldl (fun s j => s.cleanLine (lineOf qa + j)) s
    (∀ j < 16, s1.devicePoison (qa + 32 * j) = false) → (s1.admitPiece op pa 1024).1 = true → s.rowPiece o op =
      ({ op with moved := op.moved + 512, prior := (List.range 512).map fun j => (Loc.phys (pa + j), s1.frameByte (pa + j)) },
        (s1.admitPiece op pa 1024).2.writePiece pa ((List.range 512).map fun j => s1.frameByte (qa + j)), true) := by
  intro s1 hclean ha
  obtain ⟨⟨hs, hh⟩, ⟨hs', hh'⟩, -⟩ : (s.storesBefore op.strand op.seq pa 512 = false ∧ s.pathHolds o.clusterId.key pa 512 = false) ∧
      (s.storesBefore op.strand op.seq qa 512 = false ∧ s.pathHolds o.clusterId.key qa 512 = false) ∧ True :=
    ⟨hfree pa (by simp), hfree qa (by simp), trivial⟩
  have hpoison : ((List.range 8).any fun j => s1.devicePoison (qa + 64 * j) || s1.devicePoison (qa + 64 * j + 32)) = false := by
    rw [List.any_eq_false]
    intro j hj
    have hj8 := List.mem_range.1 hj
    have h0 := hclean (2 * j) (by omega)
    have h1 := hclean (2 * j + 1) (by omega)
    rw [show qa + 32 * (2 * j) = qa + 64 * j by omega] at h0
    rw [show qa + 32 * (2 * j + 1) = qa + 64 * j + 32 by omega] at h1
    rw [h0, h1]
    decide
  unfold State.rowPiece
  dsimp only
  rw [hp]
  dsimp only
  rw [hs, hh, hc]
  rw [if_neg (by decide), if_pos rfl]
  refine (if_neg (by decide)).trans ?_
  rw [hq]
  dsimp only
  rw [hs', hh']
  rw [if_neg (by decide), hpoison, if_neg (by decide), if_pos ha, hprior, List.append_nil]
  rfl

theorem cleanLine_absent (s : State) (line : Nat) (h : ∀ d, tget (s.die d).l2 line = none) : s.cleanLine line = s := by
  unfold State.cleanLine
  simp [allDies, h]

/-- Settles O34: reservations, the bytes and the completion of copies, then the pieces and the completion of row operations. -/
theorem enginesWork : Obligations.EnginesWork := by
  refine ⟨⟨execBankReservationEnd_ends, fun s o => rfl, fun s o n op r p q b was x y z s1 => ?_, addr_two, copyComplete_fills,
    fun s status pa va asid _ hl hs => fillWord_sync s status pa va asid hl hs⟩, fun s o op r pa _ hq hst hc hcopy hm hp hs hh ha => ?_,
    fun s o op r pa qa m _ hq hst hc hcopy hm hprior hp hsrc hfree => ?_,
    fun s o op r hq => ⟨msComplete_moved s o op r hq, fun st hst _ => msComplete_stopped s o op r hq st hst⟩⟩
  · intro t sa da hq hst hc ha hm hp hl had hb hd hw hprior
    exact copyStart_moves s o n op r _ _ hq hst hc ha hm
      (copyByte_moves s o { op with begun := true } p q b was x y z s1 hp hl had hb hd hw hprior) hst
  · obtain ⟨s', hexec, hmsq, hread, hframe, hagents⟩ := msStart_writes s o op r hq hst hc hm _ _ pa _
      (rowPiece_zero s o { op with begun := true } pa hcopy hp hs hh ha) hst List.length_replicate (admitPiece_agents s _ pa 512)
    refine ⟨s', hexec, hmsq, fun i hi => (hread i hi).trans ?_, fun a ha => (hframe a ha).trans ?_, hagents⟩
    · rw [List.getD_replicate _ hi]
    · rw [State.admitPiece, chargeMem_mem]
  · intro s1
    refine ⟨fun habsent => ?_, fun hclean ha => ?_⟩
    · have hline (j : Nat) (hj : j < 4) : s.cleanLine (lineOf qa + j) = s := cleanLine_absent s _ (habsent j hj)
      simp only [s1, show List.range 4 = [0, 1, 2, 3] from rfl, List.foldl_cons, List.foldl_nil, hline, Nat.reduceLT]
    · have hs1 : SameAgents s s1 :=
        foldl_keeps (fun t : State => SameAgents s t) _ (fun t j ht => ht.trans (cleanLine_agents t _)) _ _ ⟨rfl, rfl, rfl⟩
      obtain ⟨s', hexec, hmsq, hread, hframe, hagents⟩ := msStart_writes s o op r hq hst hc hm _ _ pa _
        (rowPiece_copy s o { op with begun := true } pa qa m hcopy hprior hp hsrc hfree hclean ha) hst (by simp)
        (hs1.trans (admitPiece_agents s1 _ pa 1024))
      refine ⟨s', _, hexec, hmsq, rfl, hst, rfl, rfl, rfl, fun i hi => (hread i hi).trans ?_, fun a ha => (hframe a ha).trans ?_, hagents⟩
      · simp [hi, s1]
      · rw [State.admitPiece, chargeMem_mem]

end Sys2Proof.Proofs

namespace Sys2Proof.Proofs
open Sys2Proof Sys2Proof.Machine Sys2Proof.Laws

/-! # Gangs enter and retire -/

/-! ## A gang retires (18 R304, R306, R310) -/

/-- A gang that is done, before any of its node's edges: the engine reads the node's record. -/
def ReadyToRetire (s : State) (k h : Nat) (x : Graph) : Prop :=
  (s.gangAt k).members ≠ [] ∧ (s.gangAt k).retiring = false ∧ (s.gangAt k).saved = none ∧ s.gangDone (s.gangAt k) = true ∧
    (s.die (s.nodeDie (s.gangAt k))).engine.fault = false ∧ s.graphOf (s.gangAt k).launch = some (h, x)

theorem ReadyToRetire.not_waiting {s : State} {k h : Nat} {x : Graph} (r : ReadyToRetire s k h x) :
    ¬((s.gangAt k).members.isEmpty = true ∨ (s.gangAt k).retiring = true ∨ (s.gangAt k).saved.isSome = true ∨
      (!s.gangDone (s.gangAt k)) = true) := by
  obtain ⟨hm, hr, hs, hd, -, -⟩ := r
  simp [hm, hr, hs, hd]

theorem gangRetires_over (s : State) (k h : Nat) (x : Graph) (n : Node) (t : State) (r : ReadyToRetire s k h x)
    (hn : s.readNode (s.nodeDie (s.gangAt k)) x (s.gangAt k).node = .ok n)
    (ht : (s.setGang k { s.gangAt k with retiring := true }).retire (s.nodeDie (s.gangAt k)) (s.gangAt k).launch (s.gangAt k).node none n.takes =
      (true, t))
    (hh : ((t.die (s.nodeDie (s.gangAt k))).engine.held.any fun y => y.launch == (s.gangAt k).launch && y.node == (s.gangAt k).node) = false) :
    s.gangRetires k = t.retireGang k := by
  have hw := r.not_waiting
  obtain ⟨-, -, -, -, hf, hg⟩ := r
  unfold State.gangRetires
  rw [if_neg hw, if_neg (by rw [hf]; decide), hg]
  dsimp only
  rw [hn]
  dsimp only
  rw [ht, if_pos rfl]
  exact if_neg (by rw [hh]; decide)

theorem gangRetires_unreadable (s : State) (k h : Nat) (x : Graph) (q : DieId) (va : W64) (r : ReadyToRetire s k h x)
    (hn : s.readNode (s.nodeDie (s.gangAt k)) x (s.gangAt k).node = .error (.fault q va)) :
    s.gangRetires k = s.engineFault q va (some (.gang k)) := by
  have hw := r.not_waiting
  obtain ⟨-, -, -, -, hf, hg⟩ := r
  unfold State.gangRetires
  rw [if_neg hw, if_neg (by rw [hf]; decide), hg]
  dsimp only
  rw [hn]
  rfl

/-- What a stopped engine holds (R306). -/
theorem engineFault_engine (s : State) (e : DieId) (va : W64) (r : Option Resume) :
    ((s.engineFault e va r).die e).engine = { (s.die e).engine with fault := true, grfaddr := va, resume := r } := by
  unfold State.engineFault
  dsimp only
  split
  · rw [die_setDie_self]
  · exact congrArg Die.engine (die_setDie_self s e _)

/-- A context without a trailing copy is released: its record is invalid and it is free. -/
theorem release_single (s : State) (c : CtxId) (hl : (s.bindOf c).lock = false) :
    s.release c = (s.setBind c { s.bindOf c with valid := false }).setCtx c Context.reset := by
  unfold State.release
  exact if_neg (by rw [hl]; decide)

/-- The bind records, the contexts and memory are as they were. -/
def KeepsBinds (s t : State) : Prop := (∀ c, t.bindOf c = s.bindOf c) ∧ t.ctxs = s.ctxs ∧ t.mem = s.mem

theorem setDie_keepsBinds (s : State) (d : DieId) (x : Die) (h : x.slots = (s.die d).slots) : KeepsBinds s (s.setDie d x) := by
  refine ⟨fun c => ?_, rfl, rfl⟩
  unfold State.bindOf
  rw [die_setDie]
  split
  case isTrue he => rw [h, Fin.ext he]
  case isFalse => rfl

theorem KeepsBinds.trans {s t u : State} (h : KeepsBinds s t) (k : KeepsBinds t u) : KeepsBinds s u :=
  ⟨fun c => (k.1 c).trans (h.1 c), k.2.1.trans h.2.1, k.2.2.trans h.2.2⟩

theorem KeepsBinds.withGangs {s t : State} (h : KeepsBinds s t) (g : Table Gang) : KeepsBinds s { t with gangs := g } := h

/-- A gang of one context that retires: the record is invalid, the context free, the gang gone. -/
theorem retireGang_single (s : State) (k : Nat) (c : CtxId) (hm : (s.gangAt k).members = [c]) (hs : (s.gangAt k).saved = none)
    (hl : (s.bindOf c).lock = false) :
    tget (s.retireGang k).gangs k = none ∧ (s.retireGang k).bindOf c = { s.bindOf c with valid := false } ∧
      ((s.retireGang k).ctx c).run = .free ∧ (s.retireGang k).mem = s.mem := by
  have key : KeepsBinds (s.release c) (s.retireGang k) := by
    unfold State.retireGang
    dsimp only
    rw [hm, if_neg (by rw [hs]; decide)]
    rw [List.foldl_cons, List.foldl_nil]
    refine KeepsBinds.withGangs ?_ _
    refine foldl_keeps (KeepsBinds (s.release c)) _ ?_ _ _ ⟨fun _ => rfl, rfl, rfl⟩
    intro t d h
    exact h.trans (setDie_keepsBinds t d _ rfl)
  obtain ⟨hb, hc, -⟩ := key
  have hctx : (s.retireGang k).ctx c = (s.release c).ctx c := congrArg (fun x => (tget x c.key).getD Context.reset) hc
  refine ⟨?_, ?_, ?_, retireGang_mem s k⟩
  · unfold State.retireGang
    dsimp only
    rw [tget_terase, if_pos rfl]
  · rw [hb, release_single s c hl, bindOf_setCtx, bindOf_setBind_self]
  · rw [hctx, release_single s c hl, ctx_setCtx_self, Context.reset]

/-- The head of the held retirements goes on and is done. -/
theorem retireHeld_done (s : State) (e : DieId) (a : HeldRetire) (r : List HeldRetire) (h : Nat) (g : Graph) (t : State)
    (hh : (s.die e).engine.held = a :: r) (hg : s.graphOf a.launch = some (h, g)) (ho : s.wouldOverflow e g a.edges = false)
    (he : s.retireEdges e g a.launch a.edges = (t, [], none)) :
    s.retireHeld e = (t.setDie e { t.die e with engine := { (t.die e).engine with held := r } }).finishRetire a.launch a.node a.gang := by
  unfold State.retireHeld
  dsimp only
  rw [hh]
  dsimp only
  rw [hg]
  dsimp only
  rw [if_neg (by rw [ho]; decide), he]

theorem execHeldRetirementProceeds_held (s : State) (e : DieId) (a : HeldRetire) (r : List HeldRetire)
    (hh : (s.die e).engine.held = a :: r) (hf : (s.die e).engine.fault = false) (hr : (s.die e).engine.resume ≠ some .head) :
    exec (.heldRetirementProceeds e) s = .next (s.retireHeld e) := by
  have hb : ((s.die e).engine.resume == some .head) = false := by rw [beq_eq_false_iff_ne]; exact hr
  change execHeldRetirementProceeds e s = _
  unfold execHeldRetirementProceeds
  rw [hf, hb, hh]
  rfl

/-- Clearing FAULT, by the access that failed. -/
theorem execGrstatFaultClear_faulted (s : State) (e : DieId) (hf : (s.die e).engine.fault = true) :
    let go := fun (r : Option Resume) => s.setDie e { s.die e with engine := { (s.die e).engine with fault := false, resume := r } }
    exec (.grstatFaultClear e) s = match (s.die e).engine.resume with
      | some .head => .next (go (some .head))
      | some .refill => .next ((go none).refillOnce e)
      | some (.held f) => .next ((if ((go none).die f).engine.fault then go none else (go none).retireHeld f).refillOnce e)
      | some .root => .next (((go none).readyRoot e).refillOnce e)
      | some (.launch h) => .next (((go none).launchOn h).refillOnce e)
      | some (.gang k) => .next (((go none).gangRetires k).refillOnce e)
      | none => .next (go none) := by
  change execGrstatFaultClear e s = _
  unfold execGrstatFaultClear
  exact if_neg (by rw [hf]; decide)

/-! ## GCOMMIT (18 R309) -/

theorem execGcommit_none (s : State) (e : DieId) (gang : BitVec 16) (h : s.recordsOf e gang = []) :
    exec (.gcommit e gang) s = .next (s.setDie e { s.die e with gcommit := 0x8000 }) := by
  change execGcommit e gang s = _
  unfold execGcommit
  dsimp only
  rw [h]

/-- The records of a gang on a die are invalid, carry its identifier and stand there. -/
theorem mem_recordsOf (s : State) (e : DieId) (gang : BitVec 16) (c : CtxId) (b : Bind) (h : (c, b) ∈ s.recordsOf e gang) :
    c.die = e ∧ b = s.bindOf c ∧ b.valid = false ∧ b.gang = gang := by
  unfold State.recordsOf ctxsOf at h
  rw [List.mem_filter, List.mem_map] at h
  obtain ⟨⟨x, hx, heq⟩, hv⟩ := h
  obtain ⟨rfl, rfl⟩ := Prod.mk.inj heq
  obtain ⟨l, -, hl⟩ := List.mem_flatMap.mp hx
  obtain ⟨n, -, rfl⟩ := List.mem_map.mp hl
  simp only [Bool.and_eq_true, Bool.not_eq_true', beq_iff_eq] at hv
  exact ⟨rfl, rfl, hv.1, hv.2⟩

theorem commitGang_plain (s : State) (e : DieId) (gang : BitVec 16) (n : Node) (k : Kernel) (rs : List (CtxId × Bind)) (i : Nat) (va : W64)
    (hh : s.halted = false) (hk : k.unplaceable n.lock = false) (hp : (s.die e).placing = []) :
    s.commitGang e gang n k rs i va = s.dispatch e gang 0 65535 k rs := by
  unfold State.commitGang
  dsimp only
  rw [if_neg (by rw [hh]; decide), if_neg (by rw [hk]; decide), hp]
  rfl

theorem execGcommit_single (s : State) (e : DieId) (gang : BitVec 16) (c : CtxId) (b : Bind) (n : Node) (k : Kernel)
    (hr : s.recordsOf e gang = [(c, b)]) (hg : tget s.gangs (gangKey e gang) = none) (hk : s.kernelOf e b = some (n, k))
    (hu : k.unplaceable n.lock = false) (hh : s.halted = false) (hp : (s.die e).placing = []) :
    exec (.gcommit e gang) s = .next (s.dispatch e gang 0 65535 k [(c, b)]) := by
  change execGcommit e gang s = _
  unfold execGcommit
  dsimp only
  rw [hr]
  dsimp only
  rw [if_neg (by rw [hg]; decide), hk]
  dsimp only
  rw [commitGang_plain s e gang n k _ _ _ hh hu hp]

/-- Of one record the failing one is that record. -/
theorem failingRecord_single (s : State) (c : CtxId) (b : Bind) (n : Nat) (h : s.failingRecord [(c, b)] n ≠ none) :
    s.failingRecord [(c, b)] n = some (entryOf c) := by
  unfold State.failingRecord at h ⊢
  rw [List.isEmpty_cons, if_neg Bool.false_ne_true] at h ⊢
  cases hf : s.recordOk [(c, b)] n (c, b) <;> simp_all

theorem dispatch_fails (s : State) (e : DieId) (gang : BitVec 16) (l n i : Nat) (k : Kernel) (rs : List (CtxId × Bind))
    (h : s.failingRecord rs k.gang = some i) :
    s.dispatch e gang l n k rs = s.setDie e { s.die e with gcommit := BitVec.ofNat 16 (i + 2 ^ 15) } := by
  unfold State.dispatch
  dsimp only
  rw [h]

/-- The leading copy alone is a member. -/
theorem membersOf_single (c : CtxId) (b : Bind) (hc : b.cig = 0) (hl : b.lock = false) : membersOf [(c, b)] 1 = [c] := by
  simp [membersOf, List.range_succ, hc, hl]

theorem dispatch_single (s : State) (gang : BitVec 16) (l n : Nat) (k : Kernel) (c : CtxId) (b : Bind) (hk : k.gang = 1)
    (hf : s.failingRecord [(c, b)] 1 = none) (hh : s.halted = false) (hc : b.cig = 0) (hl : b.lock = false) :
    ∃ (s1 : State) (key : Nat) (g : Gang), s.dispatch c.die gang l n k [(c, b)] = (s1.enterCtx c 1 k.tags).setGang key g ∧ s1.bindOf c = { b with valid := true } ∧
      (s1.die c.die).gcommit = gang ∧ s1.mem = s.mem := by
  refine ⟨(s.setDie c.die { s.die c.die with gcommit := gang }).setBind c { b with valid := true }, gangKey c.die gang,
    { Gang.reset with die := c.die, size := 1, launch := l, node := n, members := [c] }, ?_, bindOf_setBind_self _ _ _, ?_, rfl⟩
  · unfold State.dispatch
    dsimp only
    rw [hk, hf]
    dsimp only
    rw [if_neg (by rw [hh]; decide), membersOf_single c b hc hl]
    rfl
  · rw [State.setBind, die_setDie_self, die_setDie_self]

/-! ## Kernel entry (03 R49, 12 R220, 15 R274) -/

/-- What a die holds is kept by a map over the dies that keeps it. -/
theorem die_field_map {β : Type} (p : Die → β) (f : Nat × Die → Nat × Die) (hf : ∀ x, (f x).1 = x.1 ∧ p (f x).2 = p x.2) (ds : Table Die)
    (d : Nat) : p ((tget (ds.map f) d).getD Die.reset) = p ((tget ds d).getD Die.reset) := by
  induction ds with
  | nil => rfl
  | cons x r ih =>
    obtain ⟨hk, hp⟩ := hf x
    simp only [List.map_cons, tget, hk]
    split
    · exact hp
    · exact ih

theorem homeWrite_gcommit (s : State) (pa : Nat) (bs : List (Nat × Byte)) (n : Nat) (d : DieId) :
    ((s.homeWrite pa bs n).die d).gcommit = (s.die d).gcommit := by
  unfold State.homeWrite State.patchCopies State.mapCopies State.die
  dsimp only
  rw [die_field_map Die.gcommit _ ?_, clearHbm_dies]
  exact fun _ => ⟨rfl, rfl⟩

/-- What trap blocks being cleared and text being flushed keep. -/
def KeepsRun (s t : State) : Prop :=
  t.strands = s.strands ∧ t.ctxs = s.ctxs ∧ (∀ c, t.bindOf c = s.bindOf c) ∧ ∀ d, (t.die d).gcommit = (s.die d).gcommit

theorem KeepsRun.trans {s t u : State} (h : KeepsRun s t) (k : KeepsRun t u) : KeepsRun s u :=
  ⟨k.1.trans h.1, k.2.1.trans h.2.1, fun c => (k.2.2.1 c).trans (h.2.2.1 c), fun d => (k.2.2.2 d).trans (h.2.2.2 d)⟩

theorem KeepsRun.strand {s t : State} (h : KeepsRun s t) (u : StrandId) : t.strand u = s.strand u := by
  rw [State.strand, h.1, State.strand]

theorem KeepsRun.ctx {s t : State} (h : KeepsRun s t) (c : CtxId) : t.ctx c = s.ctx c := by
  rw [State.ctx, h.2.1, State.ctx]

theorem homeWrite_keepsRun (s : State) (pa : Nat) (bs : List (Nat × Byte)) (n : Nat) : KeepsRun s (s.homeWrite pa bs n) :=
  ⟨homeWrite_strands s pa bs n, homeWrite_ctxs s pa bs n, homeWrite_bindOf s pa bs n, homeWrite_gcommit s pa bs n⟩

theorem clearTraps_keepsRun (s : State) (c : CtxId) : KeepsRun s (s.clearTraps c) :=
  foldl_keeps (KeepsRun s) _ (fun _ _ h => h.trans (homeWrite_keepsRun _ _ _ _)) _ _ ⟨rfl, rfl, fun _ => rfl, fun _ => rfl⟩

theorem flushText_keepsRun (s : State) (c : CtxId) : KeepsRun s (s.flushText c) := by
  unfold State.flushText
  dsimp only
  split <;> exact ⟨rfl, rfl, fun _ => rfl, fun _ => rfl⟩

/-- A byte of memory after zeros have been written at an address. -/
theorem memRead_zeros (s : State) (pa n clears a : Nat) :
    memRead (s.homeWrite pa (withOffsets (List.replicate n 0)) clears).mem a = if pa ≤ a ∧ a < pa + n then 0 else memRead s.mem a := by
  rw [homeWrite_mem, memApply_withOffsets, memRead_memWriteBytes, List.length_replicate]
  by_cases h : pa ≤ a ∧ a < pa + n
  · rw [if_pos h, if_pos h, List.getD_replicate _ (by omega)]
  · rw [if_neg h, if_neg h]

/-- A trap block of zeros (12 R220). -/
theorem clearTraps_zeros (s : State) (c : CtxId) (a : Nat) : memRead (s.clearTraps c).mem a =
    if (s.bindOf c).save.toNat ≤ a ∧ a < (s.bindOf c).save.toNat + 256 then 0 else memRead s.mem a := by
  unfold State.clearTraps
  have hcore : ∀ n, (c.strand n).core = n := fun _ => rfl
  simp only [CtxId.strands, List.foldl_cons, List.foldl_nil, memRead_zeros, homeWrite_bindOf, hcore, Fin.val_zero, Fin.val_one, Fin.val_two,
    show (3 : Fin 4).val = 3 from rfl]
  generalize (s.bindOf c).save.toNat = b
  grind

/-- The strand and the core of a context at entry. -/
def enterCore (c : CtxId) (b : Bind) (size : Nat) (tags : List (Nat × Nat)) (s : State) (n : Fin 4) : State :=
  (s.setStrand (c.strand n) (entryStrand b n.val size)).setCore (c.coreId n)
    (if b.matrix then ((s.core (c.coreId n)).enterPart b s.tick tags).enterMatrix (c.coreId n).key s.tick
      else (s.core (c.coreId n)).enterPart b s.tick tags)

theorem enterCtx_single (s : State) (c : CtxId) (size : Nat) (tags : List (Nat × Nat)) (hl : (s.bindOf c).lock = false) :
    let b := s.bindOf c
    let s1 := s.setCtx c { Context.reset with run := .ready, ep := b.prio.toNat, ready := s.now, teamNext := b.entry.setWidth 64 }
    let s3 := (((List.finRange 4).foldl (enterCore c b size tags) s1).flushText c).clearTraps c
    s.enterCtx c size tags = { s3 with tick := s3.tick + 1 } := by
  unfold State.enterCtx
  dsimp only
  rw [if_neg (by rw [hl]; decide)]
  rfl

/-- Entering the cores writes the strands of the context and nothing of the rest. -/
theorem enterCores_keeps (c : CtxId) (b : Bind) (size : Nat) (tags : List (Nat × Nat)) (ns : List (Fin 4)) (s : State) :
    let s' := ns.foldl (enterCore c b size tags) s
    s'.ctxs = s.ctxs ∧ s'.dies = s.dies ∧ s'.mem = s.mem :=
  foldl_keeps (fun t : State => t.ctxs = s.ctxs ∧ t.dies = s.dies ∧ t.mem = s.mem) (enterCore c b size tags) (fun _ _ h => h) ns s ⟨rfl, rfl, rfl⟩

theorem enterCores_strand (c : CtxId) (b : Bind) (size : Nat) (tags : List (Nat × Nat)) (ns : List (Fin 4)) (s : State) (i : Fin 4) :
    (ns.foldl (enterCore c b size tags) s).strand (c.strand i) = if i ∈ ns then entryStrand b i.val size else s.strand (c.strand i) := by
  induction ns generalizing s with
  | nil => rfl
  | cons n r ih =>
    rw [List.foldl_cons, ih]
    have hn : (enterCore c b size tags s n).strand (c.strand i) = if i = n then entryStrand b i.val size else s.strand (c.strand i) := by
      rw [enterCore, strand_setCore, strand_setStrand]
      by_cases h : i = n
      · rw [if_pos (by rw [h]), if_pos h, h]
      · rw [if_neg (fun hk => h (congrArg StrandId.core (strand_key_inj _ _ hk))), if_neg h]
    rw [hn]
    by_cases hr : i ∈ r <;> by_cases h : i = n <;> simp [hr, h]

/-- A context that enters without a trailing copy (R49). -/
theorem enterCtx_enters (s : State) (c : CtxId) (size : Nat) (tags : List (Nat × Nat)) (hl : (s.bindOf c).lock = false) :
    let b := s.bindOf c; let s' := s.enterCtx c size tags
    s'.ctx c = { Context.reset with run := .ready, ep := b.prio.toNat, ready := s.now, teamNext := b.entry.setWidth 64 } ∧
      (∀ i : Fin 4, s'.strand (c.strand i) = entryStrand b i.val size) ∧ (∀ d, s'.bindOf d = s.bindOf d) ∧
      (∀ d, (s'.die d).gcommit = (s.die d).gcommit) ∧
      ∀ a, memRead s'.mem a = if b.save.toNat ≤ a ∧ a < b.save.toNat + 256 then 0 else memRead s.mem a := by
  intro b s'
  have heq : s' = _ := enterCtx_single s c size tags hl
  dsimp only at heq
  generalize hs1 : s.setCtx c { Context.reset with run := .ready, ep := b.prio.toNat, ready := s.now, teamNext := b.entry.setWidth 64 } = s1 at heq
  generalize hs2 : (List.finRange 4).foldl (enterCore c b size tags) s1 = s2 at heq
  obtain ⟨hctx, hdie, hmem⟩ : s2.ctxs = s1.ctxs ∧ s2.dies = s1.dies ∧ s2.mem = s1.mem := hs2 ▸ enterCores_keeps c b size tags _ s1
  have hstrand : ∀ i, s2.strand (c.strand i) = entryStrand b i.val size := fun i => by
    rw [← hs2, enterCores_strand, if_pos (List.mem_finRange i)]
  have hctx : s2.ctx c = s1.ctx c := by rw [State.ctx, hctx, State.ctx]
  have hbind : ∀ d, s2.bindOf d = s.bindOf d := fun d => by
    rw [← bindOf_setCtx s c _ d, hs1]
    unfold State.bindOf State.die
    rw [hdie]
  have hcommit : ∀ d, (s2.die d).gcommit = (s.die d).gcommit := fun d => by
    rw [← die_setCtx s c _ d, hs1, State.die, hdie, State.die]
  have hzero := clearTraps_zeros (s2.flushText c) c
  have keeps := (flushText_keepsRun s2 c).trans (clearTraps_keepsRun (s2.flushText c) c)
  rw [(flushText_keepsRun s2 c).2.2.1, hbind, flushText_mem, hmem, ← hs1] at hzero
  generalize (s2.flushText c).clearTraps c = s3 at heq hzero keeps
  rw [heq]
  refine ⟨(keeps.ctx c).trans ?_, fun i => (keeps.strand _).trans (hstrand i), fun d => (keeps.2.2.1 d).trans (hbind d),
    fun d => (keeps.2.2.2 d).trans (hcommit d), hzero⟩
  rw [hctx, ← hs1, ctx_setCtx_self]

/-- The registers of R49. -/
theorem entryRegs_rg (args : W64) (index strands : Nat) (st : Strand) (h : st.g = entryRegs args index strands) :
    st.rg 1 = args ∧ st.rg 2 = BitVec.ofNat 64 index ∧ st.rg 3 = BitVec.ofNat 64 strands ∧ ∀ r : Reg, 4 ≤ r.toNat → st.rg r = 0 := by
  unfold Strand.rg
  rw [h]
  refine ⟨rfl, rfl, rfl, fun r hr => ?_⟩
  rw [if_neg (by rintro rfl; exact absurd hr (by decide))]
  have h1 : 1 ≠ r.toNat := by omega
  have h2 : 2 ≠ r.toNat := by omega
  have h3 : 3 ≠ r.toNat := by omega
  simp only [entryRegs, Vector.getElem_set_ne _ _ h1, Vector.getElem_set_ne _ _ h2, Vector.getElem_set_ne _ _ h3, Vector.getElem_replicate]
  rfl

/-- What a strand holds at entry in a gang of one. -/
theorem entryStrand_single (b : Bind) (i : Fin 4) (hc : b.cig = 0) : let t := entryStrand b i.val 1
    t.pc = b.entry.setWidth 64 ∧ t.rg 1 = b.args ∧ t.rg 2 = BitVec.ofNat 64 i.val ∧ t.rg 3 = 4 ∧ (∀ r : Reg, 4 ≤ r.toNat → t.rg r = 0) ∧
      (∀ r, t.rv r = 0) ∧ t.step = 0 ∧ t.attached = true ∧ t.exited = false ∧ t.region = none := by
  intro t
  obtain ⟨h1, h2, h3, hr⟩ := entryRegs_rg b.args (b.cig.toNat * 4 + i.val) (4 * 1) t rfl
  refine ⟨rfl, h1, ?_, h3, hr, fun r => ?_, rfl, rfl, rfl, rfl⟩
  · rw [h2, hc]
    exact congrArg (BitVec.ofNat 64) (Nat.zero_add _)
  · exact Vector.getElem_replicate _

/-- What Dispatch leaves of a gang of one whose record passes the checks. -/
theorem dispatch_enters (s : State) (e : DieId) (gang : BitVec 16) (l n : Nat) (k : Kernel) (c : CtxId) (b : Bind) (he : c.die = e)
    (hk : k.gang = 1) (hf : s.failingRecord [(c, b)] 1 = none) (hh : s.halted = false) (hc : b.cig = 0) (hl : b.lock = false) :
    let s' := s.dispatch e gang l n k [(c, b)]
    (s'.die e).gcommit = gang ∧ s'.bindOf c = { b with valid := true } ∧ (s'.ctx c).run = .ready ∧
      (s'.ctx c).teamNext = b.entry.setWidth 64 ∧ (∀ j : Fin 8, (s'.bar c j.val).count = 0 ∧ (s'.bar c j.val).phase = 0) ∧
      (∀ a, memRead s'.mem a = if b.save.toNat ≤ a ∧ a < b.save.toNat + 256 then 0 else memRead s.mem a) ∧
      ∀ i : Fin 4, s'.strand (c.strand i) = entryStrand b i.val 1 := by
  subst he
  obtain ⟨s1, key, y, heq, hb, hg, hm⟩ := dispatch_single s gang l n k c b hk hf hh hc hl
  obtain ⟨hctx, hstrand, hbind, hcommit, hmem⟩ := enterCtx_enters s1 c 1 k.tags (by rw [hb]; exact hl)
  rw [heq]
  intro s'
  have hctx' : s'.ctx c = _ := hctx
  rw [hb] at hstrand hmem hctx'
  refine ⟨(hcommit c.die).trans hg, (hbind c).trans hb, by rw [hctx'], by rw [hctx'], fun j => ?_, fun a => hm ▸ hmem a, hstrand⟩
  rw [State.bar, hctx']
  simp [Context.reset, Barrier.reset]

/-! ## Placement (18 R309) -/

/-- The one record that the control core writes for a gang of one without a trailing copy. -/
theorem chosenRecords_single (s : State) (e : DieId) (w : Waiting) (g : Graph) (n : Node) (k : Kernel) (p : Placement) (a : BitVec 48)
    (ha : s.freeSaves 1 = [a]) (hn : n.lock = false) (hk : k.lock = false) : s.chosenRecords e w g n k [p] =
      [(⟨e, p.cluster, p.ctx⟩, bindFor k n g (s.genOf g.asid) w.gang 0 p.pbase a (g.nodeVa w.node))] := by
  have hl : (bindFor k n g (s.genOf g.asid) w.gang 0 p.pbase a (g.nodeVa w.node)).lock = false := by rw [bindFor, hk, hn]; rfl
  unfold State.chosenRecords
  rw [List.length_singleton, ha]
  simp [List.range_succ, hl]

theorem placementRetry_single (s : State) (e : DieId) (w : Waiting) (h : Nat) (g : Graph) (n : Node) (k : Kernel) (p : Placement)
    (hw : (s.die e).placing.find? (fun x => x.gang == w.gang) = some w) (hg : s.graphOf w.launch = some (h, g))
    (hn : s.nodeAt e g.asid g.gen g.base w.node = .ok n) (hk : s.kernelAt e g.asid g.gen n.opnd = .ok k) (hu : k.unplaceable n.lock = false)
    (hk1 : k.gang = 1) (hnl : n.lock = false) (hkl : k.lock = false) (a : BitVec 48) (ha : s.freeSaves 1 = [a])
    (hv : (s.bindOf ⟨e, p.cluster, p.ctx⟩).valid = false) :
    let c : CtxId := ⟨e, p.cluster, p.ctx⟩
    let b := bindFor k n g (s.genOf g.asid) w.gang 0 p.pbase a (g.base + BitVec.ofNat 64 (64 * w.node))
    exec (.placementRetry e w.gang [p]) s = .next (((s.clearRecords e w.gang).setBind c b).commitGang e w.gang n k [(c, b)]
      (p.cluster.val * 8 + p.ctx.val) (g.base + BitVec.ofNat 64 (64 * w.node))) := by
  intro c b
  change execPlacementRetry e w.gang [p] s = _
  unfold execPlacementRetry
  rw [hw]
  dsimp only
  rw [hg]
  dsimp only
  rw [hn]
  dsimp only
  rw [hk]
  dsimp only
  rw [chosenRecords_single s e w g n k p a ha hnl hkl, if_neg (by rw [hu]; decide), if_neg (by simp [hk1, hv])]
  rfl

/-- Settles O43: the retirement of a gang by its one path of success, FAULT by the access that failed, entry by what it writes. -/
theorem gangsEnterAndRetire : Obligations.GangsEnterAndRetire := by
  unfold Obligations.GangsEnterAndRetire
  refine ⟨⟨?_, ?_, ?_, ?_, ?_, ?_, ?_⟩, ?_, ?_, ?_⟩
  · intro s e gang h x n t k g f hm hr hs hd hf hg hn ht hh
    exact congrArg Host.Outcome.next (gangRetires_over s k h x n t ⟨hm, hr, hs, hd, hf, hg⟩ hn ht hh)
  · intro s e gang h x q va k g f hm hr hs hd hf hg hn
    exact congrArg Host.Outcome.next (gangRetires_unreadable s k h x q va ⟨hm, hr, hs, hd, hf, hg⟩ hn)
  · intro s e va r x
    have hx : x = _ := engineFault_engine s e va r
    rw [hx]
    exact ⟨rfl, rfl, rfl, rfl, rfl⟩
  · exact fun s e => ⟨refillOnce_stopped s e, fun t => refillOnce_ok s t e⟩
  · exact retireGang_single
  · intro s e a r h g t hh hg ho he t1 hf hr
    rw [execHeldRetirementProceeds_held s e a r hh hf hr, retireHeld_done s e a r h g t hh hg ho he]
  · intro s e hf go
    have key := execGrstatFaultClear_faulted s e hf
    dsimp only at key
    refine ⟨fun r hr hc => ?_, fun hr => ?_, fun f hr hg => ?_, fun hr => ?_, fun h hr => ?_, fun k hr => ?_⟩
    · obtain rfl | rfl := hc <;> rw [key, hr]
    all_goals rw [key, hr]
    dsimp only
    rw [if_neg (by rw [hg]; decide)]
  · exact fun s e gang h => execGcommit_none s e gang h
  · intro s e gang c b n k _ hr hg hk hu hh hp hk1 hc hl
    obtain ⟨hce, hb, -, -⟩ := mem_recordsOf s e gang c b (by rw [hr]; exact List.mem_singleton_self _)
    rw [execGcommit_single s e gang c b n k hr hg hk hu hh hp]
    refine ⟨fun hf => ?_, fun hf => ⟨_, rfl, ?_⟩⟩
    · rw [dispatch_fails s e gang 0 65535 (entryOf c) k _ (hk1 ▸ failingRecord_single s c b 1 hf), entryOf]
    · obtain ⟨hcommit, hbind, hrun, hteam, hbar, hmem, hstrand⟩ := dispatch_enters s e gang 0 65535 k c b hce hk1 hf hh hc hl
      refine ⟨hcommit, hbind, hrun, hteam, hbar, hmem, fun i => ?_⟩
      rw [hstrand]
      exact entryStrand_single b i hc
  · intro s e w h g n k p hw hg hn hk hu hk1 hnl hkl a ha hv
    exact placementRetry_single s e w h g n k p hw hg hn hk hu hk1 hnl hkl a ha hv

end Sys2Proof.Proofs

namespace Sys2Proof.Proofs
open Sys2Proof Sys2Proof.Machine Sys2Proof.Laws

/-! # Detected errors and lockstep -/

/-! ## The two copies of a pair -/

/-- The other copy of a strand is on another cluster. -/
theorem mateStrand_ne (s : State) (t : StrandId) : (s.mateStrand t).key ≠ t.key := by
  intro h
  have hc : (s.mateOf t.ctxId).cluster = t.cluster := congrArg StrandId.cluster (strand_key_inj _ _ h)
  have hm : (s.mateOf t.ctxId).cluster = Fin.ofNat 32 (if t.cluster.val % 2 = 0 then t.cluster.val + 1 else t.cluster.val - 1) := by
    unfold State.mateOf
    exact (apply_ite CtxId.cluster _ _ _).trans (ite_self _)
  have hv := congrArg Fin.val (hm.symm.trans hc)
  have hlt := t.cluster.isLt
  simp only [Fin.val_ofNat] at hv
  split at hv <;> omega

/-- The pairs are those of the bind records. -/
theorem mateStrand_of_binds (s s' : State) (t : StrandId) (h : ∀ c, s'.bindOf c = s.bindOf c) : s'.mateStrand t = s.mateStrand t := by
  have hb : s'.bindOf = s.bindOf := funext h
  simp only [State.mateStrand, State.mateOf, hb]

theorem log_keepsBinds (s : State) (d : DieId) (n : Fin 5) (kind unit struct addr detail : Nat) :
    KeepsBinds s (s.log d n kind unit struct addr detail) := setDie_keepsBinds s d _ rfl

/-! ## Back at the oldest unconfirmed bundle (22 R364) -/

theorem unwound_strand (s : State) (t : StrandId) (u : Unconfirmed) (m : Option Mismatch) :
    (s.unwound t u m).strand t = { (s.strand t).unwind u with mismatched := m } := by
  unfold State.unwound
  dsimp only
  split
  · rw [strand_setStrand_other _ _ _ _ (mateStrand_ne s t).symm, strand_setStrand_self]
  · rw [strand_setStrand_self]

theorem unwound_mate (s : State) (t : StrandId) (u v : Unconfirmed) (q : List Unconfirmed) (m : Option Mismatch)
    (h : (s.strand (s.mateStrand t)).unconfirmed = v :: q) :
    (s.unwound t u m).strand (s.mateStrand t) = (s.strand (s.mateStrand t)).unwind v := by
  unfold State.unwound
  dsimp only
  rw [h]
  exact strand_setStrand_self _ _ _

theorem unwound_writes (s : State) (t : StrandId) (u : Unconfirmed) (m : Option Mismatch) : (s.unwound t u m).writes = s.writes := by
  unfold State.unwound
  dsimp only
  split <;> rfl

/-- A pair that traps outside a region has both copies back at the bundle (R364, 12 R219). -/
theorem trapBack_outside (s : State) (t : StrandId) (u : Unconfirmed) (cause mask : BitVec 8) (faddr : W64) (n : Nat)
    (hr : (s.strand t).region = none) : s.trapBack t u cause mask faddr n =
      ((s.unwound t u none).setStrand t { (s.unwound t u none).strand t with reissue := n }).trapRecord t cause mask 0 faddr u.addr u.step 0 u.addr := by
  unfold State.trapBack
  dsimp only
  rw [hr]

theorem trapBack_traps (s : State) (t : StrandId) (u : Unconfirmed) (cause mask : BitVec 8) (faddr : W64) (n : Nat)
    (hr : (s.strand t).region = none) (hl : (s.strand t).lastFault = none) :
    let s' := s.trapBack t u cause mask faddr n
    let x := s'.strand t
    x.trap.cause = cause ∧ x.trap.bundle = u.addr ∧ x.trap.faddr = faddr ∧ x.trap.step = u.step ∧ x.trap.restart = u.addr ∧
      x.trapping = true ∧ x.g = u.before.g ∧ x.unconfirmed = [] ∧ x.mismatched = none ∧ (s'.ctx t.ctxId).suspending = true ∧
      (∀ y, y.key ≠ t.key → s'.strand y = (s.unwound t u none).strand y) ∧ s'.mem = s.mem ∧ s'.writes = s.writes := by
  rw [trapBack_outside s t u cause mask faddr n hr]
  have hx := unwound_strand s t u none
  refine ⟨?_, ?_, ?_, ?_, ?_, ?_, ?_, ?_, ?_, ?_, fun y hy => (trapRecord_other _ _ _ _ _ _ _ _ _ _ _ hy).trans
    (strand_setStrand_other _ _ _ _ hy), unwound_mem s t u none, unwound_writes s t u none⟩
  · refine trapRecord_cause_first _ _ _ _ _ _ _ _ _ _ ?_
    rw [strand_setStrand_self, hx]
    exact hl
  all_goals simp [State.trapRecord, hx, Strand.unwind]

/-! ## Detections (03 R61) -/

theorem execPipelineError_issuing (s : State) (t : StrandId) (h : s.issuing t = true) :
    ∃ struct, exec (.pipelineError t) s = .next (s.detectAt t struct) := ⟨_, if_pos h⟩

theorem detectAt_leading (s : State) (t : StrandId) (struct : Nat) (h : s.trails t.ctxId = false) : s.detectAt t struct = s.detect t struct 0 := by
  unfold State.detectAt
  exact if_neg (by rw [h]; decide)

theorem detectAt_trailing (s : State) (t : StrandId) (struct : Nat) (u : Unconfirmed) (b : Bool) (h : s.trails t.ctxId = true)
    (ht : s.copyTask t = some (u, b)) : s.detectAt t struct = s.detectCopy t u struct := by
  unfold State.detectAt
  rw [if_pos h, ht]

/-- The bundle is cancelled and issues again. -/
theorem detect_reissues (s : State) (t : StrandId) (struct addr : Nat) (h : (s.strand t).reissue < 2) :
    (s.detect t struct addr).strand t = { s.strand t with reissue := (s.strand t).reissue + 1 } ∧ (s.detect t struct addr).mem = s.mem := by
  unfold State.detect
  dsimp only
  rw [if_pos h]
  exact ⟨strand_setStrand_self s t _, rfl⟩

/-- The third detection raises MACHINE. -/
theorem detect_traps (s : State) (t : StrandId) (struct addr : Nat) (h : 2 ≤ (s.strand t).reissue) (hr : (s.strand t).region = none)
    (hl : (s.strand t).lastFault = none) : let s' := s.detect t struct addr
    (s'.strand t).trap.cause = 13 ∧ (s'.strand t).trapping = true ∧ (s'.ctx t.ctxId).suspending = true ∧ s'.mem = s.mem := by
  unfold State.detect
  dsimp only
  rw [if_neg (Nat.not_lt.mpr h), State.trapOpen, takeTrap_none ({ s with tick := s.tick + 1 } : State) _ _ _ _ _ hr]
  refine ⟨trapRecord_cause_first _ _ _ _ _ _ _ _ _ _ hl, ?_, ?_, rfl⟩
  all_goals simp [State.trapRecord]

theorem copyReady_trails (s : State) (t : StrandId) (h : s.copyReady t = true) : s.trails t.ctxId = true := by
  simp only [State.copyReady, State.copyRuns, Bool.and_eq_true] at h
  tauto

theorem detectCopy_reissues (s : State) (t : StrandId) (u : Unconfirmed) (struct : Nat) (h : (s.strand t).reissue < 2) :
    let s' := s.detectCopy t u struct
    s'.strand t = { s.strand t with reissue := (s.strand t).reissue + 1 } ∧ s'.mem = s.mem ∧
      s'.strand (s.mateStrand t) = s.strand (s.mateStrand t) := by
  unfold State.detectCopy
  dsimp only
  rw [if_pos h]
  exact ⟨strand_setStrand_self s t _, rfl, strand_setStrand_other s t _ _ (mateStrand_ne s t)⟩

/-- The third detection of the trailing copy raises MACHINE in the leading copy. -/
theorem detectCopy_traps (s : State) (t : StrandId) (u : Unconfirmed) (struct : Nat) (h : 2 ≤ (s.strand t).reissue)
    (hruns : s.runs (s.mateStrand t).ctxId = true) (hr : (s.strand (s.mateStrand t)).region = none)
    (hl : (s.strand (s.mateStrand t)).lastFault = none) : let s' := s.detectCopy t u struct; let l := s.mateStrand t
    (s'.strand l).trap.cause = 13 ∧ (s'.strand l).trap.bundle = u.addr ∧ (s'.strand l).trapping = true ∧
      (s'.ctx l.ctxId).suspending = true ∧ s'.mem = s.mem := by
  have heq : ∃ mask, s.detectCopy t u struct = (({ s with tick := s.tick + 1 } : State).setStrand t { s.strand t with reissue := 0 }).trapBack
      (s.mateStrand t) u 13 mask 0 (s.strand t).reissue := by
    refine ⟨Config.openMask s.tick, ?_⟩
    unfold State.detectCopy State.copyTrap
    dsimp only
    rw [if_neg (Nat.not_lt.mpr h)]
    exact if_pos hruns
  obtain ⟨mask, heq⟩ := heq
  intro s' l
  have hs : ∀ x, (({ s with tick := s.tick + 1 } : State).setStrand t x).strand l = s.strand l := fun x =>
    strand_setStrand_other _ t l x (mateStrand_ne s t)
  obtain ⟨hcause, hbundle, -, -, -, htrap, -, -, -, hsus, -, hmem, -⟩ :=
    trapBack_traps (({ s with tick := s.tick + 1 } : State).setStrand t { s.strand t with reissue := 0 }) l u 13 mask 0 (s.strand t).reissue
      (by rw [hs]; exact hr) (by rw [hs]; exact hl)
  rw [← heq] at hcause hbundle htrap hsus hmem
  exact ⟨hcause, hbundle, htrap, hsus, hmem⟩

/-! ## Soft errors (22 R354, R359) -/

theorem softError_register (s : State) (t : StrandId) (n : Reg) (correctable : Bool) (h : n ≠ 0) :
    exec (.softError (.regG t n) correctable) s = .next (s.regError t correctable n.toNat fun st => { st with gp := nsInsert st.gp n.toNat }) :=
  congrArg Host.Outcome.next (if_neg h)

/-- The patrol scrub's read of the one granule in error finds it. -/
theorem patrolScrub_hbm (s : State) (pa : Nat) (hl : s.latent = [(.hbm pa, false)]) (hr : s.hbmRate ((s.channelOf pa).1) ≠ 0) :
    exec (.patrolScrub (.hbm pa)) s = .next (({ s with latent := [] } : State).applyError (.hbm pa) false) := by
  change execPatrolScrub (.hbm pa) s = _
  unfold execPatrolScrub
  rw [if_neg (by exact hr), hl]
  simp

theorem illegalSyllable_illegal (s : State) (w : W32) (e : Reject) (h : decodeWord w = .error e) : IllegalHere (.illegalSyllable w) s := by
  change execIllegalSyllable w s = _
  unfold execIllegalSyllable
  rw [h]
  rfl

/-! ## The trailing copy (22 R362) -/

/-- The syllables that the trailing copy carries out: of the registers, of the matrix products and of control. -/
theorem ownWord_iff (w : W32) : ownWord w = true ↔
    classOf w = .V ∨ classOf w = .C ∨ classOf w = .K ∨ classOf w = .S ∧ (∀ d n, instrOf w ≠ .gets d n) ∨
      classOf w = .X ∧ ∃ v z c t, instrOf w = .mma v z c t ∨ instrOf w = .mmas v z c t := by
  unfold ownWord
  cases hc : classOf w
  case S =>
    dsimp only
    split
    case h_1 d n h => simp [h]
    case h_2 h => simpa using h
  case X =>
    dsimp only
    split
    case h_1 v z c t h => simp [h]
    case h_2 v z c t h => simp [h]
    case h_3 h1 h2 => simpa using fun v z c t => ⟨h1 v z c t, h2 v z c t⟩
  all_goals simp

theorem mem_ownOrder (b : Decoded) (x : Nat × Instr) : x ∈ b.ownOrder ↔ x ∈ b.order ∧ ∃ y ∈ b.positions, y.1 = x.1 ∧ ownWord y.2 = true := by
  simp [Decoded.ownOrder]

theorem openTurn_waits (s : State) (hp : s.pass = false) (ht : s.trails s.turn.ctxId = true) (hr : s.copyReady s.turn = false) :
    s.openTurn = .blocked s := by
  rw [openTurn_trailing s hp ht, State.openCopy]
  exact if_pos (by rw [hr]; rfl)

/-- The trailing copy comes to issue the leading copy's oldest unconfirmed bundle. -/
theorem openTurn_issues (s : State) (u : Unconfirmed) (hp : s.pass = false) (ht : s.trails s.turn.ctxId = true)
    (hr : s.copyReady s.turn = true) (hu : s.copyTask s.turn = some (u, false)) (hi : (s.strand s.turn).inflight = []) :
    let s1 := s.setStrand s.turn { s.strand s.turn with step := u.step - 1 }
    s.openTurn = .run s1 (s1.beginIssue u.bundle u.bundle.syllables) u.bundle.ownOrder := by
  rw [openTurn_trailing s hp ht, State.openCopy]
  dsimp only
  rw [if_neg (by rw [hr]; decide), hu]
  dsimp only
  rw [if_neg (by simp), alignTo_nil s s.turn _ _ hi]

theorem commitCopy_writes (before after_ : State) (t : StrandId) (u : Unconfirmed) (rs : List Exposed) :
    (before.commitCopy after_ t u rs).writes = after_.writes := by
  simp [State.commitCopy]

theorem commitCopy_other (before after_ : State) (t x : StrandId) (u : Unconfirmed) (rs : List Exposed) (h : x.key ≠ t.key) :
    (before.commitCopy after_ t u rs).strand x = after_.strand x := by
  simp [State.commitCopy, landAll_other, landDue_other, strand_setStrand_other, h]

/-- The trailing copy records the bundle: it has committed one that does not wait, and changed nothing else for one that does. -/
theorem closeCopy_records (before after_ : State) (u : Unconfirmed) (ht : before.copyTask before.turn = some (u, false))
    (hh : after_.iss.hold = none) (hp : after_.iss.poisoned = []) (hs : before.poisonedStores before.turn u.bundle = [])
    (hb : (before.strand before.turn).heldStores = []) :
    let t := before.turn
    let own := (after_.strand t).inflight.drop (before.strand t).inflight.length
    let s1 := if u.waits then before else before.commitCopy after_ t u (u.shared own)
    before.closeCopy after_ = s1.setStrand t { s1.strand t with unconfirmed := [before.copyOf t u own after_.iss] } := by
  unfold State.closeCopy
  dsimp only
  rw [hh, ht]
  dsimp only
  rw [if_neg (by rw [hb]; simp), hp, hs]
  rfl

/-! ## Confirmation (22 R363, R364) -/

theorem execLockstepConfirm_idle (s : State) (t : StrandId) (f : W32)
    (h : s.trails t.ctxId = true ∨ (s.strand t).unconfirmed = [] ∨ (s.strand (s.mateStrand t)).unconfirmed = []) :
    exec (.lockstepConfirm t f) s = .next s := by
  change execLockstepConfirm t f s = _
  unfold execLockstepConfirm
  dsimp only
  split
  case h_1 hl hu hv => rw [hl, hu, hv] at h; simp at h
  case h_2 => rfl

theorem confirm_parts (t : Strand) (u : Unconfirmed) (r : List Unconfirmed) (h : t.unconfirmed = u :: r) : let x := t.confirm u
    x.unconfirmed = r ∧ x.g = t.g ∧ x.v = t.v ∧ x.k = t.k ∧ x.pc = t.pc ∧ x.step = t.step ∧
      (u.waits = false → t.mismatched = none → x = { t with unconfirmed := r }) ∧ (u.waits = true → x.confirmed = some u ∧ x.hold = none) := by
  refine ⟨by rw [Strand.confirm, h]; rfl, rfl, rfl, rfl, rfl, rfl, fun hw hm => ?_, fun hw => ?_⟩
  · simp [Strand.confirm, Strand.confirmedPast, h, hw, hm]
  · simp [Strand.confirm, hw]

section
variable (s : State) (t : StrandId) (u v : Unconfirmed) (r q : List Unconfirmed) (f : W32)
  (ht : s.trails t.ctxId = false) (hu : (s.strand t).unconfirmed = u :: r) (hv : (s.strand (s.mateStrand t)).unconfirmed = v :: q)
include ht hu hv

/-- The comparison of the oldest bundles of a pair. -/
theorem execLockstepConfirm_compares : exec (.lockstepConfirm t f) s =
    if (!u.complete || u.step != v.step) = true then .next s
    else if u.sig = v.sig ^^^ f then
      .next (((s.setStrand (s.mateStrand t) { s.strand (s.mateStrand t) with
        unconfirmed := q, confirmed := if v.waits then some v else (s.strand (s.mateStrand t)).confirmed }).setStrand t
          ((s.strand t).confirm u)).issueStores t (u.stores.map Held.store))
    else if ((s.strand t).mismatchedAgain u && !s.runs t.ctxId) = true then .next s
    else .next (s.mismatch t u) := by
  change execLockstepConfirm t f s = _
  unfold execLockstepConfirm
  dsimp only
  rw [ht, hu, hv]

theorem lockstepConfirm_awaits (h : u.complete = false ∨ u.step ≠ v.step) : exec (.lockstepConfirm t f) s = .next s := by
  rw [execLockstepConfirm_compares s t u v r q f ht hu hv]
  refine if_pos ?_
  obtain h | h := h <;> simp [h]

variable (hc : u.complete = true) (hstep : u.step = v.step)
include hc hstep

theorem lockstepConfirm_agrees (h : u.sig = v.sig ^^^ f) : exec (.lockstepConfirm t f) s =
    .next (((s.setStrand (s.mateStrand t) { s.strand (s.mateStrand t) with
      unconfirmed := q, confirmed := if v.waits then some v else (s.strand (s.mateStrand t)).confirmed }).setStrand t
        ((s.strand t).confirm u)).issueStores t (u.stores.map Held.store)) := by
  rw [execLockstepConfirm_compares s t u v r q f ht hu hv, if_neg (by simp [hc, hstep])]
  exact if_pos h

theorem lockstepConfirm_differs (h : u.sig ≠ v.sig ^^^ f) (ha : (s.strand t).mismatchedAgain u = false ∨ s.runs t.ctxId = true) :
    exec (.lockstepConfirm t f) s = .next (s.mismatch t u) := by
  rw [execLockstepConfirm_compares s t u v r q f ht hu hv, if_neg (by simp [hc, hstep]), if_neg h]
  refine if_neg ?_
  obtain ha | ha := ha <;> simp [ha]

end

/-- The first mismatch outside a region: both copies go back and issue again. -/
theorem mismatch_first (s : State) (t : StrandId) (u : Unconfirmed) (hr : (s.strand t).region = none)
    (hm : (s.strand t).reissues u.step = false) : ∃ s0 : State, KeepsBinds s s0 ∧ s0.strands = s.strands ∧ s0.writes = s.writes ∧
      s.mismatch t u = s0.unwound t u (some (.steps u.step (((s.strand t).unconfirmed.getLast?.map (·.step)).getD u.step))) := by
  refine ⟨s.coreLog t.coreId 8 0 u.step.toNat, log_keepsBinds s _ _ _ _ _ _ _, rfl, rfl, ?_⟩
  unfold State.mismatch
  dsimp only
  rw [show ((s.coreLog t.coreId 8 0 u.step.toNat).strand t) = s.strand t from rfl, hr]
  exact if_neg (by rw [hm]; decide)

/-- The second mismatch outside a region traps LOCKSTEP. -/
theorem mismatch_again (s : State) (t : StrandId) (u : Unconfirmed) (hr : (s.strand t).region = none)
    (hm : (s.strand t).reissues u.step = true) : ∃ (s0 : State) (mask : BitVec 8), KeepsBinds s s0 ∧ s0.strands = s.strands ∧ s0.writes = s.writes ∧
      s.mismatch t u = s0.trapBack t u 9 mask u.step 0 := by
  refine ⟨{ s.coreLog t.coreId 8 0 u.step.toNat with tick := (s.coreLog t.coreId 8 0 u.step.toNat).tick + 1 },
    Config.openMask (s.coreLog t.coreId 8 0 u.step.toNat).tick, log_keepsBinds s _ _ _ _ _ _ _, rfl, rfl, ?_⟩
  unfold State.mismatch
  dsimp only
  rw [show ((s.coreLog t.coreId 8 0 u.step.toNat).strand t) = s.strand t from rfl, hr]
  exact if_pos hm

/-- The first mismatch, in the terms of the strands of the pair. -/
theorem mismatch_first_pair (s : State) (t : StrandId) (u v : Unconfirmed) (r q : List Unconfirmed) (hu : (s.strand t).unconfirmed = u :: r)
    (hv : (s.strand (s.mateStrand t)).unconfirmed = v :: q) (hr : (s.strand t).region = none) (hm : (s.strand t).mismatched = none) :
    (s.mismatch t u).strand t =
      { (s.strand t).unwind u with mismatched := some (.steps u.step (((u :: r).getLast (List.cons_ne_nil u r)).step)) } ∧
      (s.mismatch t u).strand (s.mateStrand t) = (s.strand (s.mateStrand t)).unwind v ∧ (s.mismatch t u).mem = s.mem ∧
      (s.mismatch t u).writes = s.writes := by
  obtain ⟨s0, ⟨hbind, -, hmem⟩, hstrands, hwrites, heq⟩ := mismatch_first s t u hr (by rw [Strand.reissues, hm]; rfl)
  have hs : ∀ x, s0.strand x = s.strand x := fun x => by rw [State.strand, hstrands, State.strand]
  have hmate := mateStrand_of_binds s s0 t hbind
  rw [heq, unwound_mem, unwound_writes, unwound_strand, ← hmate, unwound_mate s0 t u v q _ (by rw [hmate, hs]; exact hv), hs, hs, hu,
    List.getLast?_eq_getLast_of_ne_nil (List.cons_ne_nil u r)]
  exact ⟨rfl, rfl, hmem, hwrites⟩

/-- The second mismatch, in the terms of the strands of the pair. -/
theorem mismatch_again_pair (s : State) (t : StrandId) (u v : Unconfirmed) (q : List Unconfirmed)
    (hv : (s.strand (s.mateStrand t)).unconfirmed = v :: q) (hr : (s.strand t).region = none) (hl : (s.strand t).lastFault = none)
    (hm : (s.strand t).reissues u.step = true) : let s' := s.mismatch t u; let x := s'.strand t
    x.trap.cause = 9 ∧ x.trap.bundle = u.addr ∧ x.trap.faddr = u.step ∧ x.trap.step = u.step ∧ x.trap.restart = u.addr ∧
      x.trapping = true ∧ x.g = u.before.g ∧ x.unconfirmed = [] ∧ x.mismatched = none ∧ (s'.ctx t.ctxId).suspending = true ∧
      (s'.strand (s.mateStrand t)).g = v.before.g ∧ (s'.strand (s.mateStrand t)).unconfirmed = [] ∧ s'.mem = s.mem ∧ s'.writes = s.writes := by
  obtain ⟨s0, mask, ⟨hbind, -, hmem⟩, hstrands, hwrites, heq⟩ := mismatch_again s t u hr hm
  have hs : ∀ x, s0.strand x = s.strand x := fun x => by rw [State.strand, hstrands, State.strand]
  have hmate := mateStrand_of_binds s s0 t hbind
  obtain ⟨hcause, hbundle, hfaddr, hstep, hrestart, htrap, hg, hun, hmis, hsus, hother, hm', hw'⟩ :=
    trapBack_traps s0 t u 9 mask u.step 0 (by rw [hs]; exact hr) (by rw [hs]; exact hl)
  have hy := (hother _ (mateStrand_ne s0 t)).trans (unwound_mate s0 t u v q none (by rw [hmate, hs]; exact hv))
  rw [hmate] at hy
  rw [heq]
  exact ⟨hcause, hbundle, hfaddr, hstep, hrestart, htrap, hg, hun, hmis, hsus, by rw [hy]; rfl, by rw [hy]; rfl, hm'.trans hmem,
    hw'.trans hwrites⟩

/-- Settles O44: detections by their count, the trailing copy by its record, confirmation by how the signatures compare. -/
theorem errorsAndLockstep : Obligations.ErrorsAndLockstep := by
  unfold Obligations.ErrorsAndLockstep
  refine ⟨⟨?_, ?_, ?_, ?_, ?_, ?_⟩, ⟨?_, ?_, ?_⟩, ?_, ?_, ?_⟩
  · intro s t ht hi
    obtain ⟨struct, hx⟩ := execPipelineError_issuing s t hi
    rw [hx, detectAt_leading s t struct ht]
    exact ⟨fun h => ⟨_, rfl, detect_reissues s t struct 0 h⟩, fun h hr hl => ⟨_, rfl, detect_traps s t struct 0 h hr hl⟩⟩
  · intro s t u b hc ht l
    obtain ⟨struct, hx⟩ := execPipelineError_issuing s t (by rw [State.issuing, hc, Bool.true_or])
    rw [hx, detectAt_trailing s t struct u b (copyReady_trails s t hc) ht]
    exact ⟨fun h => ⟨_, rfl, detectCopy_reissues s t u struct h⟩, fun h hruns hr hl => ⟨_, rfl, detectCopy_traps s t u struct h hruns hr hl⟩⟩
  · intro s t n hn
    rw [softError_register s t n true hn, softError_register s t n false hn]
    exact ⟨⟨_, rfl, rfl⟩, _, rfl, strand_setStrand_self s t _, fun u hu => strand_setStrand_other s t u _ hu⟩
  · exact fun s pa correctable => rfl
  · exact fun s pa hl hr => ⟨_, patrolScrub_hbm s pa hl hr, rfl, rfl, rfl⟩
  · exact illegalSyllable_illegal
  · intro b x
    rw [mem_ownOrder]
    simp only [ownWord_iff]
  · exact fun s hp ht => ⟨openTurn_waits s hp ht, fun u hr hu hi => openTurn_issues s u hp ht hr hu hi⟩
  · intro before after_ u t st ht hu hh hp hs hb own s'
    have hclose : s' = _ := (closeTurn_trailing before after_ ht).trans (closeCopy_records before after_ u hu hh hp hs hb)
    refine ⟨fun hw => ?_, fun hw => ?_, before.copyOf t u own after_.iss, ?_, rfl, rfl, rfl, rfl, rfl, rfl, rfl, rfl⟩
    · rw [hclose, if_pos hw, strand_setStrand_self]
    · rw [hclose, if_neg (by rw [hw]; decide)]
      exact ⟨commitCopy_mem _ _ _ _ _, commitCopy_writes _ _ _ _ _, fun x hx =>
        (strand_setStrand_other _ _ _ _ hx).trans (commitCopy_other _ _ _ _ _ _ hx)⟩
    · rw [hclose, strand_setStrand_self]
  · exact execLockstepConfirm_idle
  · exact confirm_parts
  · intro s t u v r q f m ht hu hv
    refine ⟨lockstepConfirm_awaits s t u v r q f ht hu hv, lockstepConfirm_agrees s t u v r q f ht hu hv, fun hc hstep hsig hr => ⟨fun hm => ?_, ?_⟩⟩
    · refine ⟨_, lockstepConfirm_differs s t u v r q f ht hu hv hc hstep hsig (.inl ?_), ?_⟩
      · rw [Strand.mismatchedAgain, Strand.reissues, hm, hr]; rfl
      · obtain ⟨hx, hy, hmem, hwrites⟩ := mismatch_first_pair s t u v r q hu hv hr hm
        intro x y
        have hx' : x = _ := hx
        have hy' : y = _ := hy
        rw [hx', hy']
        exact ⟨rfl, rfl, rfl, rfl, rfl, rfl, rfl, rfl, rfl, rfl, rfl, rfl, rfl, rfl, rfl, rfl, hmem, hwrites⟩
    · intro a b hm ha hb hl hruns
      have hcovers : (s.strand t).reissues u.step = true := by simp [Strand.reissues, hm, Mismatch.covers, ha, hb]
      exact ⟨_, lockstepConfirm_differs s t u v r q f ht hu hv hc hstep hsig (.inr hruns), mismatch_again_pair s t u v q hv hr hl hcovers⟩

end Sys2Proof.Proofs

namespace Sys2Proof.Proofs
open Sys2Proof Sys2Proof.Machine Sys2Proof.Laws

/-! # Scalar register forms -/

/-- An instruction whose result is a word lands that word, however the word is written. -/
theorem landsG_of_result {i : Instr} {s : State} {d : Reg} {lat : Nat} {x y : W64} (h : exec i s = .next (s.resultG d x lat)) (hxy : x = y) :
    LandsG i s d lat y := by
  rw [LandsG, h, resultG_eq, hxy]

/-! ## Values of R67 -/

theorem sub_eq_ofInt (x y : W64) : x - y = BitVec.ofInt 64 ((x.toNat : Int) - y.toNat) := by
  apply BitVec.eq_of_toInt_eq
  rw [BitVec.toInt_sub, BitVec.toInt_ofInt]
  simp [BitVec.toInt_eq_toNat_bmod]

theorem shlW_eq (x : W64) (n : Nat) : shlW x n = BitVec.ofNat 64 (x.toNat * 2 ^ n) := by
  apply BitVec.eq_of_toNat_eq
  rw [shlW, BitVec.toNat_shiftLeft, BitVec.toNat_ofNat, Nat.shiftLeft_eq]

theorem shrW_eq (x : W64) (n : Nat) : shrW x n = BitVec.ofNat 64 (x.toNat / 2 ^ n) := by
  rw [shrW, ← Nat.shiftRight_eq_div_pow, ← BitVec.toNat_ushiftRight, BitVec.ofNat_toNat, BitVec.setWidth_eq]

theorem sraW_eq (x : W64) (n : Nat) : sraW x n = BitVec.ofInt 64 (x.toInt / 2 ^ n) := by
  have h : (2 : Int) ^ n = ((2 ^ n : Nat) : Int) := by norm_cast
  rw [sraW, h, ← Int.shiftRight_eq_div_pow, ← BitVec.toInt_sshiftRight, BitVec.ofInt_toInt]

/-- A rotation brings the low bits above the others. -/
theorem rorW_eq (x : W64) (n : Nat) (h : n < 64) :
    rorW x n = BitVec.ofNat 64 (x.toNat / 2 ^ n + x.toNat % 2 ^ n * 2 ^ (64 - n)) := by
  have hpow : (2 : Nat) ^ 64 = 2 ^ n * 2 ^ (64 - n) := by rw [← Nat.pow_add]; congr 1; omega
  have hlow : x.toNat / 2 ^ n < 2 ^ (64 - n) := Nat.div_lt_of_lt_mul (hpow ▸ x.isLt)
  have hhigh : x.toNat * 2 ^ (64 - n) % 2 ^ 64 = 2 ^ (64 - n) * (x.toNat % 2 ^ n) := by
    rw [hpow, Nat.mul_mod_mul_right, Nat.mul_comm]
  have hsum : (rorW x n).toNat = x.toNat / 2 ^ n + x.toNat % 2 ^ n * 2 ^ (64 - n) := by
    rw [rorW, BitVec.toNat_rotateRight, Nat.mod_eq_of_lt h, Nat.shiftRight_eq_div_pow, Nat.shiftLeft_eq, hhigh, Nat.or_comm,
      ← Nat.two_pow_add_eq_or_of_lt hlow, Nat.add_comm, Nat.mul_comm]
  rw [← hsum, BitVec.ofNat_toNat, BitVec.setWidth_eq]

theorem isLtI_eq (x y : W64) : isLtI x y = decide (x.toInt < y.toInt) := rfl
theorem isLeI_eq (x y : W64) : isLeI x y = decide (x.toInt ≤ y.toInt) := rfl
theorem isLtN_eq (x y : W64) : isLtN x y = decide (x.toNat < y.toNat) := rfl
theorem isLeN_eq (x y : W64) : isLeN x y = decide (x.toNat ≤ y.toNat) := rfl
theorem isEq_eq (x y : W64) : isEq x y = decide (x.toNat = y.toNat) := by
  rw [isEq, Bool.beq_eq_decide_eq, decide_eq_decide, BitVec.toNat_inj]
theorem truth_decide (p : Prop) [Decidable p] : truth (decide p) = if p then 1 else 0 := by
  rw [truth]; split <;> simp_all

theorem minI_eq (x y : W64) : minI x y = BitVec.ofInt 64 (min x.toInt y.toInt) := by
  rw [minI, isLtI_eq, min_comm, min_def_lt]
  simp only [decide_eq_true_eq]
  split <;> rw [BitVec.ofInt_toInt]

theorem maxI_eq (x y : W64) : maxI x y = BitVec.ofInt 64 (max x.toInt y.toInt) := by
  rw [maxI, isLtI_eq, max_def_lt]
  simp only [decide_eq_true_eq]
  split <;> rw [BitVec.ofInt_toInt]

theorem minN_eq (x y : W64) : minN x y = BitVec.ofNat 64 (min x.toNat y.toNat) := by
  rw [minN, isLtN_eq, min_comm, min_def_lt]
  simp only [decide_eq_true_eq]
  split <;> rw [BitVec.ofNat_toNat, BitVec.setWidth_eq]

theorem maxN_eq (x y : W64) : maxN x y = BitVec.ofNat 64 (max x.toNat y.toNat) := by
  rw [maxN, isLtN_eq, max_def_lt]
  simp only [decide_eq_true_eq]
  split <;> rw [BitVec.ofNat_toNat, BitVec.setWidth_eq]

theorem truth_isEq (x y : W64) : truth (isEq x y) = if x.toNat = y.toNat then 1 else 0 := by rw [isEq_eq, truth_decide]
theorem truth_isLtI (x y : W64) : truth (isLtI x y) = if x.toInt < y.toInt then 1 else 0 := by rw [isLtI_eq, truth_decide]
theorem truth_isLeI (x y : W64) : truth (isLeI x y) = if x.toInt ≤ y.toInt then 1 else 0 := by rw [isLeI_eq, truth_decide]
theorem truth_isLtN (x y : W64) : truth (isLtN x y) = if x.toNat < y.toNat then 1 else 0 := by rw [isLtN_eq, truth_decide]
theorem truth_isLeN (x y : W64) : truth (isLeN x y) = if x.toNat ≤ y.toNat then 1 else 0 := by rw [isLeN_eq, truth_decide]

/-! ## Words of three registers (02 R36) -/

/-- The major and the selector of the word of a three-register form. -/
theorem encode_threeRegs {i : Instr} {m t : Nat} {d a b : Reg} (stop : Bool) (hm : m < 128) (ht : t < 8)
    (hb : encodeBody i = some (BitVec.ofNat 7 m ++ d ++ a ++ b ++ BitVec.ofNat 6 t)) :
    ∃ w, encode stop i = some w ∧ majorOf w = m ∧ (w.extractLsb' 0 3).toNat = t := by
  obtain ⟨w, hw⟩ : ∃ w, encode stop i = some w := ⟨_, by rw [encode, hb]; rfl⟩
  have hnat := word_nat stop i _ w hb hw
  rw [app_nat, app_nat, app_nat, app_nat, BitVec.toNat_ofNat, BitVec.toNat_ofNat, Nat.mod_eq_of_lt hm, Nat.mod_eq_of_lt (by omega)] at hnat
  obtain ⟨hmajor, -, -, -, hsel, -⟩ := layout1 w stop.toNat m d.toNat a.toNat b.toNat t hm d.isLt a.isLt b.isLt ht (by omega)
  exact ⟨w, hw, hmajor, hsel⟩

/-- Selectors past the last assigned one of a major are no instruction (02 R33). -/
theorem decodeWord_unassigned (w : W32) (h : let fn := (w.extractLsb' 0 3).toNat
      majorOf w = 1 ∧ 6 ≤ fn ∨ majorOf w = 2 ∧ 4 ≤ fn ∨ majorOf w = 3 ∧ 7 ≤ fn ∨ majorOf w = 4 ∧ 4 ≤ fn ∨ majorOf w = 5 ∧ 4 ≤ fn ∨
        majorOf w = 6 ∧ 5 ≤ fn) : decodeWord w = .error .selectorUnassigned := by
  rcases h with ⟨hm, hf⟩ | ⟨hm, hf⟩ | ⟨hm, hf⟩ | ⟨hm, hf⟩ | ⟨hm, hf⟩ | ⟨hm, hf⟩
  all_goals
    obtain ⟨n, hn⟩ := Nat.exists_eq_add_of_le' hf
    unfold decodeWord
    rw [hm, hn]
    rfl

/-- Settles O1: each form's value rewritten as a number, the words through their common layout. -/
theorem scalarRegisterForms : Obligations.ScalarRegisterForms := by
  unfold Obligations.ScalarRegisterForms
  refine ⟨?_, ?_, ?_⟩
  · intro s d a b x y sh
    have hsh : sh < 64 := Nat.mod_lt _ (by decide)
    exact ⟨landsG_of_result rfl (BitVec.add_def x y), landsG_of_result rfl (sub_eq_ofInt x y),
      ⟨_, landsG_of_result rfl rfl, fun k _ => BitVec.getLsbD_and⟩, ⟨_, landsG_of_result rfl rfl, fun k _ => BitVec.getLsbD_or⟩,
      ⟨_, landsG_of_result rfl rfl, fun k _ => BitVec.getLsbD_xor⟩,
      ⟨_, landsG_of_result rfl rfl, fun k hk => by rw [BitVec.getLsbD_and, BitVec.getLsbD_not, decide_eq_true hk, Bool.true_and]⟩,
      landsG_of_result rfl (shlW_eq x sh), landsG_of_result rfl (shrW_eq x sh), landsG_of_result rfl (sraW_eq x sh),
      landsG_of_result rfl (rorW_eq x sh hsh), landsG_of_result rfl (minI_eq x y), landsG_of_result rfl (maxI_eq x y),
      landsG_of_result rfl (minN_eq x y), landsG_of_result rfl (maxN_eq x y), landsG_of_result rfl (truth_isEq x y),
      landsG_of_result rfl (truth_isLtI x y), landsG_of_result rfl (truth_isLeI x y), landsG_of_result rfl (truth_isLtN x y),
      landsG_of_result rfl (truth_isLeN x y)⟩
  · intro d a b stop
    simp only [List.forall_mem_cons, List.not_mem_nil, false_imp_iff, implies_true, and_true]
    refine ⟨?_, ?_, ?_, ?_, ?_, ?_, ?_, ?_, ?_, ?_, ?_, ?_, ?_, ?_, ?_, ?_, ?_, ?_, ?_⟩
    all_goals exact encode_threeRegs stop (by decide) (by decide) rfl
  · intro w fn h
    exact decodeWord_unassigned w (by omega)

end Sys2Proof.Proofs

namespace Sys2Proof.Proofs
open Sys2Proof Sys2Proof.Machine Sys2Proof.Laws

/-! # Multiplies, divisions, counts and extensions -/

/-! ## Values of R68 -/

theorem mul_eq_ofInt (x y : W64) : x * y = BitVec.ofInt 64 (x.toInt * y.toInt) := by
  apply BitVec.eq_of_toInt_eq
  rw [BitVec.toInt_mul, BitVec.toInt_ofInt]

theorem mulhI_eq (x y : W64) : mulhI x y = BitVec.ofInt 64 (x.toInt * y.toInt / 2 ^ 64) := by
  rw [mulhI, Int.fdiv_eq_ediv_of_nonneg _ (by decide)]

theorem divI_eq (x y : W64) : divI x y = if y = 0 then 0xFFFFFFFFFFFFFFFF#64
    else if x.toInt = -2 ^ 63 ∧ y.toInt = -1 then x else BitVec.ofInt 64 (x.toInt.tdiv y.toInt) := by
  rw [divI]
  split_ifs with h0 hover
  · rfl
  · obtain ⟨hx, hy⟩ := hover
    rw [hx, hy, ← BitVec.ofInt_toInt (x := x), hx]
    rfl
  · rfl

theorem remI_eq (x y : W64) : remI x y = if y = 0 then x
    else if x.toInt = -2 ^ 63 ∧ y.toInt = -1 then 0 else BitVec.ofInt 64 (x.toInt - y.toInt * x.toInt.tdiv y.toInt) := by
  rw [remI, Int.tmod_def]
  split_ifs with h0 hover
  · rfl
  · obtain ⟨hx, hy⟩ := hover
    rw [hx, hy]
    rfl
  · rfl

/-! ## Values of R69 -/

/-- The zeros above the highest one bit among the lowest n bits. -/
theorem clzFrom_spec (x : W64) (n : Nat) : clzFrom x n ≤ n ∧ (∀ k < clzFrom x n, x.getLsbD (n - 1 - k) = false) ∧
    (clzFrom x n < n → x.getLsbD (n - 1 - clzFrom x n) = true) := by
  induction n with
  | zero => exact ⟨Nat.le_refl 0, fun k hk => absurd hk (Nat.not_lt_zero k), fun h => absurd h (Nat.not_lt_zero 0)⟩
  | succ n ih =>
    obtain ⟨hle, hzero, hone⟩ := ih
    rw [clzFrom]
    split
    next hn => exact ⟨Nat.zero_le _, fun k hk => absurd hk (Nat.not_lt_zero k), fun _ => hn⟩
    next hn =>
      refine ⟨by omega, fun k hk => ?_, fun h => ?_⟩
      · cases k with
        | zero => exact Bool.eq_false_iff.2 hn
        | succ k => rw [show n + 1 - 1 - (k + 1) = n - 1 - k by omega]; exact hzero k (by omega)
      · rw [show n + 1 - 1 - (1 + clzFrom x n) = n - 1 - clzFrom x n by omega]; exact hone (by omega)

theorem onesBelow_eq_countP (x : W64) (n : Nat) : onesBelow x n = (List.range n).countP fun k => x.getLsbD k := by
  induction n with
  | zero => rfl
  | succ n ih =>
    rw [onesBelow, ih, List.range_succ, List.countP_append, List.countP_singleton, Nat.add_comm]
    cases x.getLsbD n <;> rfl

theorem getLsbD_signExtend_setWidth (x : W64) (n k : Nat) (hn : 0 < n) (hn' : n ≤ 64) (hk : k < 64) :
    ((x.setWidth n).signExtend 64).getLsbD k = x.getLsbD (min k (n - 1)) := by
  rw [BitVec.getLsbD_signExtend, decide_eq_true hk, Bool.true_and]
  split
  next h => rw [BitVec.getLsbD_setWidth, decide_eq_true h, Bool.true_and, Nat.min_eq_left (by omega)]
  next h =>
    rw [BitVec.msb_setWidth, Nat.min_eq_right (by omega)]
    simp [hn]

theorem sextW_bit (x : W64) (w : BitVec 6) (h : w.toNat ≤ 2) (k : Nat) (hk : k < 64) :
    (sextW x w).getLsbD k = x.getLsbD (min k (8 * 2 ^ w.toNat - 1)) := by
  unfold sextW
  obtain hw | hw | hw : w.toNat = 0 ∨ w.toNat = 1 ∨ w.toNat = 2 := by omega
  all_goals rw [hw]
  · exact getLsbD_signExtend_setWidth x 8 k (by decide) (by decide) hk
  · exact getLsbD_signExtend_setWidth x 16 k (by decide) (by decide) hk
  · exact getLsbD_signExtend_setWidth x 32 k (by decide) (by decide) hk

theorem setWidth_setWidth_eq_ofNat (x : W64) (n : Nat) : (x.setWidth n).setWidth 64 = BitVec.ofNat 64 (x.toNat % 2 ^ n) := by
  rw [← BitVec.toNat_setWidth, BitVec.ofNat_toNat]

theorem zextW_eq (x : W64) (w : BitVec 6) (h : w.toNat ≤ 2) : zextW x w = BitVec.ofNat 64 (x.toNat % 2 ^ (8 * 2 ^ w.toNat)) := by
  unfold zextW
  obtain hw | hw | hw : w.toNat = 0 ∨ w.toNat = 1 ∨ w.toNat = 2 := by omega
  all_goals rw [hw]
  · exact setWidth_setWidth_eq_ofNat x 8
  · exact setWidth_setWidth_eq_ofNat x 16
  · exact setWidth_setWidth_eq_ofNat x 32

/-! ## Words of major 0x05 that are no instruction (02 R33) -/

theorem syllable_illFormed (w res : W32) (i : Instr) (h : i.wellFormed = false) : ∃ e, syllable w res i = .error e := by
  unfold syllable
  split
  · exact ⟨_, by rw [if_neg (by rw [h]; decide)]⟩
  · exact ⟨_, rfl⟩

theorem syllable_reserved (w res : W32) (i : Instr) (h : w &&& res ≠ 0) : syllable w res i = .error .reservedNonzero := if_neg h

/-- `sext` and `zext` take a width code of at most 2. -/
theorem decodeWord_extension (w : W32) (hm : majorOf w = 5) (ht : (w.extractLsb' 0 3).toNat = 2 ∨ (w.extractLsb' 0 3).toNat = 3)
    (hw : 3 ≤ (w.extractLsb' 6 6).toNat) : ∃ e, decodeWord w = .error e := by
  have hcode : decide ((w.extractLsb' 6 6).toNat ≤ 2) = false := decide_eq_false (by omega)
  unfold decodeWord
  rcases ht with ht | ht <;> rw [hm, ht] <;> exact syllable_illFormed _ _ _ hcode

/-- The field of gb is reserved in `clz` and `popc`. -/
theorem decodeWord_count (w : W32) (hm : majorOf w = 5) (ht : (w.extractLsb' 0 3).toNat = 0 ∨ (w.extractLsb' 0 3).toNat = 1)
    (hw : (w.extractLsb' 6 6).toNat ≠ 0) : ∃ e, decodeWord w = .error e := by
  have hres : w &&& 0x00000FF8 ≠ 0 := fun h => by
    have hfield := field_of_mask (w := w) (st := 3) (n := 9) h (by decide)
    rw [extractLsb'_toNat_div] at hw
    omega
  unfold decodeWord
  rcases ht with ht | ht <;> rw [hm, ht] <;> exact ⟨_, syllable_reserved _ _ _ hres⟩

/-- Settles O2: each value rewritten as a number or bit by bit; the words that are none by selector, width code and reserved field. -/
theorem scalarMultiplyDivideCount : Obligations.ScalarMultiplyDivideCount := by
  unfold Obligations.ScalarMultiplyDivideCount
  refine ⟨⟨?_, fun w hm ht => decodeWord_unassigned w (by omega)⟩, ?_, ?_, ?_⟩
  · intro s d a b x y
    exact ⟨landsG_of_result rfl (mul_eq_ofInt x y), landsG_of_result rfl (mulhI_eq x y), landsG_of_result rfl rfl,
      landsG_of_result rfl (divI_eq x y), landsG_of_result rfl rfl, landsG_of_result rfl (remI_eq x y), landsG_of_result rfl rfl⟩
  · intro s d a b x
    obtain ⟨hle, hzero, hone⟩ := clzFrom_spec x 64
    exact ⟨⟨clzFrom x 64, hle, landsG_of_result rfl rfl, hzero, hone⟩,
      landsG_of_result rfl (congrArg (BitVec.ofNat 64) (onesBelow_eq_countP x 64)), landsG_of_result rfl rfl⟩
  · intro s d a w hw x n
    exact ⟨⟨_, landsG_of_result rfl rfl, sextW_bit x w hw⟩, landsG_of_result rfl (zextW_eq x w hw)⟩
  · intro w hm h
    rcases h with ht | ⟨ht, hw⟩ | ⟨ht, hw⟩
    · exact ⟨_, decodeWord_unassigned w (by omega)⟩
    · by_cases h4 : 4 ≤ (w.extractLsb' 0 3).toNat
      · exact ⟨_, decodeWord_unassigned w (by omega)⟩
      · exact decodeWord_extension w hm (by omega) hw
    · exact decodeWord_count w hm (by omega) hw

end Sys2Proof.Proofs

namespace Sys2Proof.Proofs
open Sys2Proof Sys2Proof.Machine Sys2Proof.Laws

/-! # Immediate forms and constants -/

/-! ## Immediates (02 R25) -/

theorem sx_eq_ofInt {w : Nat} (i : BitVec w) : sx i = BitVec.ofInt 64 i.toInt := rfl

theorem sx_toInt {w : Nat} (i : BitVec w) (h : w ≤ 64) : (sx i).toInt = i.toInt := BitVec.toInt_signExtend_of_le h

theorem add_sx (x : W64) {w : Nat} (i : BitVec w) : x + sx i = BitVec.ofInt 64 (x.toNat + i.toInt) := by
  rw [BitVec.ofInt_add, ← sx_eq_ofInt, BitVec.ofInt_natCast, BitVec.ofNat_toNat, BitVec.setWidth_eq]

/-- A target is a signed count of words from the address of the bundle (04 R73, R76). -/
theorem target_eq (x : W64) (i : BitVec 18) : target x i = BitVec.ofInt 64 (x.toNat + 4 * i.toInt) := by
  rw [target, BitVec.ofInt_add, BitVec.ofInt_natCast, BitVec.ofNat_toNat, BitVec.setWidth_eq, BitVec.ofInt_mul, ← sx_eq_ofInt,
    BitVec.mul_comm]
  rfl

theorem zx_bit {w : Nat} (i : BitVec w) (k : Nat) (hk : k < 64) : (zx i).getLsbD k = i.getLsbD k := by
  rw [zx, BitVec.getLsbD_setWidth, decide_eq_true hk, Bool.true_and]

/-! ## Compares with an immediate (04 R71) -/

theorem truth_isEq_sx (x : W64) {w : Nat} (i : BitVec w) (h : w ≤ 64) : truth (isEq x (sx i)) = if x.toInt = i.toInt then 1 else 0 := by
  have heq : isEq x (sx i) = decide (x.toInt = i.toInt) := by
    rw [isEq, Bool.beq_eq_decide_eq, decide_eq_decide, ← BitVec.toInt_inj, sx_toInt i h]
  rw [heq, truth_decide]

theorem truth_isLtI_sx (x : W64) {w : Nat} (i : BitVec w) (h : w ≤ 64) : truth (isLtI x (sx i)) = if x.toInt < i.toInt then 1 else 0 := by
  rw [truth_isLtI, sx_toInt i h]

/-! ## Constants (04 R72) -/

/-- A word with a field replaced has the field's bits there and its own elsewhere. -/
theorem replaceField_bit {w : Nat} (x : W64) (n : Nat) (i : BitVec w) (k : Nat) (hk : k < 64) :
    (replaceField x n i).getLsbD k = if n ≤ k ∧ k < n + w then i.getLsbD (k - n) else x.getLsbD k := by
  have hk' : k - n < 64 := by omega
  simp only [replaceField, BitVec.getLsbD_or, BitVec.getLsbD_and, BitVec.getLsbD_not, BitVec.getLsbD_shiftLeft, BitVec.getLsbD_setWidth,
    BitVec.getLsbD_allOnes, hk, hk', decide_true, Bool.true_and]
  by_cases hlow : k < n
  · rw [if_neg (by omega)]
    simp [hlow]
  · by_cases hfield : k - n < w
    · rw [if_pos (by omega)]
      simp [hlow, hfield]
    · rw [if_neg (by omega), BitVec.getLsbD_of_ge i (k - n) (by omega)]
      simp [hfield]

/-- Settles O3: each immediate read as a number, each constant bit by bit. -/
theorem scalarImmediatesAndConstants : Obligations.ScalarImmediatesAndConstants := by
  unfold Obligations.ScalarImmediatesAndConstants
  refine ⟨⟨?_, ?_, ?_⟩, ?_, ?_⟩
  · intro s d a i x
    exact ⟨landsG_of_result rfl (add_sx x i),
      ⟨_, landsG_of_result rfl rfl, fun k hk => by rw [BitVec.getLsbD_and, zx_bit i k hk]⟩,
      ⟨_, landsG_of_result rfl rfl, fun k hk => by rw [BitVec.getLsbD_or, zx_bit i k hk]⟩,
      ⟨_, landsG_of_result rfl rfl, fun k hk => by rw [BitVec.getLsbD_xor, zx_bit i k hk]⟩⟩
  · intro s d a h x
    exact ⟨landsG_of_result rfl (shlW_eq x h.toNat), landsG_of_result rfl (shrW_eq x h.toNat), landsG_of_result rfl (sraW_eq x h.toNat)⟩
  · intro s d a i x
    exact ⟨landsG_of_result rfl (truth_isEq_sx x i (by decide)), landsG_of_result rfl (truth_isLtI_sx x i (by decide)),
      landsG_of_result rfl (truth_isLtN x (sx i))⟩
  · intro s d i x
    refine ⟨landsG_of_result rfl (sx_eq_ofInt i), ⟨_, landsG_of_result rfl rfl, fun k hk => ?_⟩,
      ⟨_, landsG_of_result rfl rfl, fun k hk => ?_⟩, landsG_of_result rfl (target_eq s.iss.addr i)⟩
    · rw [replaceField_bit x 18 i k hk]
      exact if_congr (by omega) rfl rfl
    · rw [replaceField_bit x 36 i k hk]
      exact if_congr (by omega) rfl rfl
  · intro s d i
    refine ⟨_, landsG_of_result rfl rfl, fun k hk => ?_⟩
    rw [replaceField_bit (s.cur.rg d) 54 i k hk]
    exact if_congr (by omega) rfl rfl

end Sys2Proof.Proofs

namespace Sys2Proof.Proofs
open Sys2Proof Sys2Proof.Machine Sys2Proof.Laws

/-! # Where a bundle leaves the strand -/

/-! ## Frames after a write of one -/

@[simp] theorem frame_setFrame (t : Strand) (j : Fin 2) (f : Frame) (n : W64) : (t.setFrame j f n).frame j = f := by
  unfold Strand.frame Strand.setFrame; split <;> rfl

@[simp] theorem lc_setFrame (t : Strand) (j : Fin 2) (f : Frame) (n : W64) : (t.setFrame j f n).lc j = n := by
  unfold Strand.lc Strand.setFrame; split <;> rfl

theorem setFrame_other (t : Strand) (j k : Fin 2) (f : Frame) (n : W64) (h : k ≠ j) :
    (t.setFrame j f n).frame k = t.frame k ∧ (t.setFrame j f n).lc k = t.lc k := by
  obtain ⟨rfl, rfl⟩ | ⟨rfl, rfl⟩ : j = 0 ∧ k = 1 ∨ j = 1 ∧ k = 0 := by omega
  · exact ⟨rfl, rfl⟩
  · exact ⟨rfl, rfl⟩

/-! ## A branch (04 R85) -/

theorem leaveFrame_inside (t : Strand) (j : Fin 2) (a : W64) (h : (t.frame j).start.toNat ≤ a.toNat ∧ a.toNat ≤ (t.frame j).stop.toNat) :
    t.leaveFrame j a = t := by
  simp [Strand.leaveFrame, h]

theorem leaveFrame_outside (t : Strand) (j : Fin 2) (a : W64) (ha : (t.frame j).active = true)
    (h : ¬((t.frame j).start.toNat ≤ a.toNat ∧ a.toNat ≤ (t.frame j).stop.toNat)) : t.leaveFrame j a = t.setFrame j Frame.reset 0 := by
  simp only [Strand.leaveFrame, ha, ← Bool.decide_and, decide_eq_false h]
  rfl

theorem leaveFrame_other (t : Strand) (j k : Fin 2) (a : W64) (h : k ≠ j) :
    (t.leaveFrame j a).frame k = t.frame k ∧ (t.leaveFrame j a).lc k = t.lc k := by
  unfold Strand.leaveFrame
  dsimp only
  split
  · exact setFrame_other t j k _ _ h
  · exact ⟨rfl, rfl⟩

/-- A frame whose range holds the target stays; any other ends. -/
theorem leaveFrame_self (t : Strand) (j : Fin 2) (a : W64) (ha : (t.frame j).active = true) :
    if (t.frame j).start.toNat ≤ a.toNat ∧ a.toNat ≤ (t.frame j).stop.toNat then
      (t.leaveFrame j a).frame j = t.frame j ∧ (t.leaveFrame j a).lc j = t.lc j
    else ((t.leaveFrame j a).frame j).active = false ∧ (t.leaveFrame j a).lc j = 0 := by
  split
  next h => rw [leaveFrame_inside t j a h]; exact ⟨rfl, rfl⟩
  next h => rw [leaveFrame_outside t j a ha h, frame_setFrame, lc_setFrame]; exact ⟨rfl, rfl⟩

/-- Of two frames left one after the other each is left as if alone. -/
theorem leaveFrames_each (t : Strand) (a : W64) (j : Fin 2) (ha : (t.frame j).active = true) :
    let x := (t.leaveFrame 1 a).leaveFrame 0 a
    if (t.frame j).start.toNat ≤ a.toNat ∧ a.toNat ≤ (t.frame j).stop.toNat then x.frame j = t.frame j ∧ x.lc j = t.lc j
    else (x.frame j).active = false ∧ x.lc j = 0 := by
  intro x
  obtain rfl | rfl : j = 0 ∨ j = 1 := by omega
  · obtain ⟨hframe, hlc⟩ := leaveFrame_other t 1 0 a (by decide)
    have h := leaveFrame_self (t.leaveFrame 1 a) 0 a (by rw [hframe]; exact ha)
    rwa [hframe, hlc] at h
  · obtain ⟨hframe, hlc⟩ := leaveFrame_other (t.leaveFrame 1 a) 0 1 a (by decide)
    rw [show x.frame 1 = _ from hframe, show x.lc 1 = _ from hlc]
    exact leaveFrame_self t 1 a ha

/-! ## The body-end tests (04 R84) -/

theorem bodyEnd_loops (t : Strand) (j : Fin 2) (next : W64) (h : 1 < (t.lc j).toNat) :
    t.bodyEnd j next = (t.setFrame j (t.frame j) (t.lc j - 1), (t.frame j).start, false) := if_pos h

theorem bodyEnd_ends (t : Strand) (j : Fin 2) (next : W64) (h : (t.lc j).toNat ≤ 1) :
    t.bodyEnd j next = (t.setFrame j Frame.reset 0, next, true) := if_neg (by omega)

/-- With frame 1 inactive frame 0 alone is tested. -/
theorem bodyEnds_outer (t : Strand) (addr following next : W64) (h1 : t.f1.active = false) :
    (t.endsFrame 0 addr following = false → t.bodyEnds addr following next = (t, next)) ∧
    (t.endsFrame 0 addr following = true → 1 < t.lc0.toNat →
      t.bodyEnds addr following next = (t.setFrame 0 t.f0 (t.lc0 - 1), t.f0.start)) ∧
    (t.endsFrame 0 addr following = true → t.lc0.toNat ≤ 1 → t.bodyEnds addr following next = (t.setFrame 0 Frame.reset 0, next)) := by
  unfold Strand.bodyEnds
  rw [if_neg (by rw [h1]; decide)]
  refine ⟨fun h => ?_, fun h hn => ?_, fun h hn => ?_⟩
  · rw [if_neg (by rw [h]; decide)]
  · rw [if_pos h, bodyEnd_loops t 0 next hn]; rfl
  · rw [if_pos h, bodyEnd_ends t 0 next hn]

theorem bodyEnds_inside (t : Strand) (addr following next : W64) (h1 : t.f1.active = true) (h : t.endsFrame 1 addr following = false) :
    t.bodyEnds addr following next = (t, next) := by
  rw [Strand.bodyEnds, if_pos h1, if_neg (by rw [h]; decide)]

theorem bodyEnds_inner_loops (t : Strand) (addr following next : W64) (h1 : t.f1.active = true) (h : t.endsFrame 1 addr following = true)
    (hn : 1 < t.lc1.toNat) : t.bodyEnds addr following next = (t.setFrame 1 t.f1 (t.lc1 - 1), t.f1.start) := by
  rw [Strand.bodyEnds, if_pos h1, if_pos h, bodyEnd_loops t 1 next hn]
  rfl

/-- Once the inner frame has ended, the bundle is tested as one without it. -/
theorem bodyEnds_inner_ends (t : Strand) (addr following next : W64) (h1 : t.f1.active = true) (h : t.endsFrame 1 addr following = true)
    (hn : t.lc1.toNat ≤ 1) : t.bodyEnds addr following next = (t.setFrame 1 Frame.reset 0).bodyEnds addr following next := by
  rw [Strand.bodyEnds, if_pos h1, if_pos h, bodyEnd_ends t 1 next hn]
  rfl

/-! ## The control part of a commit -/

/-- Two strands with the same frames and counters. -/
def SameLoops (t u : Strand) : Prop := t.f0 = u.f0 ∧ t.f1 = u.f1 ∧ t.lc0 = u.lc0 ∧ t.lc1 = u.lc1

theorem SameLoops.frame {t u : Strand} (h : SameLoops t u) (j : Fin 2) : t.frame j = u.frame j := by
  obtain ⟨h0, h1, -, -⟩ := h
  rw [Strand.frame, Strand.frame, h0, h1]

theorem SameLoops.lc {t u : Strand} (h : SameLoops t u) (j : Fin 2) : t.lc j = u.lc j := by
  obtain ⟨-, -, h0, h1⟩ := h
  rw [Strand.lc, Strand.lc, h0, h1]

theorem SameLoops.endsFrame {t u : Strand} (h : SameLoops t u) (j : Fin 2) : t.endsFrame j = u.endsFrame j := by
  funext a b
  rw [Strand.endsFrame, Strand.endsFrame, h.frame j]

/-- A commit without waiting `sets` runs its control part on the frames as they stand. -/
theorem committed_advance (t : Strand) (b : Issue) (hs : b.sets = []) : ∃ u, t.committed b = u.advance b ∧ SameLoops t u := by
  refine ⟨_, rfl, ?_⟩
  rw [hs]
  exact ⟨rfl, rfl, rfl, rfl⟩

theorem advance_to (t : Strand) (b : Issue) (a : W64) (h : b.transfer = .to a) :
    t.advance b = { (t.leaveFrame 1 a).leaveFrame 0 a with pc := a } := by
  rw [Strand.advance, h]

theorem advance_loop (t : Strand) (b : Issue) (j : Fin 2) (n start stop : W64) (h : b.transfer = .none)
    (hl : b.loop_ = some (j, n, start, stop)) : t.advance b = { t.setFrame j ⟨true, start, stop⟩ n with pc := start } := by
  rw [Strand.advance, h, hl]

theorem advance_next (t : Strand) (b : Issue) (next : W64)
    (h : b.transfer = .skip next ∨ (b.transfer = .none ∧ b.loop_ = none ∧ next = b.following)) : t.advance b =
      { (t.bodyEnds b.addr b.following next).1 with pc := (t.bodyEnds b.addr b.following next).2 } := by
  rcases h with h | ⟨h, hl, rfl⟩
  · rw [Strand.advance, h]
  · rw [Strand.advance, h, hl]

/-- Where the body-end tests leave a strand whose frame 1 is inactive. -/
theorem advance_outer (t : Strand) (b : Issue) (next : W64)
    (h : b.transfer = .skip next ∨ (b.transfer = .none ∧ b.loop_ = none ∧ next = b.following)) (h1 : t.f1.active = false) :
    let x := t.advance b
    (t.endsFrame 0 b.addr b.following = false → x.pc = next ∧ x.lc0 = t.lc0 ∧ x.f0 = t.f0) ∧
    (t.endsFrame 0 b.addr b.following = true → 1 < t.lc0.toNat → x.pc = t.f0.start ∧ x.lc0 = t.lc0 - 1 ∧ x.f0 = t.f0) ∧
    (t.endsFrame 0 b.addr b.following = true → t.lc0.toNat ≤ 1 → x.pc = next ∧ x.lc0 = 0 ∧ x.f0.active = false) := by
  obtain ⟨hnot, hloops, hends⟩ := bodyEnds_outer t b.addr b.following next h1
  rw [advance_next t b next h]
  refine ⟨fun h0 => ?_, fun h0 hn => ?_, fun h0 hn => ?_⟩
  · rw [hnot h0]; exact ⟨rfl, rfl, rfl⟩
  · rw [hloops h0 hn]; exact ⟨rfl, rfl, rfl⟩
  · rw [hends h0 hn]; exact ⟨rfl, rfl, rfl⟩

theorem advance_keeps_inactive (t : Strand) (b : Issue) (next : W64)
    (h : b.transfer = .skip next ∨ (b.transfer = .none ∧ b.loop_ = none ∧ next = b.following)) (h1 : t.f1.active = false) :
    (t.advance b).lc1 = t.lc1 ∧ (t.advance b).f1 = t.f1 := by
  obtain ⟨hnot, hloops, hends⟩ := bodyEnds_outer t b.addr b.following next h1
  rw [advance_next t b next h]
  cases h0 : t.endsFrame 0 b.addr b.following with
  | false => rw [hnot h0]; exact ⟨rfl, rfl⟩
  | true =>
    by_cases hn : 1 < t.lc0.toNat
    · rw [hloops h0 hn]; exact ⟨rfl, rfl⟩
    · rw [hends h0 (by omega)]; exact ⟨rfl, rfl⟩

/-- Where they leave a strand in two loops: once the inner one has ended, where they leave it without the inner one. -/
theorem advance_nested (t : Strand) (b : Issue) (next : W64)
    (h : b.transfer = .skip next ∨ (b.transfer = .none ∧ b.loop_ = none ∧ next = b.following)) (h1 : t.f1.active = true) :
    let x := t.advance b
    let ends := fun j => t.endsFrame j b.addr b.following
    (ends 1 = false → x.pc = next ∧ x.lc0 = t.lc0 ∧ x.lc1 = t.lc1 ∧ x.f0 = t.f0 ∧ x.f1 = t.f1) ∧
    (ends 1 = true → 1 < t.lc1.toNat → x.pc = t.f1.start ∧ x.lc1 = t.lc1 - 1 ∧ x.f1 = t.f1 ∧ x.lc0 = t.lc0 ∧ x.f0 = t.f0) ∧
    (ends 1 = true → t.lc1.toNat ≤ 1 → x.lc1 = 0 ∧ x.f1.active = false ∧
      (ends 0 = false → x.pc = next ∧ x.lc0 = t.lc0 ∧ x.f0 = t.f0) ∧
      (ends 0 = true → 1 < t.lc0.toNat → x.pc = t.f0.start ∧ x.lc0 = t.lc0 - 1 ∧ x.f0 = t.f0) ∧
      (ends 0 = true → t.lc0.toNat ≤ 1 → x.pc = next ∧ x.lc0 = 0 ∧ x.f0.active = false)) := by
  dsimp only
  refine ⟨fun hi => ?_, fun hi hn => ?_, fun hi hn => ?_⟩
  · rw [advance_next t b next h, bodyEnds_inside t b.addr b.following next h1 hi]
    exact ⟨rfl, rfl, rfl, rfl, rfl⟩
  · rw [advance_next t b next h, bodyEnds_inner_loops t b.addr b.following next h1 hi hn]
    exact ⟨rfl, rfl, rfl, rfl, rfl⟩
  · have hleft : t.advance b = (t.setFrame 1 Frame.reset 0).advance b := by
      rw [advance_next t b next h, advance_next _ b next h, bodyEnds_inner_ends t b.addr b.following next h1 hi hn]
    obtain ⟨hlc, hframe⟩ := advance_keeps_inactive (t.setFrame 1 Frame.reset 0) b next h rfl
    rw [hleft]
    exact ⟨hlc, congrArg Frame.active hframe, advance_outer (t.setFrame 1 Frame.reset 0) b next h rfl⟩

/-! ## `loop` (04 R81, R83) -/

theorem loopIllegal_full (t : Strand) (i : BitVec 18) (n : W64) (h0 : t.f0.active = true) (h1 : t.f1.active = true) :
    t.loopIllegal i n = true := by
  rw [Strand.loopIllegal, h0, h1]; rfl

theorem loopIllegal_free (t : Strand) (i : BitVec 18) (n : W64) (h : ¬(t.f0.active = true ∧ t.f1.active = true)) :
    t.loopIllegal i n = decide (4 * i.toInt < n.toNat) := by
  rw [Strand.loopIllegal, Bool.eq_false_iff.2 (fun hb => h (Bool.and_eq_true_iff.1 hb)), Bool.false_or]
  rfl

theorem loop_illegal (s : State) (c : Reg) (i : BitVec 18) (h : s.cur.loopIllegal i (s.iss.following - s.iss.addr) = true) :
    Finds (.loop c i) s 1 0 0 := by
  rw [Finds, exec_loop, execLoop]
  dsimp only
  rw [if_pos h]
  rfl

theorem loop_opens (s : State) (c : Reg) (i : BitVec 18) (h : s.cur.loopIllegal i (s.iss.following - s.iss.addr) = false)
    (hn : s.cur.rg c ≠ 0) : exec (.loop c i) s = .next (s.gathering { s.iss with
      loop_ := some (if s.cur.f0.active then 1 else 0, s.cur.rg c, s.iss.following, target s.iss.addr i) }) := by
  rw [exec_loop, execLoop]
  dsimp only
  rw [if_neg (by rw [h]; decide), if_neg hn]
  rfl

theorem loop_skips (s : State) (c : Reg) (i : BitVec 18) (next : W64) (h : s.cur.loopIllegal i (s.iss.following - s.iss.addr) = false)
    (hn : s.cur.rg c = 0) (hw : s.walkBody s.turn s.iss.following (target s.iss.addr i) (2 ^ 56) = .ok next) :
    exec (.loop c i) s = .next (s.gathering { s.iss with transfer := .skip next }) := by
  rw [exec_loop, execLoop]
  dsimp only
  rw [if_neg (by rw [h]; decide), if_pos hn, hw]
  rfl

/-- Settles O14: the control part of the commit by its transfer, the body-end tests inner frame first; `loop` by its checks and its count. -/
theorem nextBundle : Obligations.NextBundle := by
  unfold Obligations.NextBundle
  refine ⟨fun t b hs => ?_, ?_⟩
  · obtain ⟨u, hu, hl⟩ := committed_advance t b hs
    obtain ⟨hf0, hf1, hc0, hc1⟩ := id hl
    simp only [hu, hl.frame, hl.lc, hl.endsFrame, hf0, hf1, hc0, hc1]
    refine ⟨fun a h => ?_, fun h n start stop j hloop => ?_, fun next h => ⟨advance_outer u b next h, advance_nested u b next h⟩⟩
    · rw [advance_to u b a h]
      exact ⟨rfl, leaveFrames_each u a⟩
    · rw [advance_loop u b j n start stop h hloop]
      exact ⟨rfl, lc_setFrame u j _ n, frame_setFrame u j _ n, fun k hk => setFrame_other u j k _ n hk⟩
  · intro s c i t n stop
    have hstop : target s.iss.addr i = stop := target_eq s.iss.addr i
    refine ⟨fun h0 h1 => loop_illegal s c i (loopIllegal_full t i _ h0 h1), fun hfree hshort => loop_illegal s c i ?_,
      fun hfree hlong => ?_⟩
    · rw [loopIllegal_free t i _ hfree, decide_eq_true hshort]
    · have hlegal : t.loopIllegal i (s.iss.following - s.iss.addr) = false := by
        rw [loopIllegal_free t i _ hfree, decide_eq_false (not_lt.2 hlong)]
      rw [← hstop]
      exact ⟨loop_opens s c i hlegal, fun hn next hw => loop_skips s c i next hlegal hn hw⟩

end Sys2Proof.Proofs

namespace Sys2Proof.Proofs
open Sys2Proof Sys2Proof.Machine Sys2Proof.Laws

/-! # Branches, calls and jumps -/

theorem branchIf_eq (s : State) (c : Bool) (i : BitVec 18) : s.branchIf c i = s.gathering { s.iss with
    transfer := if c then .to (BitVec.ofInt 64 (s.iss.addr.toNat + 4 * i.toInt)) else .none } := by
  rw [← target_eq]
  rfl

/-- `jr` checks the alignment of its address, then its window (04 R80). -/
theorem execJr_parts (s : State) (a : Reg) : let x := s.cur.rg a
    (x.toNat % 4 ≠ 0 → Finds (.jr a) s 4 0 x) ∧
    (x.toNat % 4 = 0 → x.toNat < 2 ^ 32 ∨ 2 ^ 57 ≤ x.toNat → Finds (.jr a) s 6 0 x) ∧
    (x.toNat % 4 = 0 → 2 ^ 32 ≤ x.toNat → x.toNat < 2 ^ 57 →
      exec (.jr a) s = .next (s.gathering { s.iss with transfer := .to x })) := by
  unfold Finds
  rw [exec_jr, execJr]
  dsimp only
  refine ⟨fun ha => ?_, fun ha hout => ?_, fun ha hlo hhi => ?_⟩
  · rw [if_pos ha]; rfl
  · have hwin : isGlobal (s.cur.rg a) = false := decide_eq_false (by omega)
    rw [if_neg (not_not.2 ha), if_pos (by rw [hwin]; rfl)]; rfl
  · have hwin : isGlobal (s.cur.rg a) = true := decide_eq_true (by omega)
    rw [if_neg (not_not.2 ha), if_neg (by rw [hwin]; decide)]; rfl

theorem execBrq_notPredicate (s : State) (c : Reg) (i : BitVec 18) (h : 8 ≤ c.toNat) : IllegalHere (.brq c i) s := by
  have hk : kReg c = false := decide_eq_false (by omega)
  rw [IllegalHere, exec_brq, execBrq, hk]
  rfl

/-- `brq` by its predicate: all ones, none, or a mixed one (07 R141). -/
theorem execBrq_predicate (s : State) (c : Reg) (i : BitVec 18) (h : c.toNat < 8) : let k := s.cur.rk c.toNat
    (k = BitVec.allOnes 64 → exec (.brq c i) s = .next (s.branchIf true i)) ∧
    (k = 0 → exec (.brq c i) s = .next (s.branchIf false i)) ∧
    (k ≠ BitVec.allOnes 64 → k ≠ 0 → Finds (.brq c i) s 3 0 k) := by
  have hk : kReg c = true := decide_eq_true h
  unfold Finds
  rw [exec_brq, execBrq, hk]
  dsimp only
  rw [if_neg (by decide)]
  unfold allSet
  simp only [beq_iff_eq]
  refine ⟨fun hall => ?_, fun hzero => ?_, fun hall hzero => ?_⟩
  · rw [if_pos hall]
  · rw [if_neg (by rw [hzero]; decide), if_pos hzero]
  · rw [if_neg hall, if_neg hzero]; rfl

/-- Settles O15: branches by their test, `jr` by its two checks, `brq` by its predicate. -/
theorem branches : Obligations.Branches := by
  unfold Obligations.Branches
  refine ⟨⟨fun s c i => ?_, execJr_parts⟩, fun s c i => ?_⟩
  · intro a
    rw [exec_brNz, exec_brZ, exec_jal, execBrNz, execBrZ, execJal, branchIf_eq, branchIf_eq, branchIf_eq]
    simp only [bne_iff_ne, beq_iff_eq]
    exact ⟨rfl, rfl, rfl⟩
  · intro k
    refine ⟨execBrq_notPredicate s c i, fun hc hall => ?_, fun hc hzero => ?_, fun hc => ?_⟩
    · obtain ⟨hones, -, -⟩ := execBrq_predicate s c i hc
      rw [hones hall, branchIf_eq, if_pos rfl]
    · obtain ⟨-, hnone, -⟩ := execBrq_predicate s c i hc
      rw [hnone hzero, branchIf_eq]; rfl
    · obtain ⟨-, -, hmixed⟩ := execBrq_predicate s c i hc
      exact hmixed

end Sys2Proof.Proofs

namespace Sys2Proof.Proofs
open Sys2Proof Sys2Proof.Machine Sys2Proof.Laws

/-! # The end of a strand -/

/-! ## What follows the commit of a bundle (04 R87 to R90) -/

/-- A syllable that only records what follows the commit. -/
theorem transfers_outside (i : Instr) (s : State) (x : Transfer) (h : exec i s = .next (s.outsideRegion fun s => s.transfer x))
    (hr : s.cur.region = none) : exec i s = .next (s.gathering { s.iss with transfer := x }) := by
  rw [h, outsideRegion_none s _ hr]
  rfl

theorem transfers_inside (i : Instr) (s : State) (x : Transfer) (h : exec i s = .next (s.outsideRegion fun s => s.transfer x))
    (hr : s.cur.region ≠ none) : RollsBack i s 4 := by
  rw [RollsBack, h, outsideRegion_some s _ hr]
  rfl

/-! ## Joins checked leave a strand's end as it is -/

/-- A strand has ended or not, with given results in flight. -/
def EndsAs (t : StrandId) (ended : Bool) (xs : List Exposed) (s : State) : Prop :=
  (s.strand t).exited = ended ∧ (s.strand t).inflight = xs

section
variable {t : StrandId} {ended : Bool} {xs : List Exposed} {s : State}

theorem endsAs_setStrand (u : StrandId) (x : Strand) (he : x.exited = (s.strand u).exited) (hi : x.inflight = (s.strand u).inflight)
    (h : EndsAs t ended xs s) : EndsAs t ended xs (s.setStrand u x) := by
  by_cases hk : t.key = u.key
  · obtain rfl := strand_key_inj t u hk
    rw [EndsAs, strand_setStrand_self, he, hi]
    exact h
  · rw [EndsAs, strand_setStrand_other _ _ _ _ hk]
    exact h

theorem endsAs_completeJoin (c : CtxId) (a : W64) (h : EndsAs t ended xs s) : EndsAs t ended xs (s.completeJoin c a) := by
  unfold State.completeJoin
  refine foldl_keeps (EndsAs t ended xs) _ (fun s u hs => endsAs_setStrand u _ ?_ ?_ hs) _ _
    (foldl_keeps (EndsAs t ended xs) _ (fun s u hs => endsAs_setStrand u _ ?_ ?_ hs) _ _ h)
  all_goals rfl

theorem endsAs_checkJoin (c : CtxId) (a : W64) (h : EndsAs t ended xs s) : EndsAs t ended xs (s.checkJoin c a) := by
  unfold State.checkJoin
  dsimp only
  split
  · exact h
  split
  · exact endsAs_completeJoin c a h
  split
  · exact h
  split
  · exact h
  split
  · exact endsAs_completeJoin c a h
  split
  · exact h
  · exact h

theorem endsAs_checkJoins (c : CtxId) (h : EndsAs t ended xs s) : EndsAs t ended xs (s.checkJoins c) :=
  foldl_keeps (EndsAs t ended xs) _ (fun _ j hs => endsAs_checkJoin c j.addr hs) _ s h

theorem endIfDone_pending (hp : (s.strand t).pend ≠ []) : s.endIfDone t = s := by
  have hpend : (s.strand t).pend.isEmpty = false := by rw [← Bool.not_eq_true, List.isEmpty_iff]; exact hp
  rw [State.endIfDone, hpend, Bool.and_false]
  rfl

/-- Once its interlocked operations have returned, a strand whose `exit` has committed ends. -/
theorem endsAs_endIfDone (he : (s.strand t).exiting = true) (hp : (s.strand t).pend = []) :
    EndsAs t true (s.strand t).inflight (s.endIfDone t) := by
  have hend : EndsAs t true (s.strand t).inflight
      ((s.setStrand t { s.strand t with exiting := false, exited := true }).checkJoins t.ctxId) :=
    endsAs_checkJoins t.ctxId (by rw [EndsAs, strand_setStrand_self]; exact ⟨rfl, rfl⟩)
  have hdone : ((s.strand t).exiting && (s.strand t).pend.isEmpty) = true := by rw [he, hp]; rfl
  unfold State.endIfDone
  dsimp only
  rw [if_pos hdone]
  split
  · exact hend
  · exact hend
end

/-! ## `exit` and BREAK -/

/-- The commit of an `exit` discards what has not landed, and the strand ends once nothing of it is pending (04 R88). -/
theorem endStrand_parts (s : State) (t : StrandId) : let s' := s.endStrand t
    ((s.strand t).pend = [] → (s'.strand t).exited = true) ∧
    ((s.strand t).pend ≠ [] → (s'.strand t).exiting = true ∧ (s'.strand t).exited = (s.strand t).exited) ∧
    (s'.strand t).inflight = [] := by
  intro s'
  let x : Strand := { s.strand t with exiting := true, inflight := [], queue := [], idle := 0 }
  have hx : (s.setStrand t x).strand t = x := strand_setStrand_self s t x
  have hs' : s' = (s.setStrand t x).endIfDone t := rfl
  by_cases hp : (s.strand t).pend = []
  · have hend : EndsAs t true [] s' := by
      have h := endsAs_endIfDone (s := s.setStrand t x) (t := t) (by rw [hx]) (by rw [hx]; exact hp)
      rwa [hx] at h
    exact ⟨fun _ => hend.1, fun h => absurd hp h, hend.2⟩
  · rw [hs', endIfDone_pending (by rw [hx]; exact hp), hx]
    exact ⟨fun h => absurd h hp, fun _ => ⟨rfl, rfl⟩, rfl⟩

/-- The record of a trap holds the step and the region it was given, and its context is to be suspended. -/
theorem trapRecord_given (s : State) (t : StrandId) (cause mask : BitVec 8) (sub : BitVec 4) (faddr bundle n : W64) (region : W32)
    (restart : W64) : let s' := s.trapRecord t cause mask sub faddr bundle n region restart
    (s'.strand t).trap.step = n ∧ (s'.strand t).trap.region = region ∧ (s'.ctx t.ctxId).suspending = true := by
  simp [State.trapRecord]

theorem afterCommit_break (s : State) (t : StrandId) (b : Issue) (c : BitVec 12) (h : b.transfer = .break_ c) :
    s.afterCommit t b = s.trapRecord t 12 0 0 (zx c) b.addr (s.strand t).step 0 (s.strand t).pc := by
  rw [State.afterCommit, h]

theorem afterCommit_exit (s : State) (t : StrandId) (b : Issue) (h : b.transfer = .exit) : s.afterCommit t b = s.endStrand t := by
  rw [State.afterCommit, h]

theorem afterCommit_yield (s : State) (t : StrandId) (b : Issue) (h : b.transfer = .yield) :
    s.afterCommit t b = s.setCtx t.ctxId { s.ctx t.ctxId with yielded := true } := by
  rw [State.afterCommit, h]

/-- Settles O16: the syllables by whether a region is open, what follows their commit by the transfer they recorded. -/
theorem strandEnds : Obligations.StrandEnds := by
  unfold Obligations.StrandEnds
  refine ⟨fun s c => ⟨fun hr => ?_, fun hr => ?_⟩, fun s t b => ⟨fun h => ?_, fun h => ?_, fun c h hl => ?_⟩⟩
  · exact ⟨transfers_outside _ s _ rfl hr, transfers_outside _ s _ rfl hr, transfers_outside _ s _ rfl hr, transfers_outside _ s _ rfl hr,
      transfers_outside _ s _ rfl hr⟩
  · simp only [List.forall_mem_cons, List.not_mem_nil, false_imp_iff, implies_true, and_true]
    exact ⟨transfers_inside _ s .yield rfl hr, transfers_inside _ s .exit rfl hr, transfers_inside _ s (.break_ c) rfl hr,
      transfers_inside _ s (.join false) rfl hr, transfers_inside _ s (.join true) rfl hr⟩
  · rw [afterCommit_exit s t b h]
    obtain ⟨hends, hwaits, hin⟩ := endStrand_parts s t
    exact ⟨hends, hwaits, hin, endStrand_mem s t⟩
  · rw [afterCommit_yield s t b h, ctx_setCtx_self]
  · rw [afterCommit_break s t b c h]
    have hc : zx c = BitVec.ofNat 64 c.toNat := (BitVec.ofNat_toNat 64 c).symm
    obtain ⟨-, -, -, -, -, -, htrapping, hattached, hmask, hsub, hfaddr, hbundle, hrestart⟩ :=
      trapRecord_strand s t 12 0 0 (zx c) b.addr (s.strand t).step 0 (s.strand t).pc
    obtain ⟨hstep, hregion, hsuspending⟩ := trapRecord_given s t 12 0 0 (zx c) b.addr (s.strand t).step 0 (s.strand t).pc
    exact ⟨trapRecord_cause_first _ _ _ _ _ _ _ _ _ _ hl, hmask, hsub, hbundle, hfaddr.trans hc, hstep, hregion, hrestart, htrapping, hattached,
      hsuspending, trapRecord_mem _ _ _ _ _ _ _ _ _ _⟩

end Sys2Proof.Proofs

namespace Sys2Proof.Proofs
open Sys2Proof Sys2Proof.Machine Sys2Proof.Laws

/-! # Words of the manual's listings -/

/-- Settles O52: each word is the one that the encoder gives for its syllable, and decoding undoes encoding. -/
theorem listedWordsDecode : Obligations.ListedWordsDecode := by
  unfold Obligations.ListedWordsDecode
  refine ⟨roundTrip _ true _ rfl (by decide), roundTrip _ false _ rfl (by decide), by decide,
    roundTrip _ true _ rfl (by decide), by decide, ?_⟩
  refine ⟨?_, ?_, ?_, ?_, ?_, ?_, ?_, ?_, ?_, ?_, ?_, ?_, ?_, ?_, ?_, ?_, ?_, ?_⟩
  all_goals exact roundTrip _ true _ rfl (by decide)

end Sys2Proof.Proofs

namespace Sys2Proof.Proofs
open Sys2Proof Sys2Proof.Machine Sys2Proof.Laws

/-! # Scalar loads -/

/-! ## What a memory syllable finds before it accesses (05 R92 to R96) -/

theorem ea_eq (x : W64) (i : BitVec 9) (n : Nat) : ea x i n = BitVec.ofInt 64 (x.toNat + n * i.toInt) := by
  rw [ea, BitVec.ofInt_add, BitVec.ofInt_mul, ← sx_eq_ofInt, BitVec.ofInt_natCast, BitVec.ofInt_natCast, BitVec.ofNat_toNat,
    BitVec.setWidth_eq, BitVec.mul_comm]

theorem access_misaligned (s : State) (t : StrandId) (va : W64) (n : Nat) (need : Need) (h : va.toNat % n ≠ 0) :
    s.access t va n need = .error (causeAlign, 0, va) := if_pos h

theorem access_aligned (s : State) (t : StrandId) (va : W64) (n : Nat) (need : Need) (h : va.toNat % n = 0) :
    s.access t va n need = s.resolve t va need := if_neg (not_not_intro h)

/-! ## The record of a bundle whose access passes its checks -/

/-- Addresses outside the global window need no TLB. -/
theorem touch_outside (s : State) (vas : List W64) (h : ∀ va ∈ vas, isGlobal va = false) : s.touch vas = s := by
  have hf : vas.filter isGlobal = [] := List.filter_eq_nil_iff.2 fun va hva => by simp [h va hva]
  rw [State.touch, hf, List.append_nil]
  rfl

theorem isGlobal_local {va : W64} (h : va.toNat < 0x80000) : isGlobal va = false := decide_eq_false (by omega)

theorem busyOf_touch (s : State) (vas : List W64) (xs : List (Nat × BitVec 32)) : (s.touch vas).busyOf xs = s.busyOf xs := rfl
theorem holdFor_touch (s : State) (vas : List W64) (h : Hold) : (s.touch vas).holdFor h = (s.holdFor h).touch vas := rfl

/-- Whether the banks are free does not depend on the addresses touched. -/
theorem needBanks_touch (s : State) (vas : List W64) (ps : List Place) : (s.touch vas).needBanks ps = (s.needBanks ps).touch vas := by
  unfold State.needBanks
  dsimp only
  rw [busyOf_touch, holdFor_touch]
  split <;> rfl

theorem forwards_touch (s : State) (vas : List W64) (ps : List Place) (n : Nat) :
    (s.touch vas).forwards ps n = (s.forwards ps n).touch vas := by
  have hc : (s.touch vas).cur = s.cur := rfl
  rw [State.forwards, State.forwards, hc]
  cases s.cur.region with
  | none => rfl
  | some r =>
    dsimp only
    split <;> rfl

theorem untorn_tears {s : State} {f : LoadForm} {ps : List (Nat × Place)} {n : Nat} (vas : List W64) (h : s.tears f ps n = true) :
    (s.touch vas).untorn f ps n = (s.touch vas).holdFor .lockstep := if_pos h

theorem untorn_whole {s : State} {f : LoadForm} {ps : List (Nat × Place)} {n : Nat} (vas : List W64) (h : s.tears f ps n = false) :
    (s.touch vas).untorn f ps n = s.touch vas := if_neg (ne_true_of_eq_false h)

/-! ## A load (05 R95) -/

theorem load_exposed (s : State) (tg : Tgt) (f : LoadForm) (bs : List LByte) (lat : Nat) :
    s.load tg f bs (some lat) = s.inFlightP tg (loadValue f bs).1 lat (loadValue f bs).2 := rfl

theorem load_interlocked (s : State) (tg : Tgt) (f : LoadForm) (bs : List LByte) :
    s.load tg f bs none = s.awaiting tg (.load f bs) (if allRead bs then some (loadValue f bs) else none) false := rfl

/-- A load leaves the record of its bundle as it is. -/
theorem load_iss (s : State) (tg : Tgt) (f : LoadForm) (bs : List LByte) (exposed : Option Nat) : (s.load tg f bs exposed).iss = s.iss := by
  cases exposed <;> rfl

/-- The load of a syllable that resolves, of places whose banks are free and whose held entries are sound. -/
theorem load_checked (s : State) (vas : List W64) (ps : List (Nat × Place)) (n : Nat) (f : LoadForm) (tg : Tgt) (bs : List LByte)
    (exposed : Option Nat) (hb : s.needBanks (ps.map (·.2)) = s) (hf : s.forwards (ps.map (·.2)) n = s) :
    ((((s.touch vas).needBanks (ps.map (·.2))).forwards (ps.map (·.2)) n).untorn f ps n).load tg f bs exposed =
      ((s.touch vas).untorn f ps n).load tg f bs exposed := by
  rw [needBanks_touch, hb, forwards_touch, hf]

/-- A load of which a piece would be torn is held (14 R245). -/
theorem heldFor_of_tears {i : Instr} {s : State} {vas : List W64} {f : LoadForm} {ps : List (Nat × Place)} {n : Nat} {tg : Tgt}
    {bs : List LByte} {exposed : Option Nat} (h : exec i s = .next (((s.touch vas).untorn f ps n).load tg f bs exposed))
    (ht : s.tears f ps n = true) : HeldFor i s .lockstep := by
  refine ⟨_, h, ?_⟩
  rw [load_iss, untorn_tears vas ht]
  rfl

section
variable {i : Instr} {s : State} {d a : Reg} {imm : BitVec 9} {size : Nat} {signed : Bool} {va : W64}

theorem scalarLoad_misaligned (h : exec i s = .next (s.loadG d a imm size signed)) (hva : ea (s.cur.rg a) imm size = va)
    (ha : va.toNat % size ≠ 0) : Finds i s 4 0 va := by
  rw [State.loadG, hva, access_misaligned s _ va size needR ha] at h
  exact finds_of_error i s (causeAlign, 0, va) h

theorem scalarLoad_faults (h : exec i s = .next (s.loadG d a imm size signed)) (hva : ea (s.cur.rg a) imm size = va)
    (ha : va.toNat % size = 0) (e : AddrFault) (hr : s.resolve s.turn va needR = .error e) : Finds i s e.1.toNat e.2.1.toNat e.2.2 := by
  rw [State.loadG, hva, access_aligned s _ va size needR ha, hr] at h
  exact finds_of_error i s e h

theorem scalarLoad_resolved (h : exec i s = .next (s.loadG d a imm size signed)) (hva : ea (s.cur.rg a) imm size = va)
    (ha : va.toNat % size = 0) (p : Place) (hr : s.resolve s.turn va needR = .ok p) (hb : s.needBanks [p] = s)
    (hf : s.forwards [p] size = s) : exec i s = .next (((s.touch [va]).untorn (.scalar size signed) [(0, p)] size).load (.g d)
      (.scalar size signed) (s.loadBytes p size) (if isLocal va then some 3 else none)) := by
  rw [h, State.loadG, hva, access_aligned s _ va size needR ha, hr]
  exact congrArg Host.Outcome.next (load_checked s [va] [(0, p)] size _ _ _ _ hb hf)
end

/-! ## The register value of loaded bytes (05 R92, R97) -/

theorem leNat_map_range (n : Nat) (f : Nat → Byte) :
    leNat ((List.range n).map f) = (List.range n).foldr (fun j acc => (f j).toNat + 256 * acc) 0 := by
  induction List.range n with
  | nil => rfl
  | cons j r ih => rw [List.map_cons, leNat, ih, List.foldr_cons]

/-- Sign extension from w bits, at most 64: the number less 2^w, modulo 2^64. -/
theorem ofNat_sub_eq_ofInt (v w : Nat) (h : w ≤ 64) : BitVec.ofNat 64 (v + 2 ^ 64 - 2 ^ w) = BitVec.ofInt 64 ((v : Int) - 2 ^ w) := by
  have hw : 2 ^ w ≤ 2 ^ 64 := Nat.pow_le_pow_right (by decide) h
  have hc : (2 : Int) ^ w = ((2 ^ w : Nat) : Int) := by push_cast; rfl
  rw [hc]
  generalize 2 ^ w = k at hw
  apply BitVec.eq_of_toNat_eq
  rw [BitVec.toNat_ofNat, BitVec.toNat_ofInt]
  omega

theorem loadValue_scalar (n : Nat) (signed : Bool) (f : Nat → Byte) (q : Nat → Bool) (hn : n ≤ 8) :
    let v := (List.range n).foldr (fun j acc => (f j).toNat + 256 * acc) 0
    loadValue (.scalar n signed) ((List.range n).map fun j => .got (f j) (q j)) =
      (.w (if signed then BitVec.ofInt 64 (if 2 ^ (8 * n - 1) ≤ v then (v : Int) - 2 ^ (8 * n) else v) else BitVec.ofNat 64 v),
        decide (∃ j < n, q j = true)) := by
  intro v
  have hbytes : leNat (((List.range n).map fun j => LByte.got (f j) (q j)).map LByte.byte) = v := by
    rw [List.map_map]
    exact leNat_map_range n f
  have hpoison : (((List.range n).map fun j => LByte.got (f j) (q j)).any LByte.poison) = decide (∃ j < n, q j = true) := by
    rw [List.any_map, Bool.eq_iff_iff, decide_eq_true_iff, List.any_eq_true]
    simp [LByte.poison]
  rw [loadValue, hbytes, hpoison]
  cases signed with
  | false => rw [Bool.false_and, if_neg Bool.false_ne_true, if_neg Bool.false_ne_true]
  | true =>
    rw [Bool.true_and, if_pos rfl]
    by_cases hv : 2 ^ (8 * n - 1) ≤ v
    · rw [if_pos (decide_eq_true hv), if_pos hv, ofNat_sub_eq_ofInt v (8 * n) (by omega)]
    · rw [if_neg (by simpa using hv), if_neg hv, BitVec.ofInt_natCast]

/-! ## The bytes of a load (05 R108, 14 R244) -/

section
variable (s : State) (core off pa cp : Nat) (ms ro : Bool)

theorem mixedAt_spad : s.mixedAt ⟨.spad core off, ms, cp, ro⟩ = false := rfl
theorem mixedAt_phys : s.mixedAt ⟨.phys pa, ms, cp, ro⟩ = s.mixed pa := rfl

theorem withheld_nil (t : Strand) (h : t.unconfirmed = []) : t.withheld = [] := by rw [Strand.withheld, h, List.flatMap_nil]
theorem heldStores_nil (t : Strand) (h : t.region = none) : t.heldStores = [] := by rw [Strand.heldStores, h]

section
variable {s : State} {p : Place} (h : (if s.mixedAt p then none else heldByte (s.cur.withheld ++ s.cur.heldStores) p.loc) = none)
include h

/-- A byte of the own core over which no store of the strand is held is read at once (05 R95). -/
theorem loadByte_own {o off : Nat} (hp : p.loc = .spad o off) (ho : o = s.turn.coreId.key) {b : Byte} {q : Bool} {n : Option Nat}
    (hv : s.view s.turn s.seq p = some (b, q, n)) : s.loadByte p = .got b q := by
  rw [State.loadByte, h, hp]
  dsimp only
  rw [if_pos ho, hv]

/-- A byte of another core waits for its moment. -/
theorem loadByte_sibling {o off : Nat} (hp : p.loc = .spad o off) (ho : o ≠ s.turn.coreId.key) : s.loadByte p = .at_ p := by
  rw [State.loadByte, h, hp]
  dsimp only
  rw [if_neg ho]

/-- So does a byte of physical memory. -/
theorem loadByte_phys {pa : Nat} (hp : p.loc = .phys pa) : s.loadByte p = .at_ p := by
  rw [State.loadByte, h, hp]
end

theorem loadByte_youngest (p : Place) (hs : List Held) (h : Held) (b : Byte) (hh : s.cur.withheld ++ s.cur.heldStores = hs ++ [h])
    (hl : h.at_.loc = p.loc) (hb : h.bytes = [(0, b)]) (hm : s.mixedAt p = false) : s.loadByte p = .got b false := by
  have h1 : heldByte [h] p.loc = some b := by
    cases hp : p.loc <;> simp [heldByte, offsetFrom, hl, hp, hb, byteAt]
  rw [State.loadByte, hm, hh, heldByte_append hs h _ b h1]
  rfl

/-- With no write on the way a read of a scratchpad returns what the scratchpad holds. -/
theorem view_spad (hw : s.writes = []) (t : StrandId) (n : Nat) :
    s.view t n ⟨.spad core off, ms, cp, ro⟩ = some (s.spadRead core off, s.spadPoisoned core off, none) := by
  rw [State.view, mixedAt_spad, hw]
  rfl

theorem view_mixed (hm : s.mixed pa = true) (hh : s.hostGone pa = false) (t : StrandId) (n : Nat) :
    s.view t n ⟨.phys pa, ms, cp, ro⟩ = some (s.frameByte pa, s.devicePoison pa, none) := by
  rw [State.view, mixedAt_phys, hm]
  simp [hm, hh]
end

/-- Settles O21: the checks in their order, then the load; the value of its bytes; each byte by what stands over it. -/
theorem scalarLoads : Obligations.ScalarLoads := by
  unfold Obligations.ScalarLoads
  refine ⟨fun s d a i x hx => ?_, fun n signed f q hn => ?_, fun s core off ms ro cp hu => ?_, fun s p hs h b hh hl hb hm => ?_,
    fun s pa ms ro cp hm => ?_⟩
  · have hex : exec x.1 s = .next (s.loadG d a i x.2.1 x.2.2) := by
      simp only [List.mem_cons, List.not_mem_nil, or_false] at hx
      obtain rfl | rfl | rfl | rfl | rfl | rfl | rfl := hx <;> rfl
    intro va
    have hva : ea (s.cur.rg a) i x.2.1 = va := ea_eq _ _ _
    refine ⟨scalarLoad_misaligned hex hva, scalarLoad_faults hex hva, fun ha p hr hb hf ht => ?_, fun ha p hr hb hf ht => ?_⟩
    · exact heldFor_of_tears (scalarLoad_resolved hex hva ha p hr hb hf) ht
    · have hload := scalarLoad_resolved hex hva ha p hr hb hf
      rw [untorn_whole _ ht] at hload
      refine ⟨fun hw => ?_, fun hw => ?_⟩
      · rw [hload, isLocal, decide_eq_true hw, if_pos rfl, load_exposed, touch_outside s [va] (by simpa using isGlobal_local hw)]
      · rw [hload, isLocal, decide_eq_false (by omega), if_neg (by decide), load_interlocked]
  · exact loadValue_scalar n signed f q (by simp only [List.mem_cons, List.not_mem_nil, or_false] at hn; omega)
  · have hnone (hr : s.cur.region = none) (p : Place) :
        (if s.mixedAt p then none else heldByte (s.cur.withheld ++ s.cur.heldStores) p.loc) = none := by
      rw [withheld_nil _ hu, heldStores_nil _ hr]
      exact ite_self none
    refine ⟨fun hr hw hc => ?_, fun hr hc => ?_, fun pa hr => ?_, fun hw t n => view_spad s core off cp ms ro hw t n⟩
    · exact loadByte_own (hnone hr _) rfl hc (view_spad s core off cp ms ro hw _ _)
    · exact loadByte_sibling (hnone hr _) rfl hc
    · exact loadByte_phys (hnone hr _) rfl
  · refine loadByte_youngest s p hs h b hh hl hb ?_
    cases hp : p.loc with
    | spad o off => rw [State.mixedAt, hp]
    | phys pa => rw [State.mixedAt, hp]; exact hm pa hp
  · exact ⟨loadByte_phys (if_pos hm) rfl, fun hh t n => view_mixed s pa cp ms ro hm hh t n⟩

end Sys2Proof.Proofs

namespace Sys2Proof.Proofs
open Sys2Proof Sys2Proof.Machine Sys2Proof.Laws

/-! # Scalar stores and vector accesses -/

/-! ## Scalar stores (05 R92, R99) -/

/-- The stores of a syllable that resolves, to places whose banks are free, join those of its bundle. -/
theorem addStores_checked (s : State) (vas : List W64) (ps : List Place) (xs : List StoreAt) (hb : s.needBanks ps = s) :
    ((s.touch vas).needBanks ps).addStores xs = (s.touch vas).gathering { (s.touch vas).iss with stores := s.iss.stores ++ xs } := by
  rw [needBanks_touch, hb]
  rfl

section
variable {i : Instr} {s : State} {d a : Reg} {imm : BitVec 9} {size : Nat} {va : W64}

theorem scalarStore_misaligned (h : exec i s = .next (s.storeG d a imm size)) (hva : ea (s.cur.rg a) imm size = va)
    (ha : va.toNat % size ≠ 0) : Finds i s 4 0 va := by
  rw [State.storeG, hva, access_misaligned s _ va size needW ha] at h
  exact finds_of_error i s (causeAlign, 0, va) h

theorem scalarStore_faults (h : exec i s = .next (s.storeG d a imm size)) (hva : ea (s.cur.rg a) imm size = va)
    (ha : va.toNat % size = 0) (e : AddrFault) (hr : s.resolve s.turn va needW = .error e) : Finds i s e.1.toNat e.2.1.toNat e.2.2 := by
  rw [State.storeG, hva, access_aligned s _ va size needW ha, hr] at h
  exact finds_of_error i s e h

theorem scalarStore_stores (h : exec i s = .next (s.storeG d a imm size)) (hva : ea (s.cur.rg a) imm size = va)
    (ha : va.toNat % size = 0) (p : Place) (hr : s.resolve s.turn va needW = .ok p) (hb : s.needBanks [p] = s) :
    Stores i s va p ((List.range size).map fun j => BitVec.ofNat 8 ((s.cur.rg d).toNat / 256 ^ j)) := by
  rw [Stores, h, State.storeG, hva, access_aligned s _ va size needW ha, hr, ← leBytes_eq_map]
  exact congrArg Host.Outcome.next (addStores_checked s [va] [p] _ hb)
end

/-! ## Active lanes (05 R93, R94, R100) -/

theorem ne_zero_of_active {k : W64} {j : Nat} {rest : List Nat} (h : ((List.range 64).filter fun j => k.getLsbD j) = j :: rest) : k ≠ 0 := by
  rintro rfl
  simp at h

theorem worst_eq_none {fs : List AddrFault} (h : worst fs = none) : fs = [] := by
  cases fs with
  | nil => rfl
  | cons f r =>
    rw [worst] at h
    split at h
    · cases h
    · split at h <;> cases h

/-- The lookup of a table finds an entry whose key it has. -/
theorem tget_of_mem {α : Type} {t : Table α} {k : Nat} {v : α} (h : (k, v) ∈ t) : ∃ w, tget t k = some w := by
  induction t with
  | nil => cases h
  | cons x r ih =>
    rw [tget]
    by_cases hk : x.1 = k
    · exact ⟨x.2, if_pos hk⟩
    · obtain rfl | h := List.mem_cons.1 h
      · exact absurd rfl hk
      · rw [if_neg hk]
        exact ih h

theorem lookup_eq_tget {α : Type} (t : Table α) (k : Nat) : List.lookup k t = tget t k := by
  induction t with
  | nil => rfl
  | cons x r ih =>
    rw [List.lookup_cons, tget, ih]
    by_cases hk : x.1 = k
    · simp [hk]
    · rw [if_neg hk, beq_false_of_ne (Ne.symm hk)]

/-- Lanes that resolve have a place each. -/
theorem lanes_ok {s : State} {t : StrandId} {xs : List (Nat × W64)} {align : Nat} {n : Need} {ps : List (Nat × Place)}
    (h : s.lanes t xs align n = .ok ps) (x : Nat × W64) (hx : x ∈ xs) : ∃ p, tget ps x.1 = some p := by
  unfold State.lanes at h
  dsimp only at h
  split at h
  · cases h
  · rename_i hw
    have hnone := worst_eq_none hw
    rw [List.filterMap_map, List.filterMap_eq_nil_iff] at hnone
    cases ha : s.access t x.2 align n with
    | error e => simpa [ha] using hnone x hx
    | ok p =>
      cases h
      refine tget_of_mem (v := p) (List.mem_filterMap.2 ⟨(x.1, s.access t x.2 align n), List.mem_map.2 ⟨x, hx, rfl⟩, ?_⟩)
      rw [ha]

theorem lanesFrom_past (s : State) (t : StrandId) (va k : W64) (n : Need) (h : 2 ^ 64 < va.toNat + 256) (j : Nat) (rest : List Nat)
    (hj : ((List.range 64).filter fun j => k.getLsbD j) = j :: rest) :
    s.lanesFrom t va k n = .error (causeBounds, 0, va + BitVec.ofNat 64 (4 * j)) := by
  rw [State.lanesFrom, Machine.activeLanes, hj, List.map_cons]
  exact if_pos h

theorem lanesFrom_within (s : State) (t : StrandId) (va k : W64) (n : Need) (h : va.toNat + 256 ≤ 2 ^ 64) :
    s.lanesFrom t va k n = s.lanes t (((List.range 64).filter fun j => k.getLsbD j).map fun j => (j, va + BitVec.ofNat 64 (4 * j))) 4 n := by
  rw [State.lanesFrom, Machine.activeLanes]
  generalize (((List.range 64).filter fun j => k.getLsbD j).map fun j => (j, va + BitVec.ofNat 64 (4 * j))) = xs
  cases xs with
  | nil => rfl
  | cons x r => exact if_neg (by omega)

/-! ## `vld` and `vst` by their checks (05 R100) -/

theorem laneBytes_nil (s : State) : s.laneBytes [] = List.replicate 256 .zero := by
  show ((List.range 64).flatMap fun _ => List.replicate 4 LByte.zero) = _
  decide +kernel

theorem loadValue_zeros : loadValue .vector (List.replicate 256 .zero) = (.v 0, false) := by decide +kernel

theorem allRead_zeros (n : Nat) : allRead (List.replicate n .zero) = true :=
  List.all_eq_true.2 fun b hb => by rw [List.eq_of_mem_replicate hb]

section
variable {s : State} {d a : Reg} {i : BitVec 9} {q : PReg} {va : W64} (hva : ea (s.cur.rg a) i 32 = va)
include hva

theorem vld_inactive (hk : s.cur.rk q.toNat = 0) : exec (.vld d a i q) s =
    .next (s.load (.v d) .vector (List.replicate 256 .zero) (if isLocal va then some 5 else none)) := by
  rw [exec_vld, execVld, State.loadV, hva, if_pos hk, laneBytes_nil]

omit hva in
theorem vst_inactive (hk : s.cur.rk q.toNat = 0) : exec (.vst d a i q) s = .next s := by
  rw [exec_vst, execVst, State.storeV, if_pos hk]

variable (hk : s.cur.rk q.toNat ≠ 0)
include hk

theorem vld_misaligned (ha : va.toNat % 32 ≠ 0) : Finds (.vld d a i q) s 4 0 va :=
  finds_of_error _ s (causeAlign, 0, va) (by rw [exec_vld, execVld, State.loadV, hva, if_neg hk, if_pos ha])

theorem vst_misaligned (ha : va.toNat % 32 ≠ 0) : Finds (.vst d a i q) s 4 0 va :=
  finds_of_error _ s (causeAlign, 0, va) (by rw [exec_vst, execVst, State.storeV, hva, if_neg hk, if_pos ha])

variable (ha : va.toNat % 32 = 0)
include ha

theorem vld_faults (e : AddrFault) (hl : s.lanesFrom s.turn va (s.cur.rk q.toNat) needR = .error e) :
    Finds (.vld d a i q) s e.1.toNat e.2.1.toNat e.2.2 :=
  finds_of_error _ s e (by rw [exec_vld, execVld, State.loadV, hva, if_neg hk, if_neg (not_not_intro ha), hl])

theorem vst_faults (e : AddrFault) (hl : s.lanesFrom s.turn va (s.cur.rk q.toNat) needW = .error e) :
    Finds (.vst d a i q) s e.1.toNat e.2.1.toNat e.2.2 :=
  finds_of_error _ s e (by rw [exec_vst, execVst, State.storeV, hva, if_neg hk, if_neg (not_not_intro ha), hl])

theorem vld_loads (ps : List (Nat × Place)) (hl : s.lanesFrom s.turn va (s.cur.rk q.toNat) needR = .ok ps)
    (hb : s.needBanks (ps.map (·.2)) = s) (hf : s.forwards (ps.map (·.2)) 4 = s) : exec (.vld d a i q) s =
      .next (((s.touch [va, va + 252]).untorn .vector ps 4).load (.v d) .vector (s.laneBytes ps) (if isLocal va then some 5 else none)) := by
  rw [exec_vld, execVld, State.loadV, hva, if_neg hk, if_neg (not_not_intro ha), hl]
  exact congrArg Host.Outcome.next (load_checked s _ ps 4 _ _ _ _ hb hf)

theorem vst_stores (ps : List (Nat × Place)) (hl : s.lanesFrom s.turn va (s.cur.rk q.toNat) needW = .ok ps)
    (hb : s.needBanks (ps.map (·.2)) = s) : exec (.vst d a i q) s = .next ((s.touch [va, va + 252]).gathering
      { (s.touch [va, va + 252]).iss with stores := s.iss.stores ++ vstChunks va (s.cur.rk q.toNat) (s.cur.rv d) ps s.iss.pos }) := by
  rw [exec_vst, execVst, State.storeV, hva, if_neg hk, if_neg (not_not_intro ha), hl]
  exact congrArg Host.Outcome.next (addStores_checked s _ _ _ hb)
end

/-! ## The chunks of a `vst` (05 R100, 14 R245) -/

/-- The active lanes of chunk n, by their places in the chunk. -/
def chunkLanes (k : W64) (n : Nat) : List Nat := (List.range 4).filter fun j => k.getLsbD (4 * n + j)

/-- The bytes that chunk n writes, by their offsets from its first active lane j0. -/
def chunkBytes (x : VReg) (n j0 : Nat) (ls : List Nat) : List (Nat × Byte) :=
  ls.flatMap fun j => (withOffsets (leBytes 4 (lane x (4 * n + j)).toNat)).map fun b => (4 * (j - j0) + b.1, b.2)

theorem mem_vstChunks (va k : W64) (x : VReg) (ps : List (Nat × Place)) (pos : Nat) (c : StoreAt) : c ∈ vstChunks va k x ps pos ↔
    ∃ n < 16, ∃ j0 rest p, chunkLanes k n = j0 :: rest ∧ tget ps (4 * n + j0) = some p ∧
      c = ⟨va + BitVec.ofNat 64 (16 * n + 4 * j0), p, chunkBytes x n j0 (j0 :: rest), blockCovered k va n, pos⟩ := by
  rw [vstChunks, List.mem_filterMap]
  refine exists_congr fun n => ?_
  rw [List.mem_range]
  refine and_congr_right fun _ => ?_
  dsimp only
  rw [← chunkLanes]
  cases hl : chunkLanes k n with
  | nil => simp
  | cons j0 rest =>
    dsimp only
    rw [Option.map_eq_some_iff]
    constructor
    · rintro ⟨p, hp, rfl⟩
      exact ⟨j0, rest, p, rfl, hp, rfl⟩
    · rintro ⟨j, r, p, hj, hp, rfl⟩
      cases hj
      exact ⟨p, hp, rfl⟩

theorem mem_chunkLanes (k : W64) (n j : Nat) : j ∈ chunkLanes k n ↔ j < 4 ∧ k.getLsbD (4 * n + j) = true := by
  rw [chunkLanes, List.mem_filter, List.mem_range]

/-- The first active lane of a chunk is the lowest. -/
theorem first_le {k : W64} {n j0 : Nat} {rest : List Nat} (h : chunkLanes k n = j0 :: rest) (j : Nat) (hj : j ∈ j0 :: rest) : j0 ≤ j := by
  have hp : (j0 :: rest).Pairwise (· < ·) := h ▸ List.pairwise_lt_range.filter _
  obtain rfl | hj := List.mem_cons.1 hj
  · exact le_rfl
  · exact le_of_lt (List.rel_of_pairwise_cons hp hj)

theorem mem_chunkBytes (x : VReg) (n j0 : Nat) (ls : List Nat) (b : Nat × Byte) : b ∈ chunkBytes x n j0 ls ↔
    ∃ j ∈ ls, ∃ m < 4, b = (4 * (j - j0) + m, BitVec.ofNat 8 ((lane x (4 * n + j)).toNat / 256 ^ m)) := by
  rw [chunkBytes, List.mem_flatMap]
  refine exists_congr fun j => and_congr_right fun _ => ?_
  rw [leBytes_eq_map, withOffsets_map_range, List.map_map, List.mem_map]
  simp only [List.mem_range, Function.comp_apply]
  exact exists_congr fun m => and_congr_right fun _ => eq_comm

section
variable {va k : W64} {x : VReg} {ps : List (Nat × Place)} {pos : Nat}

theorem chunk_offset {n j : Nat} (hva : va.toNat + 256 ≤ 2 ^ 64) (hn : n < 16) (hj : j < 4) :
    (va + BitVec.ofNat 64 (16 * n + 4 * j)).toNat - va.toNat = 16 * n + 4 * j := by
  rw [BitVec.toNat_add, BitVec.toNat_ofNat]
  omega

/-- A chunk lies at its first active lane and writes the bytes of active lanes within its 16 bytes. -/
theorem vstChunks_sound (hva : va.toNat + 256 ≤ 2 ^ 64) (c : StoreAt) (hc : c ∈ vstChunks va k x ps pos) : c.pos = pos ∧
    (c.va.toNat - va.toNat) % 4 = 0 ∧ ps.lookup ((c.va.toNat - va.toNat) / 4) = some c.at_ ∧
      ∀ b ∈ c.bytes, let o := c.va.toNat - va.toNat + b.1
        o / 16 = (c.va.toNat - va.toNat) / 16 ∧ o < 256 ∧ k.getLsbD (o / 4) = true ∧
          b.2 = BitVec.ofNat 8 ((lane x (o / 4)).toNat / 256 ^ (o % 4)) := by
  obtain ⟨n, hn, j0, rest, p, hl, hp, rfl⟩ := (mem_vstChunks va k x ps pos c).1 hc
  have hj0 : j0 < 4 := ((mem_chunkLanes k n j0).1 (hl ▸ List.mem_cons_self)).1
  dsimp only
  rw [chunk_offset hva hn hj0]
  refine ⟨rfl, by omega, ?_, fun b hb => ?_⟩
  · rw [lookup_eq_tget, show (16 * n + 4 * j0) / 4 = 4 * n + j0 by omega, hp]
  · obtain ⟨j, hj, m, hm, rfl⟩ := (mem_chunkBytes x n j0 _ b).1 hb
    have hle := first_le hl j hj
    obtain ⟨hj4, hbit⟩ := (mem_chunkLanes k n j).1 (hl ▸ hj)
    have hlane : (16 * n + 4 * j0 + (4 * (j - j0) + m)) / 4 = 4 * n + j := by omega
    have hbyte : (16 * n + 4 * j0 + (4 * (j - j0) + m)) % 4 = m := by omega
    dsimp only
    rw [hlane, hbyte]
    exact ⟨by omega, by omega, hbit, rfl⟩

/-- Every byte of an active lane is in a chunk, when every active lane has its place. -/
theorem vstChunks_complete (hva : va.toNat + 256 ≤ 2 ^ 64) (hps : ∀ j < 64, k.getLsbD j = true → ∃ p, tget ps j = some p) (o : Nat)
    (ho : o < 256) (hk : k.getLsbD (o / 4) = true) :
    ∃ c ∈ vstChunks va k x ps pos, ∃ b ∈ c.bytes, c.va.toNat - va.toNat + b.1 = o := by
  have hmem : o / 4 % 4 ∈ chunkLanes k (o / 16) :=
    (mem_chunkLanes _ _ _).2 ⟨by omega, by rwa [show 4 * (o / 16) + o / 4 % 4 = o / 4 by omega]⟩
  cases hl : chunkLanes k (o / 16) with
  | nil => rw [hl] at hmem; cases hmem
  | cons j0 rest =>
    obtain ⟨hj0, hbit⟩ := (mem_chunkLanes k (o / 16) j0).1 (hl ▸ List.mem_cons_self)
    obtain ⟨p, hp⟩ := hps (4 * (o / 16) + j0) (by omega) hbit
    rw [hl] at hmem
    have hle := first_le hl _ hmem
    refine ⟨_, (mem_vstChunks va k x ps pos _).2 ⟨o / 16, by omega, j0, rest, p, hl, hp, rfl⟩, _,
      (mem_chunkBytes x (o / 16) j0 _ _).2 ⟨o / 4 % 4, hmem, o % 4, by omega, rfl⟩, ?_⟩
    dsimp only
    rw [chunk_offset hva (by omega) hj0]
    omega
end

/-! ## Gathers and scatters (05 R101) -/

theorem laneAddr_eq (base : W64) (b : VReg) (j : Nat) : laneAddr base b j = BitVec.ofInt 64 (base.toNat + (lane b j).toInt) :=
  add_sx base (lane b j)

section
variable {s : State} {d a b : Reg} {q : PReg} {spread : List (Nat × W64)}
variable (hs : Machine.activeLanes (s.cur.rk q.toNat) (laneAddr (s.cur.rg a) (s.cur.rv b)) = spread)
include hs

theorem vldg_faults (e : AddrFault) (hl : s.lanes s.turn spread 4 needR = .error e) :
    Finds (.vldg d a b q) s e.1.toNat e.2.1.toNat e.2.2 :=
  finds_of_error _ s e (by rw [exec_vldg, execVldg, State.gather, hs, hl])

theorem vsts_faults (e : AddrFault) (hl : s.lanes s.turn spread 4 needW = .error e) :
    Finds (.vsts d a b q) s e.1.toNat e.2.1.toNat e.2.2 :=
  finds_of_error _ s e (by rw [exec_vsts, execVsts, State.scatter, hs, hl])

theorem vldg_loads (ps : List (Nat × Place)) (hl : s.lanes s.turn spread 4 needR = .ok ps)
    (hb : s.needBanks (ps.map (·.2)) = s) (hf : s.forwards (ps.map (·.2)) 4 = s) : exec (.vldg d a b q) s =
      .next (((s.touch (spread.map (·.2))).untorn .gather ps 4).load (.v d) .gather (s.laneBytes ps) none) := by
  rw [exec_vldg, execVldg, State.gather, hs, hl]
  exact congrArg Host.Outcome.next (load_checked s _ ps 4 _ _ _ _ hb hf)

theorem vsts_stores (ps : List (Nat × Place)) (hl : s.lanes s.turn spread 4 needW = .ok ps)
    (hb : s.needBanks (ps.map (·.2)) = s) : exec (.vsts d a b q) s = .next ((s.touch (spread.map (·.2))).gathering
      { (s.touch (spread.map (·.2))).iss with stores := s.iss.stores ++ ps.map fun x =>
        { va := BitVec.ofInt 64 ((s.cur.rg a).toNat + (lane (s.cur.rv b) x.1).toInt), at_ := x.2
          bytes := (List.range 4).map fun j => (j, BitVec.ofNat 8 ((lane (s.cur.rv d) x.1).toNat / 256 ^ j)), clears := 0,
          pos := s.iss.pos } }) := by
  rw [exec_vsts, execVsts, State.scatter, hs, hl]
  simp only [laneAddr_eq, leBytes_eq_map, withOffsets_map_range]
  exact congrArg Host.Outcome.next (addStores_checked s _ _ _ hb)
end

/-- Settles O22: the scalar stores by their checks, `vld` and `vst` by theirs, the chunks of a `vst` lane by lane, gathers and scatters. -/
theorem storesAndVectorAccesses : Obligations.StoresAndVectorAccesses := by
  unfold Obligations.StoresAndVectorAccesses
  refine ⟨fun s d a i x hx => ?_, fun s d a b i q => ?_⟩
  · have hex : exec x.1 s = .next (s.storeG d a i x.2) := by
      simp only [List.mem_cons, List.not_mem_nil, or_false] at hx
      obtain rfl | rfl | rfl | rfl := hx <;> rfl
    intro va
    have hva : ea (s.cur.rg a) i x.2 = va := ea_eq _ _ _
    exact ⟨scalarStore_misaligned hex hva, scalarStore_faults hex hva, scalarStore_stores hex hva⟩
  · intro k va s1 active row spread
    have hva : ea (s.cur.rg a) i 32 = va := ea_eq _ _ _
    have hspread : Machine.activeLanes k (laneAddr (s.cur.rg a) (s.cur.rv b)) = spread :=
      List.map_congr_left fun j _ => by rw [laneAddr_eq]
    have hrow (need : Need) (hw : va.toNat + 256 ≤ 2 ^ 64) : s.lanesFrom s.turn va k need = s.lanes s.turn row 4 need :=
      lanesFrom_within s s.turn va k need hw
    refine ⟨fun hk ha => ⟨vld_misaligned hva hk ha, vst_misaligned hva hk ha⟩, vst_inactive, fun hk hw => ?_, fun hk hw => ?_,
      fun ha hw j rest hj => ?_, fun hk ha hw => ⟨fun e he => ?_, fun e he => ?_⟩, fun hk ha hw ps hl hb hf ht => ?_,
      fun hk ha hw ps hl hb hf ht => ?_, fun hk ha hw ps hl hb => ⟨?_, ?_, ?_⟩, fun ps hl hb hf ht => ?_, fun ps hl hb hf ht => ?_,
      vsts_stores hspread, vldg_faults hspread, vsts_faults hspread⟩
    · rw [vld_inactive hva hk, isLocal, decide_eq_true hw, if_pos rfl, load_exposed, loadValue_zeros]
      rfl
    · rw [vld_inactive hva hk, isLocal, decide_eq_false (by omega), if_neg (by decide), load_interlocked, loadValue_zeros,
        if_pos (allRead_zeros 256)]
    · have hk : k ≠ 0 := ne_zero_of_active hj
      exact ⟨vld_faults hva hk ha _ (lanesFrom_past s _ va k needR hw j rest hj),
        vst_faults hva hk ha _ (lanesFrom_past s _ va k needW hw j rest hj)⟩
    · exact vld_faults hva hk ha e ((hrow needR hw).trans he)
    · exact vst_faults hva hk ha e ((hrow needW hw).trans he)
    · exact heldFor_of_tears (vld_loads hva hk ha ps ((hrow needR hw).trans hl) hb hf) ht
    · have hload := vld_loads hva hk ha ps (d := d) ((hrow needR hw).trans hl) hb hf
      rw [untorn_whole _ ht] at hload
      refine ⟨fun hloc => ?_, fun hloc => ?_⟩
      · rw [hload, isLocal, decide_eq_true hloc, if_pos rfl, load_exposed]
      · rw [hload, isLocal, decide_eq_false (by omega), if_neg (by decide), load_interlocked]
    · exact vst_stores hva hk ha ps ((hrow needW hw).trans hl) hb
    · exact fun c hc => vstChunks_sound hw c hc
    · refine vstChunks_complete hw fun j hj hbit => ?_
      exact lanes_ok hl (j, va + BitVec.ofNat 64 (4 * j)) (List.mem_map.2 ⟨j, List.mem_filter.2 ⟨List.mem_range.2 hj, hbit⟩, rfl⟩)
    · exact heldFor_of_tears (vldg_loads hspread ps hl hb hf) ht
    · rw [vldg_loads hspread ps hl hb hf, untorn_whole _ ht, load_interlocked]

end Sys2Proof.Proofs

namespace Sys2Proof.Machine

/-- What the strands and the bundle that issues see of the state: the strands, the bundle's record, whose turn it is, the next age. The
caches, the protocol and memory are the rest. -/
def State.issueSide (s : State) : Table Strand × Issue × StrandId × Nat := (s.strands, s.iss, s.turn, s.seq)

end Sys2Proof.Machine

namespace Sys2Proof.Proofs
open Sys2Proof Sys2Proof.Machine Sys2Proof.Laws

/-! # Hints and cache range operations complete -/

/-! ## The caches and the protocol work apart from the strands -/

theorem issueSide_parts {s t : State} (h : t.issueSide = s.issueSide) :
    t.strands = s.strands ∧ t.iss = s.iss ∧ t.turn = s.turn ∧ t.seq = s.seq := by
  simpa [State.issueSide] using h

theorem strand_of_issueSide {s t : State} (h : t.issueSide = s.issueSide) (u : StrandId) : t.strand u = s.strand u := by
  rw [State.strand, State.strand, (issueSide_parts h).1]

theorem foldl_issueSide {β : Type} (f : State → β → State) (hf : ∀ s x, (f s x).issueSide = s.issueSide) (xs : List β) (s : State) :
    (xs.foldl f s).issueSide = s.issueSide :=
  foldl_keeps (fun t : State => t.issueSide = s.issueSide) f (fun t x ht => (hf t x).trans ht) xs s rfl

@[simp] theorem setDie_issueSide (s : State) (d : DieId) (x : Die) : (s.setDie d x).issueSide = s.issueSide := rfl
@[simp] theorem setCluster_issueSide (s : State) (l : ClusterId) (x : Cluster) : (s.setCluster l x).issueSide = s.issueSide := rfl
@[simp] theorem setLine_issueSide (s : State) (d : DieId) (line : Nat) (x : L2Line) : (s.setLine d line x).issueSide = s.issueSide := rfl
@[simp] theorem lineToHbm_issueSide (s : State) (line : Nat) (data : List Byte) (poison : BitVec 4) :
    (s.lineToHbm line data poison).issueSide = s.issueSide := rfl
@[simp] theorem log_issueSide (s : State) (d : DieId) (n : Fin 5) (kind unit struct addr detail : Nat) :
    (s.log d n kind unit struct addr detail).issueSide = s.issueSide := rfl

@[simp] theorem send_issueSide (s : State) (m : Msg) : (s.send m).issueSide = s.issueSide := by
  unfold State.send
  split <;> rfl

@[simp] theorem evict_issueSide (s : State) (d : DieId) (v : Nat) (x : L2Line) : (s.evict d v x).issueSide = s.issueSide := by
  unfold State.evict
  dsimp only
  repeat' split
  all_goals simp

theorem makeRoom_issueSide {s u : State} {d : DieId} {line : Nat} (h : s.makeRoom d line = some u) : u.issueSide = s.issueSide := by
  unfold State.makeRoom at h
  dsimp only at h
  split at h
  · cases h
    rfl
  · obtain ⟨x, _, rfl⟩ := Option.map_eq_some_iff.1 h
    exact evict_issueSide s d x.1 x.2

@[simp] theorem request_issueSide (s : State) (d : DieId) (line : Nat) (k : ReqKind) : (s.request d line k).issueSide = s.issueSide := by
  unfold State.request
  split <;> rfl

@[simp] theorem wish_issueSide (s : State) (d : DieId) (line : Nat) (f : Outstanding → Outstanding) :
    (s.wish d line f).issueSide = s.issueSide := by
  unfold State.wish
  split <;> rfl

@[simp] theorem dropCopy_issueSide (s : State) (l : ClusterId) (line : Nat) : (s.dropCopy l line).issueSide = s.issueSide := by
  obtain ⟨ds, h⟩ := dropCopy_eq s l line
  rw [h, dropLine]
  split <;> rfl

@[simp] theorem dropStale_issueSide (s : State) (l : ClusterId) (pa : Nat) : (s.dropStale l pa).issueSide = s.issueSide := by
  unfold State.dropStale
  repeat' split
  all_goals simp

@[simp] theorem roomFor_issueSide (s : State) (l : ClusterId) (line : Nat) : (s.roomFor l line).issueSide = s.issueSide := by
  unfold State.roomFor
  dsimp only
  repeat' split
  all_goals simp

@[simp] theorem fillFrom_issueSide (s : State) (l : ClusterId) (pa : Nat) (ro : Bool) (x : L2Line) :
    (s.fillFrom l pa ro x).issueSide = s.issueSide := by
  simp [State.fillFrom]

@[simp] theorem fillLine_issueSide (s : State) (l : ClusterId) (pa : Nat) (ro : Bool) : (s.fillLine l pa ro).issueSide = s.issueSide := by
  unfold State.fillLine
  dsimp only
  split
  · rfl
  · split
    · simp
    · split
      · simp
      · split
        · simp
        · have h := (makeRoom_issueSide ‹_›).trans (dropStale_issueSide s l pa)
          split <;> simp [h]

@[simp] theorem fillWhole_issueSide (s : State) (l : ClusterId) (line : Nat) (ro : Bool) :
    (s.fillWhole l line ro).issueSide = s.issueSide := foldl_issueSide _ (fun _ _ => by simp) _ _

theorem bring_issueSide (s : State) (d : DieId) (line : Nat) (here : State → L2Line → State) (wish : Outstanding → Outstanding)
    (hhere : ∀ u x, (here u x).issueSide = u.issueSide) : (s.bring d line here wish).issueSide = s.issueSide := by
  unfold State.bring
  split
  · rfl
  · have h := makeRoom_issueSide ‹_›
    split <;> simp [hhere, h]

@[simp] theorem retain_issueSide (s : State) (d : DieId) (gang line : Nat) : (s.retain d gang line).issueSide = s.issueSide :=
  bring_issueSide s d line _ _ fun u _ => setLine_issueSide u d line _

@[simp] theorem dropLines_issueSide (s : State) (l : ClusterId) (ls : List (Nat × Nat)) : (s.dropLines l ls).issueSide = s.issueSide :=
  foldl_issueSide _ (fun _ _ => by split <;> simp) _ _

@[simp] theorem writeBackOn_issueSide (s : State) (ls : List (Nat × Nat)) (gang : Nat) (d : DieId) :
    (s.writeBackOn ls gang d).issueSide = s.issueSide := by
  refine foldl_issueSide _ (fun u x => ?_) _ _
  repeat' split
  all_goals simp

@[simp] theorem removeRemote_issueSide (s : State) (d : DieId) (gang : Nat) (ls : List (Nat × Nat)) :
    (s.removeRemote d gang ls).issueSide = s.issueSide := by
  refine foldl_issueSide _ (fun u x => ?_) _ _
  dsimp only
  repeat' split
  all_goals simp

/-! ## Hints (05 R102, R104) -/

/-- What a hint may do to strands and bundle: nothing but note that it was dropped. -/
def Hinted (s t : State) : Prop :=
  t.iss = { s.iss with drops := t.iss.drops } ∧ s.iss.drops ≤ t.iss.drops ∧ t.strands = s.strands

theorem Hinted.of_issueSide {s t : State} (h : t.issueSide = s.issueSide) : Hinted s t := by
  obtain ⟨hstrands, hiss, -, -⟩ := issueSide_parts h
  rw [Hinted, hiss]
  exact ⟨rfl, le_rfl, hstrands⟩

theorem Hinted.refl (s : State) : Hinted s s := Hinted.of_issueSide rfl

theorem Hinted.dropHint (s : State) (n : Nat) : Hinted s (s.dropHint n) := ⟨rfl, Nat.le_add_right _ _, rfl⟩

theorem Hinted.trans {s t u : State} (h : Hinted s t) (k : Hinted t u) : Hinted s u := by
  obtain ⟨hiss, hdrops, hstrands⟩ := h
  obtain ⟨kiss, kdrops, kstrands⟩ := k
  refine ⟨?_, hdrops.trans kdrops, kstrands.trans hstrands⟩
  rw [kiss, hiss]

theorem prefetch_hinted (s : State) (va : W64) : Hinted s (s.prefetch va) := by
  unfold State.prefetch
  dsimp only
  split
  · exact Hinted.dropHint s 1
  · split
    · exact Hinted.dropHint s 1
    · split
      · exact Hinted.dropHint s 1
      split
      · exact Hinted.refl _
      split
      · exact Hinted.of_issueSide (bring_issueSide s _ _ _ _ fun _ _ => rfl)
      · exact Hinted.of_issueSide (bring_issueSide s _ _ _ _ fun u _ => fillWhole_issueSide u _ _ _)
  · exact Hinted.refl _

theorem reserve_hinted (s : State) (va stop fuel : Nat) : Hinted s (s.reserve va stop fuel) := by
  induction fuel generalizing s va with
  | zero => exact Hinted.refl _
  | succ k ih =>
    unfold State.reserve
    dsimp only
    split
    · exact Hinted.refl _
    split
    · exact (Hinted.dropHint s 1).trans (ih _ _)
    · refine Hinted.trans ?_ (ih _ _)
      split
      · exact Hinted.dropHint s 1
      split
      · exact Hinted.refl _
      · exact Hinted.of_issueSide (foldl_issueSide _ (fun _ _ => by simp) _ _)

theorem execRes_hinted (s : State) (a b : Reg) : ∃ t, exec (.res a b) s = .next t ∧ Hinted s t := by
  rw [exec_res]
  refine ⟨_, rfl, Hinted.trans ?_ (reserve_hinted _ _ _ _)⟩
  split
  · exact Hinted.dropHint s 1
  · exact Hinted.refl _

/-! ## Range operations issue (05 R105) -/

theorem leafOk_readable (e va : W64) (h : pteR e = true) : leafOk (.leaf e) va needR = .ok e := by
  simp [leafOk, lacks, needR, h]

/-- A range each of whose bytes has a readable leaf has its lines. -/
theorem rangeLines_ok (s : State) (t : StrandId) (va stop fuel : Nat) (h : ∀ x, va ≤ x → x < stop →
    ∃ e, s.leafFor t.clusterId (s.bindOf t.ctxId).asid (s.bindOf t.ctxId).gen x = .leaf e ∧ pteR e = true) :
    ∃ ls, s.rangeLines t va stop fuel = .ok ls := by
  induction fuel generalizing va with
  | zero => exact ⟨_, rfl⟩
  | succ k ih =>
    unfold State.rangeLines
    by_cases hs : stop ≤ va
    · exact ⟨_, if_pos hs⟩
    · obtain ⟨e, he, hr⟩ := h va le_rfl (by omega)
      obtain ⟨r, hnext⟩ := ih (va / 2 ^ 16 * 2 ^ 16 + 2 ^ 16) fun x hx => h x (by omega)
      dsimp only
      rw [if_neg hs, he, leafOk_readable e _ hr, hnext]
      exact ⟨_, rfl⟩

/-- The state in which the strand waits for its range operation: `cop.inv` has dropped the cluster's copies. -/
def copDropped (s : State) (wb : Bool) (ls : List (Nat × Nat)) : State := if wb then s else s.dropLines s.turn.clusterId ls

@[simp] theorem copDropped_issueSide (s : State) (wb : Bool) (ls : List (Nat × Nat)) : (copDropped s wb ls).issueSide = s.issueSide := by
  cases wb
  · exact dropLines_issueSide s _ ls
  · rfl

theorem copDropped_mem (s : State) (wb : Bool) (ls : List (Nat × Nat)) : (copDropped s wb ls).mem = s.mem := by
  cases wb
  · exact dropLines_mem s _ ls
  · rfl

theorem cop_waits (s : State) (wb : Bool) (a b : Reg) (h0 : 0 < (s.cur.rg b).toNat) (hn : (s.cur.rg b).toNat ≤ 2 ^ 30)
    (hg : isGlobal (s.cur.rg a) = true) (he : (s.cur.rg a).toNat + (s.cur.rg b).toNat ≤ 2 ^ 57) (ls : List (Nat × Nat))
    (hl : s.rangeLines s.turn (s.cur.rg a).toNat ((s.cur.rg a).toNat + (s.cur.rg b).toNat) 16386 = .ok ls) :
    let s1 := copDropped s wb ls
    s.cop wb a b = ({ s1 with seq := s1.seq + 1 } : State).setStrand s1.turn { s1.cur with range := some (wb, ls, s1.seq) } := by
  intro s1
  rw [State.cop]
  dsimp only
  rw [if_neg (by omega), if_neg (by omega), hg, if_neg (by decide), if_neg (by omega), hl]
  rfl

theorem cop_issues (s : State) (wb : Bool) (a b : Reg) (h0 : 0 < (s.cur.rg b).toNat) (hn : (s.cur.rg b).toNat ≤ 2 ^ 30)
    (hg : isGlobal (s.cur.rg a) = true) (he : (s.cur.rg a).toNat + (s.cur.rg b).toNat ≤ 2 ^ 57) (ls : List (Nat × Nat))
    (hl : s.rangeLines s.turn (s.cur.rg a).toNat ((s.cur.rg a).toNat + (s.cur.rg b).toNat) 16386 = .ok ls) :
    let s' := s.cop wb a b
    (s'.strand s.turn).range = some (wb, ls, s.seq) ∧ s'.seq = s.seq + 1 ∧ s'.iss = s.iss ∧ s'.mem = s.mem ∧
      ∀ u, u.key ≠ s.turn.key → s'.strand u = s.strand u := by
  intro s'
  have hs' := cop_waits s wb a b h0 hn hg he ls hl
  have hside := copDropped_issueSide s wb ls
  obtain ⟨-, hiss, hturn, hseq⟩ := issueSide_parts hside
  rw [show s' = _ from hs', hturn]
  refine ⟨?_, congrArg (· + 1) hseq, hiss, copDropped_mem s wb ls, fun u hu => ?_⟩
  · rw [strand_setStrand_self, hseq]
  · rw [strand_setStrand_other _ _ _ _ hu]
    exact strand_of_issueSide hside u

/-! ## Range operations complete (05 R105 to R107) -/

/-- The strand goes on from a state that the caches' work has reached. -/
theorem range_ends {s s1 : State} (h : s1.issueSide = s.issueSide) (t : StrandId) :
    let s' := s1.setStrand t { s1.strand t with range := none }
    (s'.strand t).range = none ∧ s'.iss = s.iss ∧ (s'.strand t).pc = (s.strand t).pc ∧ (s'.strand t).g = (s.strand t).g ∧
      ∀ u, u.key ≠ t.key → s'.strand u = s.strand u := by
  intro s'
  have hself : s'.strand t = { s.strand t with range := none } := by
    rw [strand_setStrand_self, strand_of_issueSide h]
  rw [hself]
  refine ⟨rfl, (issueSide_parts h).2.1, rfl, rfl, fun u hu => ?_⟩
  rw [strand_setStrand_other _ _ _ _ hu, strand_of_issueSide h]

section
variable {s : State} {t : StrandId} {ls : List (Nat × Nat)} {mark : Nat}

theorem writeBack_completes (hr : (s.strand t).range = some (true, ls, mark)) (hw : s.rangeStored t ls mark = true)
    (hm : s.rangeMoves ls = false) : let s1 := allDies.foldl (fun u d => u.writeBackOn ls (s.bindOf t.ctxId).gang.toNat d) s
    exec (.cacheRangeOperationComplete t) s = .next (s1.setStrand t { s1.strand t with range := none }) := by
  rw [exec_cacheRangeOperationComplete, execCacheRangeOperationComplete, hr]
  dsimp only
  rw [if_pos rfl, hw, hm]
  exact if_pos rfl

theorem invalidate_completes (hr : (s.strand t).range = some (false, ls, mark)) (hm : s.removable t.clusterId ls = true) :
    let s1 := s.removeRemote t.die (s.bindOf t.ctxId).gang.toNat ls
    exec (.cacheRangeOperationComplete t) s = .next (s1.setStrand t { s1.strand t with range := none }) := by
  rw [exec_cacheRangeOperationComplete, execCacheRangeOperationComplete, hr]
  dsimp only
  rw [if_neg Bool.false_ne_true, if_pos hm]
end

/-- Settles O24: a hint by what it may note; a range operation by its lines, then by what the caches' work leaves to the strands. -/
theorem hintsAndRangesComplete : Obligations.HintsAndRangesComplete := by
  unfold Obligations.HintsAndRangesComplete
  refine ⟨fun s a b i hi => ?_, fun s a b => ?_, fun s t wb ls mark hr hwb hinv => ?_⟩
  · have hex : ∃ s', exec i s = .next s' ∧ Hinted s s' := by
      obtain rfl | rfl : i = .pref a ∨ i = .res a b := by simpa using hi
      · exact ⟨_, rfl, prefetch_hinted s (s.cur.rg a)⟩
      · exact execRes_hinted s a b
    obtain ⟨s', hnext, hiss, hdrops, hstrands⟩ := hex
    exact ⟨s', hnext, hiss, hdrops, fun u => by rw [State.strand, State.strand, hstrands]⟩
  · intro va n k h0 hn hg he hpages y hy
    obtain ⟨ls, hl⟩ := rangeLines_ok s s.turn va (va + n) 16386 hpages
    have hex : exec y.1 s = .next (s.cop y.2 a b) := by
      obtain rfl | rfl : y = (.copWb a b, true) ∨ y = (.copInv a b, false) := by simpa using hy
      · rfl
      · rfl
    exact ⟨_, ls, hex, cop_issues s y.2 a b h0 hn hg he ls hl⟩
  · cases wb with
    | true =>
      obtain ⟨hstored, hmoves⟩ := hwb rfl
      exact ⟨_, writeBack_completes hr hstored hmoves, range_ends (foldl_issueSide _ (fun u d => writeBackOn_issueSide u ls _ d) _ s) t⟩
    | false => exact ⟨_, invalidate_completes hr (hinv rfl), range_ends (removeRemote_issueSide s t.die _ ls) t⟩

end Sys2Proof.Proofs

namespace Sys2Proof.Proofs
open Sys2Proof Sys2Proof.Machine Sys2Proof.Laws

/-! # A reservation of a line that a table out of order holds -/

/-! ## Reservations (05 R102, R103) -/

theorem reserve_past (s : State) (va stop fuel : Nat) (h : stop ≤ va) : s.reserve va stop fuel = s := by
  cases fuel with
  | zero => rfl
  | succ k => exact if_pos h

theorem lostAt_none (s : State) (pa : Nat) (h : s.dielost = 0) : s.lostAt pa = false := by
  simp [State.lostAt, h]

/-- A range within one line of a readable page retains that line. -/
theorem reserve_line (s : State) (va n k : Nat) (e : W64) (hn : 0 < n) (hline : va / 128 = (va + n - 1) / 128)
    (hleaf : s.leafFor s.turn.clusterId (s.bindOf s.turn.ctxId).asid (s.bindOf s.turn.ctxId).gen va = .leaf e) (hr : pteR e = true)
    (hms : pteMs e = false) (hcp : pteCp e ≠ 2) (hsz : pteSz e = 0) (hal : pteAddr e % 2 ^ 16 = 0) (hd : s.dielost = 0) :
    s.reserve va (va + n) (k + 1) = s.retain s.turn.die (s.bindOf s.turn.ctxId).gang.toNat (leafPa e va / 128) := by
  have hpa : leafPa e va = pteAddr e + va % 2 ^ 16 := by rw [leafPa, hsz, pageBits]
  have hlines : lineOf (leafPa e va + (va + n - va) - 1) + 1 - lineOf (leafPa e va) = 1 := by
    rw [lineOf, lineOf, hpa]
    omega
  have hend : min (va + n) (va / 2 ^ 16 * 2 ^ 16 + 2 ^ 16) = va + n := by omega
  unfold State.reserve
  dsimp only
  rw [if_neg (by omega), hleaf]
  dsimp only
  rw [hr, hms, lostAt_none s _ hd, beq_false_of_ne hcp, hsz, pageBits, hend, hlines, reserve_past _ _ _ _ (by omega)]
  rfl

theorem execRes_line (s : State) (a b : Reg) (e : W64) (hn : 0 < (s.cur.rg b).toNat) (hlo : 2 ^ 32 ≤ (s.cur.rg a).toNat)
    (hhi : (s.cur.rg a).toNat + (s.cur.rg b).toNat ≤ 2 ^ 57)
    (hline : (s.cur.rg a).toNat / 128 = ((s.cur.rg a).toNat + (s.cur.rg b).toNat - 1) / 128)
    (hleaf : s.leafFor s.turn.clusterId (s.bindOf s.turn.ctxId).asid (s.bindOf s.turn.ctxId).gen (s.cur.rg a).toNat = .leaf e)
    (hr : pteR e = true) (hms : pteMs e = false) (hcp : pteCp e ≠ 2) (hsz : pteSz e = 0) (hal : pteAddr e % 2 ^ 16 = 0)
    (hd : s.dielost = 0) :
    exec (.res a b) s = .next (s.retain s.turn.die (s.bindOf s.turn.ctxId).gang.toNat (leafPa e (s.cur.rg a).toNat / 128)) := by
  have hin : reachesOutside (s.cur.rg a).toNat ((s.cur.rg a).toNat + (s.cur.rg b).toNat) = false := by
    simp [reachesOutside]
    omega
  rw [exec_res, execRes]
  rw [Nat.min_eq_left (by omega : (s.cur.rg b).toNat ≤ 16 * 2 ^ 20), hin, Bool.and_false, if_neg Bool.false_ne_true,
    Nat.max_eq_left (by omega), Nat.min_eq_left hhi]
  exact congrArg Host.Outcome.next (reserve_line s _ _ 299 e hn hline hleaf hr hms hcp hsz hal hd)

section
variable {s : State} {d : DieId} {line : Nat} {x : L2Line} (h : tget (s.die d).l2 line = some x)
include h

theorem makeRoom_present : s.makeRoom d line = some s := if_pos (.inr (by rw [h]; rfl))

theorem sliceCopy_present (hx : x.st ≠ .I) : s.sliceCopy d line = some x := by
  rw [State.sliceCopy, h]
  exact if_neg hx

/-- Where the slice retains half of its lines once the line is there, the copy of the line stays as it is. -/
theorem retain_full (hx : x.st ≠ .I) (gang : Nat) (hfull : 12288 ≤ retainedIn ((s.setLine d line x).die d) (line % 16)) :
    tget ((s.retain d gang line).die d).l2 line = some x := by
  have hr : s.retain d gang line = (s.setLine d line x).setLine d line ((s.setLine d line x).retained d gang line x) := by
    rw [State.retain, State.bring, makeRoom_present h]
    dsimp only
    rw [sliceCopy_present h hx]
  rw [hr, State.setLine, die_setDie_self, tget_tset_self, State.retained, if_neg (Nat.not_lt.2 hfull)]
end

/-! ## A slice whose lines are out of order -/

/-- A copy of a line that gang 1 has retained. -/
def retainedCopy : L2Line := ⟨.E, [], 0, [], 0, some 1⟩

/-- 12,287 retained lines of one slice. The keys do not rise: line 0x600 stands behind line 0x610. -/
def unordered : Table L2Line := List.replicate 12286 (0x610, retainedCopy) ++ [(0x600, retainedCopy)]

theorem tget_replicate {α : Type} (t : Table α) (k j n : Nat) (v : α) (h : j ≠ k) : tget (List.replicate n (j, v) ++ t) k = tget t k := by
  induction n with
  | zero => rfl
  | succ n ih => rw [List.replicate_succ, List.cons_append, tget, if_neg h, ih]

theorem tget_unordered : tget unordered 0x600 = some retainedCopy := tget_replicate _ _ _ _ _ (by decide)

/-- A write of line 0x600 puts a second entry of it in front. -/
theorem tset_unordered (x : L2Line) : tset unordered 0x600 x = (0x600, x) :: unordered := by
  rw [unordered, List.replicate_succ, List.cons_append, tset, if_pos (by decide)]

theorem retained_unordered :
    (unordered.filter fun x => x.1 % 16 == 0 && x.2.retained.isSome).length = 12287 := by
  rw [unordered, List.filter_append, List.filter_replicate_of_pos (by decide), List.length_append, List.length_replicate]
  rfl

/-- Gang 0 reserves a byte of line 0x600, which g10 addresses. -/
def reservesUnordered : State :=
  let s := State.reset.setCluster ⟨0, 0⟩ { Cluster.reset with tlb := [⟨0, 0, 0, 0x10000, 0x30003⟩] }
  let s1 := s.setDie 0 { Die.reset with l2 := unordered }
  s1.setStrand s1.turn ((s1.cur.wg 10 0x100000000 false).wg 11 1 false)

theorem reservesUnordered_l2 : (reservesUnordered.die 0).l2 = unordered := by
  rw [reservesUnordered, die_setStrand, die_setDie_self]

theorem reservesUnordered_copy : tget (reservesUnordered.die 0).l2 0x600 = some retainedCopy := by
  rw [reservesUnordered_l2, tget_unordered]

/-- As the line is brought in its second entry is counted too: 12,288, half of the slice. -/
theorem reservesUnordered_full : 12288 ≤ retainedIn ((reservesUnordered.setLine 0 0x600 retainedCopy).die 0) (0x600 % 16) := by
  rw [show 0x600 % 16 = 0 from rfl, State.setLine, die_setDie_self, retainedIn, reservesUnordered_l2, tset_unordered,
    List.filter_cons_of_pos (by decide), List.length_cons, retained_unordered]

/-- The line of g10's byte is the one that stands out of order. -/
theorem reservesUnordered_res : exec (.res 10 11) reservesUnordered = .next (reservesUnordered.retain 0 0 0x600) :=
  execRes_line reservesUnordered 10 11 0x30003 (by decide +kernel) (by decide +kernel) (by decide +kernel) (by decide +kernel)
    (leafFor_near _ _ _ _ _ _ (by decide +kernel)) (by decide) (by decide) (by decide) (by decide) (by decide) rfl

/-- Refutes O23: its claim that a line which the die holds is retained for the gang counts the slice's retained lines before the line is
brought in, the model after. The two differ where the table of the slice is out of order, which no hypothesis excludes: of 12,287 retained
lines the one asked for is counted twice, the slice is full, and the line stays with the gang that had it. -/
theorem not_hintsAndRanges : ¬ Obligations.HintsAndRanges := by
  unfold Obligations.HintsAndRanges
  intro ⟨_, reservations, _⟩
  obtain ⟨-, line⟩ := reservations reservesUnordered 10 11
  obtain ⟨-, retains⟩ := line 0x30003 (by decide +kernel) (by decide +kernel) (by decide +kernel) (by decide +kernel)
    (leafFor_near _ _ _ _ _ _ (by decide +kernel)) (by decide) (by decide) (by decide) (by decide) (by decide) (by decide +kernel) rfl
  have hfew : retainedIn (reservesUnordered.die 0) 0 < 12288 := by
    rw [retainedIn, reservesUnordered_l2, retained_unordered]
    decide
  obtain ⟨s', hnext, hretained⟩ := retains retainedCopy (makeRoom_present reservesUnordered_copy)
    (sliceCopy_present reservesUnordered_copy (by decide)) hfew
  obtain rfl : reservesUnordered.retain 0 0 0x600 = s' := Host.Outcome.next.inj (reservesUnordered_res.symm.trans hnext)
  have hkept := retain_full reservesUnordered_copy (by decide) 0 reservesUnordered_full
  have hsame : some retainedCopy = some { retainedCopy with retained := some 0 } := hkept.symm.trans hretained
  exact absurd hsame (by decide)

end Sys2Proof.Proofs

namespace Sys2Proof.Proofs
open Sys2Proof Sys2Proof.Machine Sys2Proof.Laws

/-! # Speculative regions -/

/-! ## What the syllables do in a region and outside -/

theorem inRegion_of_none {s : State} (h : s.cur.region = none) : s.inRegion = false := by
  rw [State.inRegion, h, Option.isSome_none]

theorem inRegion_of_some {s : State} {r : Region} (h : s.cur.region = some r) : s.inRegion = true := Option.isSome_of_eq_some h

/-- The region that a `ckpt` of the bundle that issues opens (06 R110, R111). -/
def opened (s : State) (i : BitVec 18) : Region :=
  { snap := s.cur.snapshot, recovery := BitVec.ofInt 64 (s.iss.addr.toNat + 4 * i.toInt), bundle := s.iss.addr, step := s.cur.step
    guards := [], held := [] }

theorem execCkpt_nested (s : State) (i : BitVec 18) (h : s.cur.region ≠ none) : RollsBack (.ckpt i) s 4 := by
  obtain ⟨r, hr⟩ := Option.ne_none_iff_exists'.1 h
  rw [RollsBack, exec_ckpt, execCkpt, inRegion_of_some hr]
  rfl

theorem execCkpt_opens (s : State) (i : BitVec 18) (h : s.cur.region = none) :
    exec (.ckpt i) s =
      let s1 := s.setCur { s.cur with region := some (opened s i) }
      if (s.bindOf s.turn.ctxId).spec then .next s1 else .next (s1.rollbackFor 4) := by
  rw [exec_ckpt, execCkpt, inRegion_of_none h, target_eq]
  rfl

/-- Outside a region the other syllables do nothing (06 R117). -/
theorem regionSyllable_outside (s : State) (a b : Reg) (h : s.cur.region = none) :
    ∀ i ∈ [Instr.commit, .guard a b, .assert a, .abort], exec i s = .next s := by
  have hout := inRegion_of_none h
  intro i hi
  obtain rfl | rfl | rfl | rfl : i = .commit ∨ i = .guard a b ∨ i = .assert a ∨ i = .abort := by simpa using hi
  · rw [exec_commit, execCommit, hout]; rfl
  · rw [exec_guard, execGuard, h]
  · rw [exec_assert, execAssert, hout]; rfl
  · rw [exec_abort, execAbort, hout]; rfl

section
variable {s : State} {r : Region} (h : s.cur.region = some r)
include h

theorem execCommit_inside : exec .commit s = .next (s.gathering { s.iss with commits := true }) := by
  rw [exec_commit, execCommit, inRegion_of_some h]
  rfl

theorem execAbort_inside : RollsBack .abort s 3 := by
  rw [RollsBack, exec_abort, execAbort, inRegion_of_some h]
  rfl

theorem execAssert_inside (a : Reg) :
    (s.cur.rg a = 0 → RollsBack (.assert a) s 2) ∧ (s.cur.rg a ≠ 0 → exec (.assert a) s = .next s) := by
  rw [RollsBack, exec_assert, execAssert, inRegion_of_some h, Bool.true_and]
  exact ⟨fun hzero => if_pos (beq_iff_eq.2 hzero), fun hset => if_neg fun hzero => hset (beq_iff_eq.1 hzero)⟩

/-- `guard` by the length of its range, then by the room that the table and the bundle leave it (06 R114). -/
theorem execGuard_inside (a b : Reg) :
    (s.cur.rg b = 0 → exec (.guard a b) s = .next s) ∧
    (s.cur.rg b ≠ 0 → 16 ≤ r.guards.length + s.iss.guards.length → RollsBack (.guard a b) s 5) ∧
    (s.cur.rg b ≠ 0 → r.guards.length + s.iss.guards.length < 16 →
      exec (.guard a b) s = .next (s.gathering { s.iss with
        guards := s.iss.guards ++ [((s.cur.rg a).toNat, min ((s.cur.rg a).toNat + (s.cur.rg b).toNat) (2 ^ 64))] })) := by
  rw [RollsBack, exec_guard, execGuard, h]
  dsimp only
  refine ⟨fun hempty => if_pos hempty, fun hlen hfull => ?_, fun hlen hroom => ?_⟩
  · rw [if_neg hlen, if_pos hfull]; rfl
  · rw [if_neg hlen, if_neg (Nat.not_le.2 hroom)]; rfl
end

/-- Settles O17: `ckpt` by whether a region is open and by SPEC; the others first outside a region, then in one. -/
theorem regionsOpenAndClose : Obligations.RegionsOpenAndClose := by
  unfold Obligations.RegionsOpenAndClose
  refine ⟨fun s i => ⟨execCkpt_nested s i, fun hnone => ?_⟩, fun s a b => ⟨regionSyllable_outside s a b, fun r hr => ?_⟩⟩
  · rw [execCkpt_opens s i hnone]
    exact ⟨fun hspec => if_pos hspec, fun hspec => if_neg (by rw [hspec]; decide)⟩
  · obtain ⟨hzero, hset⟩ := execAssert_inside hr a
    exact ⟨execCommit_inside hr, execAbort_inside hr, hzero, hset, execGuard_inside hr a b⟩

end Sys2Proof.Proofs

namespace Sys2Proof.Proofs
open Sys2Proof Sys2Proof.Machine Sys2Proof.Laws

/-! # Rollback -/

/-! ## The strand that rolls back (06 R124) -/

/-- The strand after its rollback: the bundle counts as a step, except under FREEZE. -/
def rolledBack (x : Strand) (r : Region) (cause : Nat) (bundle : W64) : Strand :=
  { x.restored r cause bundle (if cause ≤ 6 then r.recovery else r.bundle) with step := if cause = 8 then x.step else x.step + 1 }

/-- With every result of the strand issued in the region none is left. -/
theorem rolledBack_inflight (x : Strand) (r : Region) (cause : Nat) (bundle : W64)
    (h : ∀ e ∈ x.inflight, stepBefore e.issued r.step = false) : (rolledBack x r cause bundle).inflight = [] :=
  List.filter_eq_nil_iff.2 fun e he => by rw [h e he]; decide

/-! ## The other copy of a lockstep pair (22 R362) -/

theorem rollbackCopy_unpaired (s : State) (t : StrandId) (cause : Nat) (bundle next : W64) (hl : (s.bindOf t.ctxId).lock = false) :
    s.rollbackCopy t cause bundle next = s := by
  rw [State.rollbackCopy, hl]

/-- A copy that has opened the region goes back to its own snapshot of it. -/
theorem rollbackCopy_mate (s : State) (t : StrandId) (cause : Nat) (bundle next : W64) (q : Region) (hl : (s.bindOf t.ctxId).lock = true)
    (hq : (s.strand (s.mateStrand t)).region = some q) :
    (s.rollbackCopy t cause bundle next).strand (s.mateStrand t) = (s.strand (s.mateStrand t)).restored q cause bundle next := by
  simp only [State.rollbackCopy, hl, hq, strand_setStrand_self]

/-! ## The rollback of a strand and its copy -/

section
variable (s : State) (t : StrandId) (r : Region) (cause : Nat) (bundle : W64) (hr : (s.strand t).region = some r)
  (hin : ∀ e ∈ (s.strand t).inflight, stepBefore e.issued r.step = false)
include hr hin

/-- A rollback is that of the strand, after which nothing lands, and then that of its copy. -/
theorem rollback_eq : s.rollback t cause bundle =
    (s.setStrand t (rolledBack (s.strand t) r cause bundle)).rollbackCopy t cause bundle (if cause ≤ 6 then r.recovery else r.bundle) := by
  by_cases hc : cause = 8
  · subst hc
    exact rollback_freeze s t bundle r hr
  · have hnone := rolledBack_inflight (s.strand t) r cause bundle hin
    have hstep : { (s.strand t).restored r cause bundle (if cause ≤ 6 then r.recovery else r.bundle) with step := (s.strand t).step + 1 } =
        rolledBack (s.strand t) r cause bundle := by rw [rolledBack, if_neg hc]
    rw [rollback_some s t cause bundle r hr hc, hstep, landDue_nil _ _ (by rwa [strand_setStrand_self]), strand_setStrand_self, ← hnone]
    exact congrArg (fun m => ({ s with strands := m } : State).rollbackCopy t cause bundle _) (tset_tset _ _ _ _)

theorem rollback_strand : (s.rollback t cause bundle).strand t = rolledBack (s.strand t) r cause bundle := by
  rw [rollback_eq s t r cause bundle hr hin, rollbackCopy_other _ _ _ _ _ _ (mateStrand_ne _ t).symm, strand_setStrand_self]

/-- Without lockstep no other strand changes. -/
theorem rollback_alone (hl : (s.bindOf t.ctxId).lock = false) (u : StrandId) (hu : u.key ≠ t.key) :
    (s.rollback t cause bundle).strand u = s.strand u := by
  rw [rollback_eq s t r cause bundle hr hin, rollbackCopy_unpaired _ _ _ _ _ (by rwa [bindOf_setStrand])]
  exact strand_setStrand_other _ _ _ _ hu

/-- A copy that has opened the region goes back to its own snapshot of it, and to the place of the strand. -/
theorem rollback_mate (hl : (s.bindOf t.ctxId).lock = true) (q : Region) (hq : (s.strand (s.mateStrand t)).region = some q) :
    (s.rollback t cause bundle).strand (s.mateStrand t) =
      (s.strand (s.mateStrand t)).restored q cause bundle (if cause ≤ 6 then r.recovery else r.bundle) := by
  have hmate : (s.setStrand t (rolledBack (s.strand t) r cause bundle)).mateStrand t = s.mateStrand t := mateStrand_congr _ _ _ rfl
  have hother := strand_setStrand_other s t _ (rolledBack (s.strand t) r cause bundle) (mateStrand_ne s t)
  have hcopy := rollbackCopy_mate (s.setStrand t (rolledBack (s.strand t) r cause bundle)) t cause bundle
    (if cause ≤ 6 then r.recovery else r.bundle) q (by rwa [bindOf_setStrand]) (by rwa [hmate, hother])
  rwa [hmate, hother, ← rollback_eq s t r cause bundle hr hin] at hcopy
end

/-- Settles O18: the strand by its restored form, the other strands by lockstep: without it none changes, with it the copy alone. -/
theorem rollbackRestores : Obligations.RollbackRestores := by
  unfold Obligations.RollbackRestores
  intro s t r cause bundle hr _ _ hin x
  have hx : x = rolledBack (s.strand t) r cause bundle := rollback_strand s t r cause bundle hr hin
  clear_value x
  subst hx
  refine ⟨rfl, rfl, rfl, rfl, rfl, rfl, rfl, rfl, rfl, rfl, rolledBack_inflight _ r cause bundle hin, rfl, rfl, rfl, rfl, rfl, rfl, rfl, rfl,
    rollback_mem s t cause bundle, rollback_writes s t cause bundle, rollback_alone s t r cause bundle hr hin,
    fun hl => ⟨fun u hu hm => rollback_other s t u cause bundle hu hm, fun q hq => ?_⟩⟩
  rw [rollback_mate s t r cause bundle hr hin hl q hq]
  exact ⟨rfl, rfl, rfl, rfl, rfl, rfl, rfl⟩

end Sys2Proof.Proofs

namespace Sys2Proof.Proofs
open Sys2Proof Sys2Proof.Machine Sys2Proof.Laws

/-! # A line of text of a frame that is mapped in two ways -/

/-! ## A line in the instruction buffer (07 R139) -/

/-- A buffer with room takes the line, its bytes as `frameByte` reads them. -/
theorem setText_room (s : State) (l : ClusterId) (line : Nat) (h : (s.cluster l).ibuf.length < textLines) :
    s.setText l line = s.setCluster l { s.cluster l with
      ibuf := tset (s.cluster l).ibuf line ((List.range 128).map fun i => s.frameByte (128 * line + i)) } := by
  rw [State.setText, if_pos (.inl h)]

/-- Two fillings of one line that give the same state agree in its first byte. -/
theorem setCluster_ibuf_inj (s : State) (l : ClusterId) (line : Nat) (f g : Nat → Byte)
    (h : s.setCluster l { s.cluster l with ibuf := tset (s.cluster l).ibuf line ((List.range 128).map f) } =
      s.setCluster l { s.cluster l with ibuf := tset (s.cluster l).ibuf line ((List.range 128).map g) }) : f 0 = g 0 := by
  have hline := congrArg (fun u : State => ((tget (u.cluster l).ibuf line).getD []).getD 0 0) h
  simpa only [cluster_setCluster_self, tget_tset_self, Option.getD_some, List.getD_eq_getElem?_getD, List.getElem?_map,
    List.getElem?_range (show 0 < 128 by decide), Option.map_some] using hline

/-! ## The frame (21 R339) -/

/-- A byte at 0x20000, and the tables of address space 0, in which the first two pages of 64 KiB have its frame: one is row-local, the other
is not. -/
def mappedTwice (b : Byte) : State := { State.reset with
  asids := [(0, ⟨0x10000, 0, true, []⟩)]
  mem := memWrite ([(0x10000, 0x11301#64), (0x11000, 0x12301), (0x12000, 0x13301), (0x13000, 0x14301), (0x14000, 0x20037), (0x14008, 0x20007)].foldl
    (fun m x => memSetWord m x.1 x.2) []) 0x20000 b }

theorem mappedTwice_mixed : (mappedTwice 0).mixed 0x20000 = true ∧ (mappedTwice 1).mixed 0x20000 = true := by decide +kernel

theorem mappedTwice_deviceByte : (mappedTwice 0).deviceByte 0x20000 = 0 ∧ (mappedTwice 1).deviceByte 0x20000 = 1 := by decide +kernel

theorem mappedTwice_room (b : Byte) : ((mappedTwice b).cluster ⟨0, 0⟩).ibuf.length < textLines :=
  show 0 < textLines by decide

/-- What a read of the frame finds is the free value of R339, whatever the byte in memory. -/
theorem mappedTwice_frameByte (b : Byte) (h : (mappedTwice b).mixed 0x20000 = true) :
    (mappedTwice b).frameByte 0x20000 = Config.mixedByte 0 0x20000 := if_pos h

/-- Refutes O33: an instruction-buffer line is filled with what a read at device scope finds, and of a frame that is mapped both row-local
and otherwise that is the free value of 21 R339 (log 24), not the byte of device memory. Two states that differ in the byte alone would
both have that free value as their byte. -/
theorem not_frontEndFills : ¬ Obligations.FrontEndFills := by
  unfold Obligations.FrontEndFills
  intro ⟨_, _, fills, _⟩
  have free (b : Byte) (hm : (mappedTwice b).mixed 0x20000 = true) : Config.mixedByte 0 0x20000 = (mappedTwice b).deviceByte 0x20000 := by
    obtain ⟨-, filled⟩ := fills (mappedTwice b) ⟨0, 0⟩ 0x400
    have hroom := mappedTwice_room b
    have hbyte : (mappedTwice b).frameByte 0x20000 = (mappedTwice b).deviceByte 0x20000 :=
      setCluster_ibuf_inj _ _ _ _ _ ((setText_room _ _ _ hroom).symm.trans (filled hroom))
    rwa [mappedTwice_frameByte b hm] at hbyte
  obtain ⟨hmixed0, hmixed1⟩ := mappedTwice_mixed
  obtain ⟨hbyte0, hbyte1⟩ := mappedTwice_deviceByte
  have hsame : (0 : Byte) = 1 := by rw [← hbyte0, ← hbyte1, ← free 0 hmixed0, ← free 1 hmixed1]
  exact absurd hsame (by decide)

end Sys2Proof.Proofs

namespace Sys2Proof.Proofs
open Sys2Proof Sys2Proof.Machine Sys2Proof.Laws

/-! # Changes of several strands at once -/

/-! ## One change of every strand of a list -/

/-- Each strand of the list is changed once, any other not at all. -/
theorem strand_foldl_setStrand (f : StrandId → Strand → Strand) (ts : List StrandId) (hts : ts.Nodup) (s : State) (u : StrandId) :
    (ts.foldl (fun s t => s.setStrand t (f t (s.strand t))) s).strand u = if u ∈ ts then f u (s.strand u) else s.strand u := by
  induction ts generalizing s with
  | nil => rfl
  | cons t r ih =>
    obtain ⟨htr, hr⟩ := List.nodup_cons.1 hts
    rw [List.foldl_cons, ih hr]
    by_cases hut : u = t
    · subst hut
      rw [if_neg htr, if_pos List.mem_cons_self, strand_setStrand_self]
    · rw [strand_setStrand_other _ _ _ _ fun h => hut (strand_key_inj u t h)]
      simp only [List.mem_cons, hut, false_or]

theorem strands_nodup (c : CtxId) : c.strands.Nodup := by
  simp [CtxId.strands, CtxId.strand]

/-! ## One change of every entry of the table -/

/-- Entries of a table changed under their keys. -/
theorem tget_map {α : Type} (g : Nat × α → Nat × α) (hg : ∀ x, (g x).1 = x.1) (m : Table α) (k : Nat) :
    tget (m.map g) k = (tget m k).map fun v => (g (k, v)).2 := by
  induction m with
  | nil => rfl
  | cons x r ih =>
    obtain ⟨j, v⟩ := x
    rw [List.map_cons, tget, hg, tget]
    by_cases h : j = k
    · subst h
      rw [if_pos rfl, if_pos rfl, Option.map_some]
    · rw [if_neg h, if_neg h, ih]

/-- A change that leaves a strand without an entry as it is changes each strand alike. -/
theorem strand_map (s : State) (g : Nat × Strand → Nat × Strand) (hg : ∀ x, (g x).1 = x.1) (t : StrandId)
    (hr : (g (t.key, Strand.reset)).2 = Strand.reset) :
    ({ s with strands := s.strands.map g } : State).strand t = (g (t.key, s.strand t)).2 := by
  rw [State.strand, tget_map g hg, State.strand]
  cases tget s.strands t.key with
  | none => exact hr.symm
  | some v => rfl

end Sys2Proof.Proofs

namespace Sys2Proof.Proofs
open Sys2Proof Sys2Proof.Machine Sys2Proof.Laws

/-! # Waiting bundles and the contexts that they hold -/

/-! ## Bundles that become waiting bundles (15 R266, 18 R311) -/

theorem tagWaitTimeout_waits (s : State) (t : StrandId) (w : TagWord) (want : Bool) (hh : (s.strand t).hold = some (.tag w want))
    (hw : s.tagOf w ≠ want) (hl : s.heldLong t = true) :
    exec (.tagWaitTimeout t) s = .next (s.setStrand t { s.strand t with waited := true }) := by
  rw [exec_tagWaitTimeout, execTagWaitTimeout, hh]
  simp [hw, hl]

theorem waitHoldTimeout_waits (s : State) (t : StrandId) (h : Hold) (hh : (s.strand t).hold = some h)
    (hkind : (∃ a all, h = .join a all) ∨ (∃ q, h = .cpWait q) ∨ (∃ j, h = .barrier j) ∨ ∃ j, h = .arrive j) (hl : s.heldLong t = true) :
    exec (.waitHoldTimeout t) s = .next (s.setStrand t { s.strand t with waited := true }) := by
  rw [exec_waitHoldTimeout, execWaitHoldTimeout, hh, hl]
  obtain ⟨a, all, rfl⟩ | ⟨q, rfl⟩ | ⟨j, rfl⟩ | ⟨j, rfl⟩ := hkind <;> rfl

/-- The bundles that wait on the word are presented again, and no other. -/
theorem tagChangeWake_strands (s : State) (w : TagWord) : ∃ s', exec (.tagChangeWake w) s = .next s' ∧
    (∀ t, s'.strand t = if ∃ want, (s.strand t).hold = some (.tag w want) then { s.strand t with waited := false } else s.strand t) ∧
    s'.mem = s.mem ∧ s'.ctxs = s.ctxs := by
  refine ⟨_, exec_tagChangeWake w s, fun t => ?_, rfl, rfl⟩
  rw [strand_map]
  case hg =>
    intro x
    split
    · split <;> rfl
    · rfl
  case hr => rfl
  dsimp only
  split
  next v b hv =>
    by_cases hvw : v = w
    · rw [if_pos hvw, if_pos ⟨b, hvw ▸ hv⟩]
    · rw [if_neg hvw, if_neg]
      rintro ⟨want, hw⟩
      rw [hv] at hw
      cases hw
      exact hvw rfl
  next hno => rw [if_neg fun ⟨want, hw⟩ => hno w want hw]

theorem tagChangeWake_presents (s : State) (w : TagWord) : ∃ s', exec (.tagChangeWake w) s = .next s' ∧
    (∀ t want, (s.strand t).hold = some (.tag w want) → s'.strand t = { s.strand t with waited := false }) ∧
    (∀ t, (∀ want, (s.strand t).hold ≠ some (.tag w want)) → s'.strand t = s.strand t) ∧ s'.mem = s.mem ∧ s'.ctxs = s.ctxs := by
  obtain ⟨s', hexec, hstrand, hmem, hctxs⟩ := tagChangeWake_strands s w
  refine ⟨s', hexec, fun t want hh => ?_, fun t hh => ?_, hmem, hctxs⟩
  · rw [hstrand, if_pos ⟨want, hh⟩]
  · rw [hstrand, if_neg fun ⟨want, hw⟩ => hh want hw]

/-! ## Contexts made ready (18 R311) -/

/-- What is held, stalled, kept by an `ainit` or by lockstep, or dry is not clear to issue. -/
theorem clearToIssue_false (s : State) (t : StrandId) (h : s.holdOver t = false ∨ s.stalled t = true ∨ s.ainitWaits t = true ∨
    (s.strand t).confirming = true ∨ s.dry t = true) : s.clearToIssue t = false := by
  unfold State.clearToIssue
  obtain h | h | h | h | h := h <;> simp [h]

theorem freed_false (s : State) (c : CtxId) (t : StrandId) (h : s.clearToIssue t = false ∨ (s.strand t).exited = true) :
    s.freed c t = false := by
  unfold State.freed
  obtain h | h := h <;> simp [h]

/-- No strand of the context can be presented again: nothing changes. -/
theorem contextWake_idle (s : State) (c : CtxId) (h : ∀ t ∈ c.strands, s.clearToIssue t = false ∨ (s.strand t).exited = true) :
    exec (.contextWake c) s = .next s := by
  have hnone : (c.strands.filter fun t => s.freed c t && !((s.ctx c).run == .waiting && s.wakesLater t)) = [] :=
    List.filter_eq_nil_iff.2 fun t ht => by simp [freed_false s c t (h t ht)]
  rw [exec_contextWake, execContextWake, hnone]
  rfl

/-- One strand of a waiting context can be presented again: it is, and the context is ready. -/
theorem contextWake_one (s : State) (c : CtxId) (t : StrandId)
    (h : (c.strands.filter fun t => s.freed c t && !((s.ctx c).run == .waiting && s.wakesLater t)) = [t]) (hr : (s.ctx c).run = .waiting) :
    exec (.contextWake c) s = .next ((s.setStrand t { s.strand t with waited := false }).setCtx c { s.ctx c with run := .ready, ready := s.now }) := by
  rw [exec_contextWake, execContextWake, h]
  exact if_pos hr

/-- The only strand of a context that satisfies a test. -/
theorem strands_filter_eq (c : CtxId) (n : Fin 4) (p : StrandId → Bool) (hn : p (c.strand n) = true)
    (h : ∀ u ∈ c.strands, u ≠ c.strand n → p u = false) : c.strands.filter p = [c.strand n] := by
  have hmem : c.strand n ∈ c.strands := (mem_strands c _).2 ⟨n, rfl⟩
  have hp : ∀ u ∈ c.strands, p u = decide (u = c.strand n) := fun u hu => by
    by_cases hne : u = c.strand n
    · rw [hne, hn, decide_eq_true rfl]
    · rw [h u hu hne, decide_eq_false hne]
  rw [List.filter_congr hp, List.filter_eq, List.count_eq_one_of_mem (strands_nodup c) hmem, List.replicate_one]

theorem contextWake_alone (s : State) (c : CtxId) (n : Fin 4) : let t := c.strand n
    (∀ u ∈ c.strands, u ≠ t → (s.strand u).exited = true) → (s.strand t).exited = false → s.clearToIssue t = true → (s.strand t).waited = true →
      (s.strand t).exiting = false → (s.strand t).trapping = false → (s.strand t).range = none → s.wakesLater t = false →
      (s.ctx c).run = .waiting → ∃ s', exec (.contextWake c) s = .next s' ∧ (s'.ctx c).run = .ready ∧ (s'.ctx c).ready = s.now ∧
        s'.strand t = { s.strand t with waited := false } ∧ s'.mem = s.mem := by
  intro t hothers hex hclear hwaited hexiting htrap hrange hlater hrun
  have hfreed : s.freed c t = true := by simp [State.freed, *]
  refine ⟨_, contextWake_one s c t (strands_filter_eq c n _ ?_ fun u hu hne => ?_) hrun, ?_, ?_, ?_, rfl⟩
  · rw [hfreed, hlater, Bool.and_false]; rfl
  · rw [freed_false s c u (.inr (hothers u hu hne)), Bool.false_and]
  · rw [ctx_setCtx_self]
  · rw [ctx_setCtx_self]
  · rw [strand_setCtx, strand_setStrand_self]

end Sys2Proof.Proofs

namespace Sys2Proof.Machine

/-- What the completion of a group at an address leaves a strand as latecomer: the group's own are late to it no more, the others are (07
R144). -/
def Strand.lateTo (t : Strand) (a : W64) (inside : Bool) : Strand :=
  { t with late := if inside then t.late.filter (fun x => x != a) else if t.exited || t.late.contains a then t.late else t.late ++ [a] }

/-- A strand whose group completes: its next bundle is the join's; it joins the team, which has issued `most` bundles, or stays as it is
(07 R143). -/
def Strand.joined (t : Strand) (a : W64) (team : Bool) (most : Nat) : Strand :=
  { t with
    hold := none, waited := false, joinGo := true
    attached := if team then true else t.attached
    issuedTeam := if team then most else t.issuedTeam
    queue := [⟨a, [], []⟩] }

end Sys2Proof.Machine

namespace Sys2Proof.Proofs
open Sys2Proof Sys2Proof.Machine Sys2Proof.Laws

/-! # A join group completes (07 R143) -/

theorem mem_joinGroup (s : State) (c : CtxId) (a : W64) (t : StrandId) :
    t ∈ s.joinGroup c a ↔ t ∈ c.strands ∧ ∃ all, (s.strand t).hold = some (.join a all) := by
  rw [State.joinGroup, List.mem_filter]
  refine and_congr_right fun _ => ?_
  split
  next b all hh => simp [hh]
  next hno => exact ⟨fun h => absurd h Bool.false_ne_true, fun ⟨all, hall⟩ => absurd hall (hno a all)⟩

theorem joinGroup_nodup (s : State) (c : CtxId) (a : W64) : (s.joinGroup c a).Nodup := (strands_nodup c).filter _

/-- The completion of a group is a change of each strand of the context, one of each strand of the group, and one of the context. -/
theorem completeJoin_eq (s : State) (c : CtxId) (a : W64) : ∃ team most x, s.completeJoin c a =
    ((s.joinGroup c a).foldl (fun s t => s.setStrand t ((s.strand t).joined a team most))
      (c.strands.foldl (fun u t => u.setStrand t ((u.strand t).lateTo a ((s.joinGroup c a).contains t))) s)).setCtx c x := ⟨_, _, _, rfl⟩

theorem completeJoin_strand (s : State) (c : CtxId) (a : W64) : ∃ team most, ∀ t ∈ c.strands, (s.completeJoin c a).strand t =
    if t ∈ s.joinGroup c a then ((s.strand t).lateTo a true).joined a team most else (s.strand t).lateTo a false := by
  obtain ⟨team, most, x, heq⟩ := completeJoin_eq s c a
  refine ⟨team, most, fun t ht => ?_⟩
  rw [heq, strand_setCtx, strand_foldl_setStrand (fun _ st => st.joined a team most) _ (joinGroup_nodup s c a),
    strand_foldl_setStrand (fun t st => st.lateTo a ((s.joinGroup c a).contains t)) _ (strands_nodup c), if_pos ht]
  by_cases hg : t ∈ s.joinGroup c a
  · rw [if_pos hg, if_pos hg, List.contains_iff_mem.2 hg]
  · rw [if_neg hg, if_neg hg, Bool.eq_false_iff.2 fun h => hg (List.contains_iff_mem.1 h)]

theorem joinBudgetExpiry_completes (s : State) (c : CtxId) (a : W64) (budget start : Nat) (late : Bool)
    (hj : (s.ctx c).joinAt a = some ⟨a, budget, some start, late⟩) (hb : budget ≤ s.cycles c.die (s.now - start))
    (hr : s.timerRuns c (s.joinGroup c a) late = true) : exec (.joinBudgetExpiry c a) s = .next (s.completeJoin c a) := by
  rw [exec_joinBudgetExpiry, execJoinBudgetExpiry, hj]
  exact if_pos ⟨hb, hr⟩

/-- The group goes on together; the other strands of the context stay as they are but for what they come late to. -/
theorem joinBudgetExpiry_strands (s : State) (c : CtxId) (a : W64) (budget start : Nat) (late : Bool)
    (hj : (s.ctx c).joinAt a = some ⟨a, budget, some start, late⟩) (hb : budget ≤ s.cycles c.die (s.now - start))
    (hr : s.timerRuns c (s.joinGroup c a) late = true) :
    ∃ s', exec (.joinBudgetExpiry c a) s = .next s' ∧ (∀ t ∈ c.strands, ∀ all, (s.strand t).hold = some (.join a all) →
      (s'.strand t).hold = none ∧ (s'.strand t).joinGo = true ∧ (s'.strand t).queue = [⟨a, [], []⟩] ∧
      (s'.strand t).g = (s.strand t).g ∧ (s'.strand t).step = (s.strand t).step) ∧
      (∀ t ∈ c.strands, (∀ all, (s.strand t).hold ≠ some (.join a all)) → s'.strand t = { s.strand t with late := (s'.strand t).late }) ∧
      s'.mem = s.mem := by
  obtain ⟨team, most, hstrand⟩ := completeJoin_strand s c a
  refine ⟨_, joinBudgetExpiry_completes s c a budget start late hj hb hr, fun t ht all hh => ?_, fun t ht hh => ?_, completeJoin_mem s c a⟩
  · rw [hstrand t ht, if_pos ((mem_joinGroup s c a t).2 ⟨ht, all, hh⟩)]
    exact ⟨rfl, rfl, rfl, rfl, rfl⟩
  · have hout : t ∉ s.joinGroup c a := fun hg =>
      have ⟨_, all, hall⟩ := (mem_joinGroup s c a t).1 hg
      hh all hall
    rw [hstrand t ht, if_neg hout]
    rfl

end Sys2Proof.Proofs

namespace Sys2Proof.Proofs
open Sys2Proof Sys2Proof.Machine Sys2Proof.Laws

/-! # The picker (18 R311 to R313) -/

/-! ## A context gets the front end -/

theorem select_ctx (s : State) (l : ClusterId) (n : Fin 8) : ((s.select l n).ctx (l.ctxId n)).run = .running := by
  rw [State.select, ctx_setCtx_self]

theorem select_running (s : State) (l : ClusterId) (n : Fin 8) : ((s.select l n).cluster l).running = some n := by
  rw [State.select, cluster_setCtx, cluster_setCluster_self]

theorem pickerSwitch_free (s : State) (l : ClusterId) (n : Fin 8) (hfree : (s.cluster l).running = none) (hn : s.pick l = some n) :
    exec (.pickerSwitch l) s = .next (s.select l n) := by
  rw [exec_pickerSwitch, execPickerSwitch, hfree, hn]

theorem pickerSwitch_yielded (s : State) (l : ClusterId) (r n : Fin 8) (hr : (s.cluster l).running = some r)
    (hrun : (s.ctx (l.ctxId r)).run = .running) (hy : (s.ctx (l.ctxId r)).yielded = true) (hn : s.pick l = some n) :
    exec (.pickerSwitch l) s =
      .next ((s.switchOut (l.ctxId r) { s.ctx (l.ctxId r) with run := .ready, yielded := false, ready := s.now }).select l n) := by
  rw [exec_pickerSwitch, execPickerSwitch, hr, hn]
  dsimp only
  rw [hrun, hy]
  rfl

/-! ## A context loses the front end -/

theorem switchOut_strand (s : State) (c : CtxId) (x : Context) (n : Fin 4) :
    (s.switchOut c x).strand (c.strand n) = (s.strand (c.strand n)).switchedOut := by
  rw [State.switchOut, strand_setCtx, strand_foldl_setStrand (fun _ => Strand.switchedOut) _ (strands_nodup c),
    if_pos ((mem_strands c _).2 ⟨n, rfl⟩)]

/-- What a strand's next bundle stalls on is noted as the bundle is discarded. -/
theorem switchedOut_stall (t : Strand) (b : Decoded) (r : List Decoded) (hq : t.queue = b :: r) (hw : b.words ≠ []) :
    t.switchedOut.stall = t.stallAges b := by
  rw [Strand.switchedOut, hq, List.head?_cons]
  exact if_neg fun h => hw (List.isEmpty_iff.1 h)

theorem switchOut_parts (s : State) (c : CtxId) (x : Context) (n : Fin 4) : let t := c.strand n
    (s.switchOut c x).ctx c = x ∧ (s.switchOut c x).mem = s.mem ∧
      (s.switchOut c x).strand t = { s.strand t with queue := (s.strand t).emptied, stall := ((s.switchOut c x).strand t).stall } ∧
      (∀ b r, (s.strand t).queue = b :: r → b.words ≠ [] → ((s.switchOut c x).strand t).stall = (s.strand t).stallAges b) := by
  intro t
  rw [switchOut_strand s c x n]
  exact ⟨ctx_setCtx_self _ c x, switchOut_mem s c x, rfl, switchedOut_stall _⟩

/-! ## Which context is picked -/

/-- The context that is tried first among the ready ones of a priority (R312). -/
def pickAt (s : State) (l : ClusterId) (ep : Nat) : Option (Fin 8) :=
  (rotation ((s.cluster l).lastAt.getD ep none)).find? fun n => s.selectable (l.ctxId n) && (s.ctx (l.ctxId n)).ep == ep

theorem pick_eq (s : State) (l : ClusterId) : s.pick l = ([3, 2, 1, 0] : List Nat).findSome? (pickAt s l) := rfl

theorem mem_rotation (last : Option (Fin 8)) (m : Fin 8) : m ∈ rotation last := by
  cases last with
  | none => exact List.mem_finRange m
  | some n =>
    revert n m
    decide

theorem pickAt_some (s : State) (l : ClusterId) (ep : Nat) (n : Fin 8) (h : pickAt s l ep = some n) :
    s.selectable (l.ctxId n) = true ∧ (s.ctx (l.ctxId n)).ep = ep := by
  have hn := List.find?_some h
  rwa [Bool.and_eq_true, beq_iff_eq] at hn

theorem pickAt_none (s : State) (l : ClusterId) (ep : Nat) (h : pickAt s l ep = none) (m : Fin 8)
    (hm : s.selectable (l.ctxId m) = true) : (s.ctx (l.ctxId m)).ep ≠ ep := by
  intro hep
  have hno := List.find?_eq_none.1 h m (mem_rotation _ m)
  rw [hm, hep, beq_self_eq_true] at hno
  exact hno rfl

/-- The context picked is ready, and no ready one has a higher effective priority. -/
theorem pick_highest (s : State) (l : ClusterId) (n : Fin 8) (h : s.pick l = some n) : s.selectable (l.ctxId n) = true ∧
    ∀ m : Fin 8, s.selectable (l.ctxId m) = true → (s.ctx (l.ctxId m)).ep ≤ 3 → (s.ctx (l.ctxId m)).ep ≤ (s.ctx (l.ctxId n)).ep := by
  rw [pick_eq, List.findSome?_eq_some_iff] at h
  obtain ⟨higher, ep, lower, hlevels, hat, hnone⟩ := h
  obtain ⟨hsel, rfl⟩ := pickAt_some s l ep n hat
  refine ⟨hsel, fun m hm hle => ?_⟩
  have hmem : (s.ctx (l.ctxId m)).ep ∈ ([3, 2, 1, 0] : List Nat) := by
    interval_cases (s.ctx (l.ctxId m)).ep <;> decide
  have hfalling : (([3, 2, 1, 0] : List Nat)).Pairwise (· > ·) := by decide
  rw [hlevels] at hmem hfalling
  obtain ⟨-, hlower, -⟩ := List.pairwise_append.1 hfalling
  obtain hm1 | hm2 := List.mem_append.1 hmem
  · exact absurd rfl (pickAt_none s l _ (hnone _ hm1) m hm)
  · obtain hm3 | hm4 := List.mem_cons.1 hm2
    · exact hm3.le
    · exact (List.rel_of_pairwise_cons hlower hm4).le

theorem epAging_gains (s : State) (c : CtxId) (hs : s.selectable c = true) (hl : 4096 ≤ s.cycles c.die (s.now - (s.ctx c).ready)) :
    exec (.epAging c) s = .next (s.setCtx c { s.ctx c with ep := min 3 ((s.ctx c).ep + 1), ready := s.now }) := by
  rw [exec_epAging, execEpAging]
  exact if_pos (by rw [hs, decide_eq_true hl]; rfl)

end Sys2Proof.Proofs

namespace Sys2Proof.Machine

/-- Whether a meter's deferred activity still waits in a state (18 R314). -/
def State.stillWaits (s : State) (meter n : Nat) : Bool :=
  if meter < 4096 then s.bundleWaits n else if tagAccess ≤ n then s.bundleWaits (n - tagAccess) else s.accessWaits n

/-- What deferred activities use together, each with its amount. -/
def usedBy (xs : List (Nat × Nat)) : Nat := (xs.map fun x => x.2).sum

end Sys2Proof.Machine

namespace Sys2Proof.Proofs
open Sys2Proof Sys2Proof.Machine Sys2Proof.Laws

/-! # Budget meters (18 R314) -/

/-! ## An activity charged -/

section
variable (s : State) (d : DieId) (cls meter limit amount bit who : Nat)
  (hd : (s.die d).deferredOf meter = []) (ha : (s.die d).admittedOf meter = [])
include hd ha

theorem charge_admits (h : limit = 0 ∨ (s.die d).usedOf meter < limit) : ∃ s', s.charge d cls meter limit amount bit who = (true, s') ∧
    (s'.die d).usedOf meter = (s.die d).usedOf meter + amount ∧ (s'.die d).deferredOf meter = [] := by
  refine ⟨_, by rw [State.charge, ha, hd]; exact if_pos h, ?_, ?_⟩
  · rw [die_setDie_self, Die.usedOf, tget_tset_self, Option.getD_some]
  · rw [die_setDie_self]
    exact hd

theorem charge_defers (h0 : limit ≠ 0) (h : limit ≤ (s.die d).usedOf meter) : ∃ s', s.charge d cls meter limit amount bit who = (false, s') ∧
    (s'.die d).usedOf meter = (s.die d).usedOf meter ∧ (s'.die d).deferredOf meter = [(who, amount)] := by
  refine ⟨_, by rw [State.charge, ha, hd]; exact if_neg (not_or.2 ⟨h0, Nat.not_lt.2 h⟩), ?_, ?_⟩
  · rw [die_setDie_self]
    rfl
  · rw [die_setDie_self]
    exact congrArg (Option.getD · []) (tget_tset_self _ _ _)
end

/-! ## A meter in a new period -/

theorem usedBy_cons (x : Nat × Nat) (xs : List (Nat × Nat)) : usedBy (x :: xs) = x.2 + usedBy xs := rfl

/-- The first activities are admitted, each while less than the limit is used, as many as there are or until the limit is reached. -/
theorem admitFrom_take (limit used : Nat) (xs : List (Nat × Nat)) : ∃ k ≤ xs.length,
    admitFrom limit used xs = (used + usedBy (xs.take k), (xs.take k).map (·.1), xs.drop k) ∧
      (∀ j < k, limit = 0 ∨ used + usedBy (xs.take j) < limit) ∧ (k < xs.length → limit ≠ 0 ∧ limit ≤ used + usedBy (xs.take k)) := by
  induction xs generalizing used with
  | nil => exact ⟨0, Nat.le_refl 0, rfl, fun j hj => absurd hj (Nat.not_lt_zero j), fun h => absurd h (Nat.lt_irrefl 0)⟩
  | cons x r ih =>
    by_cases h : limit = 0 ∨ used < limit
    · obtain ⟨k, hk, heq, hbefore, hafter⟩ := ih (used + x.2)
      refine ⟨k + 1, Nat.succ_le_succ hk, ?_, fun j hj => ?_, fun hlt => ?_⟩
      · rw [admitFrom, if_pos h, heq, List.take_succ_cons, usedBy_cons, Nat.add_assoc]
        rfl
      · cases j with
        | zero => exact h
        | succ j =>
          rw [List.take_succ_cons, usedBy_cons, ← Nat.add_assoc]
          exact hbefore j (Nat.lt_of_succ_lt_succ hj)
      · rw [List.take_succ_cons, usedBy_cons, ← Nat.add_assoc]
        exact hafter (Nat.lt_of_succ_lt_succ hlt)
    · refine ⟨0, Nat.zero_le _, ?_, fun j hj => absurd hj (Nat.not_lt_zero j), fun _ => ?_⟩
      · rw [admitFrom, if_neg h]
        rfl
      · rw [not_or, Nat.not_lt] at h
        exact h

section
variable (x : Die) (waits : Nat → Bool) (m : Nat)

/-- What a meter admits of its deferred activities that still wait. -/
def renewal : Nat × List Nat × List (Nat × Nat) := admitFrom (x.meter m).2.1 0 ((x.deferredOf m).filter fun z => waits z.1)

theorem renew_used : (x.renew waits m).used = if (renewal x waits m).1 = 0 then x.used else tset x.used m (renewal x waits m).1 := by
  unfold Die.renew; dsimp only; split <;> rfl

theorem renew_deferred : (x.renew waits m).deferred = tset x.deferred m (renewal x waits m).2.2 := by
  unfold Die.renew; dsimp only; split <;> rfl

theorem renew_admitted : (x.renew waits m).admitted =
    tset x.admitted m ((renewal x waits m).2.1.foldl nsInsert ((x.admittedOf m).filter waits)) := by
  unfold Die.renew; dsimp only; split <;> rfl

theorem renew_usedOf (h : x.used = []) : (x.renew waits m).usedOf m = (renewal x waits m).1 := by
  rw [Die.usedOf, renew_used]
  split
  next h0 => rw [h, h0]; rfl
  next => rw [tget_tset_self, Option.getD_some]

theorem renew_deferredOf : (x.renew waits m).deferredOf m = (renewal x waits m).2.2 := by
  rw [Die.deferredOf, renew_deferred, tget_tset_self, Option.getD_some]

theorem mem_renew_admittedOf (n : Nat) (h : n ∈ (renewal x waits m).2.1) : n ∈ (x.renew waits m).admittedOf m := by
  rw [Die.admittedOf, renew_admitted, tget_tset_self, Option.getD_some, mem_foldl_nsInsert]
  exact .inr h
end

theorem mem_of_tget {α : Type} {t : Table α} {k : Nat} {v : α} (h : tget t k = some v) : (k, v) ∈ t := by
  induction t with
  | nil => cases h
  | cons x r ih =>
    obtain ⟨j, w⟩ := x
    rw [tget] at h
    split at h
    next hj => cases h; subst hj; exact List.mem_cons_self
    next => exact List.mem_cons_of_mem _ (ih h)

/-- A meter that has admitted something stands in the table of its die. -/
theorem mem_admitted (x : Die) (m n : Nat) (h : n ∈ x.admittedOf m) : (m, x.admittedOf m) ∈ x.admitted := by
  unfold Die.admittedOf at h ⊢
  cases hm : tget x.admitted m with
  | none => rw [hm] at h; cases h
  | some v => exact mem_of_tget hm

/-! ## The meters of a die in a new period -/

/-- A die whose meters have nothing charged in a new period. -/
def unchargedDie (s : State) (e : DieId) : Die := { s.die e with used := [], period := s.now / 4000 }

/-- Its meters after they have admitted what they defer. -/
def renewedDie (s : State) (e : DieId) : Die := ((s.die e).deferred.map (·.1)).foldl (fun x m => x.renew (s.stillWaits m) m) (unchargedDie s e)

theorem resetMeters_die (s : State) (e : DieId) : (s.resetMeters e).die e = renewedDie s e := die_setDie_self s e _

theorem resetMeters_die_other (s : State) (e d : DieId) (h : d ≠ e) : (s.resetMeters e).die d = s.die d := die_setDie_other s e d _ h

/-- A strand in a new period: one whose bundle a meter has admitted is held no more. -/
theorem resetMeters_strand (s : State) (e : DieId) (t : StrandId) : (s.resetMeters e).strand t =
    if (s.strand t).hold = some .budget ∧ (renewedDie s e).admitted.any (fun y =>
      y.2.contains (bundleKey t.key (s.strand t).pc + if y.1 < 4096 then 0 else tagAccess)) then
      { s.strand t with hold := none, waited := false } else s.strand t := by
  refine (strand_map (s.setDie e (renewedDie s e)) _ (fun x => ?_) t ?_).trans (apply_ite _ _ _ _)
  · dsimp only
    split <;> rfl
  · rfl

section
variable (s : State) (e : DieId)

theorem renewedDie_none (h : (s.die e).deferred = []) : (renewedDie s e).used = [] := by
  rw [renewedDie, h]
  rfl

theorem resetMeters_g (t : StrandId) : ((s.resetMeters e).strand t).g = (s.strand t).g := by
  rw [resetMeters_strand]
  split <;> rfl

/-- A bundle that a meter admits, or whose tag operation it admits, is held no more. -/
theorem resetMeters_releases (m : Nat) (t : StrandId) (hb : (s.strand t).hold = some .budget)
    (ha : (bundleKey t.key (s.strand t).pc + if m < 4096 then 0 else tagAccess) ∈ (renewedDie s e).admittedOf m) :
    ((s.resetMeters e).strand t).hold = none ∧ ((s.resetMeters e).strand t).waited = false := by
  rw [resetMeters_strand, if_pos]
  · exact ⟨rfl, rfl⟩
  · exact ⟨hb, List.any_eq_true.2 ⟨_, mem_admitted _ m _ ha, List.contains_iff_mem.2 ha⟩⟩

variable (m : Nat) (xs : List (Nat × Nat)) (h : (s.die e).deferred = [(m, xs)])
include h

theorem renewedDie_one : renewedDie s e = (unchargedDie s e).renew (s.stillWaits m) m := by
  rw [renewedDie, h]
  rfl

theorem renewal_one : renewal (unchargedDie s e) (s.stillWaits m) m =
    admitFrom ((s.die e).meter m).2.1 0 (xs.filter fun x => s.stillWaits m x.1) := by
  have hxs : (unchargedDie s e).deferredOf m = xs := by
    rw [Die.deferredOf, unchargedDie, h, tget, if_pos rfl, Option.getD_some]
  rw [renewal, hxs]
  rfl

/-- The one meter of a die that defers anything admits the first of what still waits, in the order of arrival. -/
theorem resetMeters_one : ∃ k ≤ (xs.filter fun x => s.stillWaits m x.1).length,
    let ws := xs.filter fun x => s.stillWaits m x.1
    let limit := ((s.die e).meter m).2.1
    ((s.resetMeters e).die e).usedOf m = usedBy (ws.take k) ∧ ((s.resetMeters e).die e).deferredOf m = ws.drop k ∧
      (∀ x ∈ ws.take k, x.1 ∈ ((s.resetMeters e).die e).admittedOf m) ∧ (∀ j < k, limit = 0 ∨ usedBy (ws.take j) < limit) ∧
      (k < ws.length → limit ≠ 0 ∧ limit ≤ usedBy (ws.take k)) ∧
      ∀ t : StrandId, (s.strand t).hold = some .budget →
        (∃ x ∈ ws.take k, x.1 = bundleKey t.key (s.strand t).pc + if m < 4096 then 0 else tagAccess) →
          ((s.resetMeters e).strand t).hold = none ∧ ((s.resetMeters e).strand t).waited = false := by
  obtain ⟨k, hk, htake, hbefore, hafter⟩ := admitFrom_take ((s.die e).meter m).2.1 0 (xs.filter fun x => s.stillWaits m x.1)
  simp only [Nat.zero_add] at htake hbefore hafter
  have hrenewal := (renewal_one s e m xs h).trans htake
  have hadmits : ∀ x ∈ (xs.filter fun x => s.stillWaits m x.1).take k, x.1 ∈ (renewedDie s e).admittedOf m := fun x hx => by
    rw [renewedDie_one s e m xs h]
    refine mem_renew_admittedOf _ _ _ _ ?_
    rw [hrenewal]
    exact List.mem_map_of_mem hx
  rw [resetMeters_die]
  refine ⟨k, hk, ?_, ?_, hadmits, hbefore, hafter, fun t hb ⟨x, hx, hkey⟩ => ?_⟩
  · rw [renewedDie_one s e m xs h, renew_usedOf _ _ _ rfl, hrenewal]
  · rw [renewedDie_one s e m xs h, renew_deferredOf, hrenewal]
  · exact resetMeters_releases s e m t hb (hkey ▸ hadmits x hx)
end

/-- The time at which the next period begins. -/
def atNextPeriod (s : State) : State := { s with now := (s.now / 4000 + 1) * 4000 }

/-- A new period begins at the next multiple of 4,000 ns, with the meters as `resetMeters` leaves them. -/
theorem budgetPeriod_renews (s : State) (e : DieId) : ∃ s', exec (.budgetPeriod e) s = .next s' ∧ s'.now = (s.now / 4000 + 1) * 4000 ∧
    s'.mem = s.mem ∧ (∀ d, d ≠ e → s'.die d = s.die d) ∧ (∀ t : StrandId, (s.strand t).g = (s'.strand t).g) ∧
    ((s.die e).deferred = [] → (s'.die e).used = []) ∧
    ∀ (m : Nat) (xs : List (Nat × Nat)), (s.die e).deferred = [(m, xs)] →
      let ws := xs.filter fun x => s.stillWaits m x.1
      let limit := ((s.die e).meter m).2.1
      ∃ k ≤ ws.length, (s'.die e).usedOf m = usedBy (ws.take k) ∧ (s'.die e).deferredOf m = ws.drop k ∧
        (∀ x ∈ ws.take k, x.1 ∈ (s'.die e).admittedOf m) ∧ (∀ j < k, limit = 0 ∨ usedBy (ws.take j) < limit) ∧
        (k < ws.length → limit ≠ 0 ∧ limit ≤ usedBy (ws.take k)) ∧
        ∀ t : StrandId, t.die = e → (s.strand t).hold = some .budget →
          (∃ x ∈ ws.take k, x.1 = bundleKey t.key (s.strand t).pc + if m < 4096 then 0 else tagAccess) →
            (s'.strand t).hold = none ∧ (s'.strand t).waited = false := by
  refine ⟨_, exec_budgetPeriod e s, rfl, rfl, resetMeters_die_other (atNextPeriod s) e, fun t => (resetMeters_g (atNextPeriod s) e t).symm,
    fun h => ?_, fun m xs h => ?_⟩
  · rw [resetMeters_die]
    exact renewedDie_none (atNextPeriod s) e h
  · obtain ⟨k, hk, hused, hdeferred, hadmitted, hbefore, hafter, hreleased⟩ := resetMeters_one (atNextPeriod s) e m xs h
    exact ⟨k, hk, hused, hdeferred, hadmitted, hbefore, hafter, fun t _ => hreleased t⟩

/-! ## The statement -/

/-- Settles O32: the events of waiting bundles and waiting contexts, of a join group at its budget, of the picker and of the budget meters,
each by its lemma. -/
theorem waitingJoinsAndPicker : Obligations.WaitingJoinsAndPicker := by
  unfold Obligations.WaitingJoinsAndPicker
  refine ⟨⟨tagWaitTimeout_waits, waitHoldTimeout_waits, tagChangeWake_presents, contextWake_idle, clearToIssue_false, contextWake_alone⟩,
    joinBudgetExpiry_strands, ⟨fun s l n hfree hn => ?_, pickerSwitch_yielded, switchOut_parts,
      fun s d cls meter limit amount bit who hd ha => ?_, pick_highest, epAging_gains, budgetPeriod_renews⟩⟩
  · exact ⟨pickerSwitch_free s l n hfree hn, select_ctx s l n, select_running s l n⟩
  · exact ⟨charge_admits s d cls meter limit amount bit who hd ha, charge_defers s d cls meter limit amount bit who hd ha⟩

end Sys2Proof.Proofs

namespace Sys2Proof.Proofs
open Sys2Proof Sys2Proof.Machine Sys2Proof.Laws

/-! # Matrix products -/

/-! ## Operands of a matrix product as the syllable finds them at its issue (09 R171) -/

/-- The values of a dense row or of a 2:4-compressed one after its expansion. -/
def rowElems (sparse : Bool) (f : W32) (code : Nat) (row : ByteRow) : List Fp :=
  (List.range 128).map fun k => (if sparse then sparseElem else denseElem) f code row k

/-- The accumulator's old element, or +0 where Z is set. -/
def oldElem (o : Core) (z : BitVec 1) (c : Fin 2) (i n : Nat) : W32 := if z = 1 then 0 else accLane ((o.acc[c.val]).getD i 0) n

/-- Row i of the result. -/
def productRow (f : W32) (o : Core) (w : Fin 4) (z : BitVec 1) (c t : Fin 2) (sparse : Bool) (i : Nat) : AccRow :=
  accOf fun n => mmaElem (rowElems false f (fmtAF f) ((o.stage[t.val]).getD i 0))
    (if n < 128 then rowElems sparse f (fmtWF f) ((o.latch[w.val]).getD n 0) else []) (oldElem o z c i n)

/-- The rows of the result, none of them poisoned. -/
def productRows (f : W32) (o : Core) (w : Fin 4) (z : BitVec 1) (c t : Fin 2) (sparse : Bool) : List (AccRow × Bool) :=
  (List.range o.stageRows[t.val]).map fun i => (productRow f o w z c t sparse i, false)

theorem productRows_empty {f : W32} {o : Core} {w : Fin 4} {z : BitVec 1} {c t : Fin 2} {sparse : Bool} (h : o.stageRows[t.val] = 0) :
    productRows f o w z c t sparse = [] := by
  rw [productRows, h]
  rfl

/-- Array occupancy for m rows (03 R57, 09 R173). -/
def arrayOccupancy (f : W32) (m : Nat) (sparse : Bool) : Nat :=
  let rho := min (twiceRho f (fmtAF f)) (twiceRho f (fmtWF f))
  if sparse then (m + rho - 1) / rho else (2 * m + rho - 1) / rho

theorem arrayOccupancy_zero (f : W32) (sparse : Bool) : arrayOccupancy f 0 sparse = 0 := by
  have pred_div (k : Nat) : (k - 1) / k = 0 := by
    rw [Nat.div_eq_zero_iff]
    omega
  cases sparse <;> simp [arrayOccupancy, pred_div]

/-! ## The product of a stage and a latch (11 R204) -/

theorem getD_map_range {α : Type} (n i : Nat) (f : Nat → α) (x : α) :
    ((List.range n).map f).getD i x = if i < n then f i else x := by
  by_cases h : i < n <;> simp [h]

section
variable {s : State} {w : Fin 4} {c t : Fin 2} (hl : (s.core s.turn.coreId).latchPoison[w.val] = [])
  (hs : (s.core s.turn.coreId).stagePoison[t.val] = []) (ha : (s.core s.turn.coreId).accPoison[c.val] = [])
include hl hs ha

/-- Operands without poison add no mark. -/
theorem poisonedRows_clean (z : Bool) (m : Nat) : s.poisonedRows w z c t m = s := by
  simp [State.poisonedRows, hl, hs, ha, anyBelow]

theorem multiply_arrayBusy (z sparse : Bool) (hb : (s.core s.turn.coreId).arrayBusy = true) :
    s.multiply w z c t sparse = s.holdFor .array := by
  unfold State.multiply
  dsimp only
  rw [if_pos hb, poisonedRows_clean hl hs ha]

/-- With the array and the banks of the stage free the rows of the product are put in flight; an empty stage takes no array work. -/
theorem multiply_free (z : BitVec 1) (sparse : Bool) (hb : (s.core s.turn.coreId).arrayBusy = false)
    (hbank : s.bankBusy s.turn.coreId.key (s.core s.turn.coreId).stageBanks[t.val] = false) :
    s.multiply w (z == 1) c t sparse =
      let o := s.core s.turn.coreId
      (if o.stageRows[t.val] = 0 then s else s.workArray o.stageBanks[t.val]).inFlight (.acc c)
        (.accRows (productRows s.cur.fmt o w z c t sparse)) (arrayOccupancy s.cur.fmt o.stageRows[t.val] sparse + 18) := by
  unfold State.multiply
  dsimp only
  rw [if_neg (Bool.eq_false_iff.1 hb), if_neg (Bool.eq_false_iff.1 hbank), poisonedRows_clean hl hs ha, result_eq]
  simp only [getD_map_range, beq_iff_eq]
  rfl
end

section
variable {s : State} {w : BitVec 2} {z c t : BitVec 1} (hm : s.matrix s.turn = true) (hr : s.cur.region = none)
include hm hr

theorem execMma_free : exec (.mma w z c t) s = .next (s.multiply w.toFin (z == 1) c.toFin t.toFin false) :=
  congrArg Host.Outcome.next (matrixOnly_free s _ hm hr)

theorem execMmas_free : exec (.mmas w z c t) s = .next (s.multiply w.toFin (z == 1) c.toFin t.toFin true) :=
  congrArg Host.Outcome.next (matrixOnly_free s _ hm hr)
end

/-! ## A syllable that multiplies, `mma` or `mmas` (11 R204, 03 R57) -/

section
variable {s : State} {i : Instr} {w : Fin 4} {z : BitVec 1} {c t : Fin 2} {sparse : Bool}
  (hi : exec i s = .next (s.multiply w (z == 1) c t sparse)) (hl : (s.core s.turn.coreId).latchPoison[w.val] = [])
  (hs : (s.core s.turn.coreId).stagePoison[t.val] = []) (ha : (s.core s.turn.coreId).accPoison[c.val] = [])
include hi hl hs ha

theorem product_holds (hb : (s.core s.turn.coreId).arrayBusy = true) : Holds i s s .array := by
  rw [Holds, hi, multiply_arrayBusy hl hs ha _ _ hb]
  rfl

variable (hb : (s.core s.turn.coreId).arrayBusy = false)
  (hbank : s.bankBusy s.turn.coreId.key (s.core s.turn.coreId).stageBanks[t.val] = false)
include hb hbank

theorem product_empty (h0 : (s.core s.turn.coreId).stageRows[t.val] = 0) : exec i s = .next (s.inFlight (.acc c) (.accRows []) 18) := by
  rw [hi, multiply_free hl hs ha z sparse hb hbank]
  dsimp only
  rw [if_pos h0, h0, productRows_empty h0, arrayOccupancy_zero]

theorem product_rows (h0 : 0 < (s.core s.turn.coreId).stageRows[t.val]) :
    let o := s.core s.turn.coreId
    exec i s = .next ((s.setCore s.turn.coreId { o with
        arrayBusy := true, reservations := o.reservations ++ [⟨o.stageBanks[t.val], true⟩] }).inFlight (.acc c)
      (.accRows (productRows s.cur.fmt o w z c t sparse)) (arrayOccupancy s.cur.fmt o.stageRows[t.val] sparse + 18)) := by
  intro o
  rw [hi, multiply_free hl hs ha z sparse hb hbank]
  dsimp only
  rw [if_neg h0.ne', workArray_eq]
end

/-! ## One element (09 R171, R172) -/

/-- A sum of 128 products of 1 and 2, added to 1, is 257. -/
theorem mmaElem_ones_twos :
    mmaElem (List.replicate 128 (f32 0x3F800000#32)) (List.replicate 128 (f32 0x40000000#32)) 0x3F800000#32 = 0x43808000#32 := by
  decide +kernel

/-- Settles O29: `mma` and `mmas` by the lemmas about a syllable that multiplies, for a busy array, for a stage with no rows and for one
with some; an element by its four blocks, and the instance of whole numbers. -/
theorem matrixProducts : Obligations.MatrixProducts := by
  unfold Obligations.MatrixProducts
  refine ⟨fun s w z c t hm hr hl hs ha => ?_, fun as ws x => rfl, mmaElem_ones_twos⟩
  have hmma := execMma_free (w := w) (z := z) (c := c) (t := t) hm hr
  have hmmas := execMmas_free (w := w) (z := z) (c := c) (t := t) hm hr
  refine ⟨fun hb => ⟨product_holds hmma hl hs ha hb, product_holds hmmas hl hs ha hb⟩, fun hb hbank => ⟨fun h0 => ?_, fun h0 => ?_⟩⟩
  · exact ⟨product_empty hmma hl hs ha hb hbank h0, product_empty hmmas hl hs ha hb hbank h0⟩
  · have hdense := product_rows hmma hl hs ha hb hbank h0
    have hsparse := product_rows hmmas hl hs ha hb hbank h0
    simp only [arrayOccupancy, productRows, productRow, rowElems, Bool.false_eq_true, if_true, if_false] at hdense hsparse
    exact ⟨hdense, hsparse⟩

end Sys2Proof.Proofs

namespace Sys2Proof.Proofs
open Sys2Proof Sys2Proof.Machine Sys2Proof.Laws

/-! # Vector results: lanes, elements and bits under the governing predicate (10 R176, R177) -/

/-- A masked vector result lands with its lanes under the predicate, however a lane is written. -/
theorem landsV_masked {i : Instr} {s : State} {d : Reg} {q : PReg} {lat : Nat} {f g : Nat → W32}
    (h : exec i s = .next (s.resultV d (maskLanes (s.pred q) f) lat)) (hfg : ∀ j, f j = g j) :
    ∃ v, LandsV i s d lat v ∧ Lanes (s.cur.rk q.toNat) v g :=
  ⟨_, h, funext hfg ▸ lanes_maskLanes _ f⟩

/-- A vector result built lane by lane lands with those lanes. -/
theorem landsV_ofLanes {i : Instr} {s : State} {d : Reg} {lat : Nat} {f g : Nat → W32}
    (h : exec i s = .next (s.resultV d (ofLanes f) lat)) (hfg : ∀ j, f j = g j) :
    ∃ v, LandsV i s d lat v ∧ ∀ j < 64, lane v j = g j :=
  ⟨_, h, fun j hj => (lane_ofLanes f j hj).trans (hfg j)⟩

/-- A masked result of 16-bit elements lands with two elements to a predicate bit. -/
theorem landsV_maskElems {i : Instr} {s : State} {d : Reg} {q : PReg} {lat : Nat} {f g : Nat → BitVec 16}
    (h : exec i s = .next (s.resultV d (maskElems (s.pred q) f) lat)) (hfg : ∀ j, f j = g j) :
    ∃ v, LandsV i s d lat v ∧ ∀ j < 128, elem16 v j = if (s.cur.rk q.toNat).getLsbD (j / 2) then g j else 0 :=
  ⟨_, h, fun j hj => (elem16_ofElems _ j hj).trans (by rw [hfg]; rfl)⟩

/-- A lane-wise test lands with one bit for each lane under the predicate. -/
theorem landsK_laneTest {i : Instr} {s : State} {d : Reg} {q : PReg} {lat : Nat} {a b : VReg} {f : W32 → W32 → Bool} {p : Nat → Bool}
    (h : exec i s = .next (s.resultK d (laneTest (s.pred q) a b f) lat)) (hp : ∀ j, f (lane a j) (lane b j) = p j) :
    ∃ v, LandsK i s d lat v ∧ ∀ j < 64, v.getLsbD j = ((s.cur.rk q.toNat).getLsbD j && p j) :=
  ⟨_, h, fun j hj => (getLsbD_ofBits _ j hj).trans (by rw [hp]; rfl)⟩

/-- The major and the selector of the word of a vector form with a governing predicate (02 R36). -/
theorem encode_predicated {i : Instr} {m t : Nat} {d a b : Reg} {q : PReg} (stop : Bool) (hm : m < 128) (ht : t < 8)
    (hb : encodeBody i = some (BitVec.ofNat 7 m ++ d ++ a ++ b ++ q ++ BitVec.ofNat 3 t)) :
    ∃ w, encode stop i = some w ∧ majorOf w = m ∧ (w.extractLsb' 0 3).toNat = t := by
  obtain ⟨w, hw⟩ : ∃ w, encode stop i = some w := ⟨_, by rw [encode, hb]; rfl⟩
  have hnat := word_nat stop i _ w hb hw
  rw [app_nat, app_nat, app_nat, app_nat, app_nat, BitVec.toNat_ofNat, BitVec.toNat_ofNat, Nat.mod_eq_of_lt hm, Nat.mod_eq_of_lt ht] at hnat
  obtain ⟨hmajor, -, -, -, -, hsel, -⟩ :=
    layout10 w stop.toNat m d.toNat a.toNat b.toNat q.toNat t hm d.isLt a.isLt b.isLt q.isLt ht (by omega)
  exact ⟨w, hw, hmajor, hsel⟩

end Sys2Proof.Proofs

namespace Sys2Proof.Proofs
open Sys2Proof Sys2Proof.Machine Sys2Proof.Laws

/-! # Vector integers (10 R180)

Each operation on bit vectors of any width, as a number. -/

section
variable {w : Nat} (x y : BitVec w)

theorem bvSub_eq_ofInt : x - y = BitVec.ofInt w ((x.toNat : Int) - y.toNat) := by
  apply BitVec.eq_of_toInt_eq
  rw [BitVec.toInt_sub, BitVec.toInt_ofInt]
  simp [BitVec.toInt_eq_toNat_bmod]

theorem bvAdd_eq_ofInt_toInt : x + y = BitVec.ofInt w (x.toInt + y.toInt) := by
  apply BitVec.eq_of_toInt_eq
  rw [BitVec.toInt_add, BitVec.toInt_ofInt]

theorem bvSub_eq_ofInt_toInt : x - y = BitVec.ofInt w (x.toInt - y.toInt) := by
  apply BitVec.eq_of_toInt_eq
  rw [BitVec.toInt_sub, BitVec.toInt_ofInt]

theorem bvMul_eq_ofInt_toInt : x * y = BitVec.ofInt w (x.toInt * y.toInt) := by
  apply BitVec.eq_of_toInt_eq
  rw [BitVec.toInt_mul, BitVec.toInt_ofInt]

theorem bvShl_eq_ofNat (n : Nat) : x <<< n = BitVec.ofNat w (x.toNat * 2 ^ n) := by
  apply BitVec.eq_of_toNat_eq
  rw [BitVec.toNat_shiftLeft, BitVec.toNat_ofNat, Nat.shiftLeft_eq]

theorem bvShr_eq_ofNat (n : Nat) : x >>> n = BitVec.ofNat w (x.toNat / 2 ^ n) := by
  rw [← Nat.shiftRight_eq_div_pow, ← BitVec.toNat_ushiftRight, BitVec.ofNat_toNat, BitVec.setWidth_eq]

theorem bvSar_eq_ofInt (n : Nat) : x.sshiftRight n = BitVec.ofInt w (x.toInt / 2 ^ n) := by
  have h : (2 : Int) ^ n = ((2 ^ n : Nat) : Int) := by norm_cast
  rw [h, ← Int.shiftRight_eq_div_pow, ← BitVec.toInt_sshiftRight, BitVec.ofInt_toInt]

theorem ite_slt_eq_min : (if y.slt x then y else x) = BitVec.ofInt w (min x.toInt y.toInt) := by
  rw [BitVec.slt, min_comm, min_def_lt]
  simp only [decide_eq_true_eq]
  split <;> rw [BitVec.ofInt_toInt]

theorem ite_slt_eq_max : (if x.slt y then y else x) = BitVec.ofInt w (max x.toInt y.toInt) := by
  rw [BitVec.slt, max_def_lt]
  simp only [decide_eq_true_eq]
  split <;> rw [BitVec.ofInt_toInt]

theorem ite_ult_eq_min : (if y.ult x then y else x) = BitVec.ofNat w (min x.toNat y.toNat) := by
  rw [BitVec.ult, min_comm, min_def_lt]
  simp only [decide_eq_true_eq]
  split <;> rw [BitVec.ofNat_toNat, BitVec.setWidth_eq]

theorem ite_ult_eq_max : (if x.ult y then y else x) = BitVec.ofNat w (max x.toNat y.toNat) := by
  rw [BitVec.ult, max_def_lt]
  simp only [decide_eq_true_eq]
  split <;> rw [BitVec.ofNat_toNat, BitVec.setWidth_eq]

theorem beq_eq_decide_toNat : (x == y) = decide (x.toNat = y.toNat) := by
  rw [Bool.beq_eq_decide_eq, decide_eq_decide, BitVec.toNat_inj]
end

/-- The upper half of a signed product: floored and Euclidean division by 2^32 agree. -/
theorem mulhI32_eq (x y : W32) : BitVec.ofInt 32 (Int.fdiv (x.toInt * y.toInt) (2 ^ 32)) = BitVec.ofInt 32 (x.toInt * y.toInt / 2 ^ 32) := by
  rw [Int.fdiv_eq_ediv_of_nonneg _ (by decide)]

/-- Settles O6: each form's lane, or 16-bit element, rewritten as a number; the words through the layout of predicated forms. -/
theorem vectorIntegers : Obligations.VectorIntegers := by
  unfold Obligations.VectorIntegers
  refine ⟨⟨?_, ?_⟩, ?_, ?_⟩
  · intro s d a b q k x y
    exact ⟨landsV_masked rfl fun j => BitVec.add_def _ _, landsV_masked rfl fun j => bvSub_eq_ofInt _ _,
      landsV_masked rfl fun j => bvMul_eq_ofInt_toInt _ _, landsV_masked rfl fun j => mulhI32_eq _ _,
      landsV_masked rfl fun j => rfl, landsV_masked rfl fun j => rfl, landsV_masked rfl fun j => rfl, landsV_masked rfl fun j => rfl,
      landsV_masked rfl fun j => bvShl_eq_ofNat _ _, landsV_masked rfl fun j => bvShr_eq_ofNat _ _,
      landsV_masked rfl fun j => bvSar_eq_ofInt _ _, landsV_masked rfl fun j => ite_slt_eq_min _ _,
      landsV_masked rfl fun j => ite_slt_eq_max _ _, landsV_masked rfl fun j => ite_ult_eq_min _ _,
      landsV_masked rfl fun j => ite_ult_eq_max _ _⟩
  · intro d a b q stop
    simp only [List.forall_mem_cons, List.not_mem_nil, false_imp_iff, implies_true, and_true]
    refine ⟨?_, ?_, ?_, ?_, ?_, ?_, ?_, ?_, ?_, ?_, ?_, ?_, ?_, ?_, ?_⟩
    all_goals exact encode_predicated stop (by decide) (by decide) rfl
  · intro s d a b q active x y elems
    exact ⟨landsV_maskElems rfl fun j => bvAdd_eq_ofInt_toInt _ _, landsV_maskElems rfl fun j => bvSub_eq_ofInt_toInt _ _,
      landsV_maskElems rfl fun j => rfl, landsV_maskElems rfl fun j => rfl⟩
  · intro d a b q stop
    simp only [List.forall_mem_cons, List.not_mem_nil, false_imp_iff, implies_true, and_true]
    refine ⟨?_, ?_, ?_, ?_⟩
    all_goals exact encode_predicated stop (by decide) (by decide) rfl

/-! ## Compares (10 R181, R184) -/

/-- A write to k0 is discarded (03 R48). -/
theorem wk_zero (t : Strand) (x : W64) (poison : Bool) : t.wk 0 x poison = t := rfl

/-- Settles O7: each compare lands its relation lane by lane; the words through the layout of predicated forms. -/
theorem vectorCompares : Obligations.VectorCompares := by
  unfold Obligations.VectorCompares
  refine ⟨wk_zero, ?_, ?_⟩
  · intro s d a b q x y bits
    exact ⟨landsK_laneTest rfl fun j => beq_eq_decide_toNat _ _, landsK_laneTest rfl fun j => rfl, landsK_laneTest rfl fun j => rfl,
      landsK_laneTest rfl fun j => rfl, landsK_laneTest rfl fun j => rfl, landsK_laneTest rfl fun j => rfl,
      landsK_laneTest rfl fun j => rfl, landsK_laneTest rfl fun j => rfl⟩
  · intro d a b q stop
    simp only [List.forall_mem_cons, List.not_mem_nil, false_imp_iff, implies_true, and_true]
    refine ⟨?_, ?_, ?_, ?_, ?_, ?_, ?_, ?_⟩
    all_goals exact encode_predicated stop (by decide) (by decide) rfl

end Sys2Proof.Proofs

namespace Sys2Proof.Proofs
open Sys2Proof Sys2Proof.Machine Sys2Proof.Laws

/-! # FP32 results and the generator (09 R167, 10 R178) -/

/-- The generator stepped once and then n times is the generator stepped n + 1 times. -/
theorem lfsrAfter_lfsrStep (x : W32) (n : Nat) : lfsrAfter (lfsrStep x) n = lfsrAfter x (n + 1) := by
  induction n with
  | zero => rfl
  | succ n ih => rw [lfsrAfter, ih]; rfl

/-- The last of n successive states is the state after n steps. -/
theorem lfsrStates_getLastD (x : W32) (n : Nat) : (lfsrStates x n).getLastD x = lfsrAfter x n := by
  induction n generalizing x with
  | zero => rfl
  | succ n ih => rw [lfsrStates, List.getLastD_cons, ih, lfsrAfter_lfsrStep]

/-- The steps that an instruction takes are those of `drawn`. -/
theorem draw_eq (s : State) (n : Nat) : s.draw n = s.drawn n := by
  unfold State.draw State.drawn
  rw [lfsrStates_getLastD]
  rfl

/-- Element j is rounded with its own step of the generator. -/
theorem rnds_eq_rounding (s : State) (n j : Nat) (hj : j < n) : s.rnds n j = s.rounding j := by
  unfold State.rnds State.rounding
  by_cases hm : s.cur.mode = 4
  · simp only [if_pos hm, lfsrStates_getD _ _ _ hj]
  · simp only [if_neg hm, List.getD_nil]
    rfl

/-- A lane-wise FP result: each active lane rounded with its own step, 64 steps taken. -/
theorem fp_lands {i : Instr} {s : State} {d : Reg} {q : PReg} {lat : Nat} {f : Rnd → Nat → W32} {g : Nat → W32}
    (h : exec i s = .next (s.fp d q lat f)) (hfg : ∀ j, f (s.rounding j) j = g j) :
    ∃ v, exec i s = .next ((s.inFlight (.v d) (.v v) lat).drawn 64) ∧ Lanes (s.cur.rk q.toNat) v g := by
  refine ⟨maskLanes (s.pred q) fun j => f (s.rnds 64 j) j, by rw [h, ← draw_eq]; rfl, fun j hj => ?_⟩
  rw [lanes_maskLanes _ _ j hj, rnds_eq_rounding s 64 j hj, hfg]
  rfl

/-- Settles O8: every form is a lane-wise FP result. -/
theorem vectorFloats : Obligations.VectorFloats := by
  unfold Obligations.VectorFloats
  refine ⟨fun s d a b q => ?_, fun s d a q => ?_⟩
  · intro x y z m lands
    exact ⟨fp_lands rfl fun j => rfl, fp_lands rfl fun j => rfl, fp_lands rfl fun j => rfl, fp_lands rfl fun j => rfl,
      fp_lands rfl fun j => rfl, fp_lands rfl fun j => rfl, fp_lands rfl fun j => rfl⟩
  · intro lands
    exact ⟨fp_lands rfl fun j => rfl, fp_lands rfl fun j => rfl, fp_lands rfl fun j => rfl, fp_lands rfl fun j => rfl,
      fp_lands rfl fun j => rfl⟩

end Sys2Proof.Proofs

namespace Sys2Proof.Proofs
open Sys2Proof Sys2Proof.Machine Sys2Proof.Laws

/-! # Conversions (10 R187 to R189) -/

/-- A narrowing conversion: each element rounded with its own step, under its own predicate bit, 64 steps taken. -/
theorem narrow_lands {i : Instr} {s : State} {d a : Reg} {q : PReg} {w : Nat} {f : Rnd → Fp → Nat} {g : Nat → Nat} (hw : 64 * w ≤ 2048)
    (h : exec i s = .next (s.narrow d a q w f)) (hfg : ∀ j, f (s.rounding j) (f32 (lane (s.cur.rv a) j)) = g j) :
    ∃ v, exec i s = .next ((s.inFlight (.v d) (.v v) 4).drawn 64) ∧ Narrow (s.cur.rk q.toNat) w v g := by
  obtain ⟨helem, hlt⟩ := narrow_packNarrow (s.pred q) w hw fun j => f (s.rnds 64 j) (f32 (lane (s.cur.rv a) j))
  refine ⟨_, by rw [h, ← draw_eq]; rfl, fun j hj => ?_, hlt⟩
  rw [helem j hj, ← hfg, ← rnds_eq_rounding s 64 j hj]
  rfl

/-- A widening conversion: each lane exact, under its own predicate bit. -/
theorem widen_lands {i : Instr} {s : State} {d a : Reg} {q : PReg} {f : VReg → Nat → Fp} {g : Nat → Fp}
    (h : exec i s = .next (s.widen d a q f)) (hfg : ∀ j < 64, f (s.cur.rv a) j = g j) :
    ∃ v, LandsV i s d 4 v ∧ Lanes (s.cur.rk q.toNat) v fun j => toF32 rne (g j) :=
  ⟨_, h, fun j hj => by rw [lanes_maskLanes _ _ j hj, hfg j hj]; rfl⟩

theorem narrowElem_eq (w : Nat) (x : VReg) (j : Nat) : narrowElem w x j = x.toNat / 2 ^ (w * j) % 2 ^ w := extractLsb'_toNat_div x _ _

theorem narrowBits_le (f : W32) : 64 * narrowBits f ≤ 2048 := by
  unfold narrowBits
  split <;> decide

/-! ## Packed F4X (09 R169) -/

theorem f4xScale_lt (vs : List Fp) : f4xScale vs < 2 ^ 8 := by
  unfold f4xScale
  dsimp only
  split
  · decide
  · omega

/-- The scale of a block is a byte. -/
theorem f4xBlock_scale_lt (vs : List Fp) (fq : Nat) : (f4xBlock vs fq).2 < 2 ^ 8 := by
  unfold f4xBlock
  split
  · exact Nat.lt_succ_self 255
  · exact f4xScale_lt vs

theorem f4xBlock_length (vs : List Fp) (fq : Nat) : (f4xBlock vs fq).1.length = vs.length := by
  unfold f4xBlock
  split <;> exact List.length_map _

/-- Half h of the lanes under the predicate, as the values of one block. -/
def f4xHalf (q : W64) (x : VReg) (h : Nat) : List Fp :=
  (List.range 32).map fun j => if q.getLsbD (32 * h + j) then f32 (lane x (32 * h + j)) else .fin false 0 0

/-- The header of the block of half h: X in its low byte, Q above (10 R187). -/
def f4xBlockHeader (q : W64) (fq : Nat) (x : VReg) (h : Nat) : Nat := (f4xBlock (f4xHalf q x h) fq).2 + 2 ^ 8 * fq

/-- The headers of both blocks, the one of the upper half above the other. -/
def f4xHeaders (q : W64) (fq : Nat) (x : VReg) : Nat := f4xBlockHeader q fq x 0 + 2 ^ 16 * f4xBlockHeader q fq x 1

/-- The code of element j, 0 where its predicate bit is clear. -/
def f4xCode (q : W64) (fq : Nat) (x : VReg) (j : Nat) : Nat :=
  if q.getLsbD j then ((f4xBlock (f4xHalf q x 0) fq).1 ++ (f4xBlock (f4xHalf q x 1) fq).1).getD j 0 else 0

theorem f4xPack_eq (q : W64) (fq : Nat) (x : VReg) :
    f4xPack q fq x = packNarrow 4 (f4xCode q fq x) ||| BitVec.ofNat 2048 (f4xHeaders q fq x * 2 ^ 256) := by
  have hsum (m n : Nat) : m + 2 ^ 8 * fq + 2 ^ 16 * n + 2 ^ 24 * fq = m + 2 ^ 8 * fq + 2 ^ 16 * (n + 2 ^ 8 * fq) := by omega
  unfold f4xPack f4xCode f4xHeaders f4xBlockHeader f4xHalf
  simp only [Nat.mul_zero, Nat.zero_add, Nat.mul_one, hsum]

theorem f4xBlockHeader_lt (q : W64) {fq : Nat} (hfq : fq < 2 ^ 8) (x : VReg) (h : Nat) : f4xBlockHeader q fq x h < 2 ^ 16 := by
  have hscale := f4xBlock_scale_lt (f4xHalf q x h) fq
  unfold f4xBlockHeader
  omega

theorem f4xHeaders_lt (q : W64) {fq : Nat} (hfq : fq < 2 ^ 8) (x : VReg) : f4xHeaders q fq x < 2 ^ 32 := by
  have hlow := f4xBlockHeader_lt q hfq x 0
  have hhigh := f4xBlockHeader_lt q hfq x 1
  unfold f4xHeaders
  omega

/-- The headers lie above the codes. -/
theorem f4xPack_toNat (q : W64) {fq : Nat} (hfq : fq < 2 ^ 8) (x : VReg) :
    (f4xPack q fq x).toNat = (packNarrow 4 (f4xCode q fq x)).toNat + 2 ^ 256 * f4xHeaders q fq x := by
  have hheaders := f4xHeaders_lt q hfq x
  have hcodes : (packNarrow 4 (f4xCode q fq x)).toNat < 2 ^ 256 := packNarrow_lt 4 (by decide) _
  rw [f4xPack_eq, BitVec.toNat_or, BitVec.toNat_ofNat, Nat.mod_eq_of_lt (by omega), Nat.or_comm, Nat.mul_comm,
    ← Nat.two_pow_add_eq_or_of_lt hcodes, Nat.add_comm]

/-- Element j has its code from the block of its half. -/
theorem f4xPack_elem (q : W64) {fq : Nat} (hfq : fq < 2 ^ 8) (x : VReg) (j : Nat) (hj : j < 64) :
    narrowElem 4 (f4xPack q fq x) j =
      if q.getLsbD j then (f4xBlock (f4xHalf q x (j / 32)) fq).1.getD (j % 32) 0 % 2 ^ 4 else 0 := by
  have hlen : (f4xBlock (f4xHalf q x 0) fq).1.length = 32 := by simp [f4xBlock_length, f4xHalf]
  have helem : narrowElem 4 (f4xPack q fq x) j = narrowElem 4 (packNarrow 4 (f4xCode q fq x)) j := by
    have hpow : (2 : Nat) ^ 256 = 2 ^ (4 * j) * (2 ^ 4 * 2 ^ (252 - 4 * j)) := by
      rw [← Nat.pow_add, ← Nat.pow_add]
      congr 1
      omega
    rw [narrowElem_eq, narrowElem_eq, f4xPack_toNat q hfq, hpow, Nat.mul_assoc, Nat.add_mul_div_left _ _ (Nat.two_pow_pos _), Nat.mul_assoc,
      Nat.add_mul_mod_self_left]
  rw [helem, narrowElem_packNarrow 4 (by decide) _ j hj, f4xCode]
  split
  next =>
    by_cases hlow : j < 32
    · rw [List.getD_append _ _ _ _ (hlen ▸ hlow), Nat.div_eq_of_lt hlow, Nat.mod_eq_of_lt hlow]
    · rw [List.getD_append_right _ _ _ _ (by omega), hlen, show j / 32 = 1 by omega, show j % 32 = j - 32 by omega]
  next => rfl

theorem f4xPack_header (q : W64) {fq : Nat} (hfq : fq < 2 ^ 8) (x : VReg) (h : Nat) (hh : h < 2) :
    (f4xPack q fq x).toNat / 2 ^ (256 + 16 * h) % 2 ^ 16 = f4xBlockHeader q fq x h := by
  have hcodes : (packNarrow 4 (f4xCode q fq x)).toNat < 2 ^ 256 := packNarrow_lt 4 (by decide) _
  have hlow := f4xBlockHeader_lt q hfq x 0
  have hhigh := f4xBlockHeader_lt q hfq x 1
  rw [f4xPack_toNat q hfq, Nat.pow_add, ← Nat.div_div_eq_div_mul, Nat.add_mul_div_left _ _ (Nat.two_pow_pos 256), Nat.div_eq_of_lt hcodes,
    Nat.zero_add, f4xHeaders]
  obtain rfl | rfl : h = 0 ∨ h = 1 := by omega
  · omega
  · omega

theorem f4xPack_lt (q : W64) {fq : Nat} (hfq : fq < 2 ^ 8) (x : VReg) : (f4xPack q fq x).toNat < 2 ^ 288 := by
  have hcodes : (packNarrow 4 (f4xCode q fq x)).toNat < 2 ^ 256 := packNarrow_lt 4 (by decide) _
  have hheaders := f4xHeaders_lt q hfq x
  rw [f4xPack_toNat q hfq]
  omega

/-- The header of the block of element j, read byte by byte from lane 8. -/
theorem f4xHeader_eq (x : VReg) (j : Nat) (hj : j < 64) : f4xHeader x j =
    ((lane x 8).toNat / 2 ^ (16 * (j / 32) + 8 * 0) % 2 ^ 8, (lane x 8).toNat / 2 ^ (16 * (j / 32) + 8 * 1) % 2 ^ 8) := by
  have hlane := (lane x 8).isLt
  unfold f4xHeader
  by_cases hlow : j < 32
  · rw [show j / 32 = 0 by omega]
    simp [hlow]
  · rw [show j / 32 = 1 by omega]
    simp only [if_neg hlow]
    congr 1
    omega

/-- Settles O10: narrowing by the rounding of each element, packed F4X by its codes and headers, widening by what each element reads. -/
theorem vectorConversions : Obligations.VectorConversions := by
  unfold Obligations.VectorConversions
  refine ⟨fun s d a q => ?_, fun s d a q => ?_⟩
  · intro k x narrow
    refine ⟨narrow_lands (w := 16) (by decide) rfl fun j => rfl, narrow_lands (w := 16) (by decide) rfl fun j => rfl,
      narrow_lands (w := 8) (by decide) rfl fun j => rfl, narrow_lands (w := 8) (by decide) rfl fun j => rfl,
      narrow_lands (narrowBits_le s.cur.fmt) rfl fun j => rfl, fp_lands rfl fun j => rfl, fp_lands rfl fun j => rfl, ?_⟩
    intro fq block
    have hfq : fq < 2 ^ 8 := BitVec.isLt _
    exact ⟨_, rfl, f4xPack_elem k hfq _, f4xPack_header k hfq _, f4xPack_lt k hfq _⟩
  · intro x widen header
    refine ⟨widen_lands rfl fun j _ => by rw [narrowElem_eq], widen_lands rfl fun j _ => by rw [narrowElem_eq],
      widen_lands rfl fun j _ => by rw [narrowElem_eq], widen_lands rfl fun j _ => by rw [narrowElem_eq],
      widen_lands rfl fun j hj => by rw [narrowElem_eq, f4xHeader_eq _ j hj], ?_⟩
    intro w
    refine widen_lands rfl fun j _ => ?_
    rw [narrowElem_eq]
    rfl

end Sys2Proof.Proofs

namespace Sys2Proof.Proofs
open Sys2Proof Sys2Proof.Machine Sys2Proof.Laws

/-! # Special inputs of the functions (10 R186)

Zeros, infinities, NaN and negative numbers are answered without rounding; at 1.0 the result is exact, so that the mode does not matter. -/

/-- An exact magnitude below the largest exponent has one code in every mode. -/
theorem round_exact (rd : Rnd) (neg : Bool) (x : Mag) (hlg : x.lg < 127) (hex : (x.fl (-max (x.lg - fp32.m) fp32.qmin)).2 = true) :
    fp32.round rd false neg x = fp32.round rne false neg x := by
  have hover (r : Rnd) : overflows fp32 r x = false := (if_neg (show ¬x.lg > 127 by omega)).trans (if_pos hlg)
  unfold Fmt.round
  simp only [hover, hex, Bool.not_true, Bool.false_and, Bool.and_false, Bool.false_eq_true, if_false]

theorem f32_one : f32 0x3F800000#32 = .fin false 0x800000 (-23) := by decide

theorem rcpF32_one (rd : Rnd) : rcpF32 rd (f32 0x3F800000#32) = 0x3F800000#32 := by
  rw [f32_one, rcpF32, if_neg (by decide), round_exact _ _ _ (by decide) (by decide)]
  decide

theorem rsqF32_one (rd : Rnd) : rsqF32 rd (f32 0x3F800000#32) = 0x3F800000#32 := by
  rw [f32_one, rsqF32, if_neg (by decide), if_neg (by decide), round_exact _ _ _ (by decide +kernel) (by decide +kernel)]
  decide +kernel

theorem sqrtF32_one (rd : Rnd) : sqrtF32 rd (f32 0x3F800000#32) = 0x3F800000#32 := by
  rw [f32_one, sqrtF32, if_neg (by decide), if_neg (by decide), round_exact _ _ _ (by decide +kernel) (by decide +kernel)]
  decide +kernel

theorem log2F32_one (rd : Rnd) : log2F32 rd (f32 0x3F800000#32) = 0 := by
  rw [f32_one, log2F32, if_neg (by decide), if_neg (by decide)]
  dsimp only
  rw [if_pos (by decide), if_pos (by decide)]

/-- 2^0 is exact. -/
theorem exp2F32_zero (rd : Rnd) (neg : Bool) (e : Int) : exp2F32 rd (.fin neg 0 e) = 0x3F800000#32 := by
  rw [exp2F32]
  dsimp only
  rw [if_pos rfl, round_exact _ _ _ (by decide) (by decide)]
  decide

theorem exp2F32_one (rd : Rnd) : exp2F32 rd (f32 0x3F800000#32) = 0x40000000#32 := by
  rw [f32_one, exp2F32]
  dsimp only
  rw [if_neg (by decide), if_neg (by decide), if_pos (by decide +kernel), round_exact _ _ _ (by decide +kernel) (by decide +kernel)]
  decide +kernel

/-- The inputs that R186 names, other than 1.0, as values. -/
theorem f32_special : f32 0x00000000#32 = .fin false 0 (-149) ∧ f32 0x80000000#32 = .fin true 0 (-149) ∧ f32 0x7F800000#32 = .inf false ∧
    f32 0xFF800000#32 = .inf true ∧ f32 0xC0000000#32 = .fin true 0x800000 (-22) ∧ f32 0x7FC00000#32 = .nan := by decide

/-- The worked example of R194: the 63 sums of the tree, rounded to nearest and upwards. -/
theorem reduceF_worked : let v : VReg := ofLanes fun j => if j = 0 then 0x4B800000#32 else 0x3F800000#32
    let add := fun m => reduceF (BitVec.allOnes 64) v 0 fun _ x y => toF32 ⟨m, 0⟩ ((f32 x).add (f32 y) m)
    add 0 = 0x4B80001F#32 ∧ add 2 = 0x4B800020#32 := by decide +kernel

/-- Settles O9: the value of each special input, 1.0 by its exact result; the worked reduction by its evaluation. -/
theorem floatWorkedValues : Obligations.FloatWorkedValues := by
  unfold Obligations.FloatWorkedValues
  refine ⟨fun rd _ => ?_, reduceF_worked⟩
  obtain ⟨hpz, hnz, hpi, hni, hneg, hnan⟩ := f32_special
  simp only [List.map_cons, List.map_nil, rcpF32_one, rsqF32_one, exp2F32_one, log2F32_one, sqrtF32_one, hpz, hnz, hpi, hni, hneg, hnan,
    exp2F32_zero]
  exact ⟨rfl, rfl, rfl, rfl, rfl⟩

end Sys2Proof.Proofs

namespace Sys2Proof.Proofs
open Sys2Proof Sys2Proof.Machine Sys2Proof.Laws

/-! # Reductions (10 R190, R191) -/

/-- A level of the tree on lists is the level on functions, where the list reads as the function. -/
theorem redLevel_getD {t : List (Option W32)} {u : Nat → Option W32} {h n : Nat} {f g : Nat → W32 → W32 → W32}
    (hfg : ∀ i < h, f (n + i) = g (n + i)) (ht : ∀ i < 2 * h, t.getD i none = u i) (j : Nat) (hj : j < h) :
    (redLevel t h fun i => f (n + i)).getD j none = treeLevel g u h n j := by
  rw [redLevel, getD_map_range, if_pos hj, ht j (by omega), ht (j + h) (by omega), hfg j hj]
  rfl

/-- Lane j of a vector where it is active. -/
def laneIfActive (q : W64) (x : VReg) (j : Nat) : Option W32 := if q.getLsbD j then some (lane x j) else none

/-- The six levels on lists are the tree, where the 63 combinations agree. -/
theorem reduce_eq_treeOf (q : W64) (x : VReg) {f g : Nat → W32 → W32 → W32} (hfg : ∀ i < 63, f i = g i) :
    reduce q x f = treeOf g (laneIfActive q x) := by
  have h64 (i : Nat) (hi : i < 64) :
      ((List.range 64).map fun i => if q.getLsbD i then some (lane x i) else none).getD i none = laneIfActive q x i := by
    rw [getD_map_range, if_pos hi, laneIfActive]
  have h32 := redLevel_getD (h := 32) (n := 0) (fun i hi => hfg (0 + i) (by omega)) h64
  have h16 := redLevel_getD (h := 16) (n := 32) (fun i hi => hfg (32 + i) (by omega)) h32
  have h8 := redLevel_getD (h := 8) (n := 48) (fun i hi => hfg (48 + i) (by omega)) h16
  have h4 := redLevel_getD (h := 4) (n := 56) (fun i hi => hfg (56 + i) (by omega)) h8
  have h2 := redLevel_getD (h := 2) (n := 60) (fun i hi => hfg (60 + i) (by omega)) h4
  exact redLevel_getD (h := 1) (n := 62) (fun i hi => hfg (62 + i) (by omega)) h2 0 Nat.one_pos

/-- Whether a lane that is active holds a NaN, as a proposition. -/
theorem anyNan_iff (q : W64) (x : VReg) : anyNan q x = true ↔ ∃ j < 64, q.getLsbD j = true ∧ f32 (lane x j) = .nan := by
  have hnan (v : Fp) : (match v with | .nan => true | _ => false) = true ↔ v = .nan := by cases v <;> simp
  simp only [anyNan, List.any_eq_true, List.mem_range, Bool.and_eq_true]
  exact exists_congr fun j => and_congr_right fun _ => and_congr_right fun _ => hnan _

/-- An FP reduction: the canonical NaN where an active lane holds a NaN, otherwise the tree; 63 steps taken. -/
theorem reduceF_lands {i : Instr} {s : State} {d a : Reg} {q : PReg} {e : W32} {f g : Nat → W32 → W32 → W32}
    (h : exec i s = .next ((s.resultG d ((reduceF (s.pred q) (s.cur.rv a) e f).setWidth 64) 6).draw 63)) (hfg : ∀ i < 63, f i = g i) :
    let nan := ∃ j < 64, (s.cur.rk q.toNat).getLsbD j = true ∧ f32 (lane (s.cur.rv a) j) = .nan
    (nan → exec i s = .next ((s.inFlight (.g d) (.w 0x7FC00000) 6).drawn 63)) ∧
    (¬nan → exec i s = .next ((s.inFlight (.g d) (.w (BitVec.ofNat 64
      ((treeOf g (laneIfActive (s.cur.rk q.toNat) (s.cur.rv a))).getD e).toNat)) 6).drawn 63)) := by
  intro nan
  have hany : anyNan (s.pred q) (s.cur.rv a) = true ↔ nan := anyNan_iff _ _
  rw [h, draw_eq, resultG_eq]
  refine ⟨fun hn => ?_, fun hn => ?_⟩
  · rw [reduceF, if_pos (hany.2 hn)]
    rfl
  · rw [reduceF, if_neg (mt hany.1 hn), reduce_eq_treeOf _ _ hfg, BitVec.ofNat_toNat]
    rfl

/-- Settles O11: the integer reductions by the tree, the FP ones by whether an active lane holds a NaN; the words through their layout. -/
theorem vectorReductions : Obligations.VectorReductions := by
  unfold Obligations.VectorReductions
  refine ⟨fun s d a q => ?_, ?_⟩
  · intro t nan
    obtain ⟨haddNan, hadd⟩ := reduceF_lands (i := .vredaddF32 d a q) (s := s) rfl
      fun i hi => congrArg (fun (r : Rnd) (x y : W32) => toF32 r ((f32 x).add (f32 y) s.cur.mode)) (rnds_eq_rounding s 63 i hi)
    obtain ⟨hmaxNan, hmax⟩ := reduceF_lands (i := .vredmaxF32 d a q) (s := s) rfl fun _ _ => rfl
    refine ⟨landsG_of_result rfl ?_, landsG_of_result rfl ?_, fun hn => ⟨haddNan hn, hmaxNan hn⟩, fun hn => ⟨hadd hn, hmax hn⟩⟩
    · rw [reduce_eq_treeOf _ _ fun _ _ => rfl]
      rfl
    · rw [reduce_eq_treeOf _ _ fun _ _ => funext₂ ite_slt_eq_max]
      rfl
  · intro d a q stop
    simp only [List.forall_mem_cons, List.not_mem_nil, false_imp_iff, implies_true, and_true]
    refine ⟨?_, ?_, ?_, ?_⟩
    all_goals exact encode_predicated (b := 0) stop (by decide) (by decide) rfl

end Sys2Proof.Proofs

namespace Sys2Proof.Proofs
open Sys2Proof Sys2Proof.Machine Sys2Proof.Laws

/-! # Moves between lanes, and predicates (10 R192, R193) -/

/-- An instruction whose result is a predicate lands it, however it is written. -/
theorem landsK_of_result {i : Instr} {s : State} {d : Reg} {lat : Nat} {x y : W64} (h : exec i s = .next (s.resultK d x lat)) (hxy : x = y) :
    LandsK i s d lat y := by
  rw [LandsK, h, resultK_eq, hxy]

theorem bvNot_eq_ofNat {w : Nat} (x : BitVec w) : ~~~x = BitVec.ofNat w (2 ^ w - 1 - x.toNat) := by
  rw [← BitVec.toNat_not, BitVec.ofNat_toNat, BitVec.setWidth_eq]

theorem truth_bne_zero (x : W64) : truth (x != 0) = if x.toNat = 0 then 0 else 1 := by
  rw [bne, beq_eq_decide_toNat, ← decide_not, truth_decide]
  exact ite_not _ _ _

theorem truth_allSet (x : W64) : truth (allSet x) = if x.toNat = 2 ^ 64 - 1 then 1 else 0 := by
  rw [allSet, beq_eq_decide_toNat, truth_decide, BitVec.toNat_allOnes]

/-- Settles O12: each move by the lane it takes, each predicate instruction by its value. -/
theorem vectorMovesAndPredicates : Obligations.VectorMovesAndPredicates := by
  unfold Obligations.VectorMovesAndPredicates
  refine ⟨⟨fun s d a b q => ?_, fun s d i => landsV_ofLanes rfl fun j => rfl⟩, fun s d a b => ?_, fun t => rfl⟩
  · intro k n
    exact ⟨landsV_masked rfl fun j => rfl, landsV_masked rfl fun j => rfl, landsV_masked rfl fun j => (BitVec.ofNat_toNat _ _).symm,
      landsG_of_result rfl (BitVec.ofNat_toNat _ _).symm,
      landsV_ofLanes rfl fun j => by rw [BitVec.ofNat_toNat], landsV_ofLanes rfl fun j => rfl⟩
  · intro x y
    exact ⟨landsK_of_result rfl rfl, landsK_of_result rfl rfl, landsK_of_result rfl rfl, landsK_of_result rfl (bvNot_eq_ofNat x),
      landsK_of_result rfl rfl, landsG_of_result rfl (truth_bne_zero x), landsG_of_result rfl (truth_allSet x),
      landsG_of_result rfl (congrArg (BitVec.ofNat 64) (onesBelow_eq_countP x 64))⟩

end Sys2Proof.Proofs

namespace Sys2Proof.Proofs
open Sys2Proof Sys2Proof.Machine Sys2Proof.Laws

/-! # Traps, and the return from them -/

/-! ## How often a fault has come in a row (12 R236) -/

/-- The number of a fault among the identical ones in a row. -/
def faultRun (x : Strand) (bundle : W64) (cause : BitVec 8) (sub : BitVec 4) (faddr : W64) : Nat :=
  if x.lastFault = some (bundle, cause, sub, faddr) then x.repeats + 1 else 1

theorem faultRun_new (x : Strand) (bundle : W64) (cause : BitVec 8) (sub : BitVec 4) (faddr : W64)
    (h : x.lastFault ≠ some (bundle, cause, sub, faddr)) : faultRun x bundle cause sub faddr = 1 := if_neg h

theorem faultRun_again (x : Strand) (bundle : W64) (cause : BitVec 8) (sub : BitVec 4) (faddr : W64)
    (h : x.lastFault = some (bundle, cause, sub, faddr)) : faultRun x bundle cause sub faddr = x.repeats + 1 := if_pos h

/-- What the count of a fault decides: the cause recorded, REPEAT, and whether the context is parked. -/
theorem trapRecord_run (s : State) (t : StrandId) (cause mask : BitVec 8) (sub : BitVec 4) (faddr bundle n : W64) (region : W32)
    (restart : W64) : let s' := s.trapRecord t cause mask sub faddr bundle n region restart
    let k := faultRun (s.strand t) bundle cause sub faddr
    (s'.strand t).trap.cause = (if k ≥ 16 then 11 else cause) ∧ (s'.strand t).trap.repeat_ = BitVec.ofNat 5 k ∧
      (s'.strand t).trap.valid = false ∧ (s'.ctx t.ctxId).parked = ((s.ctx t.ctxId).parked || decide (k ≥ 16)) := by
  intro s' k
  have hx : s'.strand t = _ := strand_setStrand_self s t _
  have hc : s'.ctx t.ctxId = _ := ctx_setCtx_self _ _ _
  exact ⟨congrArg (·.trap.cause) hx, congrArg (·.trap.repeat_) hx, congrArg (·.trap.valid) hx, congrArg Context.parked hc⟩

/-! ## Taking a trap -/

/-- A fault that is not the latest one again keeps its cause and is the first of its run. -/
theorem takeTrap_outside (s : State) (t : StrandId) (cause mask : BitVec 8) (sub : BitVec 4) (faddr : W64) (hr : (s.strand t).region = none)
    (hl : (s.strand t).lastFault ≠ some ((s.strand t).pc, cause, sub, faddr)) :
    let s' := s.takeTrap t cause mask sub faddr
    let x := s'.strand t
    let old := s.strand t
    x.trap.cause = cause ∧ x.trap.mask = mask ∧ x.trap.sub = sub ∧ x.trap.faddr = faddr ∧ x.trap.bundle = old.pc ∧
    x.trap.restart = old.pc ∧ x.trap.step = old.step + 1 ∧ x.trap.region = 0 ∧ x.trap.repeat_ = 1 ∧ x.trap.valid = false ∧
    x.trapping = true ∧ x.attached = false ∧ x.pc = old.pc ∧ x.step = old.step ∧ x.g = old.g ∧ x.v = old.v ∧ x.k = old.k ∧
    x.inflight = old.inflight ∧ (s'.ctx t.ctxId).suspending = true ∧ s'.mem = s.mem ∧ ∀ u, u.key ≠ t.key → s'.strand u = s.strand u := by
  rw [takeTrap_none s t cause mask sub faddr hr]
  obtain ⟨hcause, hrepeat, hvalid, -⟩ :=
    trapRecord_run s t cause mask sub faddr (s.strand t).pc ((s.strand t).step + 1) 0 (s.strand t).pc
  rw [faultRun_new _ _ _ _ _ hl] at hcause hrepeat
  obtain ⟨hg, hv, hk, hstep, hin, hpc, htrapping, hattached, hmask, hsub, hfaddr, hbundle, hrestart⟩ :=
    trapRecord_strand s t cause mask sub faddr (s.strand t).pc ((s.strand t).step + 1) 0 (s.strand t).pc
  obtain ⟨htstep, hregion, hsuspending⟩ :=
    trapRecord_given s t cause mask sub faddr (s.strand t).pc ((s.strand t).step + 1) 0 (s.strand t).pc
  exact ⟨hcause, hmask, hsub, hfaddr, hbundle, hrestart, htstep, hregion, hrepeat, hvalid, htrapping, hattached, hpc, hstep, hg, hv, hk, hin,
    hsuspending, rfl, fun u hu => trapRecord_other _ _ _ _ _ _ _ _ _ _ _ hu⟩

/-- %region as the bundle of the next step issues (06 R120). -/
theorem regionWord_open (x : Strand) (r : Region) (n : W64) (h : x.region = some r) :
    (x.regionWord n).toNat = (1 + 2 * r.guards.length + 256 * min (n - r.step).toNat 0x1FFFF) % 2 ^ 32 := by
  simp only [Strand.regionWord, h, BitVec.toNat_ofNat]

theorem trapRecord_rbaddr (s : State) (t : StrandId) (cause mask : BitVec 8) (sub : BitVec 4) (faddr bundle n : W64) (region : W32)
    (restart : W64) : ((s.trapRecord t cause mask sub faddr bundle n region restart).strand t).rbaddr = (s.strand t).rbaddr := by
  simp [State.trapRecord]

/-- A trap in a region: the strand as its rollback with TRAP leaves it, the record of the offending bundle (06 R127). -/
theorem takeTrap_inside (s : State) (t : StrandId) (r : Region) (cause mask : BitVec 8) (sub : BitVec 4) (faddr : W64)
    (hr : (s.strand t).region = some r) (hl : (s.strand t).lastFault = none) (hin : (s.strand t).inflight = []) :
    let s' := s.takeTrap t cause mask sub faddr
    let x := s'.strand t
    let old := s.strand t
    x.g = r.snap.g ∧ x.rbcause = 7 ∧ x.rbaddr = old.pc ∧ x.region = none ∧ x.pc = r.bundle ∧ x.step = old.step + 1 ∧
    x.trap.cause = cause ∧ x.trap.bundle = old.pc ∧ x.trap.restart = r.bundle ∧ x.trap.step = old.step + 1 ∧
    x.trap.region.toNat = (1 + 2 * r.guards.length + 256 * min (old.step + 1 - r.step).toNat 0x1FFFF) % 2 ^ 32 ∧
    (s'.ctx t.ctxId).suspending = true ∧ s'.mem = s.mem := by
  have hx := rollback_strand s t r 7 (s.strand t).pc hr (fun e he => absurd (hin ▸ he) List.not_mem_nil)
  have hmem := rollback_mem s t 7 (s.strand t).pc
  have hword := regionWord_open (s.strand t) r ((s.strand t).step + 1) hr
  rw [takeTrap_some s t cause mask sub faddr r hr]
  generalize s.rollback t 7 (s.strand t).pc = s1 at hx hmem
  generalize (s.strand t).regionWord ((s.strand t).step + 1) = w at hword
  have hcause := trapRecord_cause_first s1 t cause mask sub faddr (s.strand t).pc ((s.strand t).step + 1) w r.bundle (by rw [hx]; exact hl)
  have hrbaddr := trapRecord_rbaddr s1 t cause mask sub faddr (s.strand t).pc ((s.strand t).step + 1) w r.bundle
  obtain ⟨hg, -, -, hstep, -, hpc, -, -, -, -, -, hbundle, hrestart⟩ :=
    trapRecord_strand s1 t cause mask sub faddr (s.strand t).pc ((s.strand t).step + 1) w r.bundle
  obtain ⟨hregion, hrbcause⟩ := trapRecord_region s1 t cause mask sub faddr (s.strand t).pc ((s.strand t).step + 1) w r.bundle
  obtain ⟨htstep, htregion, hsuspending⟩ := trapRecord_given s1 t cause mask sub faddr (s.strand t).pc ((s.strand t).step + 1) w r.bundle
  rw [hx] at hg hstep hregion hrbcause hrbaddr
  exact ⟨hg, hrbcause, hrbaddr, hregion, hpc, hstep, hcause, hbundle, hrestart, htstep,
    (congrArg BitVec.toNat htregion).trans hword, hsuspending, hmem⟩

/-- Settles O19: a trap outside a region, one in a region, then what the count of identical faults decides. -/
theorem trapsTaken : Obligations.TrapsTaken := by
  unfold Obligations.TrapsTaken
  refine ⟨takeTrap_outside, takeTrap_inside, fun s t cause mask sub faddr hr hl => ?_⟩
  rw [takeTrap_none s t cause mask sub faddr hr]
  obtain ⟨hcause, hrepeat, -, hparked⟩ :=
    trapRecord_run s t cause mask sub faddr (s.strand t).pc ((s.strand t).step + 1) 0 (s.strand t).pc
  rw [faultRun_again _ _ _ _ _ hl] at hcause hrepeat hparked
  refine ⟨fun h => ?_, fun h => ?_⟩
  · have hk : (s.strand t).repeats + 1 ≥ 16 := by omega
    rw [hcause, hparked, if_pos hk, decide_eq_true hk]
    exact ⟨rfl, Bool.or_true _⟩
  · have hk : ¬(s.strand t).repeats + 1 ≥ 16 := by omega
    rw [hcause, hrepeat, hparked, if_neg hk, decide_eq_false hk]
    exact ⟨rfl, rfl, Bool.or_false _⟩

/-! ## The trap record in memory (12 R220) -/

theorem memWriteBytes_append (xs ys : List Byte) (m : Memory) (a : Nat) :
    memWriteBytes m a (xs ++ ys) = memWriteBytes (memWriteBytes m a xs) (a + xs.length) ys := by
  induction xs generalizing m a with
  | nil => rfl
  | cons x xs ih => rw [List.cons_append, memWriteBytes, ih, memWriteBytes, List.length_cons, Nat.add_right_comm a, Nat.add_assoc]

/-- Words in a row are written as their bytes are. -/
theorem memSetWords_eq (ws : List W64) (m : Memory) (a : Nat) :
    memSetWords m a ws = memWriteBytes m a (ws.flatMap fun w => leBytes 8 w.toNat) := by
  induction ws generalizing m a with
  | nil => rfl
  | cons w ws ih => rw [memSetWords, ih, List.flatMap_cons, memWriteBytes_append, length_leBytes, memSetWord]

theorem memRead_memSetWords (ws : List W64) (m : Memory) (a b : Nat) (h : b < a ∨ a + 8 * ws.length ≤ b) :
    memRead (memSetWords m a ws) b = memRead m b := by
  induction ws generalizing m a with
  | nil => rfl
  | cons w ws ih =>
    rw [List.length_cons] at h
    rw [memSetWords, ih _ _ (by omega), memRead_memSetWord _ _ _ _ (by omega)]

theorem memWord_memSetWords_other (ws : List W64) (m : Memory) (a b : Nat) (h : b + 8 ≤ a ∨ a + 8 * ws.length ≤ b) :
    memWord (memSetWords m a ws) b = memWord m b := by
  induction ws generalizing m a with
  | nil => rfl
  | cons w ws ih =>
    rw [List.length_cons] at h
    rw [memSetWords, ih _ _ (by omega), memWord_memSetWord_other _ _ _ _ (by omega)]

/-- Each of the words written is read back at its place. -/
theorem memWord_memSetWords (ws : List W64) (m : Memory) (a i : Nat) (h : i < ws.length) :
    memWord (memSetWords m a ws) (a + 8 * i) = ws[i] := by
  induction ws generalizing m a i with
  | nil => exact absurd h (Nat.not_lt_zero i)
  | cons w ws ih =>
    rw [memSetWords]
    cases i with
    | zero => rw [memWord_memSetWords_other _ _ _ _ (by omega), Nat.mul_zero, Nat.add_zero, memWord_memSetWord, List.getElem_cons_zero]
    | succ i => rw [show a + 8 * (i + 1) = a + 8 + 8 * i by omega, ih _ _ i (Nat.lt_of_succ_lt_succ h), List.getElem_cons_succ]

theorem storeTrap_mem (s : State) (t : StrandId) :
    (s.storeTrap t).mem = memSetWords s.mem ((s.bindOf t.ctxId).save.toNat + 64 * t.core.val) (s.strand t).trap.words := by
  rw [State.storeTrap, homeWrite_mem, memApply_withOffsets, memSetWords_eq]

/-- The fields of the first word of a record do not reach past 36 bits. -/
theorem trapWord_toNat (r : TrapRec) : (r.words[0]'(Nat.zero_lt_succ 7)).toNat = r.cause.toNat + 2 ^ 8 * r.mask.toNat + 2 ^ 16 * r.sub.toNat +
    2 ^ 20 * r.reissue.toNat + 2 ^ 22 * r.replay.toNat + 2 ^ 29 * r.repeat_.toNat + 2 ^ 34 * r.valid.toNat := by
  have hcause := r.cause.isLt
  have hmask := r.mask.isLt
  have hsub := r.sub.isLt
  have hreissue := r.reissue.isLt
  have hreplay := r.replay.isLt
  have hrepeat := r.repeat_.isLt
  have hvalid := r.valid.toNat_le
  exact (BitVec.toNat_ofNat _ _).trans (Nat.mod_eq_of_lt (by omega))

/-! ## The return from a trap (12 R221) -/

/-- A strand as it goes on from its trap, at the restart address that its record in memory holds. -/
def resumedAt (x : Strand) (restart : W64) : Strand :=
  { x with pc := restart, attached := false, queue := [], hold := none, notice := 0, trap := { x.trap with valid := false, restart := restart } }

theorem resumedAt_parts (x : Strand) (a : W64) : let y := resumedAt x a
    y.pc = a ∧ y.attached = false ∧ y.queue = [] ∧ y.trap = { x.trap with valid := false, restart := a } ∧
      y.step = x.step ∧ y.g = x.g ∧ y.v = x.v ∧ y.k = x.k ∧ y.inflight = x.inflight :=
  ⟨rfl, rfl, rfl, rfl, rfl, rfl, rfl, rfl, rfl⟩

theorem resumeStrand_strand (s : State) (t : StrandId) (h : (s.strand t).trap.valid = true) :
    (s.resumeStrand t).strand t = resumedAt (s.strand t) (s.deviceWord ((s.bindOf t.ctxId).save.toNat + 64 * t.core.val + 40)) := by
  unfold State.resumeStrand
  rw [if_pos h, storeTrap_strand, strand_setStrand_self]
  rfl

/-- Settles O20: the record word by word, then the strand that returns. -/
theorem trapRecordAndReturn : Obligations.TrapRecordAndReturn := by
  unfold Obligations.TrapRecordAndReturn
  refine ⟨fun s t _ => ?_, fun s t => ⟨resumeStrand_idle s t, fun h => ?_⟩⟩
  · intro a r m
    have hm : m = memSetWords s.mem a r.words := storeTrap_mem s t
    have hword (i : Nat) (hi : i < 8) : memWord m (a + 8 * i) = r.words[i] := hm ▸ memWord_memSetWords r.words s.mem a i hi
    refine ⟨hword 1 (by decide), hword 2 (by decide), hword 3 (by decide), (hword 4 (by decide)).trans (BitVec.ofNat_toNat 64 r.region).symm,
      hword 5 (by decide), hword 6 (by decide), hword 7 (by decide), ?_, fun b hb => ?_⟩
    · rw [← trapWord_toNat, ← hword 0 (by decide), Nat.mul_zero, Nat.add_zero]
    · rw [hm]
      exact memRead_memSetWords r.words s.mem a b hb
  · rw [resumeStrand_strand s t h]
    obtain ⟨hpc, hattached, hqueue, htrap, hstep, hg, hv, hk, hin⟩ := resumedAt_parts (s.strand t) _
    exact ⟨hpc, hattached, hqueue, htrap, hstep, hg, hv, hk, hin, fun u hu => resumeStrand_other s t u hu⟩

end Sys2Proof.Proofs

namespace Sys2Proof.Proofs
open Sys2Proof Sys2Proof.Machine Sys2Proof.Laws

/-! # Commands on address spaces -/

/-! ## The command service (23 R369) -/

/-- The oldest command, in order and of its kind, completes with what its work comes to. -/
theorem command_finishes {s s1 : State} {c : Cmd} {op status : Nat} {f : Cmd → State → Done} {res : List W64} (h : Commanded s c op)
    (hf : f c s = .finish status res s1) : s.command op f = .next (s1.complete c status res) := by
  obtain ⟨⟨r, hcmds⟩, hopen, hop, hhalted, hreserved⟩ := h
  have hwindow : ¬(!s.windowOpen) = true := by rw [hopen]; decide
  have hkind : ¬(c.op.toNat ≠ op ∧ 1 ≤ c.op.toNat ∧ c.op.toNat ≤ 14) := fun k => k.1 hop
  have hrun : ¬(s.halted = true ∧ c.op ≠ 10) := fun k => Bool.false_ne_true (hhalted.symm.trans k.1)
  have hfields : ¬(c.op.toNat ≠ op ∨ c.reservedOk = false) := fun k => k.elim (· hop) fun k => Bool.false_ne_true (k.symm.trans hreserved)
  unfold State.command
  rw [hcmds]
  dsimp only
  rw [if_neg hwindow, if_neg hkind, if_neg hrun, if_neg hfields, hf]

/-! ## ASID_ALLOC (12 R233) -/

theorem freeAsidFrom_none (s : State) (n fuel : Nat) (h : s.freeAsidFrom n fuel = none) :
    ∀ k, n ≤ k → k < n + fuel → (s.liveAsid (BitVec.ofNat 11 k)).isSome = true := by
  induction fuel generalizing n with
  | zero => exact fun k hle hlt => absurd hlt (Nat.not_lt.2 hle)
  | succ fuel ih =>
    unfold State.freeAsidFrom at h
    split at h
    case isTrue hlive =>
      intro k hle hlt
      obtain rfl | hne := Nat.eq_or_lt_of_le hle
      · exact hlive
      · exact ih _ h k hne (by omega)
    case isFalse => cases h

/-- The ASID found is free, and every one below it is live. -/
theorem freeAsidFrom_some (s : State) (n fuel m : Nat) (h : s.freeAsidFrom n fuel = some m) :
    m < n + fuel ∧ (s.liveAsid (BitVec.ofNat 11 m)).isSome ≠ true ∧
      ∀ k, n ≤ k → k < m → (s.liveAsid (BitVec.ofNat 11 k)).isSome = true := by
  induction fuel generalizing n with
  | zero => cases h
  | succ fuel ih =>
    unfold State.freeAsidFrom at h
    split at h
    case isTrue hlive =>
      obtain ⟨hlt, hfree, hbelow⟩ := ih _ h
      refine ⟨by omega, hfree, fun k hle hkm => ?_⟩
      obtain rfl | hne := Nat.eq_or_lt_of_le hle
      · exact hlive
      · exact hbelow k hne hkm
    case isFalse hfree =>
      cases h
      exact ⟨by omega, hfree, fun k hle hlt => absurd hlt (Nat.not_lt.2 hle)⟩

theorem asidAlloc_full (s : State) (c : Cmd) (h : Commanded s c 5) (hfull : s.freeAsidFrom 0 2048 = none) :
    exec .asidAlloc s = .next (s.complete c 1 []) := by
  rw [exec_asidAlloc, execAsidAlloc]
  refine command_finishes h ?_
  dsimp only
  rw [hfull]
  rfl

/-- The record of an ASID, or one of generation 0 without a root. -/
def asidRecord (s : State) (n : Nat) : AsidRec := (tget s.asids n).getD ⟨0, 0, false, []⟩

theorem getD_getD_self {α : Type} (o : Option α) (d : α) : o.getD (o.getD d) = o.getD d := by
  cases o <;> rfl

theorem asidAlloc_rooted (s : State) (c : Cmd) (n : Nat) (h : Commanded s c 5) (hn : s.freeAsidFrom 0 2048 = some n) (hroot : c.word 1 ≠ 0)
    (halign : (c.word 1).toNat % 4096 = 0) (hlt : (c.word 1).toNat < 2 ^ 48) : exec .asidAlloc s =
      .next (({ s with asids := tset s.asids n { asidRecord s n with root := (c.word 1).toNat, live := true } } : State).complete c 0
        [BitVec.ofNat 64 (n + (asidRecord s n).gen.toNat * 2 ^ 16)]) := by
  have hne : (c.word 1).toNat ≠ 0 := fun k => hroot (BitVec.eq_of_toNat_eq k)
  have hpage : (c.word 1).toNat % 2 ^ 48 / 4096 * 4096 = (c.word 1).toNat := by omega
  rw [exec_asidAlloc, execAsidAlloc]
  refine command_finishes h ?_
  dsimp only
  rw [hn]
  dsimp only
  rw [if_neg hne, hpage]
  exact congrArg (fun x : AsidRec => Done.finish 0 [BitVec.ofNat 64 (n + (asidRecord s n).gen.toNat * 2 ^ 16)]
    { s with asids := tset s.asids n { x with root := (c.word 1).toNat, live := true } }) (getD_getD_self (tget s.asids n) _)

theorem asidAlloc_pooled (s : State) (c : Cmd) (n : Nat) (h : Commanded s c 5) (hn : s.freeAsidFrom 0 2048 = some n) (hroot : c.word 1 = 0) :
    ∃ (s1 : State) (r : AsidRec), exec .asidAlloc s =
      .next (s1.complete c 0 [BitVec.ofNat 64 (n + (asidRecord s n).gen.toNat * 2 ^ 16)]) ∧
      tget s1.asids n = some r ∧ r.live = true ∧ r.root = poolAt n := by
  have hz : (c.word 1).toNat = 0 := congrArg BitVec.toNat hroot
  let s1 := (s.takePool (BitVec.ofNat 11 n) n).2
  have hrun : exec .asidAlloc s = .next (({ s1 with
      asids := tset s1.asids n { (tget s1.asids n).getD (asidRecord s n) with root := poolAt n, live := true } } : State).complete c 0
      [BitVec.ofNat 64 (n + (asidRecord s n).gen.toNat * 2 ^ 16)]) := by
    rw [exec_asidAlloc, execAsidAlloc]
    refine command_finishes h ?_
    dsimp only
    rw [hn]
    exact if_pos hz
  exact ⟨_, _, hrun, tget_tset_self _ _ _, rfl, rfl⟩

/-! ## Translations dropped (12 R232) -/

theorem flushTlbs_cluster (s : State) (f : TlbEntry → Bool) (l : ClusterId) :
    ((s.flushTlbs f).cluster l).tlb = (s.cluster l).tlb.filter fun e => !f e := by
  simp only [State.flushTlbs, State.cluster]
  rw [tget_map]
  · cases tget s.clusters l.key <;> rfl
  · exact fun _ => rfl

theorem flushTlbs_die (s : State) (f : TlbEntry → Bool) (d : DieId) :
    ((s.flushTlbs f).die d).tlb = ((s.die d).tlb.filter fun e => !f e) ∧ ((s.flushTlbs f).die d).walks = [] := by
  simp only [State.flushTlbs, State.die]
  rw [tget_map]
  · cases tget s.dies d.val <;> exact ⟨rfl, rfl⟩
  · exact fun _ => rfl

/-! ## ASID_RETIRE (12 R233) -/

theorem asidRetire_advances (s : State) (c : Cmd) (r : AsidRec) (h : Commanded s c 6) (hr : s.liveAsid (asidOf (c.word 1)) = some r)
    (hg : r.gen ≠ 15) : exec .asidRetire s = .next (({ s with
      asids := tset s.asids (asidOf (c.word 1)).toNat { r with gen := r.gen + 1, live := false, tables := [] }
      graphs := s.graphs.filter fun g => g.2.asid != asidOf (c.word 1) || g.2.running } : State).complete c 0 [(r.gen + 1).setWidth 64]) := by
  have hwrap : r.gen + 1 ≠ 0 := by
    intro k
    exact hg (by bv_omega)
  rw [exec_asidRetire, execAsidRetire]
  refine command_finishes h ?_
  dsimp only
  rw [hr]
  dsimp only
  rw [if_neg hwrap]

/-- At the wrap of the generation every translation of the ASID is dropped. -/
theorem asidRetire_wraps (s : State) (c : Cmd) (r : AsidRec) (h : Commanded s c 6) (hr : s.liveAsid (asidOf (c.word 1)) = some r)
    (hg : r.gen = 15) : exec .asidRetire s = .next (({ s.flushTlbs (fun e => e.asid == asidOf (c.word 1)) with
      asids := tset s.asids (asidOf (c.word 1)).toNat { r with gen := 0, live := false, tables := [] }
      graphs := s.graphs.filter fun g => g.2.asid != asidOf (c.word 1) || g.2.running } : State).complete c 0 [0]) := by
  have hwrap : r.gen + 1 = 0 := by rw [hg]; rfl
  rw [exec_asidRetire, execAsidRetire]
  refine command_finishes h ?_
  dsimp only
  rw [hr]
  dsimp only
  rw [if_pos hwrap, hwrap]
  rfl

theorem asid_of_flushed {es : List TlbEntry} {a : BitVec 11} {e : TlbEntry} (h : e ∈ es.filter fun e => !(e.asid == a)) : e.asid ≠ a := by
  simpa using (List.mem_filter.1 h).2

/-! ## PTSYNC (12 R234) -/

/-- The translations of a range of an ASID (12 R234). -/
def staleIn (a : BitVec 11) (va len : Nat) (e : TlbEntry) : Bool :=
  e.asid == a && rangesMeet (e.vpn * 2 ^ pageBits e.size) (2 ^ pageBits e.size) va len

theorem ptsyncRange_done (s : State) (c : Cmd) (a : BitVec 11) (va len : Nat) (hm : c.mark = none)
    (h : (s.flushTlbs (staleIn a va len)).translatedPending a va len (s.flushTlbs (staleIn a va len)).seq = false) :
    s.ptsyncRange c a va len = .finish 0 [] (s.flushTlbs (staleIn a va len)) := by
  unfold State.ptsyncRange
  rw [hm]
  exact if_neg (ne_true_of_eq_false h)

theorem ptsync_refused (s : State) (c : Cmd) (h : Commanded s c 7) (hr : s.liveAsid (asidOf (c.word 1)) = none) :
    exec .ptsync s = .next (s.complete c 1 []) := by
  rw [exec_ptsync, execPtsync]
  refine command_finishes h ?_
  dsimp only
  rw [hr]
  rfl

theorem ptsync_completes (s : State) (c : Cmd) (r : AsidRec) (h : Commanded s c 7) (hr : s.liveAsid (asidOf (c.word 1)) = some r)
    (hm : c.mark = none) (hlen : (c.word 3).toNat ≠ 0)
    (hp : (s.flushTlbs (staleIn (asidOf (c.word 1)) (c.word 2).toNat (c.word 3).toNat)).translatedPending (asidOf (c.word 1)) (c.word 2).toNat
      (c.word 3).toNat s.seq = false) :
    exec .ptsync s = .next ((s.flushTlbs (staleIn (asidOf (c.word 1)) (c.word 2).toNat (c.word 3).toNat)).complete c 0 []) := by
  rw [exec_ptsync, execPtsync]
  refine command_finishes h ?_
  dsimp only
  rw [hr]
  dsimp only
  rw [if_neg hlen]
  exact ptsyncRange_done s c _ _ _ hm hp

/-! ## MAP and UNMAP (23 R371, R384) -/

/-- An entry is written once no copy of its line stands outside memory. -/
theorem writeEntry_ok (s s1 : State) (pa : Nat) (e : W64) (h : s.purgeLines [lineOf pa] = some s1) :
    s.writeEntry pa e = .ok { s1 with mem := memSetWord s1.mem pa e } := by
  simp only [State.writeEntry, State.engineStore, h]

/-- Where the tables have the place of a leaf, the leaf is written there. -/
theorem mapPage_entry (s : State) (a : BitVec 11) (table va target : Nat) (leaf : W64) (levels : List Nat) (pa : Nat) (e : W64)
    (h : s.pageSlot table va target levels = .entry pa e) : s.mapPage a table va target leaf levels = s.writeEntry pa leaf := by
  induction levels generalizing table with
  | nil => cases h
  | cons l r ih =>
    unfold State.pageSlot at h
    unfold State.mapPage
    dsimp only at h ⊢
    by_cases hl : l = target
    · rw [if_pos hl] at h ⊢
      cases h
      rfl
    · rw [if_neg hl] at h ⊢
      by_cases hv : pteV (s.deviceWord (table + 8 * vaIndex va l)) = true
      · rw [if_neg (by rw [hv]; decide)] at h
        rw [if_pos hv]
        split at h
        · cases h
        · split at h
          · cases h
          · exact ih _ h
      · rw [if_pos (by simpa using hv)] at h
        cases h

theorem pagesOk_one (va z : Nat) (halign : va % 2 ^ pageBits z = 0) (hlo : 0x100000000 ≤ va) (hhi : va + 2 ^ pageBits z ≤ 2 ^ 57) :
    pagesOk va 1 z = true :=
  decide_eq_true ⟨Nat.le_refl 1, by decide, halign, hlo, by rwa [Nat.one_mul]⟩

theorem map_writes (s : State) (c : Cmd) (r : AsidRec) (pa : Nat) (e : W64) (s1 : State) (h : Commanded s c 3)
    (hr : s.liveAsid (asidOf (c.word 1)) = some r) (hn : (c.word 3).toNat = 1) (htags : c.word 5 = 0)
    (hpages : pagesOk (c.word 2).toNat 1 (pteSz (c.word 4)) = true) (hleaf : s.templateOk (c.word 4) 1 = true)
    (hslot : s.pageSlot r.root (c.word 2).toNat (pteSz (c.word 4)) walkLevels = .entry pa e) (hsmall : s.smallerLeaf (pteSz (c.word 4)) e = false)
    (hpurge : s.purgeLines [lineOf pa] = some s1) :
    exec .map s = .next (({ s1 with mem := memSetWord s1.mem pa (c.word 4) } : State).complete c 0 []) := by
  have hranges : c.tagRanges = [] := by rw [Cmd.tagRanges, htags]; rfl
  have hmappable : s.mappable r.root (c.word 2).toNat (pteSz (c.word 4)) = true := by simp only [State.mappable, hslot, hsmall, Bool.not_false]
  have hmapped : s.mapPages (asidOf (c.word 1)) r.root (c.word 2).toNat (c.word 4) 1 = .ok { s1 with mem := memSetWord s1.mem pa (c.word 4) } := by
    simp only [State.mapPages, mapPage_entry s _ _ _ _ _ _ pa e hslot, writeEntry_ok s s1 pa _ hpurge]
  rw [exec_map, execMap]
  refine command_finishes h ?_
  dsimp only
  rw [hr, hn, hranges]
  dsimp only
  rw [hpages, hleaf, hmapped]
  simp [hmappable]

/-- A leaf of its own size is no pointer to smaller ones. -/
theorem smallerLeaf_leaf (s : State) (z : Nat) (e : W64) (hz : z < 3) (he : pteSz e = z) : s.smallerLeaf z e = false := by
  have hne : (pteSz e == 3) = false := by simpa [he] using Nat.ne_of_lt hz
  rw [State.smallerLeaf, hne, Bool.and_false, Bool.false_and]

theorem unmap_clears (s : State) (c : Cmd) (r : AsidRec) (pa : Nat) (e : W64) (s1 : State) (h : Commanded s c 4)
    (hr : s.liveAsid (asidOf (c.word 1)) = some r) (hn : (c.word 3).toNat = 1) (hm : c.mark = none) (hz : (c.word 4).toNat < 3)
    (hpages : pagesOk (c.word 2).toNat 1 (c.word 4).toNat = true)
    (hslot : s.pageSlot r.root (c.word 2).toNat (c.word 4).toNat walkLevels = .entry pa e) (hv : pteV e = true)
    (hform : pteMalformed (c.word 4).toNat e = false) (hsize : pteSz e = (c.word 4).toNat) (hpurge : s.purgeLines [lineOf pa] = some s1) :
    let s2 : State := { s1 with mem := memSetWord s1.mem pa 0 }
    let s3 := s2.flushTlbs (staleIn (asidOf (c.word 1)) (c.word 2).toNat (2 ^ pageBits (c.word 4).toNat))
    s3.translatedPending (asidOf (c.word 1)) (c.word 2).toNat (2 ^ pageBits (c.word 4).toNat) s3.seq = false →
      exec .unmap s = .next (s3.complete c 0 []) := by
  intro s2 s3 hp
  have hunmappable : s.unmappable r.root (c.word 2).toNat (c.word 4).toNat = true := by
    simp only [State.unmappable, hslot, smallerLeaf_leaf s _ e hz hsize, Bool.not_false]
  have hcleared : s.unmapPages r.root (c.word 2).toNat (c.word 4).toNat 1 = .ok s2 := by
    simp only [State.unmapPages, hslot, hv, hform, hsize, writeEntry_ok s s1 pa 0 hpurge, Bool.not_false, beq_self_eq_true, Bool.and_self, if_true]
    rfl
  rw [exec_unmap, execUnmap]
  refine command_finishes h ?_
  dsimp only
  rw [hm, hr, hn]
  dsimp only
  rw [hpages, hcleared, Nat.one_mul]
  simp [hunmappable, Nat.ne_of_lt hz, ptsyncRange_done s2 c _ _ _ hm hp]
  rfl

/-- Settles O48: the search for a free ASID, then each command by what its work comes to. -/
theorem addressSpaceCommands : Obligations.AddressSpaceCommands := by
  unfold Obligations.AddressSpaceCommands
  refine ⟨fun s => ⟨fun h k hk => freeAsidFrom_none s 0 2048 h k (Nat.zero_le k) (by omega), fun n h => ?_⟩,
    fun s c hc => ⟨asidAlloc_full s c hc, fun n hn => ⟨asidAlloc_rooted s c n hc hn, asidAlloc_pooled s c n hc hn⟩⟩,
    asidRetire_advances, fun s c r hc hr hg => ⟨fun l e he => ?_, fun d => ⟨fun e he => ?_, ?_⟩, asidRetire_wraps s c r hc hr hg⟩,
    ptsync_refused, fun s c r hc hr hm hlen => ⟨fun l => ?_, fun d => ?_, fun d => ?_, ptsync_completes s c r hc hr hm hlen⟩,
    fun s c r pa e s1 hc hr hn htags halign hlo hhi hleaf hslot hsmall hpurge =>
      map_writes s c r pa e s1 hc hr hn htags (pagesOk_one _ _ halign hlo hhi) hleaf hslot hsmall hpurge,
    fun s c r pa e s1 hc hr hn hm hz halign hlo hhi hslot hv hform hsize hpurge =>
      unmap_clears s c r pa e s1 hc hr hn hm hz (pagesOk_one _ _ halign hlo hhi) hslot hv hform hsize hpurge⟩
  · obtain ⟨hlt, hfree, hbelow⟩ := freeAsidFrom_some s 0 2048 n h
    exact ⟨by omega, hfree, fun k hk => hbelow k (Nat.zero_le k) hk⟩
  · rw [flushTlbs_cluster] at he
    exact asid_of_flushed he
  · rw [(flushTlbs_die _ _ d).1] at he
    exact asid_of_flushed he
  · exact (flushTlbs_die _ _ d).2
  · exact flushTlbs_cluster _ _ l
  · exact (flushTlbs_die _ _ d).1
  · exact (flushTlbs_die _ _ d).2

end Sys2Proof.Proofs

namespace Sys2Proof.Proofs
open Sys2Proof Sys2Proof.Machine Sys2Proof.Laws

/-! # Stops of contexts -/

/-! ## One strand after the other -/

/-- A strand that no step of a fold changes is as it was. -/
theorem strand_foldl_other {ι : Type} (f : State → ι → State) (is : List ι) (u : StrandId)
    (hother : ∀ s, ∀ i ∈ is, (f s i).strand u = s.strand u) (s : State) : (is.foldl f s).strand u = s.strand u :=
  List.foldlRecOn (motive := fun v => v.strand u = s.strand u) is f rfl fun v hv i hi => (hother v i hi).trans hv

/-- Where each step of a fold changes the strand it is for and no other of them, each strand is changed once. -/
theorem strand_foldl_each {ι : Type} (f : State → ι → State) (place : ι → StrandId) (R : ι → Strand → Strand → Prop) (is : List ι)
    (hnodup : is.Nodup) (hself : ∀ s i, R i (s.strand (place i)) ((f s i).strand (place i)))
    (hother : ∀ s, ∀ i ∈ is, ∀ j ∈ is, j ≠ i → (f s i).strand (place j) = s.strand (place j)) (s : State) :
    ∀ i ∈ is, R i (s.strand (place i)) ((is.foldl f s).strand (place i)) := by
  induction is generalizing s with
  | nil => exact fun i hi => absurd hi List.not_mem_nil
  | cons i is ih =>
    obtain ⟨hi, hnodup⟩ := List.nodup_cons.1 hnodup
    have htail : ∀ s, ∀ k ∈ is, ∀ j ∈ is, j ≠ k → (f s k).strand (place j) = s.strand (place j) :=
      fun s k hk j hj => hother s k (List.mem_cons_of_mem _ hk) j (List.mem_cons_of_mem _ hj)
    intro j hj
    rw [List.foldl_cons]
    obtain rfl | hj := List.mem_cons.1 hj
    · rw [strand_foldl_other f is (place j) fun v k hk =>
        hother v k (List.mem_cons_of_mem _ hk) j List.mem_cons_self fun h => hi (h ▸ hk)]
      exact hself s j
    · have hne : j ≠ i := fun h => hi (h ▸ hj)
      rw [← hother s i List.mem_cons_self j (List.mem_cons_of_mem _ hj) hne]
      exact ih hnodup htail (f s i) j hj

/-! ## Suspension completes (12 R219) -/

/-- A strand y as it stands when the context of x is suspended: the record of a trapping one is valid. -/
def SuspendedFrom (x y : Strand) : Prop :=
  y.trapping = false ∧ y.g = x.g ∧ y.step = x.step ∧ y.inflight = x.inflight ∧ y.pc = x.pc ∧
    (x.trapping = true → y.trap = { x.trap with valid := true, replay := BitVec.ofNat 7 x.inflight.length })

theorem suspendStrand_suspended (s : State) (t : StrandId) : SuspendedFrom (s.strand t) ((s.suspendStrand t).strand t) := by
  unfold State.suspendStrand
  dsimp only
  split
  case isTrue =>
    rw [storeTrap_strand, strand_setStrand_self]
    exact ⟨rfl, rfl, rfl, rfl, rfl, fun _ => rfl⟩
  case isFalse h =>
    rw [strand_setStrand_self]
    exact ⟨Bool.eq_false_iff.2 h, rfl, rfl, rfl, rfl, fun k => absurd k h⟩

theorem suspendStrand_ctxs (s : State) (t : StrandId) : (s.suspendStrand t).ctxs = s.ctxs := by
  unfold State.suspendStrand
  dsimp only
  split
  · rw [storeTrap_ctxs, setStrand_ctxs]
  · rfl

theorem suspend_strand (s : State) (c : CtxId) (t : StrandId) (ht : t ∈ c.strands) :
    SuspendedFrom (s.strand t) ((s.suspend c).strand t) :=
  strand_foldl_each State.suspendStrand id (fun _ => SuspendedFrom) c.strands (strands_nodup c) suspendStrand_suspended
    (fun s t _ u _ hu => suspendStrand_other s t u fun h => hu (strand_key_inj u t h)) s t ht

theorem suspend_ctx (s : State) (c : CtxId) : (s.suspend c).ctx c = { s.ctx c with
    run := if (s.ctx c).run = .running ∨ (s.ctx c).run = .waiting then .ready else (s.ctx c).run
    suspending := false, trapped := (s.ctx c).trapped || c.strands.any fun t => (s.strand t).trapping
    frozen := (s.ctx c).frozen || (s.ctx c).freezing, freezing := false } := by
  have hctxs : (c.strands.foldl State.suspendStrand s).ctxs = s.ctxs :=
    foldl_keeps (fun u : State => u.ctxs = s.ctxs) State.suspendStrand (fun u t hu => (suspendStrand_ctxs u t).trans hu) c.strands s rfl
  have hctx : (c.strands.foldl State.suspendStrand s).ctx c = s.ctx c := congrArg (fun x => (tget x c.key).getD Context.reset) hctxs
  unfold State.suspend
  dsimp only
  rw [ctx_setCtx_self, hctx]

theorem suspensionComplete_suspends (s : State) (c : CtxId) (hs : (s.ctx c).suspending = true) (hq : ∀ t ∈ c.strands, (s.strand t).pend = []) :
    exec (.suspensionComplete c) s = .next (s.suspend c) := by
  have hquiet : s.quiet c = true := List.all_eq_true.2 fun t ht => by rw [hq t ht]; rfl
  exact if_pos (by rw [hs, hquiet]; rfl)

theorem suspend_parts (s : State) (c : CtxId) : let s' := s.suspend c
    (s'.ctx c).suspending = false ∧
    ((s'.ctx c).trapped = true ↔ (s.ctx c).trapped = true ∨ ∃ t ∈ c.strands, (s.strand t).trapping = true) ∧
    ((s'.ctx c).frozen = true ↔ (s.ctx c).frozen = true ∨ (s.ctx c).freezing = true) ∧ (s'.ctx c).run ≠ .running ∧
    ∀ t ∈ c.strands, (s'.strand t).trapping = false ∧ (s'.strand t).g = (s.strand t).g ∧ (s'.strand t).step = (s.strand t).step ∧
      (s'.strand t).inflight = (s.strand t).inflight ∧ (s'.strand t).pc = (s.strand t).pc ∧
      ((s.strand t).trapping = true → (s'.strand t).trap =
        { (s.strand t).trap with valid := true, replay := BitVec.ofNat 7 (s.strand t).inflight.length }) := by
  intro s'
  have hc : s'.ctx c = _ := suspend_ctx s c
  rw [hc]
  refine ⟨rfl, ?_, Bool.or_eq_true _ _ ▸ Iff.rfl, ?_, suspend_strand s c⟩
  · rw [Bool.or_eq_true, List.any_eq_true]
  · intro hrun
    dsimp only at hrun
    split at hrun
    case isTrue => cases hrun
    case isFalse h => exact h (.inl hrun)

/-! ## Freezing, and its resume (12 R224) -/

/-- The other copy of a context is on another cluster. -/
theorem mateOf_cluster (s : State) (c : CtxId) :
    (s.mateOf c).cluster = Fin.ofNat 32 (if c.cluster.val % 2 = 0 then c.cluster.val + 1 else c.cluster.val - 1) := by
  unfold State.mateOf
  exact (apply_ite CtxId.cluster _ _ _).trans (ite_self _)

theorem mateOf_cluster_ne (s : State) (c : CtxId) : (s.mateOf c).cluster ≠ c.cluster := by
  intro h
  have hv := congrArg Fin.val ((mateOf_cluster s c).symm.trans h)
  have hlt := c.cluster.isLt
  rw [Fin.val_ofNat] at hv
  split at hv <;> omega

/-- The other copy of a trailing copy leads. -/
theorem mateOf_leads (s : State) (c : CtxId) (h : s.trails c = true) : s.trails (s.mateOf c) = false := by
  have hodd : c.cluster.val % 2 = 1 := of_decide_eq_true (Bool.and_eq_true_iff.1 h).2
  have heven : ¬(s.mateOf c).cluster.val % 2 = 1 := by
    have hlt := c.cluster.isLt
    rw [mateOf_cluster, if_neg (by omega), Fin.val_ofNat]
    omega
  rw [State.trails, decide_eq_false heven, Bool.and_false]

theorem leading_self (s : State) (c : CtxId) (h : s.trails c = false) : s.leading c = c := if_neg (ne_true_of_eq_false h)

theorem leading_mate (s : State) (c : CtxId) (h : s.trails c = true) : s.leading c = s.leading (s.mateOf c) := by
  rw [leading_self s _ (mateOf_leads s c h)]
  exact if_pos h

theorem freeze_mate (s : State) (c : CtxId) (h : s.trails c = true) : exec (.freeze c) s = exec (.freeze (s.mateOf c)) s := by
  rw [exec_freeze, exec_freeze, execFreeze, execFreeze, leading_mate s c h]

theorem controlCoreResume_mate (s : State) (c : CtxId) (h : s.trails c = true) :
    exec (.controlCoreResume c) s = exec (.controlCoreResume (s.mateOf c)) s := by
  rw [exec_controlCoreResume, exec_controlCoreResume, execControlCoreResume, execControlCoreResume, leading_mate s c h]

theorem freeze_freezes (s : State) (c : CtxId) (hl : s.trails c = false) (hv : (s.bindOf c).valid = true) (hf : (s.ctx c).frozen = false) :
    exec (.freeze c) s = .next (s.freezeCtx c) := by
  rw [exec_freeze, execFreeze, leading_self s c hl]
  exact if_pos (by rw [hv, hf]; rfl)

theorem controlCoreResume_resumes (s : State) (c : CtxId) (hl : s.trails c = false) (hh : s.halted = false) (hf : (s.ctx c).frozen = true) :
    exec (.controlCoreResume c) s = .next (s.setCtx c { s.ctx c with frozen := false, ready := s.now }) := by
  rw [exec_controlCoreResume, execControlCoreResume, leading_self s c hl]
  exact if_neg (by rw [hh, hf]; decide)

/-- A strand y as a freeze leaves it of x: an open region is rolled back with FREEZE. -/
def FrozenFrom (x y : Strand) : Prop :=
  y.region = none ∧ y.step = x.step ∧ (x.region = none → y = x) ∧
    ∀ r, x.region = some r → y.g = r.snap.g ∧ y.rbcause = 8 ∧ y.pc = r.bundle

theorem rollback_frozen (s : State) (t : StrandId) : FrozenFrom (s.strand t) ((s.rollback t 8 (s.strand t).pc).strand t) := by
  cases hr : (s.strand t).region with
  | none =>
    rw [rollback_none s t 8 _ hr]
    exact ⟨hr, rfl, fun _ => rfl, fun r h => nomatch hr.symm.trans h⟩
  | some r =>
    rw [rollback_freeze s t _ r hr, rollbackCopy_other _ _ _ _ _ _ (mateStrand_ne _ t).symm, strand_setStrand_self]
    refine ⟨rfl, rfl, fun h => (nomatch hr.symm.trans h), fun q hq => ?_⟩
    obtain rfl : r = q := Option.some.inj (hr.symm.trans hq)
    exact ⟨rfl, rfl, rfl⟩

/-- The strands of a context are not the other copies of one another. -/
theorem strands_not_mates (s : State) (c : CtxId) {t u : StrandId} (ht : t ∈ c.strands) (hu : u ∈ c.strands) : u.key ≠ (s.mateStrand t).key := by
  obtain ⟨n, rfl⟩ := (mem_strands c t).1 ht
  obtain ⟨m, rfl⟩ := (mem_strands c u).1 hu
  exact fun h => mateOf_cluster_ne s c (congrArg StrandId.cluster (strand_key_inj _ _ h)).symm

theorem freezeCtx_strand (s : State) (c : CtxId) (t : StrandId) (ht : t ∈ c.strands) :
    FrozenFrom (s.strand t) ((s.freezeCtx c).strand t) :=
  strand_foldl_each (fun s t => s.rollback t 8 (s.strand t).pc) id (fun _ => FrozenFrom) c.strands (strands_nodup c) rollback_frozen
    (fun s _ ht _ hu hne => rollback_other s _ _ 8 _ (fun h => hne (strand_key_inj _ _ h)) (strands_not_mates s c ht hu)) s t ht

theorem ctx_congr (s : State) {c e : CtxId} (h : e.key = c.key) : s.ctx e = s.ctx c := by rw [State.ctx, h, State.ctx]

/-- A freeze lets the context suspend and touches no other. -/
theorem freezeCtx_ctx (s : State) (c e : CtxId) :
    (s.freezeCtx c).ctx e = if e.key = c.key then { s.ctx e with suspending := true, freezing := true } else s.ctx e := by
  have hctxs : (c.strands.foldl (fun s t => s.rollback t 8 (s.strand t).pc) s).ctxs = s.ctxs :=
    foldl_keeps (fun u : State => u.ctxs = s.ctxs) (fun s t => s.rollback t 8 (s.strand t).pc) (fun u t hu => (rollback_ctxs u t 8 _).trans hu)
      c.strands s rfl
  have hctx (k : CtxId) : (c.strands.foldl (fun s t => s.rollback t 8 (s.strand t).pc) s).ctx k = s.ctx k :=
    congrArg (fun x => (tget x k.key).getD Context.reset) hctxs
  unfold State.freezeCtx
  dsimp only
  rw [ctx_setCtx, hctx, hctx]
  split
  case isTrue h => rw [ctx_congr s h]
  case isFalse => rfl

/-! ## The firmware's resume (22 R356) -/

theorem resumeStrand_ctxs (s : State) (t : StrandId) : (s.resumeStrand t).ctxs = s.ctxs := by
  unfold State.resumeStrand
  dsimp only
  split
  · rw [storeTrap_ctxs, setStrand_ctxs]
  · rfl

/-- Each strand of a resumed context with a valid record has returned from its trap. -/
theorem resumeCtx_strand (s : State) (c : CtxId) (t : StrandId) (ht : t ∈ c.strands) (hv : (s.strand t).trap.valid = true) :
    ∃ a, (s.resumeCtx c false).strand t = resumedAt (s.strand t) a := by
  have h := strand_foldl_each State.resumeStrand id (fun _ x y => x.trap.valid = true → ∃ a, y = resumedAt x a) c.strands (strands_nodup c)
    (fun s t hv => ⟨_, resumeStrand_strand s t hv⟩) (fun s t _ u _ hu => resumeStrand_other s t u fun h => hu (strand_key_inj u t h)) s t ht
  exact h hv

theorem resumeCtx_ctx (s : State) (c : CtxId) : ((s.resumeCtx c false).ctx c).trapped = false := by
  unfold State.resumeCtx
  dsimp only
  rw [ctx_setCtx_self]

theorem regionMachineResume_resumes (s : State) (c : CtxId) (t : StrandId) (ht : t ∈ c.strands) (htr : (s.ctx c).trapped = true)
    (hp : (s.ctx c).parked = false) (hv : (s.strand t).trap.valid = true) (hcause : (s.strand t).trap.cause = 13)
    (hr : (s.strand t).trap.region.getLsbD 0 = true) :
    ∃ s', exec (.regionMachineResume c) s = .next s' ∧ (s'.ctx c).trapped = false ∧ (s'.ctx c).frozen = (s.ctx c).frozen ∧
      (s'.strand t).trap.valid = false ∧ (s'.strand t).attached = false ∧ (s'.strand t).g = (s.strand t).g := by
  have hhit : (c.strands.any fun t => (s.strand t).trap.valid && (s.strand t).trap.cause == 13 && (s.strand t).trap.region.getLsbD 0) = true :=
    List.any_eq_true.2 ⟨t, ht, by rw [hv, hcause, hr]; rfl⟩
  obtain ⟨a, hx⟩ := resumeCtx_strand s c t ht hv
  refine ⟨_, if_pos (by rw [htr, hhit, hp]; rfl), ?_, ?_, ?_⟩
  · rw [ctx_setCtx_self]
    exact resumeCtx_ctx s c
  · rw [ctx_setCtx_self]
  · rw [strand_setCtx, hx]
    obtain ⟨-, hattached, -, htrap, -, hg, -⟩ := resumedAt_parts (s.strand t) a
    exact ⟨congrArg TrapRec.valid htrap, hattached, hg⟩

end Sys2Proof.Proofs

namespace Sys2Proof.Proofs
open Sys2Proof Sys2Proof.Machine Sys2Proof.Laws

/-! # KATFAIL policies and restoration -/

/-! ## The log record of a KATFAIL (22 R360, R361) -/

/-- The last record after an entry has the kind, the unit and the address entered. -/
theorem enter_last_addr (l : ELog) (r : LogRec) :
    (l.enter r).recs.getLast?.map (fun x => (x.kind, x.unit, x.addr)) = some (r.kind, r.unit, r.addr) := by
  unfold ELog.enter
  split
  case h_1 x _ =>
    split
    case isTrue h =>
      simp only [LogRec.same, Bool.and_eq_true, beq_iff_eq] at h
      obtain ⟨⟨⟨⟨hkind, hunit⟩, -⟩, haddr⟩, -⟩ := h
      simp [hkind, hunit, haddr]
    case isFalse => split <;> simp
  case h_2 => rfl

theorem katLog_die (s : State) (t : StrandId) :
    (s.katLog t).die t.die = { s.die t.die with logs := ((s.katLog t).die t.die).logs } := by
  simp only [State.katLog, State.log, die_setDie_self]

theorem katLog_qmask (s : State) (t : StrandId) : ((s.katLog t).die t.die).qmask = (s.die t.die).qmask := by rw [katLog_die]

theorem katLog_last (s : State) (t : StrandId) :
    (((s.katLog t).die t.die).logs[0]).recs.getLast?.map (fun r => (r.kind, r.unit, r.addr)) =
      some (7, 4 * t.cluster.val + t.core.val, (s.strand t).trap.step.toNat) := by
  simp only [State.katLog, State.log, logCore, die_setDie_self, Fin.val_zero, Vector.getElem_set_self]
  exact enter_last_addr _ _

theorem katLog_keepsBinds (s : State) (t : StrandId) : KeepsBinds s (s.katLog t) := log_keepsBinds s _ _ _ _ _ _ _

theorem quarantine_keepsBinds (s : State) (t : StrandId) : KeepsBinds s (s.quarantine t) := setDie_keepsBinds s _ _ rfl

theorem quarantine_qmask (s : State) (t : StrandId) :
    ((s.quarantine t).die t.die).qmask = (s.die t.die).qmask ||| (1#32 <<< t.cluster.val) := by
  rw [State.quarantine, die_setDie_self]

/-! ## The policies of QCTL (22 R361) -/

/-- The control core notes how far it has answered a KATFAIL. -/
def noted (s : State) (t : StrandId) (n : Nat) : State := s.setStrand t { s.strand t with notice := n }

/-- A KATFAIL logged and, under a policy that marks the cluster, its cluster marked. -/
def katMarked (s : State) (t : StrandId) : State := (s.katLog t).quarantine t

theorem katMarked_qmask (s : State) (t : StrandId) :
    ((katMarked s t).die t.die).qmask = (s.die t.die).qmask ||| (1#32 <<< t.cluster.val) := by
  exact (quarantine_qmask (s.katLog t) t).trans (congrArg (· ||| (1#32 <<< t.cluster.val)) (katLog_qmask s t))

theorem katMarked_gangOf (s : State) (t : StrandId) : (katMarked s t).gangOf t = s.gangOf t := by
  exact congrArg (fun b : Bind => gangKey t.die b.gang) (((katLog_keepsBinds s t).trans (quarantine_keepsBinds _ t)).1 t.ctxId)

section
variable (s : State) (t : StrandId) (hv : (s.strand t).trap.valid = true) (hc : (s.strand t).trap.cause = 8)
include hv hc

theorem katfailed_of_record : (s.strand t).katfailed = true := by
  rw [Strand.katfailed, hv, hc]
  rfl

theorem katfail_policy (hn : (s.strand t).notice = 1) : let q := (s.die t.die).qctl
    (q = 0 → exec (.katfailPolicy t) s = .next (noted (s.katLog t) t 0)) ∧ (q = 2 → exec (.katfailPolicy t) s = .next (noted (katMarked s t) t 0)) ∧
    (q = 1 ∨ q = 3 → exec (.katfailPolicy t) s =
      .next ((noted (katMarked s t) t 2).freezeGang ((noted (katMarked s t) t 2).gangAt ((noted (katMarked s t) t 2).gangOf t)))) := by
  intro q
  have hkat := katfailed_of_record s t hv hc
  have hq : ((s.katLog t).die t.die).qctl = q := by rw [katLog_die]
  rw [exec_katfailPolicy, execKatfailPolicy]
  dsimp only
  rw [if_neg (by rw [hkat]; decide), if_pos hn, hq]
  refine ⟨fun h => ?_, fun h => ?_, fun h => ?_⟩
  · rw [h]
    rfl
  · rw [h]
    rfl
  · obtain h | h := h <;> rw [h] <;> rfl

theorem katfail_waits (hn : (s.strand t).notice = 2) (he : s.evictable (s.gangAt (s.gangOf t)) = false) : exec (.katfailPolicy t) s = .next s := by
  rw [exec_katfailPolicy, execKatfailPolicy]
  dsimp only
  rw [if_neg (by rw [katfailed_of_record s t hv hc]; decide), if_neg (by rw [hn]; decide), if_pos hn, if_neg (ne_true_of_eq_false he)]

theorem katfail_evicts (hn : (s.strand t).notice = 2) (he : s.evictable (s.gangAt (s.gangOf t)) = true) : exec (.katfailPolicy t) s =
    .next ((s.endKatfails (s.gangAt (s.gangOf t))).saveGang (s.gangOf t) (s.gangAt (s.gangOf t))) := by
  rw [exec_katfailPolicy, execKatfailPolicy]
  dsimp only
  rw [if_neg (by rw [katfailed_of_record s t hv hc]; decide), if_neg (by rw [hn]; decide), if_pos hn, if_pos he]

end

/-! ## A gang that freezes (12 R224, R225) -/

theorem setStrand_notice (s : State) (t u : StrandId) (x : Strand) (h : x.notice = (s.strand t).notice) :
    ((s.setStrand t x).strand u).notice = (s.strand u).notice := by
  rw [strand_setStrand]
  split
  case isTrue hk => rw [h, strand_key_inj u t hk]
  case isFalse => rfl

theorem rollbackCopy_notice (s : State) (t u : StrandId) (cause : Nat) (bundle next : W64) :
    ((s.rollbackCopy t cause bundle next).strand u).notice = (s.strand u).notice := by
  unfold State.rollbackCopy
  dsimp only
  split
  · exact setStrand_notice _ _ _ _ rfl
  · rfl

theorem rollback_notice (s : State) (t u : StrandId) (bundle : W64) : ((s.rollback t 8 bundle).strand u).notice = (s.strand u).notice := by
  cases hr : (s.strand t).region with
  | none => rw [rollback_none s t 8 bundle hr]
  | some r =>
    rw [rollback_freeze s t bundle r hr, rollbackCopy_notice]
    exact setStrand_notice _ _ _ _ rfl

theorem freezeCtx_notice (s : State) (c : CtxId) (u : StrandId) : ((s.freezeCtx c).strand u).notice = (s.strand u).notice :=
  foldl_keeps (fun v : State => (v.strand u).notice = (s.strand u).notice) (fun s t => s.rollback t 8 (s.strand t).pc)
    (fun v t hv => (rollback_notice v t u _).trans hv) c.strands s rfl

theorem freezeCtx_dies (s : State) (c : CtxId) : (s.freezeCtx c).dies = s.dies := (congrArg State.dies (freezeCtx_device s c) :)

theorem freezeCtx_trapped (s : State) (c e : CtxId) : ((s.freezeCtx c).ctx e).trapped = (s.ctx e).trapped := by
  rw [freezeCtx_ctx]
  split <;> rfl

/-- A context is frozen, or on its way to be. -/
def Stopping (s : State) (c : CtxId) : Prop := (s.ctx c).frozen = true ∨ (s.ctx c).freezing = true

theorem freezeCtx_stops (s : State) (c : CtxId) : Stopping (s.freezeCtx c) c :=
  .inr (congrArg Context.freezing ((freezeCtx_ctx s c c).trans (if_pos rfl)))

theorem freezeCtx_stopping (s : State) (c e : CtxId) (h : Stopping s e) : Stopping (s.freezeCtx c) e := by
  by_cases hk : e.key = c.key
  · exact .inr (congrArg Context.freezing ((freezeCtx_ctx s c e).trans (if_pos hk)))
  · have hctx := (freezeCtx_ctx s c e).trans (if_neg hk)
    exact h.imp (congrArg Context.frozen hctx).trans (congrArg Context.freezing hctx).trans

/-- One member of a gang that freezes. -/
def freezeMember (s : State) (c : CtxId) : State := if (s.ctx c).frozen || (s.ctx c).freezing then s else s.freezeCtx c

theorem freezeMember_eq (s : State) (c : CtxId) : freezeMember s c = s ∧ Stopping s c ∨ freezeMember s c = s.freezeCtx c := by
  by_cases h : ((s.ctx c).frozen || (s.ctx c).freezing) = true
  · exact .inl ⟨if_pos h, Bool.or_eq_true_iff.1 h⟩
  · exact .inr (if_neg h)

/-- What a freeze of a gang keeps. -/
theorem freezeGang_keeps (s : State) (g : Gang) (u : StrandId) (e : CtxId) : ((s.freezeGang g).strand u).notice = (s.strand u).notice ∧
    (s.freezeGang g).dies = s.dies ∧ ((s.freezeGang g).ctx e).trapped = (s.ctx e).trapped :=
  foldl_keeps (fun v : State => (v.strand u).notice = (s.strand u).notice ∧ v.dies = s.dies ∧ (v.ctx e).trapped = (s.ctx e).trapped) freezeMember
    (fun v c hv => by
      obtain ⟨h, -⟩ | h := freezeMember_eq v c <;> rw [h]
      · exact hv
      · rwa [freezeCtx_notice, freezeCtx_dies, freezeCtx_trapped])
    g.members s ⟨rfl, rfl, rfl⟩

/-- Every member stops. -/
theorem freezeMembers_stop (cs : List CtxId) (s : State) : ∀ c ∈ cs, Stopping (cs.foldl freezeMember s) c := by
  induction cs generalizing s with
  | nil => exact fun c hc => absurd hc List.not_mem_nil
  | cons e cs ih =>
    intro c hc
    rw [List.foldl_cons]
    obtain rfl | hc := List.mem_cons.1 hc
    · have hstop : Stopping (freezeMember s c) c := by
        obtain ⟨h, hs⟩ | h := freezeMember_eq s c <;> rw [h]
        · exact hs
        · exact freezeCtx_stops s c
      refine foldl_keeps (fun v : State => Stopping v c) freezeMember (fun v d hv => ?_) cs _ hstop
      obtain ⟨h, -⟩ | h := freezeMember_eq v d <;> rw [h]
      · exact hv
      · exact freezeCtx_stopping v d c hv
    · exact ih _ c hc

/-! ## A gang that is saved (12 R225) -/

theorem bindOf_setBind (s : State) (c e : CtxId) (b : Bind) : (s.setBind c b).bindOf e = b ∨ (s.setBind c b).bindOf e = s.bindOf e := by
  unfold State.bindOf State.setBind
  rw [die_setDie]
  split
  case isTrue hd =>
    rw [tget_tset, Fin.ext hd]
    split
    · exact .inl rfl
    · exact .inr rfl
  case isFalse => exact .inr rfl

/-- A record once invalid stays so as others become invalid. -/
theorem setBind_invalid (s : State) (c e : CtxId) (b : Bind) (hb : b.valid = false) (h : (s.bindOf e).valid = false) :
    ((s.setBind c b).bindOf e).valid = false := by
  obtain he | he := bindOf_setBind s c e b <;> rw [he]
  · exact hb
  · exact h

theorem release_keeps (s : State) (c e : CtxId) (h : (s.bindOf e).valid = false) : ((s.release c).bindOf e).valid = false := by
  unfold State.release
  dsimp only
  split
  · exact setBind_invalid _ _ _ _ rfl (setBind_invalid s c e _ rfl h)
  · exact setBind_invalid s c e _ rfl h

theorem release_invalid (s : State) (c : CtxId) : ((s.release c).bindOf c).valid = false := by
  have hself (b : Bind) (hb : b.valid = false) : ((s.setBind c b).bindOf c).valid = false := by rw [bindOf_setBind_self, hb]
  unfold State.release
  dsimp only
  split
  · exact setBind_invalid _ _ _ _ rfl (hself _ rfl)
  · exact hself _ rfl

theorem releases_invalid (cs : List CtxId) (s : State) : ∀ c ∈ cs, ((cs.foldl State.release s).bindOf c).valid = false := by
  induction cs generalizing s with
  | nil => exact fun c hc => absurd hc List.not_mem_nil
  | cons e cs ih =>
    intro c hc
    rw [List.foldl_cons]
    obtain rfl | hc := List.mem_cons.1 hc
    · exact foldl_keeps (fun v : State => (v.bindOf c).valid = false) State.release (fun v d hv => release_keeps v d c hv) cs _ (release_invalid s c)
    · exact ih _ c hc

theorem gangAt_setGang (s : State) (k : Nat) (g : Gang) : (s.setGang k g).gangAt k = g := by
  unfold State.gangAt State.setGang
  rw [tget_tset_self]
  rfl

/-- A saved gang keeps its members, whose records are released. -/
theorem saveGang_parts (s : State) (k : Nat) (g : Gang) : ((s.saveGang k g).gangAt k).saved ≠ none ∧ ((s.saveGang k g).gangAt k).members = g.members ∧
    ∀ c ∈ g.members, ((s.saveGang k g).bindOf c).valid = false := by
  unfold State.saveGang
  dsimp only
  rw [gangAt_setGang]
  exact ⟨nofun, rfl, releases_invalid g.members _⟩

end Sys2Proof.Proofs

namespace Sys2Proof.Proofs
open Sys2Proof Sys2Proof.Machine Sys2Proof.Laws

/-! # An evicted gang restored -/

/-! ## Registers read back from a save area (12 R226, R227) -/

theorem applySet_keeps (t : Strand) (n : Nat) (w : W64) : (t.applySet n w).pc = t.pc ∧ (t.applySet n w).inflight = t.inflight ∧
    (t.applySet n w).g = t.g ∧ (t.applySet n w).step = t.step := by
  unfold Strand.applySet
  split <;> exact ⟨rfl, rfl, rfl, rfl⟩

/-- What a strand is given back: its next bundle and the results in flight with it, its scalar registers and its step counter. -/
theorem reload_parts (t : Strand) (m : Memory) (ks : List Nat) (a : Nat) : let x := t.reload m ks a
    x.pc = t.pc ∧ x.inflight = reloadInflight t.inflight ks a t.step (memWord m (a + 0x240)) ∧
      x.g = loadRows 64 8 64 m a ∧ x.step = memWord m (a + 0x240) :=
  foldl_keeps (fun y : Strand => y.pc = t.pc ∧ y.inflight = reloadInflight t.inflight ks a t.step (memWord m (a + 0x240)) ∧
      y.g = loadRows 64 8 64 m a ∧ y.step = memWord m (a + 0x240)) (fun y n => y.applySet n (memWord m (a + 0x240 + 8 * n)))
    (fun y n ⟨hpc, hin, hg, hstep⟩ => by
      obtain ⟨kpc, kin, kg, kstep⟩ := applySet_keeps y n (memWord m (a + 0x240 + 8 * n))
      exact ⟨kpc.trans hpc, kin.trans hin, kg.trans hg, kstep.trans hstep⟩)
    _ _ ⟨rfl, rfl, rfl, rfl⟩

/-- A scalar register read back is the word of its place. -/
theorem loadRows_word (m : Memory) (a : Nat) (r : Fin 64) : (loadRows 64 8 64 m a)[r] = memWord m (a + 8 * r.val) :=
  Vector.getElem_ofFn r.isLt

theorem zip_range_map_snd {α : Type} (xs : List α) : ((List.range xs.length).zip xs).map (·.2) = xs := by
  exact List.map_snd_zip (by rw [List.length_range])

/-- With no sector poisoned a matrix result comes back with its own marks. -/
theorem reload_clean (d : Dat) (a : Nat) : d.reload [] a = d := by
  have hclean (pa n : Nat) : inSectors [] pa n = false := rfl
  cases d with
  | rows xs banks =>
    simp only [Dat.reload, hclean, Bool.or_false]
    rw [zip_range_map_snd]
  | accRows xs =>
    simp only [Dat.reload, hclean, Bool.or_false]
    rw [zip_range_map_snd]
  | _ => rfl

/-- With no sector poisoned the results in flight come back as they were, but for the steps at which they are due. -/
theorem reloadInflight_clean (xs : List Exposed) (a : Nat) (old new : W64) :
    (reloadInflight xs [] a old new).map (fun e => (e.tgt, e.dat, e.poison)) = xs.map fun e => (e.tgt, e.dat, e.poison) := by
  have hclean (pa n : Nat) : inSectors [] pa n = false := rfl
  simp only [reloadInflight, reload_clean, hclean, Bool.or_false, List.map_map]
  have hsnd := congrArg (List.map fun e : Exposed => (e.tgt, e.dat, e.poison)) (zip_range_map_snd xs)
  rw [List.map_map] at hsnd
  exact hsnd

/-! ## One context (12 R225) -/

/-- The strand and the core of a context restored from its image. -/
def restoreCore (c : CtxId) (im : Image) (b : Bind) (m : Memory) (ks : List Nat) (s : State) (n : Fin 4) : State :=
  let saved := im.cores.getD n.val Core.reset
  let a := strandArea b.save.toNat n.val
  let o := (s.core (c.coreId n)).reloadPart saved im.bind b m ks a
  (s.setStrand (c.strand n) ((im.strands.getD n.val Strand.reset).reload m ks a)).setCore (c.coreId n)
    (if b.matrix then o.reload saved m ks a else o)

theorem restoreCores_keep (c : CtxId) (im : Image) (b : Bind) (m : Memory) (ks : List Nat) (ns : List (Fin 4)) (s : State) :
    let s' := ns.foldl (restoreCore c im b m ks) s
    s'.ctxs = s.ctxs ∧ s'.dies = s.dies :=
  foldl_keeps (fun t : State => t.ctxs = s.ctxs ∧ t.dies = s.dies) (restoreCore c im b m ks) (fun _ _ h => h) ns s ⟨rfl, rfl⟩

theorem restoreCores_strand (c : CtxId) (im : Image) (b : Bind) (m : Memory) (ks : List Nat) (s : State) (n : Fin 4) :
    ((List.finRange 4).foldl (restoreCore c im b m ks) s).strand (c.strand n) =
      (im.strands.getD n.val Strand.reset).reload m ks (strandArea b.save.toNat n.val) :=
  strand_foldl_each (restoreCore c im b m ks) c.strand
    (fun n _ y => y = (im.strands.getD n.val Strand.reset).reload m ks (strandArea b.save.toNat n.val)) (List.finRange 4) (List.nodup_finRange 4)
    (fun s n => strand_setStrand_self s (c.strand n) _)
    (fun s i _ j _ hne => strand_setStrand_other s (c.strand i) (c.strand j) _ fun h => hne (congrArg StrandId.core (strand_key_inj _ _ h)))
    s n (List.mem_finRange n)

/-- A context without a trailing copy: bound at its new place, not frozen, its strands read back from their areas at device scope. -/
theorem restoreCtx_parts (s : State) (c : CtxId) (im : Image) (b : Bind) (hl : b.lock = false) : let s' := s.restoreCtx c im b
    s'.bindOf c = b ∧ (s'.ctx c).frozen = false ∧ ∀ n : Fin 4, s'.strand (c.strand n) =
      (im.strands.getD n.val Strand.reset).reload s.deviceImage s.poisonedSectors (strandArea b.save.toNat n.val) := by
  intro s'
  have hs' : ∃ x : Context, x.frozen = false ∧
      s' = ((List.finRange 4).foldl (restoreCore c im b s.deviceImage s.poisonedSectors) ((s.setBind c b).setCtx c x)).flushText c := by
    refine ⟨_, ?_, if_neg (ne_true_of_eq_false hl)⟩
    rfl
  obtain ⟨x, hx, hs'⟩ := hs'
  have hkeep := restoreCores_keep c im b s.deviceImage s.poisonedSectors (List.finRange 4) ((s.setBind c b).setCtx c x)
  have hstrand := restoreCores_strand c im b s.deviceImage s.poisonedSectors ((s.setBind c b).setCtx c x)
  dsimp only at hkeep
  generalize (List.finRange 4).foldl (restoreCore c im b s.deviceImage s.poisonedSectors) ((s.setBind c b).setCtx c x) = s2 at hs' hkeep hstrand
  obtain ⟨hctxs, hdies⟩ := hkeep
  have hrun := flushText_keepsRun s2 c
  have hbind : s2.bindOf c = ((s.setBind c b).setCtx c x).bindOf c := by unfold State.bindOf State.die; rw [hdies]
  have hctx : s2.ctx c = ((s.setBind c b).setCtx c x).ctx c := by rw [State.ctx, hctxs, State.ctx]
  rw [hs']
  refine ⟨?_, ?_, fun n => (hrun.strand _).trans (hstrand n)⟩
  · rw [hrun.2.2.1, hbind, bindOf_setCtx, bindOf_setBind_self]
  · rw [hrun.ctx, hctx, ctx_setCtx_self, hx]

/-! ## A gang of one (12 R225) -/

/-- The records of a gang on new slots: those of its leading copies, then those of their trailing copies. -/
def gangRecords (lead : List (CtxId × Bind)) : List (CtxId × Bind) :=
  lead ++ (lead.filter fun x => x.2.lock).map fun x => (partnerOf x.1, x.2)

theorem gangRecords_single (c : CtxId) (b : Bind) (hl : b.lock = false) : gangRecords [(c, b)] = [(c, b)] := by
  have hnone : ([(c, b)].filter fun x => x.2.lock) = [] := by rw [List.filter_singleton, hl]; rfl
  exact congrArg (fun l : List (CtxId × Bind) => [(c, b)] ++ l.map fun x => (partnerOf x.1, x.2)) hnone

/-- The restoration of a gang of one on a free slot that passes Dispatch's checks. -/
theorem restoration_single (s : State) (old e : DieId) (gang : BitVec 16) (p : Placement) (im : Image) :
    let c : CtxId := ⟨e, p.cluster, p.ctx⟩
    let b := { im.bind with pbase := p.pbase, valid := true }
    (s.gangAt (gangKey old gang)).saved = some [im] → s.halted = false → (s.bindOf c).valid = false → im.bind.lock = false →
    s.failingRecord [(c, { b with valid := false })] (s.gangAt (gangKey old gang)).size = none →
    (old = e ∨ tget s.gangs (gangKey e gang) = none) →
    ∃ (gs : Table Gang) (g' : Gang), exec (.restoration old gang e [p]) s =
      .next (({ s.restoreCtx c im b with gangs := gs } : State).setGang (gangKey e gang) g') ∧
      g'.members = [c] ∧ g'.saved = none ∧ g'.die = e := by
  intro c b hs hh hv hl hf ho
  have hother : ¬(gangKey old gang ≠ gangKey e gang ∧ (tget s.gangs (gangKey e gang)).isSome = true) := by
    rintro ⟨hne, hsome⟩
    obtain rfl | hnone := ho
    · exact hne rfl
    · rw [hnone] at hsome
      exact Bool.false_ne_true hsome
  have hpass : ¬([p].length ≠ [im].length ∨ s.halted = true ∨
      (!(gangRecords [(c, { b with valid := false })]).all fun x => !(s.bindOf x.1).valid) = true ∨
      (s.failingRecord (gangRecords [(c, { b with valid := false })]) (s.gangAt (gangKey old gang)).size).isSome = true ∨
      gangKey old gang ≠ gangKey e gang ∧ (tget s.gangs (gangKey e gang)).isSome = true) := by
    rw [gangRecords_single c { b with valid := false } hl, hf, List.all_cons, List.all_nil, hv, hh]
    simpa using hother
  rw [exec_restoration, execRestoration]
  dsimp only
  rw [hs]
  exact ⟨_, _, if_neg hpass, rfl, rfl, rfl⟩

/-- Settles O36: suspension, freezing and the firmware's resume strand by strand; KATFAIL by the policy; a gang of one restored. -/
theorem stopsOfContexts : Obligations.StopsOfContexts := by
  unfold Obligations.StopsOfContexts
  refine ⟨⟨fun s c hs hq => ⟨_, suspensionComplete_suspends s c hs hq, suspend_parts s c⟩,
      fun s c h => ⟨mateOf_leads s c h, freeze_mate s c h, controlCoreResume_mate s c h⟩,
      fun s c hl hv hf => ⟨_, freeze_freezes s c hl hv hf, ?_, ?_, freezeCtx_mem s c, freezeCtx_strand s c⟩,
      controlCoreResume_resumes, regionMachineResume_resumes⟩,
    fun s t hv hc hn => ?_, fun s t hv hc hn => ?_, fun s old e gang p im => ?_⟩
  · rw [freezeCtx_ctx, if_pos rfl]
  · rw [freezeCtx_ctx, if_pos rfl]
  · obtain ⟨hleave, hmark, hevict⟩ := katfail_policy s t hv hc hn
    refine ⟨fun hq => ⟨_, hleave hq, strand_setStrand_self _ _ _, ?_, katLog_last s t, rfl, rfl⟩,
      fun hq => ⟨_, hmark hq, strand_setStrand_self _ _ _, katMarked_qmask s t, rfl, rfl⟩, fun hq => ⟨_, hevict hq, ?_⟩⟩
    · exact katLog_qmask s t
    · obtain ⟨hnotice, hdies, htrapped⟩ := freezeGang_keeps (noted (katMarked s t) t 2)
        ((noted (katMarked s t) t 2).gangAt ((noted (katMarked s t) t 2).gangOf t)) t t.ctxId
      refine ⟨hnotice.trans ?_, ?_, freezeGang_mem _ _, htrapped, ?_⟩
      · exact congrArg Strand.notice (strand_setStrand_self _ _ _)
      · rw [State.die, hdies]
        exact katMarked_qmask s t
      · have hgang : (noted (katMarked s t) t 2).gangAt ((noted (katMarked s t) t 2).gangOf t) = s.gangAt (s.gangOf t) :=
          congrArg s.gangAt (katMarked_gangOf s t)
        rw [hgang]
        exact freezeMembers_stop _ _
  · exact ⟨katfail_waits s t hv hc hn, fun he => ⟨_, katfail_evicts s t hv hc hn he, saveGang_parts _ _ _⟩⟩
  · intro g c b hs hh hv hl hf ho
    obtain ⟨gs, g', hexec, hmembers, hsaved, hdie⟩ := restoration_single s old e gang p im hs hh hv hl hf ho
    obtain ⟨hbind, hfrozen, hstrand⟩ := restoreCtx_parts s c im b hl
    refine ⟨_, g', hexec, tget_tset_self _ _ _, hmembers, hsaved, hdie, hbind, hfrozen, restoreCtx_mem s c im b, fun n => ?_⟩
    intro x y a
    have hx : x = y.reload s.deviceImage s.poisonedSectors a := hstrand n
    obtain ⟨hpc, hin, hg, hstep⟩ := reload_parts y s.deviceImage s.poisonedSectors a
    rw [hx]
    refine ⟨hpc, fun hclean => ?_, fun r => ?_, hstep⟩
    · rw [hin, hclean]
      exact reloadInflight_clean _ _ _ _
    · rw [hg]
      exact loadRows_word _ _ r

end Sys2Proof.Proofs

namespace Sys2Proof.Proofs
open Sys2Proof Sys2Proof.Machine Sys2Proof.Laws

/-! # Where and when a write is performed -/

/-! ## The bytes of a write -/

/-- Each byte of memory from the address of a write on is the write's own where it has one (14 R243). -/
theorem memRead_memApply_offset (bs : List (Nat × Byte)) (m : Memory) (pa i : Nat) :
    memRead (memApply m pa bs) (pa + i) = (byteAt bs i).getD (memRead m (pa + i)) := by
  induction bs generalizing m with
  | nil => rfl
  | cons x r ih =>
    obtain ⟨j, b⟩ := x
    rw [memApply, ih, memRead_memWrite, byteAt]
    cases byteAt r i with
    | some y => rfl
    | none => by_cases hj : j = i <;> simp [hj, eq_comm (a := i)]

theorem memRead_memApply_below (bs : List (Nat × Byte)) (m : Memory) (pa a : Nat) (h : a < pa) :
    memRead (memApply m pa bs) a = memRead m a :=
  memRead_memApply bs m pa a fun _ _ => by omega

/-- The same for the table of a scratchpad's bytes. -/
theorem tget_foldl_tset_offset (bs : List (Nat × Byte)) (m : Table Byte) (off i : Nat) :
    tget (bs.foldl (fun m b => tset m (off + b.1) b.2) m) (off + i) = (byteAt bs i).or (tget m (off + i)) := by
  induction bs generalizing m with
  | nil => rfl
  | cons x r ih =>
    obtain ⟨j, b⟩ := x
    rw [List.foldl_cons, ih, tget_tset, byteAt]
    cases byteAt r i with
    | some y => rfl
    | none => by_cases hj : j = i <;> simp [hj, eq_comm (a := i)]

theorem spadRead_spadApply_offset (s : State) (o off i : Nat) (bs : List (Nat × Byte)) :
    (s.spadApply o off bs).spadRead o (off + i) = (byteAt bs i).getD (s.spadRead o (off + i)) := by
  unfold State.spadApply State.spadRead
  rw [core_setCore_self]
  simp only [Core.spadByte, tget_foldl_tset_offset]
  cases byteAt bs i <;> rfl

/-! ## Performing at a bank and at a home -/

theorem performAt_phys (s : State) (p : Place) (bs : List (Nat × Byte)) (n pa : Nat) (h : p.loc = .phys pa) :
    s.performAt p bs n = s.homeWrite pa bs n := by
  rw [State.performAt, h]

theorem performAt_spad (s : State) (p : Place) (bs : List (Nat × Byte)) (n o off : Nat) (h : p.loc = .spad o off) :
    s.performAt p bs n = (s.spadApply o off bs).cleanSpad o off (n == 8) := by
  rw [State.performAt, h]

/-! ## What the admission of a write leaves as it is (18 R314) -/

/-- The states differ in their dies alone, and there not in the tundishes. -/
def OnlyMeters (s t : State) : Prop := t = { s with dies := t.dies } ∧ ∀ d, (t.die d).tundish = (s.die d).tundish

theorem OnlyMeters.refl (s : State) : OnlyMeters s s := ⟨rfl, fun _ => rfl⟩

/-- What does not lie in the dies is as before. -/
theorem OnlyMeters.rest {β : Type} {s t : State} (h : OnlyMeters s t) (p : State → β) (hp : ∀ (u : State) ds, p { u with dies := ds } = p u) :
    p t = p s := by
  rw [h.1]
  exact hp s t.dies

theorem onlyMeters_setDie (s : State) (d : DieId) (x : Die) (ht : x.tundish = (s.die d).tundish) : OnlyMeters s (s.setDie d x) := by
  refine ⟨rfl, fun e => ?_⟩
  by_cases he : e = d
  · rw [he, die_setDie_self, ht]
  · rw [die_setDie_other s d e x he]

theorem charge_onlyMeters (s : State) (d : DieId) (cls meter limit amount bit who : Nat) :
    OnlyMeters s (s.charge d cls meter limit amount bit who).2 := by
  unfold State.charge
  dsimp only
  split
  · exact onlyMeters_setDie s d _ rfl
  · split
    · exact .refl s
    · split <;> exact onlyMeters_setDie s d _ rfl

theorem admitWrite_onlyMeters (s : State) (w : PWrite) : OnlyMeters s (s.admitWrite w).2 := by
  unfold State.admitWrite
  split
  · split
    · exact .refl s
    · unfold State.chargeMem
      split
      · exact .refl s
      · exact charge_onlyMeters _ _ _ _ _ _ _ _
  · exact .refl s

/-! ## Whether a counter is in use (17 R284) -/

/-- The states agree in the tundishes, the allowance messages and the strands, and the second has no write that the first has not. -/
def KeepsCounters (s t : State) : Prop :=
  (∀ d, (t.die d).tundish = (s.die d).tundish) ∧ t.amsgs = s.amsgs ∧ t.strands = s.strands ∧ t.writes ⊆ s.writes

theorem KeepsCounters.trans {s t u : State} (h : KeepsCounters s t) (k : KeepsCounters t u) : KeepsCounters s u := by
  obtain ⟨htundish, hamsgs, hstrands, hwrites⟩ := h
  obtain ⟨ktundish, kamsgs, kstrands, kwrites⟩ := k
  exact ⟨fun d => (ktundish d).trans (htundish d), kamsgs.trans hamsgs, kstrands.trans hstrands, List.Subset.trans kwrites hwrites⟩

theorem OnlyMeters.keepsCounters {s t : State} (h : OnlyMeters s t) : KeepsCounters s t :=
  ⟨h.2, h.rest State.amsgs fun _ _ => rfl, h.rest State.strands fun _ _ => rfl, (h.rest State.writes fun _ _ => rfl) ▸ List.Subset.refl _⟩

theorem homeWrite_tundish (s : State) (pa : Nat) (bs : List (Nat × Byte)) (n : Nat) (d : DieId) :
    ((s.homeWrite pa bs n).die d).tundish = (s.die d).tundish := by
  unfold State.homeWrite State.patchCopies State.mapCopies State.die
  dsimp only
  rw [die_field_map Die.tundish _ ?_, clearHbm_dies]
  exact fun _ => ⟨rfl, rfl⟩

theorem homeWrite_keepsCounters (s : State) (pa : Nat) (bs : List (Nat × Byte)) (n : Nat) : KeepsCounters s (s.homeWrite pa bs n) := by
  refine ⟨homeWrite_tundish s pa bs n, ?_, homeWrite_strands s pa bs n, homeWrite_writes s pa bs n ▸ List.Subset.refl _⟩
  unfold State.homeWrite State.clearHbm
  split <;> rfl

theorem performIn_tundish (s : State) (d e : DieId) (pa : Nat) (bs : List (Nat × Byte)) (clears : Nat) (x : L2Line) :
    ((s.performIn d pa bs clears x).die e).tundish = (s.die e).tundish := by
  unfold State.performIn State.setLine
  by_cases he : e = d
  · rw [he, die_setDie_self, die_setDie_self]
  · rw [die_setDie_other _ _ _ _ he, die_setDie_other _ _ _ _ he]

theorem performIn_keepsCounters (s : State) (d : DieId) (pa : Nat) (bs : List (Nat × Byte)) (clears : Nat) (x : L2Line) :
    KeepsCounters s (s.performIn d pa bs clears x) :=
  ⟨fun e => performIn_tundish s d e pa bs clears x, rfl, rfl, List.Subset.refl _⟩

theorem dropWrite_keepsCounters (s : State) (n : Nat) : KeepsCounters s (s.dropWrite n) :=
  ⟨fun _ => rfl, rfl, rfl, List.filter_subset_self _⟩

/-- A counter whose entry is loaded from its line has no holders and no requests: what its line holds does not matter to its use. -/
theorem tundish_requests (s : State) (ctr : Nat) : (s.tundish ctr).holders = ((tget (s.die (ctrHome ctr)).tundish ctr).map (·.holders)).getD [] ∧
    (s.tundish ctr).queue = ((tget (s.die (ctrHome ctr)).tundish ctr).map (·.queue)).getD [] := by
  unfold State.tundish
  split
  next hx => rw [hx]; exact ⟨rfl, rfl⟩
  next hx => rw [hx]; exact ⟨rfl, rfl⟩

theorem KeepsCounters.counterUsed {s t : State} (h : KeepsCounters s t) (ctr : Nat) : t.counterUsed ctr = s.counterUsed ctr := by
  obtain ⟨htundish, hamsgs, hstrands, -⟩ := h
  unfold State.counterUsed
  rw [(tundish_requests t ctr).1, (tundish_requests t ctr).2, (tundish_requests s ctr).1, (tundish_requests s ctr).2, htundish, hamsgs, hstrands]

theorem KeepsCounters.initialising {s t : State} (h : KeepsCounters s t) (ctr : Nat) (hs : s.initialising ctr = false) :
    t.initialising ctr = false := by
  obtain ⟨-, -, hstrands, hwrites⟩ := h
  unfold State.initialising at hs ⊢
  rw [List.any_eq_false] at hs ⊢
  rw [hstrands]
  intro x hx ht
  refine hs x hx ?_
  cases hinit : x.2.ainit with
  | none => rw [hinit] at ht; exact ht
  | some c =>
    rw [hinit] at ht
    dsimp only at ht ⊢
    rw [Bool.and_eq_true, List.any_eq_true] at ht ⊢
    obtain ⟨hc, y, hy, hmark⟩ := ht
    exact ⟨hc, y, hwrites hy, hmark⟩

/-- A store to a line of which no counter is in use changes no counter. -/
theorem counterStore_unused (s : State) (w : PWrite) (pa : Nat) (hl : w.at_.loc = .phys pa) (hu : s.counterUsed (pa / 64 * 64) = false)
    (hi : s.initialising (pa / 64 * 64) = false) : s.counterStore w = s := by
  rw [State.counterStore, hl]
  dsimp only
  rw [hu, hi]
  exact if_pos (.inr rfl)

/-! ## The event of a write that is not cacheable (14 R243) -/

section
variable {s : State} {n : Nat} {w : PWrite} (hw : writeAt s.writes n = some w)
include hw

theorem execWritePerformed_waits (ho : s.inOrder w = false) : execWritePerformed n s = .next s := by
  rw [execWritePerformed, hw]
  dsimp only
  rw [ho]
  exact ite_self _

theorem execSliceWritePerformed_waits (ho : s.inOrder w = false) : execSliceWritePerformed n s = .next s := by
  rw [execSliceWritePerformed, hw]
  dsimp only
  rw [ho]
  split
  · rfl
  · exact if_pos (Bool.or_true _)

section
variable (hc : w.at_.cacheable = false) (ho : s.inOrder w = true)
include hc ho

theorem execWritePerformed_spad {o off : Nat} (hl : w.at_.loc = .spad o off) :
    execWritePerformed n s = .next (((s.spadApply o off w.bytes).cleanSpad o off (s.clearsNow w 8 == 8)).dropWrite n) := by
  have hp : s.placeLost w.at_ = false := by rw [State.placeLost, hl]
  rw [execWritePerformed, hw]
  dsimp only
  rw [hc, ho, hp, hl]
  exact congrArg (fun t : State => Host.Outcome.next (t.dropWrite n)) (performAt_spad s w.at_ w.bytes _ o off hl)

variable {pa : Nat} (hp : s.placeLost w.at_ = false) (hl : w.at_.loc = .phys pa)
include hp hl

/-- In memory and in the host windows, by where the address lies and by what the host has accepted. -/
theorem execWritePerformed_phys : execWritePerformed n s =
    if s.hostGone pa then .next s
    else if hostBase ≤ pa ∧ !w.accepted then
      .next { s.performAt w.at_ w.bytes 0 with writes := s.writes.map fun x => if x.seq = n then { x with accepted := true } else x }
    else if hostBase ≤ pa then .next (s.dropWrite n)
    else
      .next (if (s.admitWrite w).1 then
        (((s.admitWrite w).2.performAt w.at_ w.bytes ((s.admitWrite w).2.clearsNow w 64)).dropWrite n).counterStore w
      else (s.admitWrite w).2) := by
  rw [execWritePerformed, hw]
  dsimp only
  rw [hc, ho, hp, hl]
  rfl

theorem execWritePerformed_hbm (hb : pa < hostBase) (ha : (s.admitWrite w).1 = true) : execWritePerformed n s =
    .next ((((s.admitWrite w).2.homeWrite pa w.bytes ((s.admitWrite w).2.clearsNow w 64)).dropWrite n).counterStore w) := by
  have hb' : ¬hostBase ≤ pa := Nat.not_le.2 hb
  have hg : s.hostGone pa = false := by rw [State.hostGone, decide_eq_false hb', Bool.false_and]
  rw [execWritePerformed_phys hw hc ho hp hl, hg, if_neg Bool.false_ne_true, if_neg fun h => hb' h.1, if_neg hb', if_pos ha,
    performAt_phys _ _ _ _ _ hl]

section
variable (hb : hostBase ≤ pa)
include hb

theorem execWritePerformed_host_gone (hd : s.dielost.getLsbD 0 = true) : execWritePerformed n s = .next s := by
  have hg : s.hostGone pa = true := by rw [State.hostGone, decide_eq_true hb, hd, Bool.and_self]
  rw [execWritePerformed_phys hw hc ho hp hl, if_pos hg]

variable (hd : s.dielost.getLsbD 0 = false)
include hd

theorem execWritePerformed_host_acknowledged (ha : w.accepted = true) : execWritePerformed n s = .next (s.dropWrite n) := by
  have hg : s.hostGone pa = false := by rw [State.hostGone, hd, Bool.and_false]
  rw [execWritePerformed_phys hw hc ho hp hl, hg, if_neg Bool.false_ne_true, if_neg (by simp [ha]), if_pos hb]

theorem execWritePerformed_host_accepted (ha : w.accepted = false) : execWritePerformed n s = .next { s.performAt w.at_ w.bytes 0 with
    writes := s.writes.map fun x => if x.seq = n then { x with accepted := true } else x } := by
  have hg : s.hostGone pa = false := by rw [State.hostGone, hd, Bool.and_false]
  rw [execWritePerformed_phys hw hc ho hp hl, hg, if_neg Bool.false_ne_true, if_pos ⟨hb, by rw [ha]; rfl⟩]

end
end

/-! ## The event of a cacheable write (20 R321, R330) -/

section
variable (hc : w.at_.cacheable = true) (ho : s.inOrder w = true) (hp : s.placeLost w.at_ = false) {pa : Nat} (hl : w.at_.loc = .phys pa)
include hc ho hp hl

theorem execSliceWritePerformed_owned {x y : L2Line} (hx : tget (s.die (clusterOfKey w.cluster).die).l2 (lineOf pa) = some x)
    (hm : s.takeM (clusterOfKey w.cluster).die (lineOf pa) = some y) (hv : s.leasesOver (clusterOfKey w.cluster).die y = true)
    (ha : (s.admitWrite w).1 = true) : execSliceWritePerformed n s =
      .next ((((s.admitWrite w).2.performIn (clusterOfKey w.cluster).die pa w.bytes ((s.admitWrite w).2.clearsNow w 32) y).dropWrite n).counterStore
        w) := by
  rw [execSliceWritePerformed, hw]
  dsimp only
  rw [hl, hc, ho, hp]
  simp [hm, hv, makeRoom_present hx, ha]

theorem execSliceWritePerformed_leased {y : L2Line} (hm : s.takeM (clusterOfKey w.cluster).die (lineOf pa) = some y)
    (hv : s.leasesOver (clusterOfKey w.cluster).die y = false) : execSliceWritePerformed n s = .next s := by
  rw [execSliceWritePerformed, hw]
  dsimp only
  rw [hl, hc, ho, hp]
  simp [hm, hv]

theorem execSliceWritePerformed_absent (hm : s.takeM (clusterOfKey w.cluster).die (lineOf pa) = none)
    (hx : tget (s.die (clusterOfKey w.cluster).die).l2 (lineOf pa) = none) :
    execSliceWritePerformed n s = .next (s.request (clusterOfKey w.cluster).die (lineOf pa) .own) := by
  rw [execSliceWritePerformed, hw]
  dsimp only
  rw [hl, hc, ho, hp]
  simp [hm, hx]

end
end

/-! ## Lines that a slice holds or asks for (20 R330) -/

theorem takeM_owned (s : State) (d : DieId) (line : Nat) (x : L2Line) (hx : tget (s.die d).l2 line = some x) (hst : x.st = .M ∨ x.st = .E) :
    s.takeM d line = some { x with st := .M } := by
  rw [State.takeM, hx]
  exact if_pos hst

/-- The bytes of a line have one home. -/
theorem homeDie_line (pa : Nat) : homeDie (lineOf pa * 128) = homeDie pa := by
  have hdiv : pa / 128 * 128 / 0x003000000000 = pa / 0x003000000000 := by omega
  rw [homeDie, homeDie, lineOf, hdiv]

theorem takeM_foreign (s : State) (d : DieId) (pa : Nat) (hd : homeDie pa ≠ d) (hx : tget (s.die d).l2 (lineOf pa) = none) :
    s.takeM d (lineOf pa) = none := by
  have hfree : s.homeFree d (lineOf pa) = false := by simp [State.homeFree, homeDie_line, hd]
  rw [State.takeM, hx]
  dsimp only
  rw [hfree]
  rfl

theorem performIn_line (s : State) (d : DieId) (pa : Nat) (bs : List (Nat × Byte)) (clears : Nat) (x : L2Line) :
    let s' := s.performIn d pa bs clears x
    ∃ y, tget (s'.die d).l2 (lineOf pa) = some y ∧ y.st = .M ∧ tget (s'.die d).written (lineOf pa) = some s.now ∧
      y.data = lineApply x.data (pa % 128) bs := by
  dsimp only [State.performIn, State.setLine]
  rw [die_setDie_self, die_setDie_self]
  exact ⟨_, tget_tset_self _ _ _, rfl, tget_tset_self _ _ _, rfl⟩

/-! ## The writes performed -/

/-- At its home: the bytes of the write are in memory, no other byte and no strand or core has changed. -/
theorem writePerformed_hbm (s : State) (n pa : Nat) (w : PWrite) (hw : writeAt s.writes n = some w) (hc : w.at_.cacheable = false)
    (ho : s.inOrder w = true) (hp : s.placeLost w.at_ = false) (hl : w.at_.loc = .phys pa) (hb : pa < hostBase)
    (ha : (s.admitWrite w).1 = true) (hu : s.counterUsed (pa / 64 * 64) = false) (hi : s.initialising (pa / 64 * 64) = false) :
    ∃ s', execWritePerformed n s = .next s' ∧ s'.writes = s.writes.filter (fun x => x.seq != n) ∧ s'.mem = memApply s.mem pa w.bytes ∧
      s'.strands = s.strands ∧ s'.cores = s.cores := by
  have hm := admitWrite_onlyMeters s w
  rw [execWritePerformed_hbm hw hc ho hp hl hb ha]
  generalize (s.admitWrite w).2 = s1 at hm
  have hk := (hm.keepsCounters.trans (homeWrite_keepsCounters s1 pa w.bytes (s1.clearsNow w 64))).trans (dropWrite_keepsCounters _ n)
  rw [counterStore_unused _ w pa hl ((hk.counterUsed _).trans hu) (hk.initialising _ hi)]
  refine ⟨_, rfl, ?_, ?_, ?_, ?_⟩
  · rw [State.dropWrite, homeWrite_writes, hm.rest State.writes fun _ _ => rfl]
  · rw [dropWrite_mem, homeWrite_mem, hm.rest State.mem fun _ _ => rfl]
  · exact (homeWrite_strands _ _ _ _).trans (hm.rest State.strands fun _ _ => rfl)
  · exact (homeWrite_cores _ _ _ _).trans (hm.rest State.cores fun _ _ => rfl)

/-- In a slice: the line is in M with the bytes of the write in it, and write-hot. -/
theorem sliceWritePerformed_owned (s : State) (n pa : Nat) (w : PWrite) (x : L2Line) (hw : writeAt s.writes n = some w)
    (hc : w.at_.cacheable = true) (ho : s.inOrder w = true) (hp : s.placeLost w.at_ = false) (hl : w.at_.loc = .phys pa)
    (hx : tget (s.die (clusterOfKey w.cluster).die).l2 (lineOf pa) = some x) (hst : x.st = .M ∨ x.st = .E)
    (hv : s.leasesOver (clusterOfKey w.cluster).die x = true) (hu : s.counterUsed (pa / 64 * 64) = false)
    (hi : s.initialising (pa / 64 * 64) = false) (ha : (s.admitWrite w).1 = true) : let d := (clusterOfKey w.cluster).die
    ∃ s' y, execSliceWritePerformed n s = .next s' ∧ s'.writes = s.writes.filter (fun x => x.seq != n) ∧
      tget (s'.die d).l2 (lineOf pa) = some y ∧ y.st = .M ∧ tget (s'.die d).written (lineOf pa) = some s.now ∧
      y.data = lineApply x.data (pa % 128) w.bytes ∧ s'.mem = s.mem := by
  intro d
  have hm := admitWrite_onlyMeters s w
  rw [execSliceWritePerformed_owned hw hc ho hp hl hx (takeM_owned s d _ x hx hst) hv ha]
  generalize (s.admitWrite w).2 = s1 at hm
  have hk := (hm.keepsCounters.trans (performIn_keepsCounters s1 d pa w.bytes (s1.clearsNow w 32) { x with st := .M })).trans
    (dropWrite_keepsCounters _ n)
  obtain ⟨y, hline, hy, hhot, hdata⟩ := performIn_line s1 d pa w.bytes (s1.clearsNow w 32) { x with st := .M }
  rw [counterStore_unused _ w pa hl ((hk.counterUsed _).trans hu) (hk.initialising _ hi)]
  refine ⟨_, y, rfl, ?_, hline, hy, hhot.trans ?_, hdata, hm.rest State.mem fun _ _ => rfl⟩
  · exact congrArg (List.filter fun x => x.seq != n) (hm.rest State.writes fun _ _ => rfl)
  · exact congrArg some (hm.rest State.now fun _ _ => rfl)

/-- Through the cluster window: the bytes of the write are in the scratchpad. -/
theorem writePerformed_spad (s : State) (n o off : Nat) (w : PWrite) (hw : writeAt s.writes n = some w) (hc : w.at_.cacheable = false)
    (ho : s.inOrder w = true) (hl : w.at_.loc = .spad o off) : ∃ s', execWritePerformed n s = .next s' ∧
      s'.writes = s.writes.filter (fun x => x.seq != n) ∧ (∀ i, s'.spadRead o (off + i) = (byteAt w.bytes i).getD (s.spadRead o (off + i))) ∧
      s'.mem = s.mem := by
  refine ⟨_, execWritePerformed_spad hw hc ho hl, ?_, fun i => ?_, ?_⟩
  · rw [State.dropWrite, cleanSpad_writes]
    rfl
  · exact (spadRead_cleanSpad _ _ _ _ _ _).trans (spadRead_spadApply_offset s o off i w.bytes)
  · rw [dropWrite_mem, cleanSpad_mem, spadApply_mem]

/-- Settles O38: a write out of its order, then by its place: at its home, in a host window, in a scratchpad; a cacheable one by what its
slice holds of the line. -/
theorem writesPerformed : Obligations.WritesPerformed := by
  unfold Obligations.WritesPerformed
  refine ⟨fun s n w hw ho => ?_, fun s n pa w hw hc ho hp hl hb _ ha hu hi => ?_, fun s n pa w hw hc ho hp hl hb => ?_,
    fun s n o off w hw hc ho hl _ => writePerformed_spad s n o off w hw hc ho hl, fun s n pa w hw hc ho hp hl => ?_⟩
  · exact ⟨execWritePerformed_waits hw ho, execSliceWritePerformed_waits hw ho⟩
  · obtain ⟨s', hexec, hwrites, hmem, hstrands, hcores⟩ := writePerformed_hbm s n pa w hw hc ho hp hl hb ha hu hi
    refine ⟨s', hexec, hwrites, fun i => ?_, fun a hlt => ?_, hstrands, hcores⟩
    · rw [hmem, memRead_memApply_offset]
    · rw [hmem, memRead_memApply_below _ _ _ _ hlt]
  · refine ⟨execWritePerformed_host_gone hw hc ho hp hl hb, execWritePerformed_host_acknowledged hw hc ho hp hl hb, fun hd ha => ⟨?_, ?_⟩⟩
    · rw [performAt_phys _ _ _ _ _ hl, homeWrite_mem]
    · exact execWritePerformed_host_accepted hw hc ho hp hl hb hd ha
  · refine ⟨fun x hx hst hv hu hi ha => ?_, fun x hx hst hv => ?_, fun hd hx => ?_⟩
    · exact sliceWritePerformed_owned s n pa w x hw hc ho hp hl hx hst hv hu hi ha
    · exact execSliceWritePerformed_leased hw hc ho hp hl (takeM_owned s _ _ x hx hst) hv
    · exact execSliceWritePerformed_absent hw hc ho hp hl (takeM_foreign s _ pa hd hx) hx

end Sys2Proof.Proofs
